-- ==== Sys2Proof/Word.lean ====
section
/-! DEFINITION. The plainest types of the IZ9 model: bytes, byte strings, sparse maps, GTC counts. -/

namespace Sys2Proof

/-- A byte. -/
abbrev Byte := BitVec 8

/-- A byte string, in the order in which it stands in memory or on a wire. -/
abbrev Bytes := List Byte

/-- A GTC count (00, R4). The counter is 64 bits wide and does not wrap in service, so counts are compared as numbers. -/
abbrev Gtc := Nat

/-- Sparse data by key in ONE canonical form: keys strictly rising, no entry equal to the default. -/
abbrev SMap (α : Type) := List (Nat × α)

/-- A Fold number, F0 to F15 (01, R21). -/
abbrev FoldId := Fin 16

/-- A quadrant, Q0 to Q3 (01, R14). -/
abbrev QuadId := Fin 4

/-- An HBM stack, 0 to 7; stacks 2q and 2q + 1 belong to quadrant q (01, R14). -/
abbrev StackId := Fin 8

/-- A Stile link, 0 to 15; links 4q to 4q + 3 belong to quadrant q (11). -/
abbrev LinkId := Fin 16

/-- An Ethernet port of the configured layout, 0 to 15 (10, Table 10.1). -/
abbrev PortId := Fin 16

/-- A PCIe function: 0 is the physical function, v = 1 to 16 the virtual function of Fold v - 1 (10, R279). -/
abbrev FnId := Fin 17

/-- A dictionary access path: 0 PCIe mailbox, 1 EtherCAT CoE, 2 CANopen FD, 3 management port (13, Table 13.3). -/
abbrev PathId := Fin 4

end Sys2Proof
end

