-- ==== Sys2Proof/Syntax.lean ====
section
/-! DEFINITION. The commands of spec/opcode_table.json, one constructor per row, and the types of their operands.
The first operand `t` of every command is the GTC count on which the step falls (DESIGN CHOICE, log entry 2). What the outside world
supplies with a step (bytes read from host memory, words received from other cards, sensor readings) is an operand. -/

namespace Sys2Proof

/-- Operating points (01, Table 1.2). -/
inductive OpPoint | opA | opB | opC
  deriving DecidableEq, Repr

/-- Fold states in the order of Table 9.1: 0 EMPTY to 6 FAULTED. -/
inductive FoldState | empty | loaded | armed | running | draining | stopped | faulted
  deriving DecidableEq, Repr

/-- Rails of Table 14.4, numbered as the SUPPLY_TRIP detail (Table 14.8). -/
inductive Rail | core | hbmVdd | hbmVddq
  deriving DecidableEq, Repr

/-- Supplies of the Shepherd in order of preference (15, R418). -/
inductive Supply | main | poe | aux
  deriving DecidableEq, Repr

/-- Header of a submission entry (18, Table 18.3): submitting function, command ID, Fold. `rsvd` is the value of every
bit the entry's layout reserves, the bits [7:4] of the Fold byte among them (R10, R11). -/
structure QHdr where
  fn : FnId
  cid : Nat
  fold : FoldId
  rsvd : Nat
  deriving DecidableEq, Repr

/-- A COSE_Sign1 object of a signed write (13, Table 13.2). `signedBy` is the public key whose private half made the
signature: the signature verifies under a key exactly when they are equal (DESIGN CHOICE, log entry 7). -/
structure Signed where
  index : Nat
  sub : Nat
  scope : Bytes
  seq : Nat
  role : Nat
  alg : Int
  size : Nat
  unprotectedEmpty : Bool
  payload : Bytes
  signedBy : Bytes
  deriving DecidableEq, Repr

/-- What a dictionary write carries: a plain value, or a signed object (13, Signed writes). -/
inductive WData
  | plain (v : Bytes)
  | signed (o : Signed)
  deriving DecidableEq, Repr

/-- Who accesses the dictionary: the path, the function on path 0, the source address on path 3 (13, Table 13.3). -/
structure Access where
  path : PathId
  fn : FnId
  source : Bytes
  deriving DecidableEq, Repr

/-- A dictionary write to the entry its command names; `rsvd` holds the reserved bytes 1 to 3 and 7 of a mailbox request, 0 on another path
(18, Table 18.7). -/
structure WReq where
  acc : Access
  data : WData
  rsvd : Nat
  deriving DecidableEq, Repr

/-- How a signed Fold command arrives: as a dictionary write, or as a queue 0 command (18, R484). -/
inductive CtlSrc
  | dict (f : FoldId) (r : WReq)
  | queue (q : QHdr) (o : Signed)
  deriving DecidableEq, Repr

/-- One extent of a list: address, length, and its four reserved bytes (18). -/
structure Extent where
  addr : Nat
  len : Nat
  rsvd : Nat
  deriving DecidableEq, Repr

/-- Where LOAD_BUNDLE and RESTAGE_MODEL read from (18, Table 18.4). -/
structure LoadSource where
  source : Nat
  entry : Nat
  listAddr : Nat
  extents : List Extent
  total : Nat
  deriving DecidableEq, Repr

/-- Bundle header (19, Table 19.1). `rsvd` is the value of every reserved bit. -/
structure BundleHdr where
  magicOk : Bool
  version : Nat
  growing : Bool
  realtime : Bool
  op : Nat
  period : Nat
  total : Nat
  modelMeasurement : Bytes
  bundleDigest : Bytes
  rsvd : Nat
  deriving DecidableEq, Repr

/-- Section-table entry (19, Layout). -/
structure SecEntry where
  typ : Nat
  offset : Nat
  length : Nat
  rsvd : Nat
  deriving DecidableEq, Repr

/-- Signature of a bundle or of a re-stage image (19, Digests and signature): role, signing key, payload. -/
structure BundleSig where
  alg : Int
  role : Nat
  signedBy : Bytes
  payload : Bytes
  deriving DecidableEq, Repr

/-- Model image header with its three regions (19, ModelImage; the places of its fields are not in the spec, DESIGN CHOICE, log entry 12). -/
structure ImageHdr where
  magicOk : Bool
  version : Nat
  stages : Nat
  groups : Nat
  cutOff : Nat
  cutLen : Nat
  dirOff : Nat
  dirLen : Nat
  grpOff : Nat
  grpLen : Nat
  deriving DecidableEq, Repr

/-- Stream descriptor (19, The tile operation set): 40 bytes. -/
structure StreamDesc where
  source : Nat
  dest : Nat
  length : Nat
  credits : Nat
  kind : Nat
  unit : Nat
  firstFill : Nat
  lastDrain : Nat
  mask : BitVec 64
  deriving DecidableEq, Repr

/-- Program of one Fold-relative tile under one mapping: the bytes of its bank image, of its context entry table and of its stream descriptors
(19; which mapping and tile they belong to stands decoded: the section's directory is not in the spec, DESIGN CHOICE, log entry 12). -/
structure TileProg where
  mapping : Nat
  tile : Nat
  image : Bytes
  table : Bytes
  streams : Bytes
  deriving DecidableEq, Repr

/-- A bundle as read (19): header, section table, the bytes of each section, the decoded parts named above. -/
structure Bundle where
  hdr : BundleHdr
  table : List SecEntry
  source : Bytes
  result : Bytes
  image : Bytes
  imageHdr : ImageHdr
  resources : Bytes
  slotPlan : Bytes
  mappings : Bytes
  segments : Bytes
  programs : Bytes
  progs : List TileProg
  sig : BundleSig
  deriving DecidableEq, Repr

/-- A model image for re-stage (19): section digests, the image, the signature. -/
structure RestageImage where
  magicOk : Bool
  graphDigest : Bytes
  resultDigest : Bytes
  image : Bytes
  sig : BundleSig
  deriving DecidableEq, Repr

/-- A split record (07, Table 7.5). G and H are 48-bit sums read as integers. -/
structure SplitRec where
  heap : Nat
  feature : Nat
  code : Nat
  d : Bool
  valid : Bool
  gain : Int
  gT : Int
  hT : Int
  gF : Int
  hF : Int
  deriving DecidableEq, Repr

/-- One completed tree of the ensemble section: its output, its split records and its 2^d leaf values (12, Table 12.2). -/
structure GrownTree where
  output : Nat
  recs : List SplitRec
  leaves : List Int
  deriving DecidableEq, Repr

/-- One tensor pair of the scale history (12, Table 12.2, section 3; 04, R101): exact maxima and scale words of one output in one round,
the pass form, and which of SCALE_MISS and, by tensor, SCALE_COARSE the round raised. -/
structure ScaleRec where
  round : Nat
  output : Nat
  maxG : Nat
  maxH : Nat
  stepG : Nat
  stepH : Nat
  twoPass : Bool
  miss : Bool
  coarseG : Bool
  coarseH : Bool
  deriving DecidableEq, Repr

/-- The manifest of one shard of a generation as read (12, Table 12.4): the rank whose area it stands in, its 4,096 bytes, whether its tag
verifies, and which of sections 1 to 5 hold all their blocks and their tag table with every tag verifying. -/
structure ShardHead where
  rank : Nat
  manifest : Bytes
  tagOk : Bool
  complete : List Bool
  deriving DecidableEq, Repr

/-- What a restore reads (12, Restore and reshape): the slot of the area, the manifests of every rank, and the contents of this rank's
sections, whose inner layout is not in the spec (Table 12.2; DESIGN CHOICE, log entry 12). -/
structure Shard where
  slot : Nat
  heads : List ShardHead
  trees : List GrownTree
  partialTree : List SplitRec
  scales : List ScaleRec
  nodeBank : Nat
  marginBank : Nat
  /-- Pre-phase cut tables: feature, source type, table scale, thresholds as their bytes read with GT marks -/
  cuts : List (Nat × Nat × Nat × List (Nat × Bool))
  /-- Section 4: row and node id -/
  nodes : List (Nat × Nat)
  /-- Section 5: row, class, bank, margin -/
  margins : List (Nat × Nat × Nat × BitVec 48)
  deriving DecidableEq, Repr

/-- How a PCIe read of a record buffer ends (18, R490). -/
inductive ReadResult
  | data (b : Bytes)
  | poisoned
  | unsupported
  | completerAbort
  deriving DecidableEq, Repr

/-- Which read reached the 50 ms completion timeout (18, Table 18.8). -/
inductive TimeoutOf
  | record (f : FoldId) (cid : Nat)
  | ring (fn : FnId) (qn : Fin 2)
  | extent (f : FoldId)
  | object (q : QHdr)
  | rows (q : QHdr)
  deriving DecidableEq, Repr

/-- Replay frame header (03, Table 3.3). -/
structure ReplayHdr where
  origFrame : Nat
  origStamp : Nat
  recordCount : Nat
  lateSet : BitVec 64
  expectedRoot : Bytes
  rsvd : Nat
  deriving DecidableEq, Repr

/-- A write of one field of a queue block (18, Table 18.2). -/
inductive QField
  | sqBase (v : Nat)
  | cqBase (v : Nat)
  | sqLog (v : Nat)
  | cqLog (v : Nat)
  | vector (v : Nat)
  | enable (b : Bool)
  deriving DecidableEq, Repr

/-- A firmware set (15, Secure boot): manifest and three images, the manifest's key, signer, listed digests and SVN. -/
structure FwSet where
  manifest : Bytes
  shepherd : Bytes
  root : Bytes
  quadrant : Bytes
  pubKey : Bytes
  signedBy : Bytes
  digests : List Bytes
  svn : Nat
  deriving DecidableEq, Repr

/-- Analogue readings the Shepherd copies at a snapshot (13, Table 13.10). -/
structure Readings where
  boardPower : Nat
  coreRail : Nat
  hbmRail : Nat
  hottest : Int
  quadJunction : List Int
  stackTemp : List Int
  shepherdPower : Nat
  deriving DecidableEq, Repr

/-- One link's training outcome: whether lanes trained, and the cable EEPROM's bytes, if readable (15; 17, Table 17.2). -/
structure LinkTraining where
  link : LinkId
  trained : Bool
  cable : Option Bytes
  deriving DecidableEq, Repr

/-- A tile's self-test report (15, R430). -/
structure TileReport where
  tile : Nat
  finish : Nat
  digest : Bytes
  deriving DecidableEq, Repr

/-- AES-256-GCM ciphertext with its tag: it opens under a key, nonce and additional data exactly when they are those it
was sealed under (DESIGN CHOICE, log entry 7). -/
structure GcmBox where
  key : Bytes
  nonce : Bytes
  aad : Bytes
  plain : Bytes
  deriving DecidableEq, Repr

/-- IZR header fields (10, Table 10.2). `rsvd` is the value of the reserved bits. -/
structure IzrHdr where
  magic : Nat
  version : Nat
  typ : Nat
  epoch : Bool
  fold : Nat
  channel : Nat
  count : Nat
  seq : Nat
  length : Nat
  rsvd : Nat
  deriving DecidableEq, Repr

/-- One IZR message as received (10): the port, the datagram that carries it and the message's index in the datagram. -/
structure IzrRx where
  port : PortId
  fcsOk : Bool
  fragment : Bool
  wellFormed : Bool
  udpPort : Nat
  source : Bytes
  msgIndex : Nat
  room : Nat
  hdr : IzrHdr
  box : GcmBox
  deriving DecidableEq, Repr

/-- How a pre-emption notice arrives (12, The notice): a signed dictionary write, the queue 0 command, or an IZR NOTICE
message whose payload holds the signed object. -/
inductive NoticeSrc
  | dict (r : WReq)
  | queue (q : QHdr) (o : Signed)
  | izr (rx : IzrRx) (o : Signed)
  deriving DecidableEq, Repr

/-- An HPKE KEY_OFFER (09, R237): who it is sealed to and by, the mode, the info string, and the secrets its export yields. -/
structure HpkeOffer where
  authMode : Bool
  suiteOk : Bool
  enc : Bytes
  recipient : Bytes
  sender : Bytes
  info : Bytes
  ingress : Bytes
  egress : Bytes
  salt : Bytes
  deriving DecidableEq, Repr

/-- The HPKE base-mode seal of a KEK (12, R340). -/
structure KekSeal where
  recipient : Bytes
  info : Bytes
  kek : Bytes
  deriving DecidableEq, Repr

/-- The kind of a received pause (10, R258). -/
inductive PauseKind | clause31 | pfc
  deriving DecidableEq, Repr

/-- Field-network management commands (13, R376): CANopen NMT, LSS, EtherCAT AL state. -/
inductive NmtCmd
  | start
  | stop
  | preOperational
  | resetNode
  | resetComm
  | lssNodeId (n : Nat)
  | alState (st : Nat)
  deriving DecidableEq, Repr

/-- A service word of a Stile frame (11, Table 11.3). -/
structure SvcWord where
  typ : Nat
  hops : Nat
  origin : Nat
  seq : Nat
  body : Bytes
  deriving DecidableEq, Repr

/-- Envelope of a relayed word as received: link, hops left, origin card, sequence (11, R295). -/
structure RelayHdr where
  link : LinkId
  hops : Nat
  origin : Nat
  seq : Nat
  deriving DecidableEq, Repr

/-- An arm word: the ARM_A and ARM_B pair (11, Table 11.3). -/
structure ArmWord where
  fold : FoldId
  run : Bool
  abort : Bool
  launchAt : Nat
  digest : Bytes
  armASeq : Nat
  bNamesSeq : Nat
  bSeq : Nat
  deriving DecidableEq, Repr

/-- A MEMBER word's body (11, Table 11.3). -/
structure MemberBody where
  epoch : Nat
  e : Nat
  set : BitVec 32
  unitCard : Nat
  unitNo : Nat
  deriving DecidableEq, Repr

/-- HELLO body (11, Table 11.3). -/
structure Hello where
  card : Nat
  link : Nat
  topology : Nat
  serial : Nat
  owner8 : Bytes
  deriving DecidableEq, Repr

/-- Outcome of mutual SPDM attestation on a link (11, R306). -/
structure PeerAtt where
  chainOk : Bool
  owner : Bytes
  spdmError : Nat
  key : Bytes
  salt : Bytes
  peerGtc : Option Nat
  deriving DecidableEq, Repr

/-- A received Stile frame (11, Table 11.1) with the symbol errors that its decoder found in each of its eight codewords (11, R287). -/
structure StileRx where
  errors : List Nat
  version : Nat
  owner : Nat
  payloadValid : Bool
  keySlot : Bool
  rsvd : Nat
  sender : Nat
  slot : Nat
  tag : Nat
  box : GcmBox
  words : List SvcWord
  deriving DecidableEq, Repr

/-- A Scoring peer frame (11, Scoring peers). -/
structure PeerFrame where
  openTick : Nat
  fold : FoldId
  withheld : Bool
  deriving DecidableEq, Repr

/-- What a card sends at a step of the exchange of a gradient barrier (04, R98; 07, R168): per output the exact maxima and totals, and
SCALE_MISS with its block. -/
structure GradReport where
  card : Nat
  maxG : List Nat
  maxH : List Nat
  totG : List Nat
  totH : List Nat
  miss : Bool
  missBlock : Nat
  deriving DecidableEq, Repr

/-- Split records and completed checkpoint generations, by card, that a card sends at a step of an exchange (07, R179; 12, R343). -/
structure SplitReport where
  card : Nat
  recs : List SplitRec
  generations : List (Nat × Nat)
  deriving DecidableEq, Repr

/-- A card's 4-byte status in an ingest segment: whether every card it stands for holds its last row, and the row after the last one that
they hold (19, R517; what the four bytes hold is not in the spec: DESIGN CHOICE, log entry 41). -/
structure IngestReport where
  card : Nat
  last : Bool
  rows : Nat
  deriving DecidableEq, Repr

/-- What INGEST_END presents: whether this card holds its own last row, and the statuses that it receives, step by step (19, R517; DESIGN
CHOICE, log entry 41). -/
structure IngestSeen where
  last : Bool
  peers : List IngestReport
  deriving DecidableEq, Repr

/-- Sampled rows of the pre-phase with their bodies, ascending, that a card sends at a step of an exchange (07, R163). -/
structure SampleReport where
  card : Nat
  rows : List (Nat × Bytes)
  deriving DecidableEq, Repr

/-- What one step of an exchange carries. -/
inductive Exchanged
  | grad (r : GradReport)
  | split (r : SplitReport)
  | ingest (r : IngestReport)
  | sample (r : SampleReport)
  deriving DecidableEq, Repr

/-- The evidence card's label (16, Table 16.2). -/
structure SdLabel where
  version : Nat
  journal : Bool
  hasImport : Bool
  recovery : Bool
  owner : Nat
  journalBase : Nat
  journalBlocks : Nat
  importBase : Nat
  importBlocks : Nat
  recoveryBase : Nat
  recoveryBlocks : Nat
  ratedWriteBytes : Nat
  rsvd : Nat
  deriving DecidableEq, Repr

/-- Capacity classes of SD cards (16, Table 16.1). -/
inductive SdCapacity | sdsc | sdhc | sdxc | sduc
  deriving DecidableEq, Repr

/-- An evidence card as the SD host finds it: capacity, whether it has a PCIe interface, blocks 0 and 2,047, protection, the number of its first
uncommitted journal page, its own wear estimate in % (16). -/
structure SdMedium where
  capacity : SdCapacity
  express : Bool
  block0 : Bytes
  block2047 : Bytes
  writeProtect : Bool
  firstUncommitted : Nat
  smartUsed : Nat
  deriving DecidableEq, Repr

/-- An inserted evidence card: its mode, label, protection and the number of its first uncommitted journal page (16). -/
structure SdCard where
  express : Bool
  label : SdLabel
  writeProtect : Bool
  firstUncommitted : Nat
  smartUsed : Nat
  deriving DecidableEq, Repr

/-- A grazing resource and, where the slot reads something, what the read shows (14, Table 14.1). -/
inductive GrazeRes
  /-- an HBM stack and the wheel position of the slot; how a returning quadrant's self-test ends, where the slot is its last -/
  | hbm (s : StackId) (pos : Nat) (testOk : Bool)
  | tile (n : Nat)
  | landing
  /-- a Root engine, the position of its wheel, and how its known-answer test ends -/
  | engine (kind : Nat) (index : Nat) (pos : Nat) (pass : Bool)
  /-- a Stile link; lanes that the slot retrains -/
  | link (k : LinkId) (lanes : Nat)
  | port (p : PortId)
  | shepherd
  deriving DecidableEq, Repr

/-- Work of one Root wheel position (09, R224; 02, R38). -/
inductive WheelJob
  /-- binning wheel: bin record `leaf` of the cohort one frame back -/
  | bin (leaf : Nat)
  /-- SHA3 wheel: absorb the ingress half of the tag preimage, one frame back -/
  | hashIn (leaf : Nat)
  /-- die-to-die wheel towards a quadrant: 2 KiB number `part` of the codes, or of the activations, of batch `batch` to a tile of its
  file, one frame back -/
  | codesOut (batch : Nat) (tile : Nat) (part : Nat) (acts : Bool)
  /-- die-to-die wheel towards the Root die: FIX48 scores of output `out` for batch `batch`, two frames back -/
  | scoresIn (batch : Nat) (out : Nat)
  /-- SHA3 wheel: finish the tag of record `leaf`, three frames back -/
  | tag (leaf : Nat)
  /-- AES wheel: encrypt the result of record `leaf`, three frames back -/
  | encrypt (leaf : Nat)
  /-- PCIe fetch wheel -/
  | fetch
  deriving DecidableEq, Repr

/-- Root wheels, with the resource codes of SLOT_CONFLICT (14, Table 14.9); PCIe fetch is not in the slot plan (19). -/
inductive Wheel | binning | aes | sha3 | dieToDie | pcieFetch
  deriving DecidableEq, Repr

/-- One row presented to the gradient unit (05, The gradient unit): global row number and padding mark. Its label, its row weight and
its margins stand in the Fold's Growing state. -/
structure GRow where
  row : Nat
  pad : Bool
  deriving DecidableEq, Repr

/-- Data that streams present to an operation whose row of Table 19.11 names no address for it (DESIGN CHOICE, log entry 11), and the tile
registers, by the keys of `Tile.taint`, whose entries it reads with a parity error (05, R115). -/
structure Feed where
  rows : List GRow
  addr : Nat
  output : Nat
  parity : List Nat
  deriving DecidableEq, Repr

/-- SPDM algorithm proposal (09, Table 9.6). -/
structure SpdmAlgs where
  asymP384 : Bool
  hashSha384 : Bool
  measSha3 : Bool
  dheP384 : Bool
  aeadAes256 : Bool
  deriving DecidableEq, Repr

/-- IDE_KM messages (09). -/
inductive IdeKm
  | query
  | keyProg (key : Bytes)
  | setGo
  | setStop
  deriving DecidableEq, Repr

/-- Mailbox request of recovery: the function whose mailbox it comes through, and its reserved bytes (18, Table 18.7; 00, R11). -/
structure MbReq where
  fn : FnId
  rsvd : Nat
  deriving DecidableEq, Repr

/-- An I/O error of the file store: the NVMe status, and whether the connection has dropped with it (12, R337). -/
structure FileErr where
  status : Nat
  dropped : Bool
  deriving DecidableEq, Repr

/-- THE COMMANDS: one constructor per row of spec/opcode_table.json, in the table's order. -/
inductive Instr
  | identify (t : Nat) (q : QHdr) (addr : Nat)
  | createFold (t : Nat) (q : QHdr) (plots units : Signed)
  | loadBundle (t : Nat) (q : QHdr) (src : LoadSource)
  | loadBundleDone (t : Nat) (f : FoldId) (data : Option Bundle)
  | restageModel (t : Nat) (q : QHdr) (src : LoadSource)
  | restageModelDone (t : Nat) (f : FoldId) (data : Option RestageImage)
  | restore (t : Nat) (q : QHdr) (target generation : Nat)
  | restoreDone (t : Nat) (f : FoldId) (data : Option Shard)
  | launch (t : Nat) (replay : Bool) (src : CtlSrc)
  | stop (t : Nat) (src : CtlSrc)
  | forceStop (t : Nat) (src : CtlSrc)
  | unload (t : Nat) (src : CtlSrc)
  | foldReset (t : Nat) (src : CtlSrc)
  | preemptNotice (t : Nat) (src : NoticeSrc)
  | ledgerRead (t : Nat) (q : QHdr) (addr len offset : Nat)
  | ledgerAck (t : Nat) (q : QHdr) (pageSeq : Nat)
  | record (t : Nat) (q : QHdr) (addr len resAddr resLen : Nat)
  | recordReadComplete (t : Nat) (f : FoldId) (cid : Nat) (r : ReadResult)
  | completionTimeout (t : Nat) (w : TimeoutOf)
  | replayHeader (t : Nat) (q : QHdr) (h : Bytes)
  | rows (t : Nat) (q : QHdr) (addr len first count pass : Nat) (buf : Bytes)
  | sqTailDoorbell (t : Nat) (fn : FnId) (qn : Fin 2) (v : Nat)
  | cqHeadDoorbell (t : Nat) (fn : FnId) (qn : Fin 2) (v : Nat)
  | queueEnable (t : Nat) (fn : FnId) (qn : Fin 2) (w : QField)
  | msixCoalesceExpiry (t : Nat) (fn : FnId) (vec : Fin 4)
  | functionLevelReset (t : Nat) (fn : FnId)
  | recoveryChunk (t : Nat) (m : MbReq) (offset : Nat) (data : Bytes)
  | recoveryBoot (t : Nat) (m : MbReq) (set : FwSet)
  | dictionaryWrite (t : Nat) (index sub : Nat) (r : WReq)
  | tickPeriodWrite (t : Nat) (r : WReq)
  | operatingPointWrite (t : Nat) (r : WReq)
  | portLayoutWrite (t : Nat) (r : WReq)
  | storeParameters (t : Nat) (r : WReq)
  | restoreDefaults (t : Nat) (r : WReq)
  | warmReset (t : Nat) (r : WReq)
  | shepherdReset (t : Nat) (r : WReq)
  | quadrantReset (t : Nat) (q : QuadId) (r : WReq)
  | ownerKeyWrite (t : Nat) (r : WReq)
  | ownershipRelease (t : Nat) (r : WReq)
  | channelTableWrite (t : Nat) (c sub : Nat) (r : WReq)
  | ledgerRingPagesWrite (t : Nat) (f : FoldId) (r : WReq)
  | plotMaskWrite (t : Nat) (f : FoldId) (sub : Nat) (r : WReq)
  | ownerKekWrite (t : Nat) (f : FoldId) (r : WReq) (kek : KekSeal)
  | inputBindingWrite (t : Nat) (f : FoldId) (i sub : Nat) (r : WReq)
  | resultBindingWrite (t : Nat) (f : FoldId) (sub : Nat) (r : WReq)
  | eatRead (t : Nat) (a : Access) (f : FoldId)
  | segmentedTransferTimeout (t : Nat) (a : Access) (index sub : Nat)
  | snapshotRefresh (t : Nat) (m : Readings)
  | eventLogPosition (t : Nat)
  | shepherdSupplyUp (t : Nat) (src : Supply) (a b : FwSet)
  | supplySourceChange (t : Nat) (main poe aux : Bool)
  | mainPowerGood (t : Nat) (cblPresLow sense0Gnd sense1Gnd : Bool) (fail : Option (Rail × Nat))
  | mainPowerLoss (t : Nat)
  | pllLock (t : Nat) (ok : Bool)
  | secureBoot (t : Nat) (a b : FwSet) (sd : Option FwSet)
  | stileTrainingDone (t : Nat) (r : List LinkTraining)
  | hbmTrainingDone (t : Nat) (failed : List StackId)
  | selfTestDone (t : Nat) (tiles : List TileReport) (engines : List (Nat × Nat))
  | ready (t : Nat) (ms : Nat)
  | perstAssert (t : Nat)
  | perstDeassert (t : Nat)
  | pcieRateChange (t : Nat) (gen width : Nat)
  | supplyWarn (t : Nat) (rail : Rail) (mv : Nat)
  | supplyTrip (t : Nat) (rail : Rail) (mv : Nat)
  | temperatureSample (t : Nat) (r : List (Nat × Int))
  | thermalTrip (t : Nat)
  | powerOverrun (t : Nat) (mw : Nat)
  | ptpEventMessage (t : Nat) (port : PortId) (offset : Int)
  | sync0 (t : Nat) (cycle : Nat) (offset : Int)
  | timeWord (t : Nat) (link : LinkId) (sender reference depth : Nat)
  | armWord (t : Nat) (h : RelayHdr) (w : ArmWord)
  | armCutoff (t : Nat) (f : FoldId)
  | foldStart (t : Nat) (f : FoldId)
  | frameOpen (t : Nat) (f : FoldId)
  | scheduledOperation (t : Nat) (tile : Nat) (cycle : Nat) (feed : Feed)
  | cycleBudgetExpiry (t : Nat) (f : FoldId) (q : QuadId)
  | frameClose (t : Nat) (f : FoldId)
  | admission (t : Nat) (f : FoldId)
  | izrData (t : Nat) (rx : IzrRx)
  | keyOffer (t : Nat) (rx : IzrRx) (offer : HpkeOffer)
  | pauseFrame (t : Nat) (port : PortId) (kind : PauseKind) (prio : Nat) (len : Nat)
  | resultDrain (t : Nat) (f : FoldId)
  | ethercatProcessData (t : Nat) (fcsOk : Bool) (image : Bytes)
  | canPdo (t : Nat) (pdo : Fin 4) (cobId : Nat) (data : Bytes)
  | nmtCommand (t : Nat) (c : NmtCmd)
  | canBootupMessage (t : Nat) (node : Nat)
  | lldpTimer (t : Nat)
  | lldpduReceived (t : Nat) (port : PortId) (chassis portName system : Bytes) (ttl : Nat)
  | stileFrame (t : Nat) (link : LinkId) (rx : StileRx) (peer : Option PeerFrame)
  | linkDown (t : Nat) (link : LinkId) (cause : Nat)
  | linkUp (t : Nat) (link : LinkId) (cable : Option Bytes)
  | hello (t : Nat) (link : LinkId) (h : Hello)
  | peerAttestationDone (t : Nat) (link : LinkId) (r : PeerAtt)
  | linkTestDone (t : Nat) (link : LinkId) (ok : Bool)
  | epochReq (t : Nat) (h : RelayHdr) (unitCard unitNo kind : Nat)
  | memberPropose (t : Nat) (h : RelayHdr) (b : MemberBody)
  | memberAck (t : Nat) (h : RelayHdr) (b : MemberBody)
  | memberAbort (t : Nat) (h : RelayHdr) (b : MemberBody)
  | epochAckCutoff (t : Nat)
  | epochCommit (t : Nat)
  | epochApply (t : Nat)
  | leave (t : Nat) (h : RelayHdr) (card cause ref : Nat)
  | replayWord (t : Nat) (h : RelayHdr) (f : FoldId) (round step : Nat)
  | levelStepStart (t : Nat) (f : FoldId)
  | gradientBarrier (t : Nat) (f : FoldId) (peers : List GradReport)
  | splitExchangeBarrier (t : Nat) (f : FoldId) (peers : List SplitReport)
  | levelStepBoundary (t : Nat) (f : FoldId)
  | roundEnd (t : Nat) (f : FoldId)
  | prephaseEnd (t : Nat) (f : FoldId) (tails peers : List SampleReport)
  | ingestEnd (t : Nat) (f : FoldId) (r : IngestSeen)
  | reshard (t : Nat) (f : FoldId)
  | preemptCut (t : Nat) (f : FoldId) (lbaSize : Nat)
  | checkpointSectionFlush (t : Nat) (f : FoldId)
  | noticeDeadline (t : Nat) (f : FoldId)
  | filestoreError (t : Nat) (f : FoldId) (e : FileErr) (lba : Nat)
  | pageOpen (t : Nat) (f : FoldId)
  | pageClose (t : Nat) (f : FoldId)
  | pageSeal (t : Nat) (f : FoldId)
  | sdCardInsert (t : Nat) (m : SdMedium)
  | evidenceRemoved (t : Nat)
  | journalPageBusyEnd (t : Nat)
  | journalCommitBusyEnd (t : Nat)
  | sealedEventBatchDue (t : Nat)
  | grazingSlot (t : Nat) (r : GrazeRes)
  | memberRebuildDone (t : Nat) (f : FoldId) (s : StackId)
  | quadrantFailure (t : Nat) (q : QuadId) (cause : Nat)
  | eccCeRate (t : Nat) (unit : Nat)
  | spdmGetVersion (t : Nat) (fn : FnId)
  | spdmGetCapabilities (t : Nat) (fn : FnId)
  | spdmNegotiateAlgorithms (t : Nat) (fn : FnId) (a : SpdmAlgs)
  | spdmGetCertificate (t : Nat) (fn : FnId) (slot : Nat)
  | spdmChallenge (t : Nat) (fn : FnId) (slot : Nat) (nonce : Bytes)
  | spdmGetMeasurements (t : Nat) (fn : FnId) (block : Nat) (nonce : Bytes)
  | spdmKeyExchange (t : Nat) (fn : FnId) (secret : Bytes) (finishOk : Bool)
  | spdmKeyUpdate (t : Nat) (onLink : Option LinkId) (fn : FnId) (key : Bytes)
  | spdmEndSession (t : Nat) (fn : FnId)
  | ideKmKeyProg (t : Nat) (fn : FnId) (m : IdeKm)
  | lockInterfaceRequest (t : Nat) (fn : FnId)
  | getDeviceInterfaceReport (t : Nat) (fn : FnId)
  | startInterfaceRequest (t : Nat) (fn : FnId) (nonce : Bytes)
  | stileSlot (t : Nat) (link : LinkId) (payload : Option Bytes)
  | hbmSlot (t : Nat) (s : StackId) (f : FoldId) (j : Nat)
  | rootWheelPosition (t : Nat) (w : Wheel) (inst : Nat) (pos : Nat) (job : WheelJob)
  | pageFlushComplete (t : Nat) (f : FoldId)
  | qsfpDdModuleInsert (t : Nat) (cage : Fin 2) (watts : Nat)
  | fbPresChange (t : Nat) (high : Bool)
  | producerHeartbeat (t : Nat)
  | securityEngineOrTickGeneratorFault (t : Nat) (tickGenerator : Bool)
  | shepherdRestartDone (t : Nat)
  | shepherdSupplyLoss (t : Nat)
  | ideCheckFailed (t : Nat) (fn : FnId)
  deriving DecidableEq, Repr

end Sys2Proof
end

