-- ==== Sys2Proof/Decode.lean ====
section
/-! DEFINITION. Commands spelled by table words: spec/opcode_table.json gives no row any bits, so there are none. -/

namespace Sys2Proof

/-- The command that a table word spells: no row of the table has bits. -/
def decodeTableWord (_nbits _w : Nat) : Option Instr := none

end Sys2Proof
end

