-- ==== Sys2Proof/Machine/Bits.lean ====
section
/-! DEFINITION. Byte-order, bit-field, rounding and sparse-map helpers that every other definition uses. -/

namespace Sys2Proof.Machine

/-- `w` bytes of `n`, least-significant byte first (00, R8). -/
def le (w n : Nat) : Bytes := (List.range w).map fun i => BitVec.ofNat 8 (n / 256 ^ i)

/-- `w` bytes of `n`, most-significant byte first (00, R9). -/
def be (w n : Nat) : Bytes := (le w n).reverse

/-- Unsigned integer of bytes, least-significant byte first (00, R8). -/
def leNat : Bytes → Nat
  | [] => 0
  | b :: r => b.toNat + 256 * leNat r

/-- Unsigned integer of bytes, most-significant byte first (00, R9). -/
def beNat (b : Bytes) : Nat := leNat b.reverse

/-- Two's-complement value of a `w`-bit number. -/
def signed (w n : Nat) : Int := if n % 2 ^ w < 2 ^ (w - 1) then ((n % 2 ^ w : Nat) : Int) else ((n % 2 ^ w : Nat) : Int) - 2 ^ w

/-- The `w`-bit two's-complement pattern of an integer. -/
def wrap (w : Nat) (n : Int) : Nat := (n % (2 ^ w : Int)).toNat

/-- Bytes `off` to `off + len - 1` of a byte string. -/
def slice (b : Bytes) (off len : Nat) : Bytes := (b.drop off).take len

/-- Unsigned little-endian field of a byte string. -/
def fld (b : Bytes) (off len : Nat) : Nat := leNat (slice b off len)

/-- Signed little-endian field of a byte string. -/
def fldS (b : Bytes) (off len : Nat) : Int := signed (8 * len) (fld b off len)

/-- Bytes of a string of ASCII codes. -/
def ascii (l : List Nat) : Bytes := l.map (BitVec.ofNat 8)

/-- A byte string padded with zeros, or cut, to `n` bytes. -/
def padTo (n : Nat) (b : Bytes) : Bytes := (b ++ List.replicate (n - b.length) 0).take n

/-- Every byte is zero. -/
def allZero (b : Bytes) : Bool := b.all (· == 0)

/-- Smallest multiple of `m` at or above `n` (00). -/
def roundUp (n m : Nat) : Nat := (n + m - 1) / m * m

/-- Quotient rounded up. -/
def ceilDiv (a b : Nat) : Nat := (a + b - 1) / b

/-- Quotient rounded up of an integer by a positive natural. -/
def ceilDivI (a : Int) (b : Nat) : Int := -((-a) / (b : Int))

/-- RNE(a / b): round to nearest, ties to even (04, R53). -/
def rneDiv (a : Int) (b : Nat) : Int :=
  let q := a / (b : Int)
  let r := a % (b : Int)
  if 2 * r < (b : Int) then q else if (b : Int) < 2 * r then q + 1 else if q % 2 = 0 then q else q + 1

/-- RNE(a × 2^k) for a shift of either sign. -/
def rneShift (a : Int) (k : Int) : Int := if 0 ≤ k then a * 2 ^ k.toNat else rneDiv a (2 ^ (-k).toNat)

/-- An integer held to an interval. -/
def clampI (lo hi a : Int) : Int := if a < lo then lo else if hi < a then hi else a

/-- Bit `i` of a natural. -/
def bit (n i : Nat) : Bool := n.testBit i

/-- A Bool as a number. -/
def b2n (b : Bool) : Nat := if b then 1 else 0

/-! ## Sparse maps -/

/-- What a key reads as; an unlisted key reads as the default. -/
def mget {α : Type} (d : α) : SMap α → Nat → α
  | [], _ => d
  | (j, v) :: r, k => if j = k then v else mget d r k

/-- The map without its entry at `k`. -/
def mdel {α : Type} : SMap α → Nat → SMap α
  | [], _ => []
  | (j, v) :: r, k => if j = k then r else (j, v) :: mdel r k

/-- The map with `v` listed at `k`, keys rising. -/
def mins {α : Type} : SMap α → Nat → α → SMap α
  | [], k, v => [(k, v)]
  | (j, w) :: r, k, v => if k < j then (k, v) :: (j, w) :: r else if k = j then (k, v) :: r else (j, w) :: mins r k v

/-- Write `v` at `k`: the default value removes the entry, so equal maps are equal lists. -/
def mset {α : Type} [DecidableEq α] (d : α) (m : SMap α) (k : Nat) (v : α) : SMap α :=
  if v = d then mdel m k else mins m k v

/-- The canonical form: keys strictly rising, no entry equal to the default. -/
abbrev SMap.wf {α : Type} [DecidableEq α] (d : α) (m : SMap α) : Prop :=
  m.Pairwise (fun a b => a.1 < b.1) ∧ ∀ e ∈ m, e.2 ≠ d

/-- Write consecutive bytes. -/
def mwrite (m : SMap Byte) (a : Nat) : Bytes → SMap Byte
  | [] => m
  | b :: r => mwrite (mset 0 m a b) (a + 1) r

/-- Read `n` consecutive bytes. -/
def mread (m : SMap Byte) (a n : Nat) : Bytes := (List.range n).map fun i => mget 0 m (a + i)

/-- Entries of the map with keys outside `[a, b)`. -/
def mdrop {α : Type} (m : SMap α) (a b : Nat) : SMap α := m.filter fun e => e.1 < a || b ≤ e.1

end Sys2Proof.Machine
end

