-- ==== Sys2Proof/Machine/Numeric.lean ====
section
/-! DEFINITION. The arithmetic of chapters 04, 05 and 07: fixed-point primitives, losses, scales, split gain, leaf values,
the counter generator, and the conversion of scores at egress. -/

namespace Sys2Proof.Machine

/-! ## Tables of the gradient unit (05, Table 5.6) -/

/-- Largest `x` below `lo + 2^fuel` with `p x`, for a `p` that holds up to some point; bit by bit. -/
def bisect (p : Nat → Bool) : Nat → Nat → Nat
  | 0, lo => lo
  | k + 1, lo => if p (lo + 2 ^ k) then bisect p k (lo + 2 ^ k) else bisect p k lo

/-- T[i] = RNE(2^(i/1,024) × 2^30). -/
def tableT (i : Nat) : Nat := bisect (fun x => (2 * x - 1) ^ 1024 ≤ 2 ^ (i + 31 * 1024)) 32 0

/-- `k` binary digits of log2 of `y / 2^240`, for a value in [1, 2), after the digits `acc`. -/
def log2Digits : Nat → Nat → Nat → Nat
  | 0, _, acc => acc
  | k + 1, y, acc =>
    let z := y * y / 2 ^ 240
    if 2 ^ 241 ≤ z then log2Digits k (z / 2) (2 * acc + 1) else log2Digits k z (2 * acc)

/-- floor(log2(n / 2^e) × 2^100) for 2^e ≤ n < 2^(e+1). -/
def log2Frac (n e : Nat) : Nat := log2Digits 100 (n * 2 ^ 240 / 2 ^ e) 0

/-- L[i] = RNE(log2(1 + i/1,024) × 2^30). -/
def tableL (i : Nat) : Nat :=
  if i = 1024 then 2 ^ 30 else (rneDiv ((2 * log2Frac (1024 + i) 10 + (if i = 0 then 0 else 1) : Nat) : Int) (2 ^ 71)).toNat

/-- V[i] = RNE(2^30 / (1 + (2i + 1)/256)). -/
def tableV (i : Nat) : Nat := (rneDiv ((2 ^ 38 : Nat) : Int) (257 + 2 * i)).toNat

/-- D[r] = RNE(2^24 / log2(r + 2)). -/
def tableD (r : Nat) : Int :=
  let e := Nat.log2 (r + 2)
  rneDiv (2 ^ 124) (e * 2 ^ 100 + log2Frac (r + 2) e)

/-- RNE(log2(e) × 2^30). -/
def constL2E : Int := 1549082005
/-- RNE(ln(2) × 2^30). -/
def constLN2 : Int := 744261118
/-- RNE(0.5772156649 × 2^24) (07, Forests and isolation forests). -/
def constEM : Int := rneDiv (5772156649 * 2 ^ 24) 10000000000

/-- EXP (05, Table 5.6). -/
def expFx (x : Int) : Int :=
  if x < -32 * 2 ^ 24 then 0 else
    let y := rneDiv (x * constL2E) (2 ^ 30)
    let n := y / 2 ^ 24
    let f := (y % 2 ^ 24).toNat
    let i := f / 2 ^ 14
    let q : Int := (f % 2 ^ 14 : Nat)
    let t : Int := (tableT i : Int) + rneDiv (((tableT (i + 1) : Int) - tableT i) * q) (2 ^ 14)
    if 40 < n then 2 ^ 39 - 1 else min (rneShift t (n - 6)) (2 ^ 39 - 1)

/-- Normalisation of RECIP and LOG: p and m in [2^30, 2^31) (05, Table 5.6). -/
def normFx (d : Nat) : Nat × Nat :=
  let p := Nat.log2 d
  let m := (rneShift (d : Int) (30 - (p : Int))).toNat
  if m = 2 ^ 31 then (p + 1, 2 ^ 30) else (p, m)

/-- One iteration of RECIP. -/
def recipIter (m : Nat) (x : Int) : Int := rneDiv (x * (2 ^ 31 - rneDiv ((m : Int) * x) (2 ^ 30))) (2 ^ 30)

/-- RECIP before its final shift: p and x (05, Table 5.6; 07, R176). -/
def recipPX (d : Nat) : Nat × Int :=
  let (p, m) := normFx d
  (p, recipIter m (recipIter m (recipIter m (tableV (m / 2 ^ 23 % 128)))))

/-- RECIP (05, Table 5.6). -/
def recipFx (d : Int) : Int :=
  if d ≤ 0 then 2 ^ 47 - 1 else
    let (p, x) := recipPX d.toNat
    min (rneShift x (18 - (p : Int))) (2 ^ 47 - 1)

/-- LOG (05, Table 5.6). -/
def logFx (d : Int) : Int :=
  if d ≤ 0 then -(2 ^ 39) else
    let (p, m) := normFx d.toNat
    let i := m / 2 ^ 20 % 1024
    let q : Int := (m % 2 ^ 20 : Nat)
    let t : Int := (tableL i : Int) + rneDiv (((tableL (i + 1) : Int) - tableL i) * q) (2 ^ 20)
    rneDiv ((((p : Int) - 24) * 2 ^ 30 + t) * constLN2) (2 ^ 36)

/-! ## Losses (05, Table 5.5) -/

/-- 1.0 in raw units. -/
def one24 : Int := 2 ^ 24
/-- Product rounded to 24 fraction bits, ties to even (05, R123). -/
def mul24 (a b : Int) : Int := rneDiv (a * b) (2 ^ 24)
/-- Saturation at the 40-bit limits (05, R123). -/
def sat40 (a : Int) : Int := clampI (-(2 ^ 39)) (2 ^ 39 - 1) a

/-- The row weight is applied last, to the formula's own g and h; they are saturated once, as they are written, and a negative h is
written as zero (05, R123; DEDUCED, log entry 50). -/
def writeGH (weight : Nat) (gh : Int × Int) : Int × Int :=
  let g := sat40 (rneDiv (gh.1 * weight) 256)
  let h := sat40 (rneDiv (gh.2 * weight) 256)
  (g, if h < 0 then 0 else h)

/-- Softmax probability of class k: p_k (05, Table 5.5). -/
def softmaxP (ms : List Int) (k : Nat) : Int :=
  let mx := ms.foldl max (ms.headD 0)
  let es := ms.map fun m => expFx (m - mx)
  sat40 (mul24 (es.getD k 0) (recipFx (sat40 es.sum)))

/-- g and h of output `c` for a built-in loss; the label is in the form of Table 5.5 (05, R122; what
saturates: DEDUCED, log entry 50). Loss codes as Table 19.5. -/
def lossGH (loss : Nat) (param : Int) (ms : List Int) (c : Nat) (y : Int) : Int × Int :=
  let m := ms.getD c 0
  match loss with
  | 1 => (m - y, one24)
  | 2 => let p := sat40 (recipFx (sat40 (one24 + expFx (-m)))); (p - y * one24, mul24 p (one24 - p))
  | 3 => let p := softmaxP ms c; (p - (if y = c then one24 else 0), mul24 p (one24 - p))
  | 4 => let e := expFx m; (e - y, e)
  | 5 =>
    let a := expFx (mul24 (one24 - param) m)
    let b := expFx (mul24 (2 * one24 - param) m)
    (mul24 (-y) a + b, mul24 (mul24 (-y) (one24 - param)) a + mul24 (2 * one24 - param) b)
  | 6 => (if m < y then -param else one24 - param, one24)
  | 7 => (clampI (-param) param (m - y), one24)
  | _ => (0, 0)

/-- The label lies in its loss's domain (07, Table 7.9). -/
def labelOk (loss k : Nat) (y : Int) : Bool :=
  if loss = 3 || (1 < k) then decide (0 ≤ y ∧ y < k)
  else match loss with
    | 2 => decide (y = 0 ∨ y = 1)
    | 4 | 5 => decide (0 ≤ y ∧ y < 2 ^ 39)
    | 8 => decide (0 ≤ y ∧ y ≤ 15)
    | _ => decide (-(2 ^ 39) ≤ y ∧ y < 2 ^ 39)

/-- With K > 1 and a loss other than softmax, output c is trained on [y = c] in the loss's form (07, R531). -/
def labelFor (loss k c : Nat) (y : Int) : Int :=
  if loss = 3 || k ≤ 1 then y else if loss = 2 then (if y = c then 1 else 0) else (if y = c then one24 else 0)

/-- Rank in a slot: rows with a greater key, or an equal key and a lower index (05, Pairwise ranking). -/
def rankOf (keys : List (Nat × Int)) (i : Nat) (v : Int) : Nat :=
  (keys.filter fun e => v < e.2 || (e.2 == v && e.1 < i)).length

/-- g and h of every row of a ranking slot; rows that are padding or have an invalid label are `none` (05, R124). -/
def rankGH (rows : List (Option (Int × Nat))) : List (Int × Int) :=
  let live : List (Nat × Int × Nat) := (List.range rows.length).filterMap fun i =>
    match rows.getD i none with
    | some (m, l) => some (i, m, l)
    | none => none
  let byM := live.map fun e => (e.1, e.2.1)
  let byL := live.map fun e => (e.1, (e.2.2 : Int))
  let idcg := sat40 (live.map fun e => ((2 : Int) ^ e.2.2 - 1) * tableD (rankOf byL e.1 e.2.2)).sum
  let rec1 := recipFx idcg
  (List.range rows.length).map fun i =>
    match rows.getD i none with
    | none => (0, 0)
    | some (mi, li) =>
      if idcg = 0 then (0, 0) else
        let di := tableD (rankOf byM i mi)
        live.foldl (fun acc e =>
          if e.2.2 = li then acc else
            let up := decide (e.2.2 < li)
            let mh := if up then mi else e.2.1
            let ml := if up then e.2.1 else mi
            let lh := if up then li else e.2.2
            let ll := if up then e.2.2 else li
            let rho := sat40 (recipFx (sat40 (one24 + expFx (mh - ml))))
            let delta := sat40 (mul24 (((2 : Int) ^ lh - 2 ^ ll) * rec1) |di - tableD (rankOf byM e.1 e.2.1)|)
            let dr := mul24 delta rho
            (if up then acc.1 - dr else acc.1 + dr, acc.2 + mul24 dr (one24 - rho))) (0, 0)

/-! ## Scales (04, R91 to R94) -/

/-- Code limit L: 127 or 7 for gradients, 254 for hessians (04). -/
def codeLimit (hessian : Bool) (gradWidth : Nat) : Nat := if hessian then 254 else if gradWidth = 4 then 7 else 127

/-- Smallest e ≥ 0 with ceil(D / 2^e) ≤ 2^24 − 1. -/
def scaleExp (d : Nat) : Nat → Nat → Nat
  | 0, e => e
  | k + 1, e => if ceilDiv d (2 ^ e) ≤ 2 ^ 24 - 1 then e else scaleExp d k (e + 1)

/-- Step Δ = m × 2^e from the scale source M and the code limit L, with m and e (04, R92). -/
def scaleOf (m l : Nat) : Nat × Nat :=
  let d := if m = 0 then 1 else ceilDiv m l
  let e := scaleExp d 64 0
  (ceilDiv d (2 ^ e), e)

/-- Δ of a mantissa and exponent. -/
def scaleStep (me : Nat × Nat) : Nat := me.1 * 2 ^ me.2

/-- Scale word of Table 4.4: [31:8] mantissa, [7:0] exponent. -/
def scaleWord (me : Nat × Nat) : Nat := me.1 * 256 + me.2

/-- Δ of a scale word. -/
def stepOfWord (w : Nat) : Nat := (w / 256) * 2 ^ (w % 256)

/-- c = RNE(v / Δ) (04, R93). -/
def quant (v : Int) (step : Nat) : Int := rneDiv v step

/-- |c| exceeds the code limit: the row escapes (04, R93). -/
def escapes (c : Int) (l : Nat) : Bool := decide ((l : Int) < |c|)

/-- Side-list entry (04, Table 4.6). -/
def sideEntry (row : Nat) (v : Int) : Nat := row % 4096 + wrap 40 v * 2 ^ 12 + 2 ^ 52

/-- The largest exact maximum of the rounds r − 4 to r − 1 that exist; the history is newest first (04, R91). -/
def scaleSource (h : List Nat) : Nat := (h.take 4).foldl max 0

/-- SCALE_COARSE: 16 × the exact maximum is below the scale source used (04, R99). -/
def coarse (max source : Nat) : Bool := decide (16 * max < source)

/-! ## Split finding (07, R174 to R178) -/

/-- t(G, n) = RNE(G² × x / 2^(14 + p)) (07, R176). -/
def gainTerm (g : Int) (n : Nat) : Int :=
  let (p, x) := recipPX n
  rneDiv (g * g * x) (2 ^ (14 + p))

/-- n = max(1, H + λ_c). -/
def gainDen (h : Int) (lc : Int) : Nat := (max 1 (h + lc)).toNat

/-- K = t_L + t_R − t_P (07, R176). -/
def splitGain (gT hT gF hF : Int) (lc : Int) : Int :=
  gainTerm gT (gainDen hT lc) + gainTerm gF (gainDen hF lc) - gainTerm (gT + gF) (gainDen (hT + hF) lc)

/-- λ_c = RNE(λ / Δh). -/
def lambdaC (lambda : Int) (dh : Nat) : Int := rneDiv lambda dh
/-- w_c = max(1, ceil(w / Δh)) (07, R175). -/
def minHC (w : Int) (dh : Nat) : Int := max 1 (ceilDivI w dh)
/-- γ_c = ceil(γ × Δh × 2^16 / Δg²) (07, R177). -/
def gammaC (gamma : Int) (dh dg : Nat) : Int := ceilDivI (gamma * dh * 2 ^ 16) (dg * dg)

/-- What ranks candidates of one node (07, R178). -/
structure SplitCand where
  gain : Int
  feature : Nat
  code : Nat
  d : Bool
  deriving DecidableEq, Repr

/-- Better candidate of two for one node: larger K, lower feature, lower split code, D = 0 first (07, R178). -/
def better (a b : SplitCand) : Bool :=
  decide (b.gain < a.gain) || (a.gain == b.gain && (decide (a.feature < b.feature) || (a.feature == b.feature &&
    (decide (a.code < b.code) || (a.code == b.code && !a.d && b.d)))))

/-- Leaf value of a BOOST or FOREST job (07, R181). -/
def leafValue (eta g : Int) (dg dh : Nat) (n : Nat) (clampV : Int) : Int :=
  clampI (-clampV) clampV (rneDiv (-eta * g * dg) (dh * n))

/-- c(n) of isolation forests (07, Forests and isolation forests). -/
def isoC (n : Nat) : Int :=
  if n ≤ 1 then 0 else if n = 2 then one24 else
    2 * (logFx (((n : Int) - 1) * one24) + constEM) - 2 * rneDiv (((n : Int) - 1) * one24) n

/-- Leaf value of an ISOLATION job at depth e with n rows (07, R185). -/
def isoLeaf (e n trees : Nat) : Int := rneDiv ((e : Int) * one24 + isoC n) trees

/-! ## Counter generator (07, Table 7.2) -/

/-- u of stream s, round r, index i under GenKey (07, R165). -/
def genU (key s r i : Nat) : Nat :=
  let m := 2 ^ 64
  let w := (i + 0x9E3779B97F4A7C15 * (1 + 8 * r + s)) % m
  let x := Nat.xor w (key % m)
  let x := Nat.xor x (x >>> 32) * 0xB5A33C6E91D24F87 % m
  let x := Nat.xor x (x >>> 29) * 0x8E1FD74A2C69B0E3 % m
  Nat.xor x (x >>> 32) >>> 32

/-- The `count` features with smallest u, ties to the lower index; 0 or too large a count selects all (07, R166). -/
def selectFeatures (u : Nat → Nat) (avail : List Nat) (count : Nat) : List Nat :=
  if count = 0 || avail.length ≤ count then avail else
    avail.filter fun f => decide ((avail.filter fun g => decide (u g < u f ∨ (u g = u f ∧ g < f))).length < count)

/-! ## Egress (04, R89) -/

/-- FIX48: the six raw bytes. -/
def fix48 (v : BitVec 48) : Bytes := le 6 v.toNat

/-- binary32 pattern of a raw score, round to nearest, ties to even; zero gives +0 (04, R89). -/
def toBinary32 (v : BitVec 48) : Nat :=
  let n := v.toInt
  let m := n.natAbs
  if m = 0 then 0 else
    let e := Nat.log2 m
    let r := (rneShift (m : Int) (23 - (e : Int))).toNat
    let e' := if r = 2 ^ 24 then e + 1 else e
    let frac := if r = 2 ^ 24 then 0 else r - 2 ^ 23
    (if n < 0 then 2 ^ 31 else 0) + (e' + 103) * 2 ^ 23 + frac

end Sys2Proof.Machine
end

