-- ==== Sys2Proof/Machine/Sha3.lean ====
section
/-! DEFINITION. SHA3-256, SHA3-384, HMAC-SHA3-384 and KEYPAIR (09; the permutation is FIPS 202's, PRESUMED, log entry 8), and the
Merkle tree of frame roots. -/

namespace Sys2Proof.Machine

/-- The bits of the round-constant generator from a register on: FIPS 202's eight-bit register with feedback x^8 + x^6 + x^5 + x^4 + 1
(PRESUMED, log entry 8). -/
def rcBits : Nat → Nat → List Bool
  | 0, _ => []
  | k + 1, r => r.testBit 0 :: rcBits k (if 128 ≤ r then (2 * r) ^^^ 0x171 else 2 * r)

/-- The word of seven generator bits: bit j of the generator stands at bit 2^j − 1. -/
def rcWord (l : List Bool) : Nat := ((List.range 7).map fun j => if l.getD j false then 2 ^ (2 ^ j - 1) else 0).sum

/-- Round constants of Keccak-f[1600]: seven generator bits a round, 24 rounds. -/
def keccakRC : List Nat := let g := rcBits 168 1; (List.range 24).map fun i => rcWord ((g.drop (7 * i)).take 7)

/-- The walk over the lanes that gives their offsets: step t turns its lane by (t + 1)(t + 2) / 2 and goes from (x, y) to (y, 2x + 3y)
(PRESUMED, log entry 8). -/
def rotWalk : Nat → Nat → Nat → Nat → List (Nat × Nat)
  | 0, _, _, _ => []
  | k + 1, t, x, y => (x + 5 * y, (t + 1) * (t + 2) / 2 % 64) :: rotWalk k (t + 1) y ((2 * x + 3 * y) % 5)

/-- Rotation offsets by lane x + 5y; lane 0 is not turned. -/
def keccakRot : List Nat :=
  let w := rotWalk 24 0 1 0
  (List.range 25).map fun i => match w.find? fun e => e.1 == i with
    | some e => e.2
    | none => 0

/-- 64-bit left rotation. -/
def rotl64 (n k : Nat) : Nat := (n <<< k ||| n >>> (64 - k)) % 2 ^ 64

/-- Lane of the state. -/
def lane (a : List Nat) (i : Nat) : Nat := a.getD i 0

/-- Theta: every lane takes the parities of the column to its left and of the column to its right, turned by one. -/
def keccakTheta (a : List Nat) : List Nat :=
  let par := (List.range 5).map fun x => ((List.range 5).map fun y => lane a (5 * y + x)).foldl (· ^^^ ·) 0
  a.zipIdx.map fun e => e.1 ^^^ lane par ((e.2 + 4) % 5) ^^^ rotl64 (lane par ((e.2 + 1) % 5)) 1

/-- Rho and pi: lane (x, y), turned by its offset, goes to (y, 2x + 3y). -/
def keccakMove (a : List Nat) : List Nat :=
  (List.range 25).map fun j =>
    let i := (j % 5 + 3 * (j / 5)) % 5 + 5 * (j % 5)
    rotl64 (lane a i) (lane keccakRot i)

/-- Chi: every lane takes the next lane but one of its row where the next lane is clear. -/
def keccakChi (a : List Nat) : List Nat :=
  a.zipIdx.map fun e =>
    let row := e.2 - e.2 % 5
    e.1 ^^^ (lane a (row + (e.2 + 2) % 5) &&& ((2 ^ 64 - 1) ^^^ lane a (row + (e.2 + 1) % 5)))

/-- One round of Keccak-f[1600]; iota puts the round constant into lane 0. -/
def keccakRound (a : List Nat) (rc : Nat) : List Nat :=
  match keccakChi (keccakMove (keccakTheta a)) with
  | l0 :: rest => (l0 ^^^ rc) :: rest
  | [] => []

/-- Keccak-f[1600]. -/
def keccakF (a : List Nat) : List Nat := keccakRC.foldl keccakRound a

/-- A block XORed into the state, 8 bytes per lane. -/
def absorb (a : List Nat) (blk : Bytes) : List Nat :=
  keccakF ((List.range 25).map fun i => lane a i ^^^ leNat (slice blk (8 * i) 8))

/-- Absorb whole blocks of `rate` bytes, then the padded rest. -/
def spongeBlocks (rate : Nat) : Nat → List Nat → Bytes → List Nat
  | 0, a, _ => a
  | k + 1, a, m =>
    if m.length < rate then
      let z := rate - m.length
      let pad := if z = 1 then [0x86] else [0x06] ++ List.replicate (z - 2) 0 ++ [(0x80 : Byte)]
      absorb a (m ++ pad)
    else spongeBlocks rate k (absorb a (m.take rate)) (m.drop rate)

/-- SHA3 with the given rate and digest length in bytes. -/
def sha3 (rate len : Nat) (m : Bytes) : Bytes :=
  let a := spongeBlocks rate (m.length / rate + 1) (List.replicate 25 0) m
  ((a.map (le 8)).flatten).take len

/-- SHA3-256: every digest of the IZ9 (09, Digests). -/
def digest (m : Bytes) : Bytes := sha3 136 32 m

/-- SHA3-384. -/
def sha3b384 (m : Bytes) : Bytes := sha3 104 48 m

/-- MAC(k, x) is HMAC-SHA3-384 (09, The key chain). -/
def mac (k x : Bytes) : Bytes :=
  let k0 := padTo 104 (if 104 < k.length then sha3b384 k else k)
  sha3b384 (k0.map (· ^^^ 0x5C) ++ sha3b384 (k0.map (· ^^^ 0x36) ++ x))

/-- Order of P-384 (PRESUMED, log entry 8). -/
def p384Order : Nat :=
  0xFFFFFFFFFFFFFFFFFFFFFFFFFFFFFFFFFFFFFFFFFFFFFFFFC7634D81F4372DDF581A0DB248B0A77AECEC196ACCC52973

/-- KEYPAIR(k, label): the private scalar d (09, The key chain). -/
def keypair (k label : Bytes) : Nat :=
  let z := mac k (label ++ [1]) ++ (mac k (label ++ [2])).take 16
  beNat z % (p384Order - 1) + 1

/-- One level of the frame tree: pairs hashed, an odd last node passed up (09, Frame roots). -/
def merkleUp : List Bytes → List Bytes
  | a :: b :: r => digest (1 :: (a ++ b)) :: merkleUp r
  | l => l

/-- Levels up to a single node. -/
def merkleFold : Nat → List Bytes → Bytes
  | _, [] => digest [2]
  | _, [r] => r
  | 0, r :: _ => r
  | k + 1, l => merkleFold k (merkleUp l)

/-- Frame root over tags in leaf order; without tags SHA3-256(0x02) (09, R243). -/
def frameRoot (tags : List Bytes) : Bytes := merkleFold (tags.length + 1) (tags.map fun t => digest (0 :: t))

/-- Drop root: by the frame-root rule over the listed hashes; 32 zero bytes when none (09, Table 9.10). -/
def dropRoot (ids : List Bytes) : Bytes := if ids = [] then List.replicate 32 0 else frameRoot ids

end Sys2Proof.Machine
end

