-- ==== Sys2Proof/Config.lean ====
section
/-! DEFINITION. What an implementation fixes and the free values: opaque constants without a body (DESIGN CHOICE, log entries 6, 7, 12). -/

namespace Sys2Proof.Config

/-- The card's Unique Device Secret, 32 bytes, fused (09, R227). -/
opaque uds : Bytes
/-- SHA3-256 of the Rosburos firmware key's public half, fused (15, Secure boot). -/
opaque fwKeyDigest : Bytes
/-- Fused minimum SVN (15, Secure boot). -/
opaque minSvn : Nat
/-- 0x2001:00 CardSerial (13, Table 13.8). -/
opaque serial : Nat
/-- MAC address of a port (13, Table 13.8). -/
opaque mac : Nat → Bytes
/-- ROM-held finish cycle of a tile's self-test (15, R430). -/
opaque romFinish : Nat → Nat
/-- ROM-held output digest of a tile's self-test (15, R430). -/
opaque romDigest : Nat → Bytes
/-- A byte string drawn from the true random source or made by a signature or a cipher whose bytes the spec leaves to its
algorithm: the n-th draw (DESIGN CHOICE, log entries 6, 7). -/
opaque fresh : Nat → Bytes
/-- A number whose value the spec leaves open: the n-th draw (DESIGN CHOICE, log entry 6). -/
opaque freeNat : Nat → Nat
/-- A raw 48-bit value whose value the spec leaves open: the n-th draw (DESIGN CHOICE, log entry 6). -/
opaque freeWord : Nat → BitVec 48
/-- ES384 signature bytes, r then s, of a message under a private scalar (09, R247; DESIGN CHOICE, log entry 7). -/
opaque sign : Nat → Bytes → Bytes
/-- Public key, 97-byte uncompressed point, of a P-384 private scalar (09; DESIGN CHOICE, log entry 7). -/
opaque publicKey : Nat → Bytes
/-- Certificate bytes: issuer scalar, subject public key, measurement named in TcbInfo (09, R230; DESIGN CHOICE, log entry 7). -/
opaque certificate : Nat → Bytes → Bytes → Bytes
/-- Lane configuration of one column group from its 16 bytes of node plane: per lane (mode, window position in units of the
lane's width, split code, sense GE, default bit, segment start, segment width, mask offset, index level + 1 or 0). Modes: 0
4-bit, 1 8-bit, 2 16-bit, 3 membership, whose split code is the byte offset of its 256-bit mask in the mask plane; any other
mode names a segment and has no lane. The layout is not in the spec (DESIGN CHOICE, log entry 12). -/
opaque laneFields : Bytes → List (Nat × Nat × Nat × Bool × Bool × Nat × Nat × Nat × Nat)
/-- Scoring image shape of a Growing bundle, from its model measurement: per tree group, per pass group, the segments, each as tree
number, heap index of its root, depth, first bit and width in the leaf bank; how the compiler divides an ensemble is not in the spec
(07, R186; DESIGN CHOICE, log entry 12). -/
opaque grownShape : Bytes → List (List (List (Nat × Nat × Nat × Nat × Nat)))
/-- Node plane and mask plane of each pass of a pass group, from its lanes in order: feature, split code, sense GE, default bit, first bit and
width of the segment, exclusion mask; the layout of the planes is not in the spec (05; DESIGN CHOICE, log entry 12). -/
opaque passPlanes : List (Nat × Nat × Bool × Bool × Nat × Nat × Nat) → List (Bytes × Bytes)
/-- The header of a model image after "IZMG" from version, stage count, group count, and the offset and length of the cut tables, the group
directory and the group images; the places of the fields are not in the spec (19, ModelImage; DESIGN CHOICE, log entry 12). -/
opaque imageHeader : Nat → Nat → Nat → Nat × Nat → Nat × Nat → Nat × Nat → Bytes
/-- Encoded certificate chain, EAT, SPDM and TDISP message bytes, from a kind and the byte strings they carry (DESIGN CHOICE, log entry 7). -/
opaque message : Nat → List Bytes → Bytes
/-- AES Key Wrap (RFC 3394) of a key under a KEK (12, R339; DESIGN CHOICE, log entry 7). -/
opaque keyWrap : Bytes → Bytes → Bytes
/-- AES-256-GCM bytes (ciphertext and tag) of a box: key, nonce, additional data, plaintext (DESIGN CHOICE, log entry 7). -/
opaque gcm : Bytes → Bytes → Bytes → Bytes → Bytes
/-- A loss program's (g, h) for a row of a custom loss, from the digest of ResultOptions, margins, label, output (05, Custom losses; DESIGN CHOICE, log entry 12). -/
opaque customLoss : Bytes → List Int → Option Int → Nat → Int × Int

/-- Feature entries that LabelFeature and WeightFeature of a job name, from the digest of ResultOptions; Table 19.5 gives them no place
(07, Table 7.1; DESIGN CHOICE, log entry 62). -/
opaque labelEntry : Bytes → Option Nat
opaque weightEntry : Bytes → Option Nat

/-- Kind byte of an EPOCH_REQ for a unit number; the spec lists no codes (11, Table 11.3). -/
opaque epochKind : Nat → Nat

/-- StreamTag of a Fold's payload position on a link; the spec does not say how schedule streams are numbered (11, Table 11.1). -/
opaque streamTag : Nat → Nat → Nat → Nat

/-- IZR bytes that a number of AES positions and of binning positions carry in a frame of P counts; the spec gives no rate
of a position (10, R267). -/
opaque wheelBytes : Nat → Nat → Nat → Nat

/-- First bits of the 12-bit codes in a row of a window load, ascending, from the load's address and bytes per row; the spec
does not say how a load tells widths apart (05, R107). -/
opaque packed12 : Nat → Nat → List Nat

/-- Image byte offset whose model-store copy a resident tile-store word holds, from mapping, Fold-relative tile and word; the
place is the compiler's (14, Where poison ends). -/
opaque residentSource : Nat → Nat → Nat → Option Nat

/-- Cycles per 64 rows of a custom loss, its program named by the digest of ResultOptions; the spec gives none (05, Custom losses). -/
opaque customCycles : Bytes → Nat

/-- The model-store member that holds an address of a stack, in the Fold's own numbering, in a Fold's model regions, if one does; the placement of the
members is not in the spec (08, R215). -/
opaque modelMember : Nat → Nat → Nat → Option Nat

/-- Stack and address, in the Fold's own numbering, of the row data of a quad of a block: kind 0 codes, 1 labels, 2 weights; the placement in HBM is
not in the spec (07, R160; 18, ROWS). -/
opaque rowPlace : Nat → Nat → Nat → Nat × Nat

/-- The address of a stack, in a Fold's own numbering, lies in the scratch of its level-steps: fold, stack, address; the placement
in HBM is not in the spec (14, Where poison ends). -/
opaque scratchAt : Nat → Nat → Nat → Bool

/-- Features whose codes a tile's rows hold, in order, from the bundle digest and the Fold-relative tile; which codes a tile takes is
the compiler's (06; 08, R204). -/
opaque rowLayout : Bytes → Nat → List Nat

/-- File to which a Fold-relative tile belongs under a mapping, from the bundle digest; the division is the compiler's (06, R151). -/
opaque fileOf : Bytes → Nat → Nat → Option Nat

/-- Tile-store address of the codes, or of the activations, of a file's batch of an arrival frame in a Fold-relative tile under a
mapping, from the bundle digest; the place is the compiler's (08, Streams and credits). -/
opaque codesAt : Bytes → Nat → Nat → Nat → Nat → Bool → Nat

/-- Fold-relative tile and tile-store address of the scores of an output of a batch of an arrival frame under a mapping, from the bundle
digest; the place is the compiler's (06, R157). -/
opaque scoresAt : Bytes → Nat → Nat → Nat → Nat → Nat × Nat

/-- FramFree in bytes, from the count of sealed events held and of staged journal pages; the FRAM's size is not in the spec (13, Table
13.10; DESIGN CHOICE, log entry 12). -/
opaque framFree : Nat → Nat → Nat

/-- PageSeq that stands for the latest sealed page (kind 0), or frame for the last wholly sent (kind 1), of a Fold that has none, from the
count; the spec gives no value (09, 12, 13 and 14; DESIGN CHOICE, log entry 47). -/
opaque noneYet : Nat → Nat → Nat → Nat

/-- ChainOut that stands for the latest sealed page of a Fold that has none, from the count (13, Table 13.11; DESIGN CHOICE, log entry
47). -/
opaque noChainYet : Nat → Nat → Bytes

/-- HardwareVersion: the board revision string (13, Table 13.7). -/
opaque boardRevision : Bytes

/-- SoftwareVersion string of the firmware with this measurement (13, Table 13.7). -/
opaque softwareVersion : Bytes → Bytes

end Sys2Proof.Config
end

