-- ==== Sys2Proof/Machine/State.lean ====
section
/-! DEFINITION. The state of one IZ9 card as plain data, and the state after reset. In a field's docstring the parts between
bars are: what it is, where the spec names it, its value in `State.reset` (marked DESIGN CHOICE, with the log
entry, where the spec gives none).
Numbers are `Nat` where the machine never wraps them in service; the width of the register stands in the docstring. -/

namespace Sys2Proof.Machine

/-- Faults: an access to an address that the spec says does not exist. -/
inductive Fault
  /-- A tile operation addressed tile store outside its 1 MiB (05, Table 5.7). Raised by SCHEDULED_OPERATION. Safe: the machine stops. -/
  | tileStoreAddress (tile addr : Nat)
  /-- A transfer addressed an HBM stack outside its 24 GiB (01, R14). Raised by HBM_SLOT. Safe: the machine stops. -/
  | hbmAddress (stack addr : Nat)
  deriving DecidableEq, Repr

/-- Refusals. -/
inductive Refusal
  /-- The command has no meaning in this model yet. Raised by `exec`'s arms alone. Safe: the machine stops. -/
  | notModelled (mnemonic : String)
  deriving DecidableEq, Repr

/-! ## Time -/

/-- The Global Time Counter and its discipline (02). -/
structure Clock where
  /-- GTC, 64 bits | 00 R4; 02 R27 | 0 (15, R422) -/
  gtc : Gtc
  /-- The tick generator runs: PLL locked since the last cold reset | 15, R422 | false -/
  running : Bool
  /-- Counts of the reference oscillator since the lock: what the GTC would have advanced without steps, added and skipped counts
  | 02, The Global Time Counter | 0 -/
  osc : Nat
  /-- GtcOffset telemetry, ps, 64 bits signed | 13, Table 13.10 | 0 -/
  offsetPs : Int
  /-- SlewRemaining telemetry, counts, 64 bits signed: counts still to add, or to skip where negative | 13, Table 13.10 | 0 -/
  slew : Int
  /-- GTC count of the last added or skipped count | 02, R28 | 0 -/
  slewAt : Gtc
  /-- The GTC is locked to SYNC0 | 02, R30 | false -/
  sync0Locked : Bool
  /-- Lock to SYNC0 was offered with the cycle time it then had, counts | 02, R30 | DESIGN CHOICE 0 (log entry 9) -/
  sync0Cycle : Nat
  deriving DecidableEq, Repr

/-! ## Power, boot, service -/

/-- Board power, boot progress and service level (14, 15, 17). -/
structure Power where
  /-- Main power good seen since the last loss | 15, Table 15.1 | false -/
  main : Bool
  /-- GTC of the release from which Table 15.1 runs again (warm reset) | 15, Resets | 0 -/
  releasedAt : Nat
  /-- Root firmware verified, DICE chain built | 15, R425 | false -/
  booted : Bool
  /-- Recovery state: no firmware set verified | 15, R423 | false -/
  recovery : Bool
  /-- Stile training has ended | 15, R429 | false -/
  stileTrained : Bool
  /-- HBM training has ended | 15, R428 | false -/
  hbmTrained : Bool
  /-- Self-test has ended | 15, R432 | false -/
  selfTested : Bool
  /-- A binning, AES or SHA3 engine failed its known-answer test | 15, R431 | false -/
  engineFailed : Bool
  /-- READY reached | 15, R432 | false -/
  ready : Bool
  /-- Halted by a card-level trip (Table 14.5) | 14, R405 | false -/
  halted : Bool
  /-- Egress gated by a trip | 14, R403 | false -/
  gated : Bool
  /-- Core clocks stopped by a trip | 14, Table 14.5 | false -/
  clocksStopped : Bool
  /-- A card trip is confirmed and waits for this card tick | 14, R406 | none -/
  tripAt : Option Nat
  /-- Service level, 0 to 3 | 14, Table 14.7 | 1 -/
  level : Nat
  /-- CARD_CBL_PRES#, SENSE0, SENSE1 as fixed at M: usable main power, W | 17, R459 | 75 -/
  usableW : Nat
  /-- Rails raised, in order Root core, quadrant cores, HBM VDD, HBM VDDQ | 15, R421 | 0 -/
  railsUp : Nat
  /-- BoardPower, mW, 32 bits | 17, R461 | DESIGN CHOICE 0 (log entry 9) -/
  boardMw : Nat
  /-- Core rail reading, mV, 16 bits | 13, Table 13.10 | DESIGN CHOICE 0 (log entry 9) -/
  coreMv : Nat
  /-- HBM rail reading, mV, 16 bits | 13, Table 13.10 | DESIGN CHOICE 0 (log entry 9) -/
  hbmMv : Nat
  /-- HottestJunction, 0.1 °C, 16 bits signed | 13, Table 13.10 | DESIGN CHOICE 0 (log entry 9) -/
  hottest : Int
  /-- THERMAL_WARN is armed | 14, R406 | true -/
  warnArmed : Bool
  /-- Sensors reported invalid | 14, R407 | empty -/
  badSensors : List Nat
  /-- The trip sensor of a pending thermal trip and its reading | 14, R406 | (0, 0) -/
  tripSensor : Nat × Int
  /-- PERST# is asserted | 15, Resets | DESIGN CHOICE true (log entry 5) -/
  perst : Bool
  /-- GTC (or 0 before it runs) of PERST# deassertion | 15, R426 | 0 -/
  perstAt : Nat
  /-- Landing-SRAM bytes of a recovery set received over the mailbox | 18, Table 18.7 | empty -/
  chunks : SMap Byte
  /-- QSFP-DD module of cage 0 and 1 held in low-power mode | 17, R464 | false, false -/
  lowPower : Bool × Bool
  /-- Landing SRAM, 128 MiB, bytes that differ from zero | 01, Table 1.1 | DESIGN CHOICE zero (log entry 10) -/
  landing : SMap Byte
  /-- Landing-SRAM scrub pointer | 14, R390 | 0 -/
  landingScrub : Nat
  /-- 64-bit words of landing SRAM with a correctable error | 14, Table 14.2 | empty -/
  landingSoft : List Nat
  /-- Landing-SRAM word that waits for its scrub write-back | 14, R390 | none -/
  landingBack : Option Nat
  /-- Root engine under known-answer test, in rotation | 14, Table 14.1 | 0 -/
  engineTest : Nat
  deriving DecidableEq, Repr

/-! ## Events -/

/-- Event record (13, Table 13.12). -/
structure Event where
  stamp : Nat
  source : Nat
  seq : Nat
  code : Nat
  isSealed : Bool
  frameOutcome : Bool
  detail : Bytes
  deriving DecidableEq, Repr

/-- Discards counted under one IZR_DISCARD window (14, R416). -/
structure DiscardWin where
  port : Nat
  cause : Nat
  channel : Nat
  opened : Nat
  count : Nat
  deriving DecidableEq, Repr

/-- The event collector and the two logs (13, 14). -/
structure Events where
  /-- Events that have no log position yet | 13, R384 | empty -/
  waiting : List Event
  /-- Next sequence number of each source's unit, modulo 65,536 | 02, Event stamps | 0 -/
  seqs : SMap Nat
  /-- Volatile log, oldest first, at most 65,536 | 13, R385 | empty -/
  log : List Event
  /-- 0x5000:01 NextPosition, 64 bits | 13, Table 13.11 | 0 -/
  next : Nat
  /-- Sealed log in FRAM, oldest first, at most 4,096 | 13, R385 | empty -/
  sealedLog : List Event
  /-- 0x5100:01 NextPosition of the sealed log | 13, Table 13.11 | 0 -/
  sealedNext : Nat
  /-- Last seal of a code and source: (code, source, stamp) | 14, R417 | empty -/
  seals : List (Nat × Nat × Nat)
  /-- IZR_DISCARD windows | 14, R416 | empty -/
  discards : List DiscardWin
  /-- Last ECC_CE_RATE of a unit: (unit, stamp) | 14, R413 | empty -/
  ceLast : List (Nat × Nat)
  deriving DecidableEq, Repr

/-! ## Stored configuration (the dictionary's writable entries) -/

/-- ChannelTable entry (10, Table 10.4). -/
structure ChanCfg where
  fold : Nat
  clientKey : Bytes
  allowed : Bytes
  egressAddr : Bytes
  egressUdp : Nat
  egressPort : Nat
  byteBudget : Nat
  recordQuota : Nat
  role : Nat
  input : Nat
  mtu : Nat
  deriving DecidableEq, Repr

/-- CheckpointTarget (12, Table 12.3), subindices 1 to 9. -/
structure CkptTarget where
  address : Bytes
  tcpPort : Nat
  nqn : Bytes
  nsid : Nat
  base : Nat
  areaLbas : Nat
  egressPort : Nat
  ledgerBase : Nat
  ledgerLbas : Nat
  deriving DecidableEq, Repr

/-- InputBinding and its key f × 64 + i (13, Table 13.14). -/
structure InBind where
  source : Nat
  pdo : Nat
  offset : Nat
  length : Nat
  kind : Nat
  deriving DecidableEq, Repr

/-- ResultBinding (13, Table 13.14). -/
structure OutBind where
  dest : Nat
  pdo : Nat
  offset : Nat
  deriving DecidableEq, Repr

/-- Stored configuration of one Fold (13, Table 13.5). -/
structure FoldCfg where
  /-- PlotMask, 80 bits | 13, Table 13.9 | 0 -/
  plots : BitVec 80
  /-- HbmUnitMask, 192 bits | 13, Table 13.9 | 0 -/
  units : BitVec 192
  /-- LedgerRingPages, 16 bits | 13, Table 13.9 | 8 -/
  ringPages : Nat
  /-- LedgerExport, 8 bits | 13, Table 13.9 | 0x01 -/
  dests : BitVec 8
  /-- CheckpointTarget | 12, Table 12.3 | Table 12.3 -/
  target : CkptTarget
  /-- ResultBinding | 13, Table 13.14 | 0 -/
  outBind : OutBind
  deriving DecidableEq, Repr

/-- The configuration that 0x1010:01 stores (13, Table 13.5). -/
structure Settings where
  /-- 0x2010:00 TickPeriod, 32 bits | 02, R32 | 10,000 -/
  tickPeriod : Nat
  /-- 0x2011:00 OperatingPoint | 13, Table 13.8 | OP-A -/
  op : OpPoint
  /-- 0x2012:00 OperatingPointCap | 13, Table 13.8 | OP-A -/
  opCap : OpPoint
  /-- 0x2030:00 PortLayout, 8 bits | 10, Table 10.1 | 3 -/
  portLayout : Nat
  /-- ChannelTable, changed entries by channel | 10, Table 10.4 | defaults -/
  channels : SMap ChanCfg
  /-- Per-Fold stored entries | 13, Table 13.9 | defaults -/
  folds : Vector FoldCfg 16
  /-- InputBinding, key 64 × fold + input | 13, Table 13.14 | 0 -/
  inBinds : SMap InBind
  /-- Every other stored entry, key index × 256 + subindex, value bytes where they differ from the default | 13, Tables 13.7, 13.8 | defaults -/
  vals : SMap Bytes
  deriving DecidableEq, Repr

/-- A segmented transfer in progress on a path (13, R374). -/
structure SegXfer where
  path : Nat
  fn : Nat
  index : Nat
  sub : Nat
  lastAt : Nat
  deriving DecidableEq, Repr

/-- LastRefusal of a path (13, Table 13.11). -/
structure LastRef where
  index : Nat
  sub : Nat
  abort : Nat
  at_ : Nat
  deriving DecidableEq, Repr

/-- Card snapshot as the dictionary shows it (13, R373). -/
structure Snapshot where
  /-- SnapshotTick | 13, Table 13.10 | 0 -/
  tick : Nat
  /-- Values of the telemetry entries that the Root die maintains, key index × 256 + subindex | 13, R373, Table 13.10 | zero -/
  vals : SMap Bytes
  deriving DecidableEq, Repr

/-- The Shepherd: supplies, keys, dictionary, field bracket (13, 15, 17). -/
structure Shepherd where
  /-- The Shepherd runs (ROM verified, dictionary served) | 15, R419 | false -/
  up : Bool
  /-- A Shepherd restart is in progress | 15, R439 | false -/
  restarting : Bool
  /-- Supplies present: main, PoE, 3.3Vaux | 15, R418 | none -/
  supplies : Bool × Bool × Bool
  /-- 0x4300:01 SupplySource | 15, R418 | DESIGN CHOICE aux (log entry 9) -/
  source : Supply
  /-- 0x4300:02 ShepherdPower, mW | 13, Table 13.10 | DESIGN CHOICE 0 (log entry 9) -/
  powerMw : Nat
  /-- FB_PRES# is high: no field bracket | 17, R467 | DESIGN CHOICE true (log entry 5) -/
  fbPresHigh : Bool
  /-- EtherCAT AL state: 1 INIT, 2 PRE-OP, 4 SAFE-OP, 8 OP | 15, R419; 13, R376 | 1 -/
  alState : Nat
  /-- CAN NMT state: 0 off the bus, 1 boot-up, 4 Stopped, 5 Operational, 0x7F Pre-operational | 15, R419 | 0 -/
  nmt : Nat
  /-- Field controller states before a restart (EtherCAT, CAN) | 15, R439 | (1, 0) -/
  fieldBefore : Nat × Nat
  /-- 0x4200 FieldNodes, last NMT state seen from each node | 13, Table 13.10 | 0 -/
  nodes : SMap Nat
  /-- 0x6000 RxImage, 1,024 bytes | 13, Table 13.14 | zero -/
  rxImage : SMap Byte
  /-- 0x6100 TxImage, 512 bytes | 13, Table 13.14 | zero -/
  txImage : SMap Byte
  /-- TPDO 1 to 4 data waiting to be sent | 10, R282 | empty -/
  tpdos : SMap Bytes
  /-- Cursor of each path, volatile and sealed window, key 2 × path + window | 13, Table 13.11 | 0 -/
  cursors : SMap Nat
  /-- EatNonce of each path, key 16 × path + fold | 13, Table 13.9 | none -/
  eatNonces : SMap Bytes
  /-- Last signed EAT of each path and Fold, key 16 × path + fold | 13, R383 | none -/
  eats : SMap Bytes
  /-- 0x5002 LastRefusal of each path | 13, Table 13.11 | zero -/
  refusals : SMap LastRef
  /-- Segmented transfers in progress | 13, R374 | empty -/
  segs : List SegXfer
  /-- Card snapshot | 13, R373 | zero -/
  snap : Snapshot
  /-- Configuration stored by 0x1010:01, kept across cold reset | 13, R378 | defaults -/
  stored : Settings
  /-- RestoreDefaults waits for the next cold or warm reset | 13, R378 | false -/
  restore : Bool
  /-- Configuration writes taken on PoE that act at the next main power-up | 13, Table 13.4 | empty -/
  deferred : List (Nat × Nat × Bytes)
  /-- An SPI NOR device was repaired in this power cycle | 14, R393 | false -/
  norRepaired : Bool
  /-- Positions of the sealed log that some path has read | 13, Table 13.7 (ErrorRegister bit 7) | empty -/
  sealedSeen : List Nat
  /-- Sets held in SPI NOR devices A and B failed at boot: (A bad, B bad) | 15, R423 | (false, false) -/
  norBad : Bool × Bool
  deriving DecidableEq, Repr

/-- Always-kept entries (13, Table 13.5). -/
structure Kept where
  /-- 0x2110:00 OwnerKey, 97 bytes; empty stands for zero | 13, Ownership | zero -/
  ownerKey : Bytes
  /-- 0x2111:00 OperatorKey | 13, Table 13.8 | zero -/
  operatorKey : Bytes
  /-- 0x2112:01 AuthSeq owner, 64 bits | 13, R364 | 0 -/
  seqOwner : Nat
  /-- 0x2112:02 AuthSeq operator, 64 bits | 13, R364 | 0 -/
  seqOperator : Nat
  /-- 0x2100:03 HeathOwner, 32 bytes; empty stands for zero | 11, R308 | zero -/
  heathOwner : Bytes
  deriving DecidableEq, Repr

/-! ## A loaded bundle -/

/-- Feature entry (19, Table 19.4). -/
structure Feature where
  offset : Nat
  typ : Nat
  scale : Nat
  width : Nat
  categorical : Bool
  linear : Bool
  external : Option Nat
  deriving DecidableEq, Repr

/-- Job descriptor (07, Table 7.1; 19, Table 19.5). -/
structure Job where
  kind : Nat
  rerun : Bool
  gradWidth : Nat
  depth : Nat
  outputs : Nat
  loss : Nat
  rounds : Nat
  eta : Int
  lambda : Int
  gamma : Int
  minH : Int
  leafClamp : Int
  rowRate : Nat
  colTree : Nat
  colLevel : Nat
  sampleRate : Nat
  genKey : Nat
  sampleMax : Nat
  lossParam : Int
  base : List Int
  /-- LabelFeature and WeightFeature: feature entry numbers (07, Table 7.1) -/
  label : Option Nat
  weight : Option Nat
  deriving DecidableEq, Repr

/-- Cut table (19, ModelImage): thresholds as their bytes read, kinds true for GT. -/
structure CutTable where
  feature : Nat
  typ : Nat
  scale : Nat
  use : Nat
  cuts : List (Nat × Bool)
  deriving DecidableEq, Repr

/-- Input declaration (19, Table 19.6). -/
structure InDecl where
  number : Nat
  kind : Nat
  carrier : Nat
  deriving DecidableEq, Repr

/-- Resources (19, Table 19.6). -/
structure Resources where
  plots : List Nat
  units : List Nat
  pcieRecords : Nat
  ingestRows : Nat
  spillBytes : Nat
  stagingBytes : Nat
  tagAnnex : Bool
  ringMax : Nat
  annexBytes : Nat
  inputs : List InDecl
  deriving DecidableEq, Repr

/-- Slot-plan entry (19, Resources and slot plan). -/
structure SlotEntry where
  resource : Nat
  inst : Nat
  pos : Nat
  kind : Nat
  deriving DecidableEq, Repr

/-- Mapping entry (19, Table 19.7). -/
structure Mapping where
  id : Nat
  cards : Nat
  quads : Nat
  variant : Nat
  files : Nat
  bf : Nat
  capacity : Nat
  roles : List Nat
  deriving DecidableEq, Repr

/-- Frame entry (19, Table 19.8). -/
structure FrameEntry where
  block : Nat
  predicted : List Nat
  deriving DecidableEq, Repr

/-- Segment (19). -/
structure Segment where
  repeats : Bool
  frames : List FrameEntry
  deriving DecidableEq, Repr

/-- What a load leaves for a Fold: digests and the decoded sections (19, Tables 19.1 to 19.8). -/
structure Loaded where
  modelMeas : Bytes
  bundleDigest : Bytes
  foldMeas : Bytes
  graphDigest : Bytes
  resultDigest : Bytes
  op : OpPoint
  period : Nat
  realtime : Bool
  growing : Bool
  presence : Bool
  cast : Nat
  binary32 : Bool
  outputCount : Nat
  features : List Feature
  job : Option Job
  cuts : List CutTable
  /-- Cut tables of `cuts` that came with the bundle; the pre-phase's stand after them -/
  bundleCuts : Nat
  res : Resources
  slots : List SlotEntry
  maps : List Mapping
  segs : List Segment
  progs : List TileProg
  imageLen : Nat
  role : Nat
  deriving DecidableEq, Repr

/-! ## Records and results -/

/-- Where a record's result goes. An IZR result names the channel, the key slot its record was decrypted under, and that
slot's egress key and salt at that time: a key replaced before the result leaves stays held here until it has left (09, R239). -/
inductive Route
  | izr (channel : Nat) (slot : Bool) (key salt : Bytes)
  | pcie (cid addr : Nat)
  | field
  deriving DecidableEq, Repr

/-- What a record of a replay Fold takes from its header (03, R64, R65): header number, OrigStamp, LateSet, its place among
the header's records, RecordCount. -/
structure RepTag where
  hid : Nat
  stamp : Nat
  late : BitVec 64
  leaf : Nat
  count : Nat
  deriving DecidableEq, Repr

/-- A record that landed and waits for admission (10). -/
structure Arrival where
  frame : Nat
  stamp : Nat
  unit : Nat
  pos : Nat × Nat
  recId : Bytes
  channel : Option Nat
  input : Bytes
  route : Route
  external : Option Nat
  tick : Bool
  orig : Option RepTag
  deriving DecidableEq, Repr

/-- An admitted record (06, 09). `scores` are the raw 48-bit outputs by place in the output list; `hashIn` marks the ingress
half of its tag preimage as absorbed; `tag` is empty until the tag is formed. -/
structure Rec where
  stamp : Nat
  unit : Nat
  pos : Nat × Nat
  route : Route
  input : Bytes
  fedMissing : Bool
  codes : List Nat
  acts : List Nat
  late : Bool
  invalid : Bool
  binned : Bool
  hashIn : Bool
  scores : SMap (BitVec 48)
  body : Bytes
  tag : Bytes
  sealedOut : Bool
  poisoned : Bool
  orig : Option RepTag
  deriving DecidableEq, Repr

/-- The records of one arrival frame on their way through the pipeline (02, Table 2.2). -/
structure Cohort where
  frame : Nat
  openTick : Nat
  recs : List Rec
  late : BitVec 64
  drops : List Bytes
  dropCount : Nat
  withheld : Option Nat
  admitted : Bool
  /-- Results placed in the queues, in leaf order -/
  placed : Nat
  /-- Qe of the arrival frame (10, R270) -/
  quota : Nat
  /-- External inputs delivered in the arrival frame (08, R205) -/
  ext : List (Nat × Bytes)
  /-- Code parts moved into tile store: batch, tile, part, activations (08, R204) -/
  moved : List (Nat × Nat × Nat × Bool)
  /-- Scores read back: batch, output (06, R157) -/
  read : List (Nat × Nat)
  deriving DecidableEq, Repr

/-- A finished result (08, Back-pressure). -/
structure Result where
  frame : Nat
  leaf : Nat
  count : Nat
  route : Route
  body : Bytes
  tag : Bytes
  status : Nat
  poisoned : Bool
  deriving DecidableEq, Repr

/-- A record-buffer read that is outstanding: command ID, result buffer, fetch number, replay place (10, R280). -/
structure Read where
  cid : Nat
  resAddr : Nat
  n : Nat
  orig : Option RepTag
  deriving DecidableEq, Repr

/-- Admission state of a Fold (10, Admission). -/
structure Admit where
  /-- Quota Q of the open frame | 10, R270 | 0 -/
  q : Nat
  /-- PCIe share Qp | 10, R270 | 0 -/
  qp : Nat
  /-- Ethernet and field share Qe | 10, R270 | 0 -/
  qe : Nat
  /-- PCIe record-buffer reads outstanding in fetch order | 10, R280 | empty -/
  reads : List Read
  /-- Number of the next record entry fetched: the order of R491 | 18, R491 | 0 -/
  fetched : Nat
  /-- PCIe records stamped in the open frame | 10, R280 | 0 -/
  stamped : Nat
  /-- Landed records not admitted yet | 10, R271 | empty -/
  arrivals : List Arrival
  /-- IZR bytes accepted in a frame, key 65,536 × frame + channel | 10, R267 | 0 -/
  bytes : SMap Nat
  /-- External inputs delivered in the frames not closed yet: input, stamp, value | 08, R205 | empty -/
  delivered : List (Nat × Nat × Bytes)
  /-- Admission is closed (stop, MODEL_LOST) | 09, Table 9.1 | false -/
  closed : Bool
  /-- Frame from which admission is closed | 08, R220 | none -/
  closeFrom : Option Nat
  /-- The open page opened with a backlog: quota zero | 09, R251 | false -/
  backlog : Bool
  deriving DecidableEq, Repr

/-- Result queues of a Fold (08, R209 to R212). -/
structure Results where
  /-- Result credits taken of the pool 4C | 08, R210 | 0 -/
  taken : Nat
  /-- Egress queue, C results | 08, R209 | empty -/
  egress : List Result
  /-- Staging, C results | 08, R209 | empty -/
  staging : List Result
  /-- Spill region, 2C results | 08, R209 | empty -/
  spill : List Result
  /-- Last arrival frame whose results had all left; none before the first | 14, R404 | none -/
  lastSent : Option Nat
  deriving DecidableEq, Repr

/-! ## Ledger -/

/-- A sealed page in the ring: its object bytes, annexes, which destinations acknowledged it, how many of its objects the
host has read to their end, how many the journal has taken (09; 16). -/
structure Page where
  seq : Nat
  bytes : Bytes
  dropAnnex : Bytes
  tagAnnex : Bytes
  acked : BitVec 8
  chainOut : Bytes
  final : Bool
  hostRead : Nat
  sdRead : Nat
  deriving DecidableEq, Repr

/-- A page that is not sealed yet: `last` is its last frame once it has closed (09, R246). -/
structure OpenPage where
  seq : Nat
  first : Nat
  openTick : Nat
  growing : Bool
  meas : Bytes
  entries : List Bytes
  drops : List (Nat × List Bytes)
  tags : List (Nat × List Bytes)
  last : Option Nat
  final : Bool
  deriving DecidableEq, Repr

/-- Ledger state of a Fold (09). -/
structure Ledger where
  /-- Chain value before the first entry of the oldest unsealed page | 09, R245 | empty -/
  chain : Bytes
  /-- Next PageSeq | 09, Table 9.9 | 0 -/
  nextSeq : Nat
  /-- Open page | 09, R246 | none -/
  page : Option OpenPage
  /-- Pages that have closed and are not sealed yet, oldest first | 09, R246 | empty -/
  closing : List OpenPage
  /-- Sealed pages that hold ring slots | 09, R250 | empty -/
  ring : List Page
  /-- Latest sealed PageSeq and its ChainOut | 09, Table 9.5 | none -/
  latest : Option (Nat × Bytes)
  /-- Acknowledged PageSeq of host, file store, evidence card | 13, Table 13.11 | none -/
  acks : List (Option Nat)
  /-- The certificate chain went to host (read to its end), file store, evidence card | 09, R249; 18, LEDGER_READ | false -/
  certSent : List Bool
  /-- Ledger write position in the file-store range, LBA offset | 12, The file store | 0 -/
  fileLba : Nat
  deriving DecidableEq, Repr

/-! ## Growing -/

/-- Block of escapes, totals and maxima of one output in the running gradient step (04). -/
structure OutScale where
  maxG : Nat
  maxH : Nat
  totG : Nat
  totH : Nat
  stepG : Nat
  stepH : Nat
  srcG : Nat
  srcH : Nat
  deriving DecidableEq, Repr

/-- Growing progress of a Fold (07). -/
structure Grow where
  /-- FoldProgress phase: 0 none, 1 Growing, 2 Scoring | 13, Table 13.9 | 0 -/
  phase : Nat
  /-- Round r, 32 bits | 07, R158 | 0 -/
  round : Nat
  /-- Class c | 07, R158 | 0 -/
  cls : Nat
  /-- Level-step k | 07, R158 | 0 -/
  step : Nat
  /-- The gradient step of the attempt runs two-pass | 04, R91 | false -/
  twoPass : Bool
  /-- The attempt is itself a re-run | 09, Table 9.10 | false -/
  rerun : Bool
  /-- SCALE_MISS of this card in the attempt, with its block | 04, R97 | none -/
  miss : Option Nat
  /-- The attempt raised SCALE_COARSE | 04, R99; 09, Table 9.10 | false -/
  coarse : Bool
  /-- The attempt raised HIST_OVERFLOW | 05, R121; 09, Table 9.10 | false -/
  overflow : Bool
  /-- Gradient-step figures of every output | 04, R98 | empty -/
  scales : List OutScale
  /-- Scale history, newest first | 04, R101 | empty -/
  history : List ScaleRec
  /-- Completed trees | 07, R186 | empty -/
  trees : List GrownTree
  /-- Split records of the partial tree, this card's best before the exchange | 07, R179 | empty -/
  partialTree : List SplitRec
  /-- Leaf values of the running tree by heap index | 07, R181 | 0 -/
  leaves : SMap Int
  /-- Node-id bank that the step reads: 0 or 1 | 07, R161 | 0 -/
  nodeBank : Nat
  /-- Margin bank that the round reads: 0 or 1 | 07, R161 | 0 -/
  marginBank : Nat
  /-- Node ids, key 2 × row + bank, 16 bits | 07, R160 | DESIGN CHOICE 0 (log entry 9) -/
  nodes : SMap Nat
  /-- Margins, key (row × 256 + class) × 2 + bank, 48 bits | 07, R161 | DESIGN CHOICE 0 (log entry 9) -/
  margins : SMap (BitVec 48)
  /-- Sampled rows of this card: row and body | 07, R163 | empty -/
  sample : List (Nat × Bytes)
  /-- Label of a row by row number, as read; none where it is absent | 07, R531 | none -/
  labels : SMap (Option Int)
  /-- Row weight of a row by row number; none where it is absent, which is 1.0 | 07, R531 | none -/
  weights : SMap (Option Nat)
  /-- Feature quads that this card owns in the running step: the first and their number | 07, R172 | (0, 0) -/
  quads : Nat × Nat
  /-- Next global row expected by pass 0 and by pass 1 | 18, R495 | 0, 0 -/
  nextRow : Nat × Nat
  /-- Rows taken in the open frame | 18, R495 | 0 -/
  rowsThisFrame : Nat
  /-- ROWS entry taken in part: its command ID | 18, R495 | none -/
  rowsCid : Option Nat
  /-- Ingest pass running: 0 sample, 1 bin, none | 18, ROWS | none -/
  pass : Option Nat
  /-- First block and block count of the card | 12, Table 12.2 | 0, 0 -/
  blocks : Nat × Nat
  /-- Global row total | 12, Table 12.2 | 0 -/
  rowTotal : Nat
  /-- A REPLAY was flooded or received for this step: cause | 11, R317 | none -/
  replayCause : Option Nat
  /-- The running step is itself a replay | 02, R49 | false -/
  inReplay : Bool
  /-- First frame of the running attempt | 09, Table 9.10 | 0 -/
  attemptFirst : Nat
  /-- Sum over the cards of sampled rows | 07, R163 | 0 -/
  sampledTotal : Nat
  /-- Grown image measurement | 07, R188 | zero -/
  grownMeas : Bytes
  /-- The maxima of a two-pass step's first pass are exchanged | 07, R168; 07, R169 | false -/
  passDone : Bool
  /-- The exchange that ends the gradient step is done for this attempt | 07, R168 | false -/
  barrierDone : Bool
  /-- The split records of the step are exchanged | 07, R179 | false -/
  exchanged : Bool
  /-- A level-step has closed and the next has not started | 07, R159 | false -/
  between : Bool
  /-- Rows counted as invalid-label in this round | 07, R167 | empty -/
  badRows : List Nat
  /-- Job is complete and re-sharded | 07, R186 | false -/
  resharded : Bool
  /-- First Scoring frame | 09, Table 9.10 | none -/
  scoringFrom : Option Nat
  /-- Restored position waits for FOLD_START: missing sections 4 and 5, gradient head needed | 12, R351, R532 | none -/
  restored : Option (Bool × Bool × Bool)
  deriving DecidableEq, Repr

/-! ## Pre-emption -/

/-- An accepted notice (12, Table 12.1). -/
structure Notice where
  stop : Bool
  seq : Nat
  issueAt : Nat
  deadline : Nat
  deriving DecidableEq, Repr

/-- A checkpoint drain in progress (12). -/
structure Drain where
  stop : Bool
  generation : Nat
  slot : Nat
  cutTick : Nat
  round : Nat
  cls : Nat
  step : Nat
  written : Nat
  bytes : Nat
  nodeBank : Nat
  marginBank : Nat
  deadline : Nat
  manifest : Bytes
  /-- Sections 1 to 3 as they stood at the cut (12, R344) -/
  staged : List Bytes
  deriving DecidableEq, Repr

/-- Pre-emption and checkpoint state of a Fold (12). -/
structure Preempt where
  /-- Last accepted notice Sequence since load, 32 bits; none before the first | 12, R323 | none -/
  lastSeq : Option Nat
  /-- STOP notice in force | 12, R328, R329 | none -/
  notice : Option Notice
  /-- CheckpointStatus: newest complete generation; none reads all ones | 13, Table 13.13 | none -/
  generation : Option Nat
  /-- CheckpointStatus: drain state 0 to 6 | 13, Table 13.13 | 0 -/
  status : Nat
  /-- CheckpointStatus: sections written | 13, Table 13.13 | 0 -/
  sections : Nat
  /-- CheckpointStatus: cut tick | 13, Table 13.13 | 0 -/
  cutTick : Nat
  /-- Drain in progress | 12, R344 | none -/
  drain : Option Drain
  /-- Frames held in CHECKPOINT_WAIT by the step now waiting | 12, R345 | 0 -/
  waited : Nat
  /-- Slot of the newest generation complete on every card | 12, R342 | DESIGN CHOICE 1 (log entry 9) -/
  newestSlot : Nat
  /-- Slot of this card's newest complete generation | 12, R342 | DESIGN CHOICE 1 (log entry 9) -/
  doneSlot : Nat
  /-- Number of the next generation, 32 bits | 12, R353 | DESIGN CHOICE 1 (log entry 9) -/
  nextGen : Nat
  /-- CONTINUE notices whose cut has not come, oldest first | 12, R329 | empty -/
  conts : List Notice
  deriving DecidableEq, Repr

/-! ## A Fold -/

/-- Secret keys of a Fold (09, Table 9.2; 12). -/
structure FoldKeys where
  /-- CDI_F, 48 bytes | 09, Table 9.2 | empty -/
  cdi : Bytes
  /-- Fold attestation private scalar | 09, Table 9.2 | 0 -/
  attest : Nat
  /-- Fold certificate, DER | 09, R230 | empty -/
  cert : Bytes
  /-- Fold HPKE public key, 97 bytes | 09, Table 9.2 | empty -/
  hpke : Bytes
  /-- Fold checkpoint key, 32 bytes | 12, R339 | empty -/
  ckpt : Bytes
  /-- KEK, 32 bytes; none until OwnerKek is written | 12, R340 | none -/
  kek : Option Bytes
  deriving DecidableEq, Repr

/-- A replay header whose root has not closed: its tags so far in submission order (03, R65). -/
structure RepHdr where
  id : Nat
  hdr : ReplayHdr
  cid : Nat
  tags : List (Nat × Bytes)
  fetchFrame : Nat
  deriving DecidableEq, Repr

/-- Replay-form state of a Fold (03). -/
structure Replay where
  /-- Header whose records are being fetched, its number and the records fetched | 03, R63, R67 | none -/
  cur : Option (ReplayHdr × Nat × Nat)
  /-- Headers whose roots have not closed, oldest first | 03, R65 | empty -/
  hdrs : List RepHdr
  /-- Number of the next header | the model's own | 0 -/
  nextId : Nat
  /-- OrigFrame of the previous accepted header, its number, and whether it completed WITHHELD | 03, R68 | none -/
  prev : Option (Nat × Nat × Bool)
  deriving DecidableEq, Repr

/-- A command of a Fold's NVMe/TCP I/O queue, for a checkpoint or for the ledger: a Write from an LBA on, or, without data, a Flush (12, The
file store). -/
structure FileCmd where
  ckpt : Bool
  lba : Nat
  data : Bytes
  deriving DecidableEq, Repr

/-- A Fold's NVMe/TCP connection (12, The file store). -/
structure FileQ where
  /-- The connection with its admin queue and its I/O queue stands | 12, R335 | false -/
  up : Bool
  /-- Commands issued whose Flush has not completed, oldest first; at most 128 | 12, R335 | empty -/
  issued : List FileCmd
  /-- Commands that wait for room in the queue, ledger pages ahead of checkpoint blocks | 12, R334 | empty -/
  waiting : List FileCmd
  deriving DecidableEq, Repr

/-- Run state of a Fold (02, 19). -/
structure Run where
  /-- LaunchAt, last accepted value, 64 bits | 13, Table 13.9 | 0 -/
  launchAt : Nat
  /-- Replay form | 03, R62 | false -/
  replay : Bool
  /-- The arm cut-off passed with every arm word held | 02, R42 | false -/
  cutoffOk : Bool
  /-- RUN or ARM words held from other cards | 02, R42; 11, R320 | empty -/
  armWords : List (Nat × ArmWord)
  /-- An abort word arrived before LaunchAt | 02, R42 | false -/
  aborted : Bool
  /-- Armed between this card's EPOCH_REQ and the epoch that admits it, to join a running Scoring job | 11, R307, R320 | false -/
  joins : Bool
  /-- Cards of the job, first position and count | 11, R298 | (0, 1) -/
  job : Nat × Nat
  /-- Frame zero has started | 02, R43 | false -/
  started : Bool
  /-- Frames opened so far; the open frame is this less one | 02, R6 | 0 -/
  opened : Nat
  /-- The open frame has closed | 02, R524 | true -/
  closed : Bool
  /-- Role index of Table 19.9 in force | 19, R515 | 0 -/
  role : Nat
  /-- Frame within the role's segment | 19, R515 | 0 -/
  pos : Nat
  /-- MappingId in force | 19, R511 | none -/
  mapping : Option Nat
  /-- Mapping to switch to at the next boundary, with E | 11, R311 | none -/
  nextMapping : Option (Nat × Nat)
  /-- Finish cycle reported so far, one per quadrant | 02, R47 | 0 -/
  finish : Vector Nat 4
  /-- A precise fault stops the comparison in this quadrant | 14, R398 | false -/
  precise : Vector Bool 4
  /-- Divergence already raised at B in this frame | 02, Corners | false -/
  overrun : Vector Bool 4
  /-- First withholding cause of the open frame | 14, R409 | none -/
  cause : Option Nat
  /-- Peer frames held: (card, opening tick, withheld) | 11, R314 | empty -/
  peers : List (Nat × Nat × Bool)
  /-- Job neighbours still expected, with the run of frames missed | 11, R315 | empty -/
  neighbours : List (Nat × Nat)
  /-- Neighbours that departed: out of the peer set from the next frame | 11, R315 | empty -/
  leaving : List Nat
  /-- The Fold idles in WAIT frames (quarantine, link wait) | 14, R411 | false -/
  idle : Bool
  /-- A physical-function stop is in progress | 09, R236 | false -/
  pfStop : Bool
  /-- Frames of the WAIT role run so far | 12, R345; 14, R411 | 0 -/
  waitFrames : Nat
  /-- Last die-to-die slot used in the open frame, plus one, key 2 × port + direction | 08, R204 | 0 -/
  dieSlots : SMap Nat
  deriving DecidableEq, Repr

/-- Background command of a Fold (18, R482). -/
structure Background where
  kind : Nat
  fn : Nat
  cid : Nat
  src : LoadSource
  target : Nat
  generation : Nat
  orphan : Bool
  deriving DecidableEq, Repr

/-- Fold telemetry counters, 64 bits each (13, Table 13.10). -/
structure FoldTel where
  /-- Admitted | 13, Table 13.10 | 0 -/
  admitted : Nat
  /-- AdmissionDrop | 13, Table 13.10 | 0 -/
  drops : Nat
  /-- InvalidValue | 04, R79 | 0 -/
  invalidValue : Nat
  /-- InvalidLabel | 07, R167 | 0 -/
  invalidLabel : Nat
  /-- LateResults | 13, Table 13.10 | 0 -/
  late : Nat
  /-- DeadlineMiss | 13, Table 13.10 | 0 -/
  misses : Nat
  /-- FramesWithheld | 13, Table 13.10 | 0 -/
  withheld : Nat
  /-- CheckpointWaitFrames | 13, Table 13.10 | 0 -/
  waits : Nat
  deriving DecidableEq, Repr

/-- The parity-protected model store of a Fold (08). -/
structure ModelStore where
  /-- Members, key 8 × stripe + stack, 2 KiB each | 08, R215 | empty -/
  members : SMap Bytes
  /-- Number of stripes | 08, R215 | 0 -/
  stripes : Nat
  /-- Unreadable members (keys) | 08, R217 | empty -/
  bad : List Nat
  /-- Members being rebuilt, read from the next opening tick once done | 08, R217 | empty -/
  rebuilding : List Nat
  /-- Remapped members by stack, at most 1,024 | 08, R218 | 0 -/
  remapped : SMap Nat
  /-- Spare bytes reserved on every stack | 08, R216 | 0 -/
  spare : Nat
  /-- Lost stripes | 08, R220 | empty -/
  lost : List Nat
  /-- Members of lost stripes of an accepted re-stage image that wait to be rewritten | 08, R221; 14, Table 14.1 | empty -/
  staged : SMap Bytes
  deriving DecidableEq, Repr

/-- One Fold (09). -/
structure Fold where
  /-- FoldState | 09, Table 9.1 | EMPTY -/
  st : FoldState
  /-- The loaded bundle | 19, Load | none -/
  load : Option Loaded
  /-- Run state -/
  run : Run
  /-- Keys -/
  keys : FoldKeys
  /-- Admission -/
  adm : Admit
  /-- Cohorts in the pipeline, oldest first | 02, R38 | empty -/
  pipe : List Cohort
  /-- Result queues -/
  res : Results
  /-- Ledger -/
  led : Ledger
  /-- Growing -/
  grow : Grow
  /-- Pre-emption -/
  pre : Preempt
  /-- Replay form -/
  rep : Replay
  /-- Background command | 18, R482 | none -/
  bg : Option Background
  /-- Telemetry -/
  tel : FoldTel
  /-- Model store -/
  store : ModelStore
  /-- NVMe/TCP connection -/
  file : FileQ
  deriving DecidableEq, Repr

/-! ## Tiles -/

/-- One barrel context (05, The barrel). -/
structure Ctx where
  /-- Word index of the next operation | 05, The barrel | 0 -/
  pc : Nat
  /-- Loops open, innermost first: body start, body length, repetitions left, stride, repetition number | 19, Table 19.11 | empty -/
  loops : List (Nat × Nat × Nat × Nat × Nat)
  /-- First cycle in which the next operation may issue | 05, R132 | 0 -/
  readyAt : Nat
  /-- FEND reached | 05, R134 | true -/
  ended : Bool
  /-- Stopped by a precise fault | 14, R398 | false -/
  stopped : Bool
  /-- Job-state word selected by SETJ | 19, Segments | 0 -/
  jobWord : Nat
  deriving DecidableEq, Repr

/-- Gradient-unit registers (05). -/
structure GradUnit where
  /-- Exact (g, h) of the rows last computed, row by row | 05, R122 | empty -/
  gh : List (Nat × Int × Int)
  /-- Sampled generator values of GEN, row by row | 07, Table 7.6 | empty -/
  gen : List Nat
  /-- Best candidate of SCAN so far | 07, R178 | none -/
  best : Option SplitRec
  /-- IRANGE result: (feature, cmin, cmax) | 07, R185 | empty -/
  ranges : List (Nat × Nat × Nat)
  /-- Values of the sort unit (PSORT, PMERGE) | 07, The pre-phase | empty -/
  sorted : List Int
  /-- Cut values of PCUT | 07, The pre-phase | empty -/
  cutVals : List Int
  /-- Stage-binning code of SBIN | 06, R149 | empty -/
  sbin : List Nat
  deriving DecidableEq, Repr

/-- A stream armed by STRM (08, Streams and credits). -/
structure Stream where
  /-- The descriptor armed | 19 | – -/
  desc : StreamDesc
  /-- Free credits | 08, R200 | – -/
  free : Nat
  /-- Members moved since it was armed | 08, R200 | – -/
  moved : Nat
  /-- Members whose last reader has issued | 08, R201 | – -/
  done : Nat
  /-- Cycles of the frame at which credits come back | 08, R201 | – -/
  back : List Nat
  deriving DecidableEq, Repr

/-- A run of tile-store accesses: one a cycle from `first` to `last`, which move `len` bytes from `addr` on evenly (05, Tile store). -/
structure PortUse where
  first : Nat
  last : Nat
  addr : Nat
  len : Nat
  deriving DecidableEq, Repr

/-- One Sward tile (05). -/
structure Tile where
  /-- Program bank in force, operation words | 19, The tile operation set | empty -/
  prog : List (BitVec 128)
  /-- Context entry table of the bank in force | 19 | empty -/
  entries : List (List Nat)
  /-- Idle bank: words and entry table loaded for the next mapping | 19, R518 | none -/
  idle : Option (List (BitVec 128) × List (List Nat))
  /-- Stream descriptors | 19 | empty -/
  descs : List StreamDesc
  /-- Contexts C0 to C15 | 05, R131 | at rest -/
  ctxs : Vector Ctx 16
  /-- Last busy cycle plus one of the units | 05, Table 5.1 | 0 -/
  busy : Vector Nat 8
  /-- Tile store, bytes that differ from zero | 05, Table 5.7 | zero -/
  mem : SMap Byte
  /-- Poisoned or uncorrectable 64-bit words | 14, R395 | empty -/
  poison : List Nat
  /-- Words with a correctable error | 14, R390 | empty -/
  soft : List Nat
  /-- Scrub pointer (512-byte runs) and write-back pending | 14, R390 | (0, none) -/
  scrub : Nat × Option Nat
  /-- Row windows W0 and W1, key (window × 256 + row) × 128 + byte | 05, R111 | zero -/
  win : SMap Byte
  /-- Node latches, key latch × 1,024 + byte | 05, R111 | zero -/
  node : SMap Byte
  /-- Mask planes, key latch × 8,192 + byte | 05, R111 | zero -/
  mask : SMap Byte
  /-- Leaf bank, 256 bits per row; unlisted rows all ones | 05, R112 | all ones -/
  bank : SMap (BitVec 256)
  /-- Leaf latch, 8 KiB, with its length | 05, R114 | zero -/
  leaf : SMap Byte
  /-- Bytes loaded in the leaf latch | 05, R114 | 0 -/
  leafLen : Nat
  /-- Activation window, key row × 64 + index | 05, R117 | zero -/
  act : SMap Byte
  /-- Accumulators, key row × 16 + lane, 48 bits | 05, R116 | zero -/
  acc : SMap (BitVec 48)
  /-- Sheaf gradient sums, key unit × 256 + bin, 48 bits | 05, R118 | zero -/
  binsG : SMap (BitVec 48)
  /-- Sheaf hessian sums, key unit × 256 + bin, 48 bits | 05, R118 | zero -/
  binsH : SMap (BitVec 48)
  /-- Sheaf targets of units 0 to 3 | 05, Sheaf histogram units | 0 -/
  target : Vector Nat 4
  /-- Gradient unit -/
  grad : GradUnit
  /-- Armed streams | 08, R200 | empty -/
  streams : List Stream
  /-- Tile-store accesses of the frame's operations and landings | 05, R129 | empty -/
  ports : List PortUse
  /-- Feature quad of the last UPDATE or PART: the quad whose codes SIDE finds in its block | 05, R119 | 0 -/
  quad : Nat
  /-- Segments (start, width) of the pass group whose masks RESOLVE takes in order | 05, R113 | empty -/
  segs : List (Nat × Nat)
  /-- Poisoned operand registers: windows 0 and 1, leaf bank 2, activation window 3, node latches 4 and 5, mask planes 6 and 7,
  leaf latch 8, sheaf units 9 to 12, gradient unit 13, accumulator lane l at 16 + l | 14, R395 | empty -/
  taint : List Nat
  /-- Results under way in the frame: first key, count of keys, cycle of retirement; keys are tile-store bytes, then register
  key k at 2^20 + k | 05, R132 | empty -/
  inflight : List (Nat × Nat × Nat)
  /-- Words read back from the model store that wait for a restore write: word and its bytes | 14, Table 14.1 | empty -/
  restore : List (Nat × Bytes)
  deriving DecidableEq, Repr

/-! ## Quadrants, stacks, links, ports -/

/-- A quadrant (13, Table 13.10; 14). -/
structure Quad where
  /-- State: 0 healthy, 1 quarantined, 2 failed self-test | 13, Table 13.10 | 0 -/
  state : Nat
  /-- Die-to-die port or HBM controller failed | 14, R412 | false -/
  failed : Bool
  /-- Stamps of the counted faults within 10^9 counts | 14, R410 | empty -/
  faults : List Nat
  /-- Returning: self-test runs in grazing positions | 14, R319 | false -/
  returning : Bool
  /-- The returning quadrant's self-test has ended well; its epoch is asked for | 11, R319 | false -/
  tested : Bool
  /-- Junction, 0.1 °C | 13, Table 13.10 | DESIGN CHOICE 0 (log entry 9) -/
  junction : Int
  /-- TimingDivergence counter | 13, Table 13.10 | 0 -/
  divergences : Nat
  /-- FramesWithheld counter | 13, Table 13.10 | 0 -/
  withheld : Nat
  /-- TileCorrected counter | 13, Table 13.10 | 0 -/
  corrected : Nat
  /-- Corrected words in the ECC_CE_RATE window | 14, R413 | 0 -/
  ceWindow : Nat
  deriving DecidableEq, Repr

/-- A member that waits to be rebuilt onto spare: its Fold and key, the count from which its rebuild may run, and whether a grazing slot has
carried it (08, R217; 14, Table 14.1). -/
structure Rebuild where
  fold : Nat
  key : Nat
  due : Nat
  begun : Bool
  deriving DecidableEq, Repr

/-- An HBM stack (08, 13). -/
structure Stack where
  /-- State: 0 healthy, 1 lost | 13, Table 13.10 | 0 -/
  lost : Bool
  /-- Temperature, 0.1 °C | 13, Table 13.10 | DESIGN CHOICE 0 (log entry 9) -/
  temp : Int
  /-- Corrected counter | 13, Table 13.10 | 0 -/
  corrected : Nat
  /-- Uncorrectable counter | 13, Table 13.10 | 0 -/
  uncorrectable : Nat
  /-- RemappedMembers | 08, R218 | 0 -/
  remapped : Nat
  /-- Contents, bytes that differ from zero | 01, R14 | DESIGN CHOICE zero (log entry 10) -/
  mem : SMap Byte
  /-- Poisoned or uncorrectable 32-byte code words | 14, R395 | empty -/
  poison : List Nat
  /-- Code words with a correctable error | 14, R390 | empty -/
  soft : List Nat
  /-- Slot whose corrected words wait for their write-back | 14, R390 | none -/
  writeBack : Option Nat
  /-- Scrub pointer, slot number | 14, R390 | 0 -/
  scrub : Nat
  /-- Members waiting to be rebuilt | 14, Table 14.1 | empty -/
  rebuilds : List Rebuild
  /-- Stripes waiting to be rewritten after a re-stage: (fold, member key) | 14, Table 14.1 | empty -/
  restages : List (Nat × Nat)
  /-- Tile-store words waiting for a restore read: (tile, word) | 14, Table 14.1 | empty -/
  restores : List (Nat × Nat)
  /-- Transactions outstanding: the times at which they leave the controller, in 1/75 ns | 08, R194 | empty -/
  outstanding : List Nat
  /-- Corrected words in the ECC_CE_RATE window | 14, R413 | 0 -/
  ceWindow : Nat
  deriving DecidableEq, Repr

/-- A Stile link (11). -/
structure Link where
  /-- State: 0 down, 1 training, 2 up, 3 admitted, 4 spare | 13, Table 13.10 | 0 -/
  state : Nat
  /-- Partner card | 13, Table 13.10 | 0 -/
  partner : Nat
  /-- HELLO checks passed | 11, R305 | false -/
  helloOk : Bool
  /-- Mutual attestation succeeded | 11, R304 | false -/
  attested : Bool
  /-- Bit-error test ended well | 11, R307 | false -/
  tested : Bool
  /-- Out of use (CABLE_MISMATCH, PEER_REJECT, training failed) | 11, R305 | false -/
  outOfUse : Bool
  /-- Two key slots, key and salt | 11, R290 | empty -/
  keys : Vector Bytes 2
  /-- Salts of the two key slots | 11, R290 | empty -/
  salts : Vector Bytes 2
  /-- Key slot in use for sending | 11, The Stile link | false -/
  keySlot : Bool
  /-- FrameLoss counter | 13, Table 13.10 | 0 -/
  losses : Nat
  /-- CorrectedSymbols counter | 13, Table 13.10 | 0 -/
  corrected : Nat
  /-- Interval (GTC / 65,536) of the last lost frame | 11, R292 | none -/
  lossInterval : Option Nat
  /-- Interval of the last TIME word | 11, R292 | none -/
  timeInterval : Option Nat
  /-- Depth carried by the last TIME word | 11, R301 | none -/
  depth : Option Nat
  /-- A frame was lost in the running level-step | 11, R292 | false -/
  lostInStep : Bool
  /-- Service words queued for sending with copies left | 11, R296 | empty -/
  sendq : List (SvcWord × Nat)
  /-- Cable length, cm, from the EEPROM | 17, R465 | none -/
  cable : Option Nat
  /-- Lanes retrained in grazing | 14, R392 | 0 -/
  retrain : Nat
  /-- Payload received last, by StreamTag | 11, The Stile link | empty -/
  landed : SMap Bytes
  /-- Peer frames that wait for a payload position of their Fold | 11, R313 | empty -/
  peerq : List (Nat × Bytes)
  /-- Slot of the frame sent last | 11, R286 | none -/
  sentSlot : Option Nat
  /-- Slot of the frame delivered last, by this card's count 240 earlier | 11, R288 | none -/
  rxSlot : Option Nat
  deriving DecidableEq, Repr

/-- LLDP neighbour (13, Table 13.10). -/
structure Neighbour where
  chassis : Bytes
  portName : Bytes
  system : Bytes
  expires : Nat
  deriving DecidableEq, Repr

/-- An Ethernet port (10, 13). -/
structure Port where
  /-- LinkUp | 13, Table 13.10 | false -/
  up : Bool
  /-- RxFrames counter | 13, Table 13.10 | 0 -/
  rx : Nat
  /-- FcsErrors counter | 13, Table 13.10 | 0 -/
  fcs : Nat
  /-- FecCorrected counter | 13, Table 13.10 | 0 -/
  fec : Nat
  /-- IzrDiscard counter | 13, Table 13.10 | 0 -/
  discard : Nat
  /-- PauseReceived counter | 13, Table 13.10 | 0 -/
  pause : Nat
  /-- Result traffic paused until this count | 10, R258 | 0 -/
  pausedUntil : Nat
  /-- Next LLDPDU due at this count | 10, R285 | 0 -/
  lldpNext : Nat
  /-- LLDP neighbour | 10, R285 | none -/
  neighbour : Option Neighbour
  /-- Equaliser or retraining state step | 14, R392 | 0 -/
  retrain : Nat
  deriving DecidableEq, Repr

/-- A RESULT message being filled: key slot, its egress key and salt, entries with their arrival frames (10, R276). -/
structure OpenMsg where
  slot : Bool
  key : Bytes
  salt : Bytes
  entries : List (Nat × Bytes)
  deriving DecidableEq, Repr

/-- Live state of an ingress channel (09, 10). -/
structure Chan where
  /-- Last accepted ingress Sequence, 64 bits | 10, R263 | 0 -/
  inSeq : Nat
  /-- Egress Sequence, 64 bits | 10, R263 | 0 -/
  outSeq : Nat
  /-- Ingress keys of slots 0 and 1; empty is none | 09, R238 | empty -/
  inKey : Vector Bytes 2
  /-- Egress keys of slots 0 and 1 | 09, R239 | empty -/
  outKey : Vector Bytes 2
  /-- Salts of slots 0 and 1 | 10, R262 | empty -/
  salt : Vector Bytes 2
  /-- RESULT message being filled | 10, R276 | none -/
  openMsg : Option OpenMsg
  /-- Closed RESULT messages that wait for their port, oldest first | 10, R258, R276 | empty -/
  closed : List OpenMsg
  deriving DecidableEq, Repr

/-! ## PCIe -/

/-- A completion as posted (18, Table 18.3): queue, command ID, status, event code, results. -/
structure Cqe where
  q : Nat
  cid : Nat
  status : Nat
  event : Nat
  r0 : Nat
  r1 : Nat
  r2 : Nat
  deriving DecidableEq, Repr

/-- A driver queue (18, Table 18.2). -/
structure Queue where
  /-- SqBase, 64 bits | 18, Table 18.2 | DESIGN CHOICE 0 (log entry 9) -/
  sqBase : Nat
  /-- CqBase, 64 bits | 18, Table 18.2 | DESIGN CHOICE 0 (log entry 9) -/
  cqBase : Nat
  /-- SqSizeLog2 | 18, Table 18.2 | DESIGN CHOICE 4 (log entry 9) -/
  sqLog : Nat
  /-- CqSizeLog2 | 18, Table 18.2 | DESIGN CHOICE 4 (log entry 9) -/
  cqLog : Nat
  /-- Vector | 18, Table 18.2 | DESIGN CHOICE 0 (log entry 9) -/
  vector : Nat
  /-- QueueStatus enabled | 18, Table 18.2 | false -/
  enabled : Bool
  /-- QueueStatus error | 18, R478 | false -/
  error : Bool
  /-- SqTail doorbell | 18, Table 18.2 | 0 -/
  sqTail : Nat
  /-- Submission head | 18, Table 18.3 | 0 -/
  sqHead : Nat
  /-- CqHead doorbell | 18, Table 18.2 | 0 -/
  cqHead : Nat
  /-- Completion tail | 18, R479 | 0 -/
  cqTail : Nat
  /-- Phase bit of the next completion | 18, R479 | true -/
  phase : Bool
  deriving DecidableEq, Repr

/-- An SPDM session and responder state of a function (09, Table 9.6). -/
structure Spdm where
  /-- Connection state: 0 none, 1 version, 2 capabilities, 3 negotiated | 09, R233 | 0 -/
  state : Nat
  /-- Session key; empty when no session is open | 09, Table 9.6 | empty -/
  session : Bytes
  deriving DecidableEq, Repr

/-- TDI states (09, SPDM, IDE and TDISP). -/
inductive Tdi | unlocked | locked | run | error
  deriving DecidableEq, Repr

/-- A PCIe function (18). -/
structure Func where
  /-- Queue 0 -/
  q0 : Queue
  /-- Queue 1; on a VF only -/
  q1 : Queue
  /-- MbStatus: 0 idle, 1 busy, 2 done | 18, Table 18.1 | 0 -/
  mbStatus : Nat
  /-- Mailbox response buffer | 18, Table 18.7 | empty -/
  mbResp : Bytes
  /-- Count of the last MSI-X message of vectors 0 to 3 | 18, R475 | none -/
  lastMsix : Vector (Option Nat) 4
  /-- A message is due at the end of the 2,000-count interval | 18, R475 | false -/
  msixDue : Vector Bool 4
  /-- Completions that wait for room in the ring | 18, R479 | empty -/
  waitingCqes : List Cqe
  /-- SPDM responder -/
  spdm : Spdm
  /-- IDE key; empty is none | 09, R234 | empty -/
  ideKey : Bytes
  /-- IDE stream state: 0 none, 1 key programmed, 2 Secure, 3 Insecure | 18, Table 18.8 | 0 -/
  ide : Nat
  /-- TDI state; unused on the PF | 09, TDISP | CONFIG_UNLOCKED -/
  tdi : Tdi
  /-- TDISP nonce of the lock | 09, TDISP | empty -/
  tdiNonce : Bytes
  deriving DecidableEq, Repr

/-- The PCIe endpoint (10, 18). -/
structure Pcie where
  /-- Generation, 0 while the link is down | 10, Table 10.7 | 0 -/
  gen : Nat
  /-- Width | 10, R277 | 0 -/
  width : Nat
  /-- RateChanges counter, 32 bits | 13, Table 13.10 | 0 -/
  rateChanges : Nat
  /-- Physical-function configuration space complete | 15, R426 | false -/
  cfgReady : Bool
  /-- AER correctable status bits set: Advisory Non-Fatal | 18, Table 18.8 | false -/
  aerAdvisory : Bool
  /-- AER Completion Timeout | 18, Table 18.8 | false -/
  aerTimeout : Bool
  /-- AER Unsupported Request | 18, Table 18.8 | false -/
  aerUnsupported : Bool
  /-- AER IDE Check Failed | 18, Table 18.8 | false -/
  aerIde : Bool
  deriving DecidableEq, Repr

/-! ## Heath -/

/-- A pending epoch proposal (11, Table 11.5). -/
structure Proposal where
  epoch : Nat
  e : Nat
  set : BitVec 32
  units : List (Nat × Nat)
  acks : BitVec 32
  aborted : Bool
  committed : Bool
  deriving DecidableEq, Repr

/-- Heath membership and relay (11). -/
structure Heath where
  /-- MemberSet, 32 bits | 13, Table 13.8 | 0 -/
  members : BitVec 32
  /-- EpochNumber, 32 bits | 13, Table 13.8 | 0 -/
  epoch : Nat
  /-- Pending proposal | 11, R309 | none -/
  proposal : Option Proposal
  /-- Requests this card holds as coordinator: (unit card, unit number, kind) | 11, R309 | empty -/
  requests : List (Nat × Nat × Nat)
  /-- Relayed words seen: (origin, sequence) | 11, R295 | empty -/
  seen : List (Nat × Nat)
  /-- Sequence of this card's next relayed word | 11, Table 11.3 | 0 -/
  seq : Nat
  /-- TimeDepth, 8 bits | 13, Table 13.8 | 0 -/
  depth : Nat
  /-- UpstreamLink; none reads 0xFF | 13, Table 13.8 | none -/
  upstream : Option LinkId
  /-- Time-reference card | 11, R303 | 0 -/
  reference : Nat
  /-- This card reported GTC_ALIGN_LOSS and is treated as departed | 02, R31 | false -/
  alignLost : Bool
  /-- This card sent EPOCH_REQ and waits for the epoch | 11, R307 | false -/
  joining : Bool
  /-- Spare in force: the failed link it replaces | 19, Table 19.7 | none -/
  spareFor : Option Nat
  /-- Quadrants out of service by epoch, or out since the self-test: (card, quadrant) | 11, R312 | empty -/
  lostQuads : List (Nat × Nat)
  /-- This card's stacks out of service by epoch, or out since training | 11, R312; 08, R219 | empty -/
  lostStacks : List Nat
  /-- Committed epochs: (number, E, admitted cards) | 11, R320 | empty -/
  committedLog : List (Nat × Nat × Nat)
  /-- Aborted epochs: (number, E) | 11, R310 | empty -/
  abortLog : List (Nat × Nat)
  /-- ARM_A and ARM_B words whose other half has not come | 11, Table 11.3 | empty -/
  armHalves : List SvcWord
  deriving DecidableEq, Repr

/-! ## Evidence card -/

/-- A journal page staged in FRAM (16). -/
structure JPage where
  kind : Nat
  source : Nat
  chunk : Nat
  chunks : Nat
  object : Nat
  payload : Bytes
  fold : Option Nat
  last : Bool
  deriving DecidableEq, Repr

/-- The SD host (16). -/
structure Evidence where
  /-- Inserted card | 16, R441 | none -/
  card : Option SdCard
  /-- The journal may be written | 16, R443 | false -/
  journal : Bool
  /-- JournalSeq of the next page | 16, R447 | 0 -/
  nextJ : Nat
  /-- Page in flight, staged in FRAM | 16, R448 | none -/
  flight : Option JPage
  /-- Page staged next, no block of it sent yet | 16, The journal | none -/
  staged : Option JPage
  /-- The page in flight is rewritten after an insertion | 16, R454 | false -/
  rewriting : Bool
  /-- 0 idle, 1 page blocks outstanding, 2 commit record outstanding | 16, R449 | 0 -/
  phase : Nat
  /-- Chunks of the object in progress still to stage | 16, R450 | empty -/
  chunks : List JPage
  /-- Sealed-log position of the next event to journal | 16, The journal | 0 -/
  batchNext : Nat
  /-- A batch is due | 16, R450 | false -/
  batchDue : Bool
  /-- Bytes written since binding | 16, Wear | 0 -/
  written : Nat
  /-- Wear thresholds reported: 0 to 3 | 16, R452 | 0 -/
  wear : Nat
  deriving DecidableEq, Repr

/-! ## Security engine -/

/-- Fuses and DICE keys (09, 15). -/
structure Sec where
  /-- UDS, 256 bits | 09, R227 | the card's own (DESIGN CHOICE, log entry 7) -/
  uds : Bytes
  /-- UDS locked until the next cold reset | 09, R227 | false -/
  udsLocked : Bool
  /-- SHA3-256 of the firmware key's public half | 15, Secure boot | the card's own (DESIGN CHOICE, log entry 7) -/
  fwKeyDigest : Bytes
  /-- Fused minimum SVN | 15, Secure boot | the card's own (DESIGN CHOICE, log entry 7) -/
  minSvn : Nat
  /-- 0x2001:00 CardSerial, 64 bits | 13, Table 13.8 | the card's own (DESIGN CHOICE, log entry 7) -/
  serial : Nat
  /-- Firmware measurement | 15, R424 | empty -/
  fwMeas : Bytes
  /-- DeviceID private scalar | 09, Table 9.2 | 0 -/
  devId : Nat
  /-- CDI_1, 48 bytes | 09, Table 9.2 | empty -/
  cdi1 : Bytes
  /-- Alias private scalar | 09, Table 9.2 | 0 -/
  aliasKey : Nat
  /-- Alias certificate | 09, R230 | empty -/
  aliasCert : Bytes
  /-- Boot device: 0 none, 1 A, 2 B, 3 evidence card or mailbox set | 15, R423 | 0 -/
  bootFrom : Nat
  deriving DecidableEq, Repr

/-! ## Outputs and the whole card -/

/-- What the card sends out: the far side of every port, in order. -/
inductive Output
  /-- Completion entry written to a completion ring: function, queue, slot, its 32 bytes (18, Table 18.3) -/
  | completion (fn q slot : Nat) (entry : Bytes)
  /-- Data written to host memory -/
  | hostWrite (addr : Nat) (b : Bytes)
  /-- PCIe read issued: function, address, length -/
  | hostRead (fn addr len : Nat)
  | msix (fn vec : Nat)
  /-- Dictionary answer: path, function, abort code, event code, value -/
  | sdo (path fn abort event : Nat) (value : Bytes)
  /-- IZR message: port, channel, type, epoch bit, count, Sequence, address, UDP port, payload sealed under key, fragmented -/
  | izr (port channel typ : Nat) (e : Bool) (count seq : Nat) (addr : Bytes) (udp : Nat) (box : GcmBox) (fragmented : Bool)
  | txPdo (b : Bytes)
  | canPdo (pdo : Nat) (b : Bytes)
  | canNmt (b : Nat)
  | lldp (port : Nat) (ttl : Nat) (serial index : Nat)
  /-- Stile frame: link, Owner, PAYLOAD_VALID, KEY_SLOT, Sender, Slot, StreamTag, sealed payload and service words -/
  | stile (link owner : Nat) (valid keySlot : Bool) (sender slot tag : Nat) (box : GcmBox) (words : List SvcWord)
  | spdm (fn : Nat) (b : Bytes)
  /-- NVMe/TCP connection: Fold, target, host NQN, CRC32C header and data digest, TLS, depth of the I/O queue -/
  | fileConnect (fold : Nat) (target : CkptTarget) (hostNqn : Bytes) (headerDigest dataDigest tls : Bool) (depth : Nat)
  | fileWrite (fold lba : Nat) (b : Bytes)
  | fileFlush (fold : Nat)
  | fileClose (fold : Nat)
  | sdWrite (block : Nat) (b : Bytes)
  | pcieRate (gen width : Nat)
  /-- What a card sends at a step of a Growing exchange: Fold, the card it goes to, the contribution -/
  | exchange (fold card : Nat) (e : Exchanged)
  deriving DecidableEq, Repr

/-- THE STATE of one card. -/
structure State where
  /-- Commands that wait, first in first out | the block's queue, not the spec's | empty -/
  pending : List Instr
  /-- GTC and discipline -/
  clock : Clock
  /-- Board power, boot, service level, halt -/
  power : Power
  /-- Shepherd -/
  shep : Shepherd
  /-- Always-kept entries -/
  kept : Kept
  /-- Configuration in force -/
  cfg : Settings
  /-- Folds F0 to F15 -/
  folds : Vector Fold 16
  /-- Quadrants Q0 to Q3 -/
  quads : Vector Quad 4
  /-- HBM stacks 0 to 7 -/
  hbms : Vector Stack 8
  /-- Stile links 0 to 15 -/
  links : Vector Link 16
  /-- Ethernet ports 0 to 15 -/
  ports : Vector Port 16
  /-- PCIe functions -/
  fns : Vector Func 17
  /-- Tiles that differ from a zeroed tile, by number 0 to 639 | 01, R14 | zeroed -/
  tiles : SMap Tile
  /-- Live channel state by channel | 10 | defaults -/
  chans : SMap Chan
  /-- Heath -/
  heath : Heath
  /-- Event collector and logs -/
  events : Events
  /-- Security engine -/
  sec : Sec
  /-- Evidence card host -/
  sd : Evidence
  /-- PCIe endpoint -/
  pcie : Pcie
  /-- Outputs sent, oldest first | the model's own record of the far side | empty -/
  out : List Output
  /-- Index of the next free value | the model's own (DESIGN CHOICE, log entry 6) | DESIGN CHOICE 0 (log entry 6) -/
  free : Nat
  deriving DecidableEq, Repr

/-! ## Defaults and reset -/

def ChanCfg.dflt : ChanCfg := ⟨0xFF, [], [], [], 47290, 0, 0, 0, 0, 0, 1500⟩
def CkptTarget.dflt : CkptTarget := ⟨[], 4420, [], 0, 0, 0, 0, 0, 0⟩
/-- A ChannelTable entry and a CheckpointTarget after a release of ownership: every byte zero (13, R367). -/
def ChanCfg.zero : ChanCfg := ⟨0, [], [], [], 0, 0, 0, 0, 0, 0, 0⟩
def CkptTarget.zero : CkptTarget := ⟨[], 0, [], 0, 0, 0, 0, 0, 0⟩
def FoldCfg.dflt : FoldCfg := ⟨0, 0, 8, 0x01, CkptTarget.dflt, ⟨0, 0, 0⟩⟩
def Settings.dflt : Settings := ⟨10000, .opA, .opA, 3, [], Vector.replicate 16 FoldCfg.dflt, [], []⟩
def Queue.dflt : Queue := ⟨0, 0, 4, 4, 0, false, false, 0, 0, 0, 0, true⟩
def Func.dflt : Func := ⟨Queue.dflt, Queue.dflt, 0, [], Vector.replicate 4 none, Vector.replicate 4 false, [], ⟨0, []⟩, [], 0, .unlocked, []⟩
def Run.dflt : Run := ⟨0, false, false, [], false, false, (0, 1), false, 0, true, 0, 0, none, none, Vector.replicate 4 0,
  Vector.replicate 4 false, Vector.replicate 4 false, none, [], [], [], false, false, 0, []⟩
def Admit.dflt : Admit := ⟨0, 0, 0, [], 0, 0, [], [], [], false, none, false⟩
def Results.dflt : Results := ⟨0, [], [], [], none⟩
def Ledger.dflt : Ledger := ⟨[], 0, none, [], [], none, [none, none, none], [false, false, false], 0⟩
def Grow.dflt : Grow := ⟨0, 0, 0, 0, false, false, none, false, false, [], [], [], [], [], 0, 0, [], [], [], [], [], (0, 0), (0, 0), 0, none, none,
  (0, 0), 0, none, false, 0, 0, [], false, false, false, false, [], false, none, none⟩
def Preempt.dflt : Preempt := ⟨none, none, none, 0, 0, 0, none, 0, 1, 1, 1, []⟩
def Replay.dflt : Replay := ⟨none, [], 0, none⟩
def FoldKeys.dflt : FoldKeys := ⟨[], 0, [], [], [], none⟩
def FoldTel.dflt : FoldTel := ⟨0, 0, 0, 0, 0, 0, 0, 0⟩
def ModelStore.dflt : ModelStore := ⟨[], 0, [], [], [], 0, [], []⟩
def FileQ.dflt : FileQ := ⟨false, [], []⟩
def Fold.dflt : Fold := ⟨.empty, none, Run.dflt, FoldKeys.dflt, Admit.dflt, [], Results.dflt, Ledger.dflt, Grow.dflt,
  Preempt.dflt, Replay.dflt, none, FoldTel.dflt, ModelStore.dflt, FileQ.dflt⟩
def Ctx.dflt : Ctx := ⟨0, [], 0, true, false, 0⟩
def GradUnit.dflt : GradUnit := ⟨[], [], none, [], [], [], []⟩
/-- A zeroed tile (05, R130). -/
def Tile.dflt : Tile := ⟨[], [], none, [], Vector.replicate 16 Ctx.dflt, Vector.replicate 8 0, [], [], [], (0, none), [], [], [],
  [], [], 0, [], [], [], [], Vector.replicate 4 0, GradUnit.dflt, [], [], 0, [], [], [], []⟩
def Quad.dflt : Quad := ⟨0, false, [], false, false, 0, 0, 0, 0, 0⟩
def Stack.dflt : Stack := ⟨false, 0, 0, 0, 0, [], [], [], none, 0, [], [], [], [], 0⟩
def Link.dflt : Link := ⟨0, 0, false, false, false, false, Vector.replicate 2 [], Vector.replicate 2 [], false, 0, 0, none, none,
  none, false, [], none, 0, [], [], none, none⟩
def Port.dflt : Port := ⟨false, 0, 0, 0, 0, 0, 0, 0, none, 0⟩
def Chan.dflt : Chan := ⟨0, 0, Vector.replicate 2 [], Vector.replicate 2 [], Vector.replicate 2 [], none, []⟩
def Snapshot.dflt : Snapshot := ⟨0, []⟩
def Clock.dflt : Clock := ⟨0, false, 0, 0, 0, 0, false, 0⟩
def Power.dflt : Power := ⟨false, 0, false, false, false, false, false, false, false, false, false, false, none, 1, 75, 0, 0, 0, 0,
  0, true, [], (0, 0), true, 0, [], (false, false), [], 0, [], none, 0⟩
def Events.dflt : Events := ⟨[], [], [], 0, [], 0, [], [], []⟩
def Shepherd.dflt : Shepherd := ⟨false, false, (false, false, false), .aux, 0, true, 1, 0, (1, 0), [], [], [], [], [], [], [], [], [],
  Snapshot.dflt, Settings.dflt, false, [], false, [], (false, false)⟩
def Kept.dflt : Kept := ⟨[], [], 0, 0, []⟩
def Heath.dflt : Heath := ⟨0, 0, none, [], [], 0, 0, none, 0, false, false, none, [], [], [], [], []⟩
def Sec.dflt : Sec := ⟨Config.uds, false, Config.fwKeyDigest, Config.minSvn, Config.serial, [], 0, [], 0, [], 0⟩
def Evidence.dflt : Evidence := ⟨none, false, 0, none, none, false, 0, [], 0, false, 0, 0⟩
def Pcie.dflt : Pcie := ⟨0, 0, 0, false, false, false, false, false⟩

/-- The card before the Shepherd's first supply: unowned, everything off (DESIGN CHOICE, log entry 5). -/
def State.reset : State :=
  { pending := [], clock := Clock.dflt, power := Power.dflt, shep := Shepherd.dflt, kept := Kept.dflt, cfg := Settings.dflt,
    folds := Vector.replicate 16 Fold.dflt, quads := Vector.replicate 4 Quad.dflt, hbms := Vector.replicate 8 Stack.dflt,
    links := Vector.replicate 16 Link.dflt, ports := Vector.replicate 16 Port.dflt, fns := Vector.replicate 17 Func.dflt,
    tiles := [], chans := [], heath := Heath.dflt, events := Events.dflt, sec := Sec.dflt, sd := Evidence.dflt,
    pcie := Pcie.dflt, out := [], free := 0 }

end Sys2Proof.Machine
end

