-- ==== Sys2Proof/Machine/Ops.lean ====
section
/-! DEFINITION. The named operations over the state: time, parts, events, outputs, completions, service level, Fold state. -/

namespace Sys2Proof.Machine

/-- What a step answers. -/
abbrev Out := Host.Outcome State Fault Refusal

/-! ## Parts -/

/-- Element of a vector. -/
def vget {α : Type} {n : Nat} (v : Vector α n) (i : Fin n) : α := v.get i
/-- Vector with one element replaced. -/
def vset {α : Type} {n : Nat} (v : Vector α n) (i : Fin n) (x : α) : Vector α n := v.set i.val x i.isLt

def State.fold (s : State) (f : FoldId) : Fold := vget s.folds f
def State.setFold (s : State) (f : FoldId) (x : Fold) : State := { s with folds := vset s.folds f x }
def State.modFold (s : State) (f : FoldId) (g : Fold → Fold) : State := s.setFold f (g (s.fold f))
def State.quad (s : State) (q : QuadId) : Quad := vget s.quads q
def State.modQuad (s : State) (q : QuadId) (g : Quad → Quad) : State := { s with quads := vset s.quads q (g (s.quad q)) }
def State.hbm (s : State) (k : StackId) : Stack := vget s.hbms k
def State.modHbm (s : State) (k : StackId) (g : Stack → Stack) : State := { s with hbms := vset s.hbms k (g (s.hbm k)) }
def State.link (s : State) (k : LinkId) : Link := vget s.links k
def State.modLink (s : State) (k : LinkId) (g : Link → Link) : State := { s with links := vset s.links k (g (s.link k)) }
def State.port (s : State) (p : PortId) : Port := vget s.ports p
def State.modPort (s : State) (p : PortId) (g : Port → Port) : State := { s with ports := vset s.ports p (g (s.port p)) }
def State.fn (s : State) (v : FnId) : Func := vget s.fns v
def State.modFn (s : State) (v : FnId) (g : Func → Func) : State := { s with fns := vset s.fns v (g (s.fn v)) }
def State.tile (s : State) (t : Nat) : Tile := mget Tile.dflt s.tiles t
def State.setTile (s : State) (t : Nat) (x : Tile) : State := { s with tiles := mset Tile.dflt s.tiles t x }
def State.chan (s : State) (c : Nat) : Chan := mget Chan.dflt s.chans c
def State.setChan (s : State) (c : Nat) (x : Chan) : State := { s with chans := mset Chan.dflt s.chans c x }
def State.chanCfg (s : State) (c : Nat) : ChanCfg := mget ChanCfg.dflt s.cfg.channels c
def State.foldCfg (s : State) (f : FoldId) : FoldCfg := vget s.cfg.folds f
def State.modFoldCfg (s : State) (f : FoldId) (g : FoldCfg → FoldCfg) : State :=
  { s with cfg := { s.cfg with folds := vset s.cfg.folds f (g (s.foldCfg f)) } }
/-- The virtual function of a Fold (10, R279). -/
def vfOf (f : FoldId) : FnId := ⟨f.val + 1, by omega⟩

/-! ## Time -/

/-- Single counts that the clock has added or skipped by count `g`: at most one in 10,000 counts, and no more than are left to
slew (02, R28). -/
def Clock.slewed (c : Clock) (g : Nat) : Nat := min c.slew.natAbs ((g - c.slewAt) / 10000)
/-- The clock at count `t`, or at its own count where that is later. What it has slewed on the way is no longer left to slew, and the
oscillator has counted the added counts less and the skipped counts more (02, R28). -/
def Clock.advance (c : Clock) (t : Nat) : Clock :=
  let g := max c.gtc t
  let k := c.slewed g
  let d : Int := if 0 ≤ c.slew then k else -(k : Int)
  { c with gtc := g, osc := ((c.osc + (g - c.gtc) : Nat) - d).toNat, slew := c.slew - d, slewAt := if k = 0 then c.slewAt else c.slewAt + 10000 * k }
/-- A command at count `t`: the GTC stands at `t` where the tick generator runs; it never goes back (DESIGN CHOICE, log entry 2). -/
def State.tick (s : State) (t : Nat) : State := if s.clock.running then { s with clock := s.clock.advance t } else s
/-- The GTC is set to correct itself by `n` counts: single counts are added or skipped from now on, and never two within 10,000 counts
of each other (02, R28). -/
def Clock.setSlew (c : Clock) (n : Int) : Clock := { c with slew := n, slewAt := max c.slewAt (c.gtc - 10000) }
/-- GTC now. -/
def State.now (s : State) : Nat := s.clock.gtc

/-! ## Configuration readers -/

/-- Stored bytes of an entry of `cfg.vals`, or its default. -/
def State.val (s : State) (idx sub : Nat) (dflt : Bytes) : Bytes :=
  match mget [] s.cfg.vals (idx * 256 + sub) with
  | [] => dflt
  | v => v
/-- An unsigned entry of `cfg.vals`. -/
def State.num (s : State) (idx sub dflt : Nat) : Nat := leNat (s.val idx sub (le 8 dflt))
/-- 0x2100:01 HeathIndex. -/
def State.card (s : State) : Nat := s.num 0x2100 1 0
/-- 0x2100:02 HeathTopology. -/
def State.topology (s : State) : Nat := s.num 0x2100 2 1
/-- Number of ports of the configured layout (10, Table 10.1). -/
def portCount (layout : Nat) : Nat := match layout with
  | 0 => 2
  | 1 => 4
  | 2 => 8
  | _ => 16
/-- Cage of a port in a layout (10, Table 10.1). -/
def cageOf (layout p : Nat) : Nat := (16 / portCount layout) * p / 8
/-- Operating point code: 0 OP-A, 1 OP-B, 2 OP-C. -/
def opCode : OpPoint → Nat
  | .opA => 0
  | .opB => 1
  | .opC => 2
/-- Operating point of a code. -/
def opOfCode : Nat → Option OpPoint
  | 0 => some .opA
  | 1 => some .opB
  | 2 => some .opC
  | _ => none
/-- Power cap, W (01, Table 1.2). -/
def opCapW : OpPoint → Nat
  | .opA => 600
  | .opB => 450
  | .opC => 300
/-- Core cycles per GTC count as a fraction (02, Ticks, frames and the budget). -/
def opRatio : OpPoint → Nat × Nat
  | .opA => (8, 5)
  | .opB => (5, 4)
  | .opC => (9, 10)
/-- Frame budget B = floor(P × c × 1,999 / 2,000) − 32 (02). -/
def budget (p : Nat) (op : OpPoint) : Nat := p * (opRatio op).1 * 1999 / ((opRatio op).2 * 2000) - 32
/-- Tick period legal (02, R32). -/
def periodOk (p : Nat) : Bool := decide (2000 ≤ p ∧ p ≤ 1048576)
/-- First card tick at or after a count (02). -/
def State.cardTick (s : State) (t : Nat) : Nat := roundUp t s.cfg.tickPeriod

/-! ## Fold states -/

/-- 0 EMPTY to 6 FAULTED (09, Table 9.1 order). -/
def stCode : FoldState → Nat
  | .empty => 0
  | .loaded => 1
  | .armed => 2
  | .running => 3
  | .draining => 4
  | .stopped => 5
  | .faulted => 6
/-- ARMED, RUNNING or DRAINING; every other state is quiescent (13, RW-Q). -/
def isActive : FoldState → Bool
  | .armed | .running | .draining => true
  | _ => false
def allFolds : List FoldId := List.finRange 16
/-- Some Fold on the card is ARMED, RUNNING or DRAINING. -/
def State.anyActive (s : State) : Bool := allFolds.any fun f => isActive (s.fold f).st
/-- Some other Fold than `f` is ARMED, RUNNING or DRAINING. -/
def State.otherActive (s : State) (f : FoldId) : Bool := allFolds.any fun g => g != f && isActive (s.fold g).st
/-- The Fold is in its Scoring phase: a Scoring bundle, or a Growing job after the re-shard. -/
def Fold.scoring (x : Fold) : Bool := match x.load with
  | some l => !l.growing || x.grow.resharded
  | none => false
/-- Tick period of the loaded bundle; 1 where nothing is loaded. -/
def Fold.period (x : Fold) : Nat := match x.load with
  | some l => l.period
  | none => 1
/-- Opening tick of frame `n` (00, R5). -/
def Fold.tickOf (x : Fold) (n : Nat) : Nat := x.run.launchAt + n * x.period
/-- Frame of a stamp (00, R6, R7). -/
def Fold.frameAt (x : Fold) (t : Nat) : Nat := (t - x.run.launchAt) / x.period
/-- Number of the open frame. -/
def Fold.frame (x : Fold) : Nat := x.run.opened - 1

/-! ## Resources of a Fold -/

/-- Fold plots own this tile (01, R21: plots of 8). -/
def FoldCfg.ownsTile (c : FoldCfg) (t : Nat) : Bool := c.plots.getLsbD (t / 8)
/-- Tiles of a Fold in ascending plot number: the Fold-relative numbering (19, Resources). -/
def FoldCfg.tiles (c : FoldCfg) : List Nat := (List.range 640).filter fun t => c.ownsTile t
/-- Plots in quadrant q. -/
def FoldCfg.plotsIn (c : FoldCfg) (q : Nat) : Nat := ((List.range 20).filter fun i => c.plots.getLsbD (20 * q + i)).length
/-- HBM units on stack k. -/
def FoldCfg.unitsOn (c : FoldCfg) (k : Nat) : Nat := ((List.range 24).filter fun i => c.units.getLsbD (24 * k + i)).length
/-- Byte of a stack that a Fold's own address names: it counts its units of the stack in ascending order (19, Resources); none
beyond them. -/
def FoldCfg.hbmAddr (c : FoldCfg) (k a : Nat) : Option Nat :=
  ((List.range 24).filter fun i => c.units.getLsbD (24 * k + i))[a / 2 ^ 30]?.map fun u => u * 2 ^ 30 + a % 2 ^ 30
/-- Quadrant of a tile (02, Table 2.3). -/
def quadOfTile (t : Nat) : QuadId := ⟨t / 160 % 4, by omega⟩
/-- The Fold that owns a tile. -/
def State.ownerOfTile (s : State) (t : Nat) : Option FoldId := allFolds.find? fun f => (s.foldCfg f).ownsTile t
/-- Quadrants usable by mappings: healthy and not failed. -/
def State.quadHealthy (s : State) (q : QuadId) : Bool := (s.quad q).state == 0 && !(s.quad q).failed
/-- A quadrant on which no Fold runs leaves every mapping until an epoch admits it (15, R430, R437). -/
def State.outOfMappings (s : State) (q : QuadId) : State :=
  if s.heath.lostQuads.contains (s.card, q.val) then s else { s with heath := { s.heath with lostQuads := s.heath.lostQuads ++ [(s.card, q.val)] } }
/-- This card's quadrant is in service: no committed epoch and no self-test has taken it out (11, R312). -/
def State.quadServes (s : State) (q : QuadId) : Bool := !s.heath.lostQuads.contains (s.card, q.val)
/-- Quadrants in service in which the Fold holds plots, as a mask (19, The mapping set; 11, R312). -/
def State.foldQuads (s : State) (f : FoldId) : Nat :=
  ((List.finRange 4).map fun q => if s.quadServes q && 0 < (s.foldCfg f).plotsIn q.val then 2 ^ q.val else 0).sum

/-! ## Outputs -/

/-- Send: nothing leaves once the egress gate has closed (14, R403). -/
def State.send (s : State) (o : Output) : State := if s.power.gated then s else { s with out := s.out ++ [o] }
/-- An MSI-X message at once. -/
def State.sendVec (s : State) (v : FnId) (vec : Fin 4) : State :=
  (s.modFn v fun x => { x with lastMsix := vset x.lastMsix vec (some s.now), msixDue := vset x.msixDue vec false }).send (.msix v.val vec.val)
/-- A completion vector: within 2,000 counts of the last message it waits for the end of the interval (18, R475). -/
def State.coalesce (s : State) (v : FnId) (vec : Fin 4) : State :=
  match vget (s.fn v).lastMsix vec with
  | some t0 => if s.now < t0 + 2000 then s.modFn v fun x => { x with msixDue := vset x.msixDue vec true } else s.sendVec v vec
  | none => s.sendVec v vec

/-! ## Events -/

/-- Codes that are also written to FRAM (14, Table 14.9). -/
def sealedCodes : List Nat := [0x0307, 0x0308, 0x030A, 0x030B, 0x030D, 0x0505, 0x0506, 0x0507, 0x0602, 0x0603, 0x0703, 0x0704, 0x0705,
  0x0807, 0x0902, 0x0904, 0x0905, 0x0906, 0x0907, 0x0A01, 0x0A02, 0x0A04, 0x0A05]
/-- Codes that are always sealed (14, R417). -/
def alwaysSealed : List Nat := [0x0902, 0x0904, 0x0906, 0x0907]
/-- The seal rate of R417: at most once per code and source per 10^9 counts. -/
def Events.sealNow (e : Events) (code src stamp : Nat) : Bool :=
  sealedCodes.contains code && (alwaysSealed.contains code ||
    !(e.seals.any fun x => x.1 == code && x.2.1 == src && decide (stamp < x.2.2 + 1000000000)))
/-- Emit an event of a unit with a given stamp; its source is card index × 0x800 + unit (02, Table 2.3). -/
def State.emitAt (s : State) (stamp unit code : Nat) (fo : Bool) (detail : Bytes) : State :=
  let src := s.card * 0x800 + unit
  let seqNo := mget 0 s.events.seqs unit
  let sl := s.events.sealNow code src stamp
  let ev : Event := ⟨stamp, src, seqNo, code, sl, fo, padTo 16 detail⟩
  { s with events := { s.events with
      waiting := s.events.waiting ++ [ev],
      seqs := mset 0 s.events.seqs unit ((seqNo + 1) % 65536),
      seals := if sl then (code, src, stamp) :: s.events.seals.filter (fun x => !(x.1 == code && x.2.1 == src)) else s.events.seals } }
/-- Emit an event stamped now: the count at which its unit detected it (02, Event stamps). -/
def State.emit (s : State) (unit code : Nat) (detail : Bytes) : State := s.emitAt s.now unit code false detail
/-- Unit number of Fold f (02, Table 2.3). -/
def unitFold (f : FoldId) : Nat := 0x010 + f.val
def unitPort (p : PortId) : Nat := 0x030 + p.val
def unitLink (k : LinkId) : Nat := 0x050 + k.val
def unitStack (k : StackId) : Nat := 0x060 + k.val
def unitQuad (q : QuadId) : Nat := 0x080 + q.val
def unitTile (t : Nat) : Nat := 0x100 + t
/-- Order of events: stamp, source, sequence (02, R44). -/
def Event.before (a b : Event) : Bool :=
  decide (a.stamp < b.stamp) || (a.stamp == b.stamp && (decide (a.source < b.source) || (a.source == b.source && decide (a.seq ≤ b.seq))))
/-- Insert into a list ordered by R44. -/
def insEvent (e : Event) : List Event → List Event
  | [] => [e]
  | x :: r => if e.before x then e :: x :: r else x :: insEvent e r
/-- Events in the order of R44. -/
def sortEvents (l : List Event) : List Event := l.foldr insEvent []
/-- Give log positions to the events of `l`, in order; the logs keep their latest 65,536 and 4,096 (13, R384, R385). -/
def Events.place (e : Events) (l : List Event) : Events :=
  let o := sortEvents l
  let sl := o.filter (·.isSealed)
  let lg := e.log ++ o
  let sg := e.sealedLog ++ sl
  { e with log := lg.drop (lg.length - 65536), next := e.next + o.length,
           sealedLog := sg.drop (sg.length - 4096), sealedNext := e.sealedNext + sl.length }

/-! ## Completions (18) -/

/-- Queue 0 or 1 of a function. -/
def Func.queue (x : Func) (q : Nat) : Queue := if q = 0 then x.q0 else x.q1
def Func.setQueue (x : Func) (q : Nat) (y : Queue) : Func := if q = 0 then { x with q0 := y } else { x with q1 := y }
/-- The completion ring holds 2^k − 1 unconsumed entries (18, R479). -/
def Queue.full (q : Queue) : Bool := (q.cqTail + 2 ^ q.cqLog - q.cqHead) % 2 ^ q.cqLog == 2 ^ q.cqLog - 1
/-- Vector of a queue as an index. -/
def Queue.vec (q : Queue) : Fin 4 := ⟨q.vector % 4, by omega⟩
/-- Completion entry, 32 bytes (18, Table 18.3). -/
def Cqe.bytes (c : Cqe) (phase : Bool) (head : Nat) : Bytes :=
  le 2 c.cid ++ le 2 c.status ++ le 2 c.event ++ le 2 head ++ le 8 c.r0 ++ le 8 c.r1 ++ le 4 c.r2 ++ le 3 0 ++ le 1 (b2n phase)
/-- Write one completion entry, then its vector (18, R475, R479). -/
def State.writeCqe (s : State) (v : FnId) (c : Cqe) : State :=
  let q := (s.fn v).queue c.q
  let wrapped := q.cqTail + 1 == 2 ^ q.cqLog
  let q' := { q with cqTail := if wrapped then 0 else q.cqTail + 1, phase := if wrapped then !q.phase else q.phase }
  ((s.modFn v fun x => x.setQueue c.q q').send (.completion v.val c.q q.cqTail (c.bytes q.phase q.sqHead))).coalesce v q.vec
/-- An access to the BARs of a function whose TDI is in ERROR is an Unsupported Request (18, R501). -/
def State.barDead (s : State) (v : FnId) : Bool := v != 0 && (s.fn v).tdi == Tdi.error
def State.unsupported (s : State) : State := { s with pcie := { s.pcie with aerUnsupported := true } }
/-- First completion that waits for a queue's ring. -/
def Func.firstWaiting (x : Func) (q : Nat) : Option Cqe := x.waitingCqes.find? fun c => c.q == q
/-- The ring of a queue takes an entry: the queue is enabled, it has room, and the link runs at Gen3 or faster (18, R479, R480). -/
def State.ringTakes (s : State) (v : FnId) (q : Nat) : Bool :=
  ((s.fn v).queue q).enabled && !((s.fn v).queue q).full && decide (3 ≤ s.pcie.gen)
/-- Post a completion: it waits behind the earlier ones while its ring takes none. A disabled queue 0 loses it; one of queue 1 waits until
that queue is enabled again (18, R479, R480, R492, R500; DEDUCED, log entry 14). -/
def State.post (s : State) (v : FnId) (c : Cqe) : State :=
  let q := (s.fn v).queue c.q
  if !q.enabled && c.q = 0 then s
  else if !s.ringTakes v c.q || ((s.fn v).firstWaiting c.q).isSome then s.modFn v fun x => { x with waitingCqes := x.waitingCqes ++ [c] }
  else s.writeCqe v c
/-- Completions that waited for a queue's ring are written in order while it takes them (18, R479). -/
def flushLoop (v : FnId) (q : Nat) : Nat → State → State
  | 0, s => s
  | k + 1, s => match (s.fn v).firstWaiting q with
    | none => s
    | some c =>
      if !s.ringTakes v q then s
      else flushLoop v q k ((s.modFn v fun x => { x with waitingCqes := x.waitingCqes.erase c }).writeCqe v c)
def State.flush (s : State) (v : FnId) : State :=
  let k := (s.fn v).waitingCqes.length
  flushLoop v 1 k (flushLoop v 0 k s)
/-- Complete a queue 0 command. -/
def State.complete (s : State) (q : QHdr) (status event r0 r1 r2 : Nat) : State := s.post q.fn ⟨0, q.cid, status, event, r0, r1, r2⟩
/-- Complete a queue 1 entry. -/
def State.complete1 (s : State) (q : QHdr) (status event r0 r1 r2 : Nat) : State := s.post q.fn ⟨1, q.cid, status, event, r0, r1, r2⟩
/-- Fetching of the queue goes on: it is enabled without error, an entry waits, the link runs at Gen3 or faster and the card
is powered (18, R478, R480); a VF whose TDI is in ERROR starts no DMA (18, R501). -/
def State.canFetch (s : State) (v : FnId) (q : Nat) : Bool :=
  let x := (s.fn v).queue q
  x.enabled && !x.error && x.sqHead != x.sqTail && decide (3 ≤ s.pcie.gen) && !s.power.perst && !s.power.halted &&
    !((s.fn v).tdi == Tdi.error)
/-- Take the entry at the submission head (18, R478). -/
def State.fetch (s : State) (v : FnId) (q : Nat) : State :=
  s.modFn v fun x => x.setQueue q { x.queue q with sqHead := ((x.queue q).sqHead + 1) % 2 ^ (x.queue q).sqLog }

/-! ## Service level (14, Table 14.7) -/

/-- Level-2 set: the Root die core, the Shepherd, one quadrant with healthy tiles and a healthy stack of its own, one record port. -/
def State.levelTwo (s : State) : Bool :=
  s.power.booted && !s.power.engineFailed && s.shep.up &&
  ((List.finRange 4).any fun q => s.quadHealthy q &&
    (!(s.hbm ⟨2 * q.val, by omega⟩).lost || !(s.hbm ⟨2 * q.val + 1, by omega⟩).lost)) &&
  (decide (3 ≤ s.pcie.gen) || (List.finRange 16).any fun p => (s.port p).up)
/-- Every quadrant and stack is healthy (DEDUCED, log entry 15). -/
def State.levelThree (s : State) : Bool :=
  s.levelTwo && ((List.finRange 4).all fun q => s.quadHealthy q) && ((List.finRange 8).all fun k => !(s.hbm k).lost)
/-- Service level of the card. -/
def State.computeLevel (s : State) : Nat :=
  if s.power.halted then 0 else if !s.power.ready then 1 else if s.levelThree then 3 else if s.levelTwo then 2 else 1
/-- Set the service level and report a change (14, R414; 18, vector 3 of the PF). -/
def State.updateLevel (s : State) : State :=
  let n := s.computeLevel
  if n = s.power.level then s else
    (({ s with power := { s.power with level := n } }).emit 0 0x0908 [BitVec.ofNat 8 n, BitVec.ofNat 8 s.power.level]).sendVec 0 3

/-! ## Fold state changes -/

/-- Move a Fold to a state; vector 3 of its VF reports the change (18, Functions and BARs). -/
def State.setSt (s : State) (f : FoldId) (st : FoldState) : State :=
  if (s.fold f).st = st then s else (s.modFold f fun x => { x with st := st }).sendVec (vfOf f) 3

/-- Fold that owns a channel. -/
def State.chanFold (s : State) (c : Nat) : Option FoldId :=
  if h : (s.chanCfg c).fold < 16 then some ⟨(s.chanCfg c).fold, h⟩ else none
/-- Channels that belong to a Fold. -/
def State.chansOf (s : State) (f : FoldId) : List Nat := (s.cfg.channels.filter fun c => c.2.fold == f.val).map (·.1)
/-- Zeroise a channel's key slots (09, Table 9.2). Messages that have not left keep the retired keys they need (09, R239). -/
def Chan.zeroise (c : Chan) : Chan :=
  { c with inKey := Vector.replicate 2 [], outKey := Vector.replicate 2 [], salt := Vector.replicate 2 [] }
/-- Zeroise a channel's keys, the retired ones with the messages that hold them among them. -/
def Chan.wipe (c : Chan) : Chan := { c.zeroise with openMsg := none, closed := [] }
/-- Zeroise every key of the channels of a Fold. -/
def State.wipeChans (s : State) (f : FoldId) : State :=
  (s.chansOf f).foldl (fun s c => s.setChan c (s.chan c).wipe) s
/-- Zeroise the key slots of every channel of a Fold. -/
def State.zeroChans (s : State) (f : FoldId) : State :=
  (s.chansOf f).foldl (fun s c => s.setChan c (s.chan c).zeroise) s
/-- Zero the tiles of plots (05, R130). -/
def State.zeroPlots (s : State) (plots : BitVec 80) : State := { s with tiles := s.tiles.filter fun e => !plots.getLsbD (e.1 / 8) }
/-- Zero HBM units (09, R225). -/
def State.zeroUnits (s : State) (units : BitVec 192) : State :=
  (List.finRange 8).foldl (fun s (k : StackId) => s.modHbm k fun x =>
    let own := fun a => units.getLsbD (24 * k.val + a / 2 ^ 30)
    { x with mem := x.mem.filter (fun e => !own e.1), poison := x.poison.filter (fun w => !own (32 * w)),
             soft := x.soft.filter (fun w => !own (32 * w)) }) s
/-- A Fold's plots and HBM units change: what it leaves and what it acquires is zeroed (05, R130; 09, R225). -/
def State.setMasks (s : State) (f : FoldId) (plots : BitVec 80) (units : BitVec 192) : State :=
  let c := s.foldCfg f
  ((s.zeroPlots (c.plots ^^^ plots)).zeroUnits (c.units ^^^ units)).modFoldCfg f fun c => { c with plots := plots, units := units }
/-- End a Fold's background command with ABORTED (18, R488); the completion of a reset function is discarded (18, R500). -/
def State.abortBg (s : State) (f : FoldId) : State :=
  match (s.fold f).bg with
  | none => s
  | some b =>
    let s := s.modFold f fun x => { x with bg := none }
    if b.orphan || 16 < b.fn then s else s.post ⟨b.fn % 17, by omega⟩ ⟨0, b.cid, 0x000E, 0, 0, 0, 0⟩
/-- Take a Fold to EMPTY: everything its resources held is zeroised, its keys with it; configuration and telemetry stay
(09, R225, R229; 05, R130; 15, R438). -/
def State.emptyFold (s : State) (f : FoldId) : State :=
  let s := ((s.wipeChans f).zeroPlots (s.foldCfg f).plots).zeroUnits (s.foldCfg f).units
  let s := s.modFold f fun x => { Fold.dflt with st := x.st, tel := x.tel }
  s.setSt f .empty
/-- Zeroise a function's SPDM session and IDE keys (09, Table 9.2). -/
def State.zeroSession (s : State) (v : FnId) : State :=
  s.modFn v fun x => { x with spdm := ⟨0, []⟩, ideKey := [], ide := if x.ide = 0 then 0 else 3 }

/-- A free value: the n-th draw (DESIGN CHOICE, log entry 6). -/
def State.draw (s : State) : Bytes × State := (Config.fresh s.free, { s with free := s.free + 1 })

end Sys2Proof.Machine
end

