-- ==== Sys2Proof/Machine/Dict.lean ====
section
/-! DEFINITION. The object dictionary: the entry map, the access checks, signed writes, and the answer of an access (13). -/

namespace Sys2Proof.Machine

/-- Data types (13, Table 13.1): an integer of `w` bytes, OS(n), VS(n), or a DOMAIN of lo to hi bytes. -/
inductive Ty | int (w : Nat) | os (n : Nat) | vs (n : Nat) | dom (lo hi : Nat)
  deriving DecidableEq, Repr

/-- Folds that an RW-Q entry affects (13, RW-Q). -/
inductive Scope | open_ | card | fold (f : Nat) | chan (c : Nat) | field
  deriving DecidableEq, Repr

/-- An entry of the map: type, whether it can be written, who must sign (0 nobody, 1 either role, 2 the owner), which Folds
must be quiescent, and which values are in range. -/
structure Ent where
  ty : Ty
  writable : Bool
  auth : Nat
  scope : Scope
  ok : Bytes → Bool

/-- Value of an integer entry in an interval. -/
def inR (lo hi : Nat) (b : Bytes) : Bool := decide (lo ≤ leNat b ∧ leNat b ≤ hi)
def anyV (_ : Bytes) : Bool := true
def roE (ty : Ty) : Ent := ⟨ty, false, 0, .open_, anyV⟩
def rwE (w : Nat) (auth : Nat) (sc : Scope) (lo hi : Nat) : Ent := ⟨.int w, true, auth, sc, inR lo hi⟩
def osE (n : Nat) (auth : Nat) (sc : Scope) : Ent := ⟨.os n, true, auth, sc, anyV⟩
/-- OS(17): an IPv6 prefix and its length in bits. -/
def prefixOk (b : Bytes) : Bool := decide (fld b 16 1 ≤ 128)

/-- ChannelTable entry (10, Table 10.4). -/
def chanEnt (c : Nat) : Nat → Option Ent
  | 0 => some (roE (.int 1))
  | 1 => some ⟨.int 1, true, 1, .chan c, fun b => decide (leNat b ≤ 15 ∨ leNat b = 0xFF)⟩
  | 2 => some (osE 97 2 (.chan c))
  | 3 => some ⟨.os 17, true, 1, .chan c, prefixOk⟩
  | 4 => some (osE 16 1 (.chan c))
  | 5 => some (rwE 2 1 (.chan c) 0 0xFFFF)
  | 6 => some (rwE 1 1 (.chan c) 0 15)
  | 7 => some (rwE 4 1 (.chan c) 0 0xFFFFFFFF)
  | 8 => some (rwE 4 1 (.chan c) 0 0xFFFFFFFF)
  | 9 => some (rwE 1 1 (.chan c) 0 2)
  | 10 => some (rwE 1 1 (.chan c) 0 63)
  | 11 => some (rwE 2 1 (.chan c) 1280 9000)
  | _ => none

/-- Fold area entry at offset `o` of the base (13, Table 13.9). -/
def foldEnt (f o : Nat) (sub : Nat) : Option Ent :=
  match o, sub with
  | 0, 0 => some (roE (.int 1))
  | 1, 0 => some (roE (.int 1))
  | 1, 1 => some (osE 10 2 (.fold f))
  | 1, 2 => some (osE 24 2 (.fold f))
  | 2, 0 => some (roE (.int 1))
  | 2, (k + 1) => if k < 4 then some (roE (.os 32)) else none
  | 3, 0 => some (roE (.int 4))
  | 4, 0 => some (roE (.int 1))
  | 5, 0 => some (rwE 8 1 .open_ 0 (2 ^ 64 - 1))
  | 6, 0 => some (rwE 1 1 .open_ 1 4)
  | 7, 0 => some (roE (.int 1))
  | 8, k => if k ≤ 4 then some (roE (.int (if k = 0 then 1 else 4))) else none
  | 9, k => if k ≤ 4 then some (roE (.int 1)) else none
  | 10, 0 => some (rwE 2 1 (.fold f) 4 256)
  | 11, 0 => some (rwE 1 1 (.fold f) 0 7)
  | 12, 0 => some (roE (.int 2))
  | 13, 0 => some (roE (.int 1))
  | 13, 1 => some ⟨.dom 8 64, true, 0, .open_, anyV⟩
  | 13, 2 => some (roE (.dom 0 0))
  | 14, 0 => some (roE (.os 97))
  | _, _ => none

/-- CheckpointTarget entry (12, Table 12.3). -/
def targetEnt (f : Nat) : Nat → Option Ent
  | 0 => some (roE (.int 1))
  | 1 => some (osE 16 1 (.fold f))
  | 2 => some (rwE 2 1 (.fold f) 0 0xFFFF)
  | 3 => some ⟨.vs 223, true, 1, .fold f, anyV⟩
  | 4 => some (rwE 4 1 (.fold f) 0 0xFFFFFFFF)
  | 5 => some (rwE 8 1 (.fold f) 0 (2 ^ 64 - 1))
  | 6 => some (rwE 8 1 (.fold f) 0 (2 ^ 64 - 1))
  | 7 => some (rwE 1 1 (.fold f) 0 15)
  | 8 => some (rwE 8 1 (.fold f) 0 (2 ^ 64 - 1))
  | 9 => some (rwE 8 1 (.fold f) 0 (2 ^ 64 - 1))
  | _ => none

/-- A mapping entry: index, subindex 1 to `n` and the length of 64 bits of an object of the image, or no object (13, Tables 13.7, 13.14). -/
def mapsImage (image n : Nat) (b : Bytes) : Bool :=
  let v := leNat b
  v == 0 || (v / 2 ^ 16 == image && v % 256 == 64 && decide (1 ≤ v / 256 % 256 ∧ v / 256 % 256 ≤ n))
/-- Communication profile (13, Table 13.7; the subindices of the CiA 301 PDO records are CiA 301's, PRESUMED, log entry 16). -/
def profEnt (idx sub : Nat) : Option Ent :=
  match idx, sub with
  | 0x1000, 0 => some (roE (.int 4))
  | 0x1001, 0 => some (roE (.int 1))
  | 0x1008, 0 => some (roE (.vs 16))
  | 0x1009, 0 => some (roE (.vs 16))
  | 0x100A, 0 => some (roE (.vs 32))
  | 0x1010, 0 => some (roE (.int 1))
  | 0x1010, 1 => some (rwE 4 1 .open_ 0x65766173 0x65766173)
  | 0x1011, 0 => some (roE (.int 1))
  | 0x1011, 1 => some (rwE 4 2 .card 0x64616F6C 0x64616F6C)
  | 0x1017, 0 => some (rwE 2 0 .open_ 0 0xFFFF)
  | 0x1018, k => if k ≤ 4 then some (roE (.int (if k = 0 then 1 else 4))) else none
  | 0x1C12, 0 => some (rwE 1 0 .field 0 1)
  | 0x1C12, 1 => some (rwE 2 0 .field 0x1600 0x1603)
  | 0x1C13, 0 => some (rwE 1 0 .field 0 1)
  | 0x1C13, 1 => some (rwE 2 0 .field 0x1A00 0x1A03)
  | 0x1C32, 0 => some (roE (.int 1))
  | 0x1C32, 1 => some (rwE 2 0 .field 2 2)
  | 0x1C32, 2 => some (rwE 4 0 .field 0 0xFFFFFFFF)
  | 0x1C33, 0 => some (roE (.int 1))
  | 0x1C33, 1 => some (rwE 2 0 .field 2 2)
  | 0x1C33, 2 => some (rwE 4 0 .field 0 0xFFFFFFFF)
  | _, _ =>
    if 0x1400 ≤ idx ∧ idx ≤ 0x1403 ∨ 0x1800 ≤ idx ∧ idx ≤ 0x1803 then
      match sub with
      | 0 => some (roE (.int 1))
      | 1 => some (rwE 4 0 .field 0 0xFFFFFFFF)
      | 2 => some (rwE 1 0 .field 0 255)
      | _ => none
    else if 0x1600 ≤ idx ∧ idx ≤ 0x1603 ∨ 0x1A00 ≤ idx ∧ idx ≤ 0x1A03 then
      if sub = 0 then some (rwE 1 0 .field 0 8)
      else if sub ≤ 8 then some ⟨.int 4, true, 0, .field, mapsImage (if idx < 0x1800 then 0x6000 else 0x6100) (if idx < 0x1800 then 0x80 else 0x40)⟩
      else none
    else none

/-- Card configuration (13, Table 13.8). -/
def cardEnt (idx sub : Nat) : Option Ent :=
  match idx, sub with
  | 0x2001, 0 => some (roE (.int 8))
  | 0x2002, 0 => some ⟨.int 1, true, 1, .open_, fun b => [1, 2, 0x10, 0x11, 0x12, 0x13].contains (leNat b)⟩
  | 0x2010, 0 => some ⟨.int 4, true, 0, .card, fun b => periodOk (leNat b)⟩
  | 0x2011, 0 => some (rwE 1 0 .card 0 2)
  | 0x2012, 0 => some (rwE 1 2 .card 0 2)
  | 0x2020, 0 => some (roE (.int 8))
  | 0x2021, 0 => some (rwE 1 0 .card 0 2)
  | 0x2030, 0 => some (rwE 1 0 .card 0 6)
  | 0x2031, 0 => some (rwE 2 0 .card 0 0xFFFF)
  | 0x2032, 0 => some (rwE 1 0 .card 0 15)
  | 0x2033, 0 => some (rwE 1 0 .card 0 7)
  | 0x2050, 0 => some (roE (.int 1))
  | 0x2050, 1 => some (osE 16 1 .open_)
  | 0x2050, 2 => some (rwE 1 1 .open_ 0 128)
  | 0x2050, 3 => some (osE 16 1 .open_)
  | 0x2050, 4 => some ⟨.os 17, true, 1, .open_, prefixOk⟩
  | 0x2060, 0 => some (roE (.int 1))
  | 0x2060, 1 => some ⟨.int 1, true, 0, .field, fun b => decide (1 ≤ leNat b ∧ leNat b ≤ 127 ∨ leNat b = 0xFF)⟩
  | 0x2060, 2 => some (rwE 4 0 .field 125000 1000000)
  | 0x2060, 3 => some (rwE 4 0 .field 0 8000000)
  | 0x2060, 4 => some (rwE 1 0 .field 0 1)
  | 0x2060, 5 => some (rwE 2 0 .field 0 0xFFFF)
  | 0x2100, 1 => some (rwE 1 0 .card 0 31)
  | 0x2100, 2 => some ⟨.int 1, true, 0, .card, fun b => [1, 2, 4, 8, 16, 32].contains (leNat b)⟩
  | 0x2100, 3 => some (osE 32 2 .card)
  | 0x2100, k => if k ≤ 7 then some (roE (.int 4)) else none
  | 0x2110, 0 => some (osE 97 2 .open_)
  | 0x2111, 0 => some (osE 97 2 .open_)
  | 0x2112, k => if k ≤ 2 then some (roE (.int 8)) else none
  | _, _ =>
    if 0x2040 ≤ idx ∧ idx ≤ 0x204F then
      match sub with
      | 0 => some (roE (.int 1))
      | 1 => some (roE (.os 6))
      | 2 => some (osE 16 0 .card)
      | 3 => some (rwE 1 0 .card 0 128)
      | 4 => some (osE 16 0 .card)
      | 5 => some (rwE 2 0 .card 0 4094)
      | _ => none
    else none

/-- Read-only telemetry: highest subindex of an index, if listed (13, Tables 13.10, 13.11, 13.13, 13.14). -/
def telSubs (idx : Nat) : Option Nat :=
  if idx = 0x4000 then some 7 else if 0x4010 ≤ idx ∧ idx ≤ 0x4013 then some 5 else if 0x4020 ≤ idx ∧ idx ≤ 0x4027 then some 5
  else if 0x4030 ≤ idx ∧ idx ≤ 0x403F then some 6 else if idx = 0x4040 then some 3 else if 0x4050 ≤ idx ∧ idx ≤ 0x405F then some 4
  else if 0x4080 ≤ idx ∧ idx ≤ 0x408F then some 8 else if 0x4100 ≤ idx ∧ idx ≤ 0x410F then some 4 else if idx = 0x4200 then some 0x7F
  else if idx = 0x4300 then some 3 else if idx = 0x5001 ∨ idx = 0x5101 then some 0x40 else if idx = 0x5002 then some 4
  else if 0x5200 ≤ idx ∧ idx ≤ 0x520F then some 6 else if 0x5820 ≤ idx ∧ idx ≤ 0x582F then some 5
  else if idx = 0x6000 then some 0x80 else if idx = 0x6100 then some 0x40 else none

/-- Input binding entry (13, Table 13.14). -/
def bindEnt (f : Nat) : Nat → Option Ent
  | 0 => some (roE (.int 1))
  | 1 => some (rwE 1 1 (.fold f) 0 2)
  | 2 => some (rwE 1 1 (.fold f) 0 4)
  | 3 => some (rwE 2 1 (.fold f) 0 0xFFFF)
  | 4 => some (rwE 2 1 (.fold f) 0 0xFFFF)
  | 5 => some (rwE 1 1 (.fold f) 0 1)
  | _ => none

/-- Result binding entry (13, Table 13.14). -/
def outEnt (f : Nat) : Nat → Option Ent
  | 0 => some (roE (.int 1))
  | 1 => some (rwE 1 1 (.fold f) 0 2)
  | 2 => some (rwE 1 1 (.fold f) 1 4)
  | 3 => some (rwE 2 1 (.fold f) 0 0xFFFF)
  | _ => none

/-- The entry map: every entry of chapter 13 and of Tables 10.4 and 12.3. -/
def entOf (idx sub : Nat) : Option Ent :=
  if idx < 0x2000 then profEnt idx sub
  else if idx < 0x2200 then cardEnt idx sub
  else if idx < 0x2300 then chanEnt (idx - 0x2200) sub
  else if 0x3000 ≤ idx ∧ idx < 0x3200 then foldEnt ((idx - 0x3000) / 0x20) ((idx - 0x3000) % 0x20) sub
  else if idx = 0x5000 ∨ idx = 0x5100 then
    if sub = 2 then some (rwE 8 0 .open_ 0 (2 ^ 64 - 1)) else if sub ≤ 3 then some (roE (.int 8)) else none
  else if idx = 0x5800 then if sub = 0 then some (osE 32 1 .open_) else none
  else if 0x5810 ≤ idx ∧ idx < 0x5820 then targetEnt (idx - 0x5810) sub
  else if 0x5830 ≤ idx ∧ idx < 0x5840 then if sub = 0 then some (osE 145 2 (.fold (idx - 0x5830))) else none
  else if 0x6200 ≤ idx ∧ idx < 0x6600 then bindEnt ((idx - 0x6200) / 0x40) sub
  else if 0x6600 ≤ idx ∧ idx < 0x6610 then outEnt (idx - 0x6600) sub
  else match telSubs idx with
    | some k => if sub ≤ k then some (roE (.int 1)) else none
    | none => none

/-- The index is listed: some subindex of it is. -/
def indexListed (idx : Nat) : Bool := (entOf idx 0).isSome || (entOf idx 1).isSome

/-- Entries that 0x1010:01 stores, and the always-kept ones (13, Table 13.5). -/
def storedEntry (idx sub : Nat) : Bool :=
  idx = 0x1017 || decide (0x1400 ≤ idx ∧ idx ≤ 0x1C33) || (decide (0x2010 ≤ idx ∧ idx ≤ 0x22FF)) || decide (0x5810 ≤ idx ∧ idx ≤ 0x581F) ||
    decide (0x6200 ≤ idx ∧ idx ≤ 0x66FF) || (decide (0x3000 ≤ idx ∧ idx < 0x3200) && ([1, 10, 11].contains ((idx - 0x3000) % 0x20)) && sub ≤ 2)

/-- Fold that an entry's area or index names, if any (13, RW-Q). -/
def entryFold (idx : Nat) : Option FoldId :=
  if 0x3000 ≤ idx ∧ idx < 0x3200 then some ⟨(idx - 0x3000) / 0x20 % 16, by omega⟩
  else if 0x5200 ≤ idx ∧ idx < 0x5210 then some ⟨(idx - 0x5200) % 16, by omega⟩
  else if 0x5810 ≤ idx ∧ idx < 0x5840 then some ⟨(idx - 0x5810) % 16, by omega⟩
  else if 0x6200 ≤ idx ∧ idx < 0x6600 then some ⟨(idx - 0x6200) / 0x40 % 16, by omega⟩
  else if 0x6600 ≤ idx ∧ idx < 0x6610 then some ⟨(idx - 0x6600) % 16, by omega⟩
  else none

/-- What a virtual function reaches on path 0 (13, Table 13.3). -/
def vfReach (v : Nat) (idx sub : Nat) : Bool :=
  decide (0x1000 ≤ idx ∧ idx ≤ 0x101F) || (idx == 0x2020 && sub == 0) ||
    (decide (0x3000 ≤ idx ∧ idx < 0x3200 ∨ 0x5200 ≤ idx ∧ idx ≤ 0x583F) && idx != 0x5800 &&
      (match entryFold idx with | some f => f.val + 1 == v | none => false))

/-- Paths served by the supplies present (13, Table 13.4; 17, Corners): 0 refused, 1 stored entries only, 2 every writable entry. -/
def State.writeService (s : State) (a : Access) : Nat :=
  if !s.shep.up || s.shep.restarting then 0
  else if (a.path == 1 || a.path == 2) && s.shep.fbPresHigh then 0
  else match s.shep.source with
    | .main => 2
    | .poe => if a.path = 0 then 0 else 1
    | .aux => 0

/-- An address lies in an IPv6 prefix of 17 bytes; length 0 allows any (10, Table 10.4). -/
def inPrefix (pre addr : Bytes) : Bool :=
  let n := fld pre 16 1
  n == 0 || (beNat (padTo 16 addr) / 2 ^ (128 - n) == beNat (pre.take 16) / 2 ^ (128 - n))

/-- Key of a role. -/
def State.roleKey (s : State) (role : Nat) : Bytes := if role = 0 then s.kept.ownerKey else if role = 1 then s.kept.operatorKey else []
/-- AuthSeq of a role. -/
def State.roleSeq (s : State) (role : Nat) : Nat := if role = 0 then s.kept.seqOwner else s.kept.seqOperator
/-- The role's AuthSeq becomes iz-seq (13, R364). -/
def State.setSeq (s : State) (role n : Nat) : State :=
  { s with kept := if role = 0 then { s.kept with seqOwner := n } else { s.kept with seqOperator := n } }
/-- A key with every byte zero is no key. -/
def normKey (b : Bytes) : Bytes := if allZero b then [] else b

/-- A signed object is accepted for an entry (13, R362, R363, R365, R366). -/
def State.sigOk (s : State) (idx sub auth : Nat) (o : Signed) : Bool :=
  o.alg == -35 && o.unprotectedEmpty && decide (o.role ≤ 1) && o.index == idx && o.sub == sub &&
  (o.scope == le 8 s.sec.serial || (o.scope.length == 32 && !s.kept.heathOwner.isEmpty && o.scope == s.kept.heathOwner)) &&
  decide (s.roleSeq o.role < o.seq) && !s.kept.ownerKey.isEmpty && !(s.roleKey o.role).isEmpty && o.signedBy == s.roleKey o.role &&
  (auth != 2 || o.role == 0)

/-- Folds that an entry affects are all quiescent (13, R361). -/
def State.quiet (s : State) (sc : Scope) (v : Bytes) (sub : Nat) : Bool :=
  let q := fun (n : Nat) => if h : n < 16 then !isActive (s.fold ⟨n, h⟩).st else true
  match sc with
  | .open_ => true
  | .card => !s.anyActive
  | .fold f => q f
  | .chan c => q (s.chanCfg c).fold && (sub != 1 || q (leNat v))
  | .field => allFolds.all fun f => !isActive (s.fold f).st ||
      !((s.foldCfg f).outBind.dest != 0 || s.cfg.inBinds.any fun e => e.1 / 64 == f.val && e.2.source != 0)

/-- A physical-function write that R377 refuses while the Fold's TDI is CONFIG_LOCKED or RUN (13). -/
def State.tdiLocked (s : State) (a : Access) (idx : Nat) (v : Bytes) : Bool :=
  let lk := fun (f : FoldId) => (s.fn (vfOf f)).tdi == Tdi.locked || (s.fn (vfOf f)).tdi == Tdi.run
  a.path == 0 && a.fn == 0 && idx != 0x5800 &&
  (match entryFold idx with
   | some f => lk f && !((idx - 0x3000) % 0x20 == 6 && decide (idx < 0x3200) && (leNat v == 1 || leNat v == 4))
   | none => if h : 0x2200 ≤ idx ∧ idx < 0x2300 ∧ (s.chanCfg (idx - 0x2200)).fold < 16 then lk ⟨(s.chanCfg (idx - 0x2200)).fold, h.2.2⟩ else false)

/-- Length legal for the type (13, R358). -/
def Ty.lenOk (t : Ty) (n : Nat) : Bool := match t with
  | .int w => n == w
  | .os k => n == k
  | .vs k => decide (n ≤ k)
  | .dom lo hi => decide (lo ≤ n ∧ n ≤ hi)

/-- AUTH_REJECT (14, Table 14.9). -/
def State.authReject (s : State) (a : Access) (idx sub role seq : Nat) : State :=
  s.emit 0 0x0603 ([BitVec.ofNat 8 a.path.val] ++ le 2 idx ++ le 1 sub ++ le 1 role ++ le 8 seq)

/-- What an access left: the state, the CiA 301 abort code (0 accepted), the event code, the plain value. -/
structure Admitted where
  st : State
  abort : Nat
  event : Nat
  value : Bytes

/-- Checks after the signature: length, range, TDISP lock, RW-Q (13, R358, R359, R377, R361; order: DESIGN CHOICE, log entry 13). -/
def State.lateChecks (s : State) (a : Access) (idx sub : Nat) (e : Ent) (v : Bytes) : Admitted :=
  if !e.ty.lenOk v.length then ⟨s, 0x06070010, 0, v⟩
  else if !e.ok v then ⟨s, 0x06090030, 0, v⟩
  else if s.tdiLocked a idx v then ⟨s, 0x08000022, 0, v⟩
  else if !s.quiet e.scope v sub then ⟨s, 0x08000022, 0, v⟩
  else ⟨s, 0, 0, v⟩

/-- A notice whose signature or role fails is refused with NOTICE_REJECT as well (12, R323; DEDUCED, log entry 23). -/
def State.noticeUnsigned (s : State) (a : Access) (v : Bytes) : State :=
  if h : fld v 0 1 < 16 then s.emit (unitFold ⟨fld v 0 1, h⟩) 0x0801 (le 1 a.path.val ++ le 4 (fld v 4 4)) else s
/-- Signature and role of a signed object hold. -/
def State.signerOk (s : State) (o : Signed) : Bool :=
  o.alg == -35 && o.unprotectedEmpty && decide (o.role ≤ 1) && !(s.roleKey o.role).isEmpty && o.signedBy == s.roleKey o.role
/-- Signature, then the later checks; an accepted signature sets AuthSeq even where a later check refuses (13, R364). -/
def State.signedChecks (s : State) (a : Access) (idx sub : Nat) (e : Ent) (d : WData) : Admitted :=
  match d with
  | .plain v =>
    if (e.auth != 0 && !(idx == 0x2110 && s.kept.ownerKey.isEmpty && a.path == 0 && a.fn == 0)) || a.path == 3 then
      let s := s.authReject a idx sub 0 0
      if idx = 0x5800 then ⟨s.noticeUnsigned a v, 0x08000020, 0x0801, v⟩ else ⟨s, 0x08000020, 0x0603, v⟩
    else s.lateChecks a idx sub e v
  | .signed o =>
    if 4096 < o.size then ⟨s, 0x06070012, 0, o.payload⟩
    else if !s.sigOk idx sub e.auth o then
      let r := s.authReject a idx sub o.role o.seq
      if idx = 0x5800 ∧ !s.signerOk o then ⟨r.noticeUnsigned a o.payload, 0x08000020, 0x0801, o.payload⟩ else ⟨r, 0x08000020, 0x0603, o.payload⟩
    else (s.setSeq o.role o.seq).lateChecks a idx sub e o.payload

/-- Every check of a dictionary write that does not depend on the entry's own behaviour. `cmd` marks a signed command, whose
reach is its queue's (18, R484). -/
def State.admitWrite (s : State) (a : Access) (idx sub : Nat) (d : WData) (cmd : Bool) : Admitted :=
  let v := match d with | .plain v => v | .signed o => o.payload
  if s.writeService a = 0 then ⟨s, 0x08000022, 0, v⟩
  else if a.path == 3 && !inPrefix (s.val 0x2050 4 (List.replicate 17 0)) a.source then ⟨s, 0x08000022, 0, v⟩
  else if !cmd && a.path == 0 && a.fn != 0 && !vfReach a.fn.val idx sub then ⟨s, 0x06020000, 0, v⟩
  else match entOf idx sub with
    | none => ⟨s, if indexListed idx then 0x06090011 else 0x06020000, 0, v⟩
    | some e =>
      if !e.writable then ⟨s, 0x06010002, 0, v⟩
      else if s.writeService a = 1 && !storedEntry idx sub then ⟨s, 0x08000022, 0, v⟩
      else s.signedChecks a idx sub e d

/-- The answer of an access: the far side sees the abort code and the event code; a refusal is the path's LastRefusal; on
path 0 the mailbox is done and vector 0 fires (13, Table 13.11; 18, Table 18.7). -/
def State.answer (s : State) (a : Access) (idx sub abort event : Nat) (value : Bytes) : State :=
  let s := if abort = 0 then s else
    { s with shep := { s.shep with refusals := mset ⟨0, 0, 0, 0⟩ s.shep.refusals a.path.val ⟨idx, sub, abort, s.now⟩ } }
  let s := s.send (.sdo a.path.val a.fn.val abort event value)
  if a.path = 0 then
    let resp := le 4 abort ++ le 2 event ++ le 2 0 ++ le 8 s.now ++ le 4 value.length ++ le 4 value.length ++ value
    ((s.modFn a.fn fun x => { x with mbStatus := 2, mbResp := resp }).sendVec a.fn 0)
  else s

/-- Entries whose value is stored at its commit (13, Table 13.5). -/
def keptEntry (idx sub : Nat) : Bool := idx == 0x2110 || idx == 0x2111 || (idx == 0x2100 && sub == 3)
/-- An accepted value commits; one taken on PoE is held for the next main power-up where its commit would not refuse it (13, Table 13.4). -/
def State.commitOrHold (s : State) (service idx sub : Nat) (v : Bytes) (commit : State → Bytes → State × Nat × Nat) : State × Nat × Nat :=
  let o := commit s v
  if service = 1 && !keptEntry idx sub && o.2.1 == 0 then
    ({ s with shep := { s.shep with deferred := s.shep.deferred ++ [(idx, sub, v)] } }, 0, 0)
  else o
/-- A write as a whole: checks, then `commit` on the accepted value. `commit` answers the state, an abort code and an event code. -/
def State.dictWrite (s : State) (idx sub : Nat) (r : WReq) (commit : State → Bytes → State × Nat × Nat) : State :=
  let c := s.admitWrite r.acc idx sub r.data false
  if r.acc.path == 0 && s.barDead r.acc.fn then s.unsupported
  else if c.abort ≠ 0 then c.st.answer r.acc idx sub c.abort c.event []
  else if r.rsvd ≠ 0 then c.st.answer r.acc idx sub 0x06090030 0 []
  else
    let o := c.st.commitOrHold (s.writeService r.acc) idx sub c.value commit
    o.1.answer r.acc idx sub o.2.1 o.2.2 []

end Sys2Proof.Machine
end

