-- ==== Sys2Proof/Machine/Epoch.lean ====
section
/-! DEFINITION. Relayed service words, membership, epoch requests and proposals, and the mapping of a card's situation (11, 19). -/

namespace Sys2Proof.Machine

/-! ## Service words (11, Table 11.3) -/

/-- The link carries every service word: up, attested and in use (11, R304). -/
def Link.carries (k : Link) : Bool := decide (2 ≤ k.state) && k.attested && !k.outOfUse
/-- Put a word on every link that carries relayed words, but not on `skip`, for `copies` frames. -/
def State.queueWord (s : State) (w : SvcWord) (copies : Nat) (skip : Option LinkId) : State :=
  (List.finRange 16).foldl (fun s (k : LinkId) =>
    if (s.link k).carries && skip != some k then s.modLink k fun x => { x with sendq := x.sendq ++ [(w, copies)] } else s) s
/-- A word of this card's own origin: eight consecutive frames under one Sequence, HopsLeft 10 (11, R296). -/
def State.flood (s : State) (typ : Nat) (body : Bytes) : State :=
  let h := s.heath
  ({ s with heath := { h with seq := h.seq + 1, seen := (s.card, h.seq) :: h.seen } }).queueWord ⟨typ, 10, s.card, h.seq, body⟩ 8 none
/-- A relayed word arrives: it is taken once per Origin and Sequence on a link that carries relayed words (11, R295, R304). -/
def State.freshWord (s : State) (h : RelayHdr) : Bool :=
  (s.link h.link).carries && h.origin != s.card && !s.heath.seen.contains (h.origin, h.seq)
/-- HELLO starts on a trained link: card index, link number, topology, serial number, HeathOwner prefix (11, Table 11.3). A card
outside any Heath starts discovery only while none of its Folds is active (11, R307). -/
def State.startHello (s : State) (k : LinkId) : State :=
  if s.topology = 1 || (s.heath.members = 0 && s.anyActive) then s else
    let h := s.heath
    let w : SvcWord := ⟨2, 0, s.card, h.seq, be 1 s.card ++ be 1 k.val ++ be 1 s.topology ++ be 8 s.sec.serial ++ padTo 8 s.kept.heathOwner⟩
    ({ s with heath := { h with seq := h.seq + 1 } }).modLink k fun x => { x with sendq := x.sendq ++ [(w, 1)] }
/-- Note it and relay it with HopsLeft less one, none with HopsLeft zero (11, R295). -/
def State.relay (s : State) (h : RelayHdr) (typ : Nat) (body : Bytes) : State :=
  let s := { s with heath := { s.heath with seen := (h.origin, h.seq) :: s.heath.seen } }
  if h.hops = 0 then s else s.queueWord ⟨typ, h.hops - 1, h.origin, h.seq, body⟩ 1 (some h.link)

/-! ## Membership -/

/-- Members as a set: a card outside any Heath counts itself alone. -/
def State.memberSet (s : State) : BitVec 32 := if s.heath.members = 0 then BitVec.ofNat 32 (2 ^ s.card) else s.heath.members
/-- Card indices of a member set, rising. -/
def cardsOf (m : BitVec 32) : List Nat := (List.range 32).filter fun c => m.getLsbD c
/-- The coordinator is the lowest-indexed member (11, Membership epochs). -/
def State.coordinator (s : State) : Nat := (cardsOf s.memberSet).headD s.card
/-- E: the smallest multiple of 65,536 at least 2,000,000 counts after the proposal (11, R309). -/
def epochAt (now : Nat) : Nat := roundUp (now + 2000000) 65536
/-- Body of a MEMBER word: epoch number, E, member set, kind 0 PROPOSE, 1 ACK, 2 ABORT, unit card, unit number. -/
def memberBody (epoch e : Nat) (m : BitVec 32) (kind unitCard unitNo : Nat) : Bytes :=
  be 4 epoch ++ be 8 e ++ be 4 m.toNat ++ be 1 kind ++ be 1 unitCard ++ be 2 unitNo
/-- New member set of requests: unit number 0 stands for the whole card (DEDUCED, log entry 18). -/
def setAfter (m : BitVec 32) (reqs : List (Nat × Nat)) : BitVec 32 :=
  reqs.foldl (fun m r => if r.2 = 0 then m ||| BitVec.ofNat 32 (2 ^ (r.1 % 32)) else m) m
/-- Batch every pending request into one proposal; none while another is pending (11, R309). A card outside the shape has no
position in the Heath (11, R297). -/
def State.tryPropose (s : State) : State :=
  match s.heath.proposal with
  | some _ => s
  | none =>
    let units := (s.heath.requests.map fun r => (r.1, r.2.1)).filter fun u => decide (u.1 < s.topology) || u.1 == s.card
    if units.isEmpty || s.coordinator != s.card then s else
      let set := setAfter s.memberSet units
      let e := epochAt s.now
      let n := s.heath.epoch + 1
      let p : Proposal := ⟨n, e, set, units, BitVec.ofNat 32 (2 ^ (s.card % 32)), false, false⟩
      let s := { s with heath := { s.heath with proposal := some p, requests := [] } }
      units.foldl (fun s u => (s.flood 6 (memberBody n e set 0 u.1 u.2)).flood 6 (memberBody n e set 1 u.1 u.2)) s
/-! ## Upstream (11, R301 to R303) -/

/-- Time reference of a member set: card 0, else the lowest-indexed member. -/
def referenceOf (m : BitVec 32) (self : Nat) : Nat := (cardsOf m).headD self
/-- Candidate upstreams with their depth: live attested links that have carried a TIME word of a card that has a depth; a member follows
members alone, the time tree of its epoch (11, Table 11.5). -/
def State.upstreams (s : State) : List (LinkId × Nat) :=
  (List.finRange 16).filterMap fun k =>
    let x := s.link k
    if x.carries && (s.heath.members == 0 || s.heath.members.getLsbD x.partner) then
      match x.depth with
      | some d => if d < 255 then some (k, d) else none
      | none => none
    else none
/-- Smallest depth, lowest link number on ties. -/
def bestUpstream (l : List (LinkId × Nat)) : Option (LinkId × Nat) := l.foldl (fun a x => match a with
  | none => some x
  | some y => if x.2 < y.2 then some x else some y) none
/-- This card is the time reference: card 0, else the lowest-indexed member. Outside a Heath only card 0 and a standalone card are
(DEDUCED, log entry 52). -/
def State.isReference (s : State) : Bool :=
  if s.heath.members = 0 then s.card == 0 || s.topology == 1 else referenceOf s.heath.members s.card == s.card
/-- Choose the upstream and the own depth again; a card without an upstream has no depth and says 255 (DESIGN CHOICE, log entry 52). -/
def State.reselect (s : State) : State :=
  let r := if s.heath.members = 0 then (if s.isReference then s.card else 0) else referenceOf s.heath.members s.card
  if s.isReference then { s with heath := { s.heath with reference := r, upstream := none, depth := 0 } }
  else match bestUpstream s.upstreams with
    | some (k, d) => { s with heath := { s.heath with reference := r, upstream := some k, depth := d + 1 } }
    | none => { s with heath := { s.heath with reference := r, upstream := none, depth := 255 } }

/-- Ask for an epoch for a unit of this card: the coordinator takes it itself, another card floods EPOCH_REQ (11). -/
def State.requestEpoch (s : State) (unitNo : Nat) : State :=
  if s.coordinator = s.card then
    ({ s with heath := { s.heath with requests := s.heath.requests ++ [(s.card, unitNo, Config.epochKind unitNo)] } }).tryPropose
  else s.flood 9 (be 1 s.card ++ be 2 unitNo ++ be 1 (Config.epochKind unitNo))

/-! ## Job shape (11, R298) -/

/-- Cards whose RUN words of a Fold this card holds. -/
def Fold.runCards (x : Fold) : BitVec 32 := (x.run.armWords.filter fun e => e.2.run).foldl (fun m e => m ||| BitVec.ofNat 32 (2 ^ (e.1 % 32))) 0
/-- Cards of a Fold's job: the members of the Heath with this card. A card that joins counts the set of the proposal that admits it and
the cards whose RUN words it holds (DEDUCED, log entry 19). -/
def State.jobSet (s : State) (f : FoldId) : BitVec 32 :=
  let self := BitVec.ofNat 32 (2 ^ (s.card % 32))
  if s.heath.members = 0 && s.heath.joining then
    self ||| (s.fold f).runCards ||| (match s.heath.proposal with
      | some p => if p.set.getLsbD (s.card % 32) then p.set else 0
      | none => 0)
  else s.memberSet ||| self
/-- First position and count of a set of cards. -/
def shapeOf (m : BitVec 32) : Nat × Nat := ((cardsOf m).headD 0, (cardsOf m).length)
/-- A multi-card job fills positions b to b + n − 1 with b a multiple of 2^ceil(log2 n). -/
def shapeOk (m : BitVec 32) : Bool :=
  let (b, n) := shapeOf m
  n ≤ 1 || (cardsOf m == (List.range n).map (b + ·) && b % 2 ^ Nat.clog 2 n == 0)
/-- Cards directly linked under the cabled topology: every other card in the meshes and the pair, the cards that differ in
one index bit in the hypercubes (11, Table 11.4). -/
def neighboursOf (topology c : Nat) : List Nat :=
  if topology ≤ 8 then (List.range topology).filter (· != c)
  else if topology = 16 then (List.range 4).map fun j => Nat.xor c (2 ^ j)
  else (List.range 5).map fun j => Nat.xor c (2 ^ j)
/-- Partner of a link in the cabling map, and whether the link is a spare; a card index outside the shape has no place in it (11, R297,
Table 11.4). -/
def cablePartner (topology c k : Nat) : Option (Nat × Bool) :=
  if topology ≤ c then none
  else if topology = 2 then some (Nat.xor c 1, false)
  else if topology = 4 then (if k < 15 then some (Nat.xor c (k / 5 + 1), false) else some (Nat.xor c 1, true))
  else if topology = 8 then (if k < 14 then some (Nat.xor c (k / 2 + 1), false) else some (Nat.xor c (k - 13), true))
  else if topology = 16 then some (Nat.xor c (2 ^ (k / 4)), false)
  else if topology = 32 then (if k < 15 then some (Nat.xor c (2 ^ (k / 3)), false) else some (Nat.xor c 1, true))
  else none

/-! ## The mapping of the situation (19, The mapping set) -/

/-- Stacks out of service on which the Fold holds units (11, R312). -/
def State.lostStacks (s : State) (f : FoldId) : List Nat :=
  (List.range 8).filter fun k => s.heath.lostStacks.contains k && decide (0 < (s.foldCfg f).unitsOn k)
/-- Variant in force: 0 healthy, 0x10 + s one stack lost, 0x20 + k a spare in place of link k; none where two stacks are lost. -/
def State.variant (s : State) (f : FoldId) : Option Nat :=
  match s.lostStacks f with
  | [] => some (match s.heath.spareFor with | some k => 0x20 + k | none => 0)
  | [k] => some (0x10 + k)
  | _ => none
/-- Quadrants with plots that a card of the job has lost by epoch. -/
def State.quadCount (s : State) (f : FoldId) (c : Nat) : Nat :=
  ((List.range 4).filter fun q => decide (0 < (s.foldCfg f).plotsIn q) && !s.heath.lostQuads.contains (c, q)).length
/-- The q lowest-numbered quadrants of a mask. -/
def lowestQuads (mask q : Nat) : Nat := ((((List.range 4).filter fun i => bit mask i).take q).map (2 ^ ·)).sum
/-- The quadrant set of the key: in a multi-card Growing job cut to the smallest healthy count among the cards. -/
def State.keyQuads (s : State) (f : FoldId) (n : Nat) (growing : Bool) : Nat :=
  let own := s.foldQuads f
  if growing && decide (1 < n) then
    lowestQuads own ((((List.range n).map ((s.fold f).run.job.1 + ·)).map fun c => s.quadCount f c).foldl min (((List.range 4).filter fun i => bit own i).length))
  else own
/-- The entry whose key matches the card's situation (19, R511). -/
def State.findMapping (s : State) (f : FoldId) : Option Mapping :=
  match (s.fold f).load, s.variant f with
  | some l, some v =>
    let n := (s.fold f).run.job.2
    let q := s.keyQuads f n (l.growing && !(s.fold f).grow.resharded)
    l.maps.find? fun m => m.cards == n && m.quads == q && m.variant == v
  | _, _ => none
/-- The mapping entry in force. -/
def Fold.mapEntry (x : Fold) : Option Mapping :=
  match x.load, x.run.mapping with
  | some l, some m => l.maps.find? fun e => e.id == m
  | _, _ => none

end Sys2Proof.Machine
end

