-- ==== Sys2Proof/Machine/Binning.lean ====
section
/-! DEFINITION. Binning: source values, comparison in the source type, codes, categorical codes, activations, packing (04). -/

namespace Sys2Proof.Machine

/-- A source value: missing (NaN), an infinity, or an exact number in units common to its type. -/
inductive Xv | missing | ninf | fin (n : Int) | pinf
  deriving DecidableEq, Repr

/-- Width in bytes of a value of a source type (04, Table 4.2; 19, Table 19.4); 0 where the code names none. -/
def srcWidth (typ : Nat) : Nat := match typ with
  | 0x01 => 2
  | 0x02 => 4
  | 0x03 => 8
  | 0x11 | 0x21 => 1
  | 0x12 | 0x22 => 2
  | 0x13 | 0x23 => 4
  | 0x14 | 0x24 => 8
  | 0x31 => 8
  | 0x32 => 9
  | _ => 0
/-- Width in bytes of a stored threshold: a DEC64S table stores 128-bit mantissas, a stage-binning table int64 (04, R80; 19, ModelImage;
DEDUCED, log entry 59). -/
def thrWidth (typ use : Nat) : Nat := if use = 2 then 8 else if typ = 0x32 then 16 else srcWidth typ

/-- IEEE 754 binary value with `eb` exponent and `mb` fraction bits, exact in units of the smallest subnormal; −0 is 0. -/
def floatVal (eb mb n : Nat) : Xv :=
  let frac := n % 2 ^ mb
  let ex := n / 2 ^ mb % 2 ^ eb
  let neg := n / 2 ^ (eb + mb) % 2 == 1
  if ex = 2 ^ eb - 1 then (if frac = 0 then (if neg then .ninf else .pinf) else .missing)
  else
    let m : Int := if ex = 0 then frac else (2 ^ mb + frac) * 2 ^ (ex - 1)
    .fin (if neg then -m else m)

/-- Units of 1 in a binary type. -/
def floatOne (typ : Nat) : Nat := match typ with
  | 0x01 => 2 ^ 24
  | 0x02 => 2 ^ 149
  | 0x03 => 2 ^ 1074
  | _ => 1

/-- Value of the bytes of a source type, and for DEC64S its own scale (04, Table 4.2). -/
def srcVal (typ : Nat) (b : Bytes) : Xv × Nat := match typ with
  | 0x01 => (floatVal 5 10 (leNat b), 0)
  | 0x02 => (floatVal 8 23 (leNat b), 0)
  | 0x03 => (floatVal 11 52 (leNat b), 0)
  | 0x32 => let sc := fld b 8 1; (if 18 < sc then .missing else .fin (fldS b 0 8), sc)
  | _ => if typ / 16 = 2 then (.fin (leNat b), 0) else (.fin (signed (8 * b.length) (leNat b)), 0)

/-- Threshold value of its stored bytes. -/
def thrVal (typ use n : Nat) : Xv :=
  if use = 2 then .fin (signed 64 n) else if typ = 0x32 then .fin (signed 128 n) else (srcVal typ (le (srcWidth typ) n)).1

/-- `a` is less than `b` in the order of the source type. -/
def Xv.lt : Xv → Xv → Bool
  | .missing, _ | _, .missing => false
  | .ninf, .ninf => false
  | .ninf, _ => true
  | _, .ninf => false
  | .pinf, _ => false
  | _, .pinf => true
  | .fin a, .fin b => decide (a < b)

/-- A value passes an entry: GE when it is at least the threshold, GT when strictly greater (04, R74). -/
def passes (v t : Xv) (gt : Bool) : Bool := if gt then t.lt v else !v.lt t

/-- Number of entries of a cut table that a value passes, compared in the table's own type; DEC64S values are cross-scaled exactly, in
integers that 128 bits hold (04, R74, R80). A table whose source type or scale is not its feature's compares raw values: the spec refuses
no such bundle (DESIGN CHOICE, log entry 60). -/
def countPassed (c : CutTable) (v : Xv) (sc : Nat) : Nat :=
  (c.cuts.filter fun e =>
    let t := thrVal c.typ c.use e.1
    if c.typ = 0x32 ∧ c.use ≠ 2 then
      match v, t with
      | .fin a, .fin b => if sc ≤ c.scale then passes (.fin (a * 10 ^ (c.scale - sc))) (.fin b) e.2
                          else passes (.fin a) (.fin (b * 10 ^ (sc - c.scale))) e.2
      | a, b => passes a b e.2
    else passes v t e.2).length

/-- The all-ones missing code of a width (04, R82). -/
def missingCode (w : Nat) : Nat := 2 ^ w - 1
/-- Most cuts of a width (04, Table 4.3). -/
def mostCuts (w : Nat) : Nat := 2 ^ w - 2

/-- Categorical code: the identifier, OTHER, or missing (04, R84). -/
def catCode (w typ scale : Nat) (v : Xv) (sc : Nat) : Nat := match v with
  | .missing => missingCode w
  | .ninf | .pinf => 2 ^ w - 2
  | .fin n =>
    let one : Nat := if typ = 0x31 then 10 ^ scale else if typ = 0x32 then 10 ^ sc else floatOne typ
    if n % (one : Int) = 0 ∧ 0 ≤ n ∧ n / (one : Int) < (2 ^ w - 2 : Nat) then (n / (one : Int)).toNat else 2 ^ w - 2

/-- Bytes of a feature in a record body, where present (19, R504). -/
def featBytes (presence : Bool) (count : Nat) (i : Nat) (ft : Feature) (b : Bytes) : Option Bytes :=
  let bm := if presence then ceilDiv count 8 else 0
  let off := bm + ft.offset
  if presence && !bit (leNat (b.take bm)) i then none
  else if b.length < off + srcWidth ft.typ then none
  else some (slice b off (srcWidth ft.typ))

/-- The cut table of a feature for a use (19, ModelImage). -/
def findCut (cuts : List CutTable) (i use : Nat) : Option CutTable := cuts.find? fun c => c.feature == i && c.use == use

/-- Code of one feature of a record, and whether a DEC64S value was binned to missing for its scale (04, R73, R74, R79, R84).
`miss` forces missing: late, absent. -/
def binFeature (l : Loaded) (i : Nat) (ft : Feature) (b : Bytes) (miss : Bool) : Nat × Bool :=
  match (if miss then none else featBytes l.presence l.features.length i ft b) with
  | none => (missingCode ft.width, false)
  | some x =>
    let (v, sc) := srcVal ft.typ x
    let bad := ft.typ == 0x32 && decide (18 < fld x 8 1)
    if ft.categorical then (catCode ft.width ft.typ ft.scale v sc, bad)
    else if v = .missing then (missingCode ft.width, bad)
    else match findCut l.cuts i 0 with
      | some c => (countPassed c v sc, bad)
      | none => (0, bad)

/-- Zero point of a linear input: the activation of zero (04, Linear-leaf inputs; DEDUCED, log entry 17). -/
def zeroPoint (c : CutTable) : Nat := countPassed c (.fin 0) 0

/-- Activation of a linear input: entries passed of its 255-entry table; a missing input gives the zero point (04, R103). -/
def activation (l : Loaded) (i : Nat) (ft : Feature) (b : Bytes) (miss : Bool) : Nat :=
  match findCut l.cuts i 1 with
  | none => 0
  | some c =>
    match (if miss then none else featBytes l.presence l.features.length i ft b) with
    | none => zeroPoint c
    | some x => let (v, sc) := srcVal ft.typ x; if v = .missing then zeroPoint c else countPassed c v sc

/-- A feature is forced to missing in a frame whose late set names the input that feeds it (08, R206; 03, R64). -/
def fedLate (late : BitVec 64) (ft : Feature) : Bool := match ft.external with
  | some i => late.getLsbD i
  | none => false

/-- A bundle without a job descriptor. -/
def Job.zero : Job := ⟨0, false, 8, 1, 1, 0, 1, 0, 0, 0, 0, 0, 0, 0, 0, 0, 0, 0, 0, [], none, none⟩
/-- The job of a bundle. -/
def Loaded.jobOr (l : Loaded) : Job := l.job.getD Job.zero
/-- The gradient codes of the job have 4 bits. -/
def Loaded.g4 (l : Loaded) : Bool := l.jobOr.gradWidth == 4
/-- The feature is binned: it holds neither the label nor the row weight of the job (07, R531). -/
def Loaded.binned (l : Loaded) (i : Nat) : Bool := l.jobOr.label != some i && l.jobOr.weight != some i
/-- Bit places and widths of one row's codes packed from bit `p` on as Table 4.3 states, and the bit after the last (04, R83): a 4-bit
code takes the next nibble, any other the next byte; an absent one takes nothing. -/
def codePlaces : List (Option Nat) → Nat → List (Option (Nat × Nat)) × Nat
  | [], p => ([], p)
  | none :: r, p => let (l, e) := codePlaces r p; (none :: l, e)
  | some w :: r, p =>
    let a := if w = 4 then p else roundUp p 8
    let (l, e) := codePlaces r (a + w)
    (some (a, w) :: l, e)
/-- Places of the codes of a feature quad in a row, and the bytes that a row takes (07, Table 7.4; 04, R83). -/
def Loaded.quadPlaces (l : Loaded) (quad : Nat) : List (Option (Nat × Nat)) × Nat :=
  let (ps, e) := codePlaces ((List.range 4).map fun j =>
    if l.binned (4 * quad + j) then (l.features[4 * quad + j]?).map (·.width) else none) 0
  (ps, ceilDiv e 8)
/-- Code of feature j of a quad in the packed bytes of a row; 0 where the quad has no such code. -/
def Loaded.codeIn (l : Loaded) (quad j : Nat) (row : Bytes) : Nat := match (l.quadPlaces quad).1.getD j none with
  | some (p, w) => leNat row / 2 ^ p % 2 ^ w
  | none => 0
/-- The packed bytes of a quad of one row from the codes of all its features (04, R83). -/
def Loaded.quadBytes (l : Loaded) (quad : Nat) (codes : List Nat) : Bytes :=
  let (ps, n) := l.quadPlaces quad
  le n (((ps.zipIdx).map fun e => match e.1 with
    | some (p, w) => codes.getD (4 * quad + e.2) 0 % 2 ^ w * 2 ^ p
    | none => 0).sum)

/-- Codes packed as Table 4.3 states, features of one width in order (04, R83). -/
def packCodes (w : Nat) (codes : List Nat) : Bytes :=
  if w = 8 then codes.map (BitVec.ofNat 8)
  else if w = 16 then (codes.map (le 2)).flatten
  else if w = 4 then
    (List.range (ceilDiv codes.length 2)).map fun i => BitVec.ofNat 8 (codes.getD (2 * i) 0xF + 16 * codes.getD (2 * i + 1) 0xF)
  else ((List.range (ceilDiv codes.length 2)).map fun i => le 3 (codes.getD (2 * i) 0xFFF + 4096 * codes.getD (2 * i + 1) 0xFFF)).flatten

/-- A record body with the bytes of a feature put in: its presence bit set, the body longer with zeros where it ends before (19, R504). -/
def putFeature (presence : Bool) (count : Nat) (i : Nat) (ft : Feature) (x b : Bytes) : Bytes :=
  let bm := if presence then ceilDiv count 8 else 0
  let off := bm + ft.offset
  let b := padTo (max b.length (off + x.length)) b
  let b := b.take off ++ x ++ b.drop (off + x.length)
  if presence && !bit (leNat (b.take bm)) i then le bm (leNat (b.take bm) + 2 ^ i) ++ b.drop bm else b
/-- A record as its frame's external inputs complete it: a feature that an input feeds takes its bytes from the input's value for the
frame, which is laid out as a record body; one that the value does not hold stays as the record has it (08, R205; 10, Field records;
DEDUCED, log entry 27). -/
def completeBody (l : Loaded) (ext : List (Nat × Bytes)) (b : Bytes) : Bytes :=
  (l.features.zipIdx).foldl (fun b e => match e.1.external.bind fun n => ext.find? fun d => d.1 == n with
    | none => b
    | some d => match featBytes l.presence l.features.length e.2 e.1 d.2 with
      | none => b
      | some x => putFeature l.presence l.features.length e.2 e.1 x b) b
/-- A feature of a record is forced to missing: the late set names its input, or the record was made for a late tick source, whose input
is empty (08, R206, R207). -/
def missOf (late : BitVec 64) (r : Rec) (ft : Feature) : Bool := fedLate late ft || r.fedMissing
/-- Codes of a record, each with the mark of a DEC64S value binned to missing for its scale. -/
def codesOf (l : Loaded) (late : BitVec 64) (r : Rec) : List (Nat × Bool) :=
  (l.features.zipIdx).map fun e => binFeature l e.2 e.1 r.input (missOf late r e.1)
/-- DEC64S values of a record that count as invalid (04, R79). -/
def invalidOf (l : Loaded) (late : BitVec 64) (r : Rec) : Nat := ((codesOf l late r).filter (·.2)).length
/-- Every code and activation of a record, with the INVALID and LATE conditions: LATE where the layout has a feature that a late input
feeds, whether or not this record holds it (06, Table 6.5; 08, R206, R207; 03, R64; DESIGN CHOICE, log entry 61). -/
def binRecord (l : Loaded) (late : BitVec 64) (r : Rec) : Rec :=
  let cs := codesOf l late r
  { r with codes := cs.map (·.1), late := r.fedMissing || l.features.any (fedLate late), invalid := cs.any (·.2), binned := true,
           acts := ((l.features.zipIdx).filter fun e => e.1.linear).map fun e => activation l e.2 e.1 r.input (missOf late r e.1) }
/-- Late-input set that bins a record: its replay header's, else its frame's (03, R64). -/
def Rec.lateSet (late : BitVec 64) (r : Rec) : BitVec 64 := match r.orig with
  | some o => o.late
  | none => late
/-- Bin a record of a cohort, once. -/
def Cohort.binOne (l : Loaded) (c : Cohort) (r : Rec) : Rec := if r.binned then r else binRecord l (r.lateSet c.late) r
/-- Invalid values that binning a record of a cohort counts. -/
def Cohort.invalidOne (l : Loaded) (c : Cohort) (r : Rec) : Nat := if r.binned then 0 else invalidOf l (r.lateSet c.late) r
/-- Bin what the binning wheel has not (02, R38). -/
def Cohort.bin (l : Loaded) (c : Cohort) : Cohort := { c with recs := c.recs.map (c.binOne l) }
/-- Invalid values that binning the rest of a cohort counts. -/
def Cohort.invalid (l : Loaded) (c : Cohort) : Nat := (c.recs.map (c.invalidOne l)).sum

end Sys2Proof.Machine
end

