-- ==== Sys2Proof/Machine/Journal.lean ====
section
/-! DEFINITION. The journal of the evidence card: pages, their order, the two-stage commit, wear (16). -/

namespace Sys2Proof.Machine

/-- Unit number of the SD host (02, Table 2.3). -/
def unitSd : Nat := 0x041

/-! ## CRC-32C (16, Table 16.2; the polynomial is the named code's, PRESUMED, log entry 8) -/

/-- One bit of the reflected CRC-32C. -/
def crcBit : Nat → Nat → Nat
  | 0, c => c
  | k + 1, c => crcBit k (if c % 2 = 1 then Nat.xor (c / 2) 0x82F63B78 else c / 2)
/-- CRC-32C of a byte string. -/
def crc32c (b : Bytes) : Nat := Nat.xor (b.foldl (fun c x => crcBit 8 (Nat.xor c x.toNat)) 0xFFFFFFFF) 0xFFFFFFFF

/-! ## Media (16, Tables 16.2 to 16.4) -/

/-- A label's 512 bytes. -/
def labelBytes (l : SdLabel) : Bytes :=
  let b := padTo 508 (ascii [0x49, 0x5A, 0x45, 0x56] ++ le 2 1 ++ le 2 (b2n l.journal + 2 * b2n l.hasImport + 4 * b2n l.recovery) ++ le 8 l.owner ++
    le 8 l.journalBase ++ le 8 l.journalBlocks ++ le 8 l.importBase ++ le 8 l.importBlocks ++ le 8 l.recoveryBase ++ le 8 l.recoveryBlocks ++
    le 8 l.ratedWriteBytes)
  b ++ le 4 (crc32c b)
/-- The 16,384 bytes of journal page j. -/
def pageBytes (p : JPage) (j : Nat) : Bytes :=
  padTo 16384 (padTo 64 (ascii [0x49, 0x5A, 0x4A, 0x50] ++ le 2 1 ++ le 1 p.kind ++ le 1 0 ++ le 8 j ++ le 2 p.source ++ le 2 p.chunk ++
    le 2 p.chunks ++ le 2 0 ++ le 8 p.object ++ le 4 p.payload.length) ++ p.payload)
/-- The commit record of page j. -/
def commitBytes (p : JPage) (j first now : Nat) : Bytes :=
  padTo 512 (ascii [0x49, 0x5A, 0x4A, 0x43] ++ le 2 1 ++ le 2 0 ++ le 8 j ++ le 8 first ++ digest (pageBytes p j) ++ le 8 now)
/-- Event record, 32 bytes (13, Table 13.12). -/
def eventBytes (e : Event) : Bytes :=
  le 8 e.stamp ++ le 2 e.source ++ le 2 e.seq ++ le 2 e.code ++ le 1 (b2n e.isSealed + 2 * b2n e.frameOutcome) ++ le 1 0 ++ padTo 16 e.detail

/-! ## Order (16, The journal) -/

/-- Chunks of an object, at most 16,320 bytes each. -/
def chunksOf (kind source object : Nat) (fold : Option Nat) (last : Bool) (b : Bytes) : List JPage :=
  let n := ceilDiv b.length 16320
  (List.range n).map fun i => ⟨kind, source, i, n, object, slice b (16320 * i) 16320, fold, last && i + 1 == n⟩
/-- Sealed events that wait for a batch, oldest first. -/
def State.batchWaiting (s : State) : List Event :=
  s.events.sealedLog.drop (s.sd.batchNext - (s.events.sealedNext - s.events.sealedLog.length))
/-- A batch is due: 510 sealed events wait, or 10^9 counts have passed since the oldest of them was sealed. -/
def State.batchReady (s : State) : Bool := match s.batchWaiting with
  | [] => false
  | e :: r => decide (510 ≤ r.length + 1) || decide (e.stamp + 1000000000 ≤ s.now)
/-- The page of a batch: up to 510 events under the first log position. -/
def State.batchPage (s : State) : JPage :=
  let l := s.batchWaiting.take 510
  ⟨2, s.card * 0x800, 0, 1, s.events.sealedNext - s.batchWaiting.length, l.flatMap eventBytes, none, false⟩
/-- Objects of a sealed page for the journal: page, drop annex, tag annex, the empty ones left out; the last one acknowledges. -/
def journalObjects (tagA : Bool) (p : Page) : List (Nat × Bytes) :=
  ([(1, p.bytes), (4, p.dropAnnex)] ++ if tagA then [(5, p.tagAnnex)] else []).filter fun o => !o.2.isEmpty
/-- DER chain of the card: DeviceID and alias certificates (09, The key chain). -/
def State.cardChain (s : State) : Bytes := Config.message 0x20 [Config.publicKey s.sec.devId] ++ s.sec.aliasCert
/-- The Fold's certificate chain, down to the Fold certificate (09, R249). -/
def State.foldChain (s : State) (f : FoldId) : Bytes := s.cardChain ++ (s.fold f).keys.cert
/-- Next object of a Fold that exports to the card, and the Fold once it is taken: the certificate chain before page 0, then every
page with its annexes in PageSeq order (09, R249). -/
def State.foldObject (s : State) (f : FoldId) : Option (List JPage × Fold) :=
  let x := s.fold f
  let src := s.card * 0x800 + unitFold f
  match x.load with
  | none => none
  | some l =>
    if !(s.foldCfg f).dests.getLsbD 2 then none
    else if !x.led.certSent.getD 2 false then
      some (chunksOf 3 src 0 (some f.val) false (s.foldChain f), { x with led := { x.led with certSent := x.led.certSent.set 2 true } })
    else
      let i := x.led.ring.findIdx fun p => !p.acked.getLsbD 2 && decide (p.sdRead < (journalObjects l.res.tagAnnex p).length)
      match x.led.ring[i]? with
      | none => none
      | some p =>
        let os := journalObjects l.res.tagAnnex p
        let ring := (x.led.ring.zipIdx).map fun e => if e.2 = i then { e.1 with sdRead := e.1.sdRead + 1 } else e.1
        (os[p.sdRead]?).map fun o =>
          (chunksOf o.1 src p.seq (some f.val) (p.sdRead + 1 == os.length) o.2, { x with led := { x.led with ring := ring } })
/-- Choose the next page: a batch that is due, else the object in progress, else the Folds in ascending number. -/
def State.choosePage (s : State) : State :=
  if s.sd.staged.isSome then s
  else if s.sd.batchDue || s.batchReady then
    let p := s.batchPage
    if p.payload.isEmpty then { s with sd := { s.sd with batchDue := false } } else
    { s with sd := { s.sd with staged := some p, batchDue := false, batchNext := p.object + p.payload.length / 32 } }
  else match s.sd.chunks with
    | c :: r => { s with sd := { s.sd with staged := some c, chunks := r } }
    | [] => match allFolds.findSome? fun f => (s.foldObject f).map fun o => (f, o) with
      | none => s
      | some (f, cs, x) =>
        let s := s.setFold f x
        match cs with
        | [] => s
        | c :: r => { s with sd := { s.sd with staged := some c, chunks := r } }

/-! ## Writing -/

/-- Life used, %: the larger of the card's wear estimate and the part of the region consumed (16, Wear and exhaustion). -/
def Evidence.life (e : Evidence) : Nat := match e.card with
  | none => 0
  | some c =>
    let own := if c.express then c.smartUsed else if c.label.ratedWriteBytes = 0 then 0 else 100 * e.written / c.label.ratedWriteBytes
    max own (if c.label.journalBlocks = 0 then 100 else 100 * (33 * e.nextJ) / c.label.journalBlocks)
/-- The next page fits: the journal may be written, its region is not exhausted, life used is below 100 % (16, R443, R451). -/
def Evidence.room (e : Evidence) : Bool := match e.card with
  | none => false
  | some c => e.journal && decide (33 * (e.nextJ + 1) ≤ c.label.journalBlocks) && decide (e.life < 100)
/-- First block of journal page j on the inserted card. -/
def Evidence.block (e : Evidence) (j : Nat) : Nat := match e.card with
  | some c => c.label.journalBase + 33 * j
  | none => 0
/-- Bind an unbound journal: JournalOwner in both copies of the label, once (16, R442). -/
def State.bindLabel (s : State) : State := match s.sd.card with
  | none => s
  | some c =>
    if c.label.owner ≠ 0 then s else
      let l := { c.label with owner := s.sec.serial }
      let s := { s with sd := { s.sd with card := some { c with label := l }, written := s.sd.written + 1024 } }
      (s.send (.sdWrite 0 (labelBytes l))).send (.sdWrite 2047 (labelBytes l))
/-- Send the 32 blocks of the page in flight. -/
def State.sendPage (s : State) : State := match s.sd.flight with
  | none => s
  | some p =>
    let s := s.bindLabel
    ({ s with sd := { s.sd with phase := 1, written := s.sd.written + 16384 } }).send (.sdWrite (s.sd.block s.sd.nextJ) (pageBytes p s.sd.nextJ))
/-- At a page boundary the next page is chosen, staged, and sent where the card takes it (16, R448 to R450). -/
def State.advanceJournal (s : State) : State :=
  if s.sd.phase ≠ 0 || s.sd.flight.isSome then s else
    let s := s.choosePage
    if s.sd.staged.isNone || !s.sd.room || !s.power.booted || s.power.halted then s
    else ({ s with sd := { s.sd with flight := s.sd.staged, staged := none } }).sendPage
/-- The page in flight is rewritten at the card's first uncommitted position where the card takes it; with none in flight the next page is
chosen (16, R454, R455). -/
def State.resumeJournal (s : State) : State :=
  if s.sd.flight.isSome then
    (if s.sd.phase = 0 && s.sd.room && s.power.booted then ({ s with sd := { s.sd with rewriting := true } }).sendPage else s)
  else s.advanceJournal
/-- At boot the pages staged in FRAM resume; no new one is chosen before the Folds are there (16, R455). -/
def State.resumeStaged (s : State) : State := if s.sd.flight.isSome || s.sd.staged.isSome then s.resumeJournal else s
/-- EVIDENCE_WEAR when life used first reaches 80 %, 90 % and 100 % (16, R452). -/
def State.wearCheck (s : State) : State :=
  let n := s.sd.life
  let k := (if 80 ≤ n then 1 else 0) + (if 90 ≤ n then 1 else 0) + (if 100 ≤ n then 1 else 0)
  let s := (List.range (k - s.sd.wear)).foldl (fun s _ => s.emit unitSd 0x0A07 (le 1 n)) s
  { s with sd := { s.sd with wear := max s.sd.wear k } }
/-- The SD host restarts: what the card was doing stops, the staged pages stay in FRAM (16, R455). -/
def Evidence.restart (e : Evidence) : Evidence := { e with card := none, journal := false, phase := 0, chunks := [] }

end Sys2Proof.Machine
end

