-- ==== Sys2Proof/Machine/Ledger.lean ====
section
/-! DEFINITION. Ledger entries, the chain, pages, ring slots and acknowledgements (09). -/

namespace Sys2Proof.Machine

/-! ## Entries (09, Table 9.10) -/

/-- Source number of a Fold (02, Table 2.3). -/
def State.foldSource (s : State) (f : FoldId) : Nat := s.card * 0x800 + unitFold f
/-- Frame-entry flags: [0] WITHHELD, [1] EMPTY, [2] DISCARDED, [3] LATE_ANY. -/
def frameFlags (withheld empty discarded lateAny : Bool) : Nat := b2n withheld + 2 * b2n empty + 4 * b2n discarded + 8 * b2n lateAny
/-- Frame entry. -/
def frameEntry (flags count frame stamp : Nat) (late : BitVec 64) (dropCount : Nat) (drops : List Bytes) (root : Bytes) : Bytes :=
  le 1 1 ++ le 1 flags ++ le 2 0 ++ le 4 count ++ le 8 frame ++ le 8 stamp ++ le 8 late.toNat ++ le 4 dropCount ++
    le 4 (min dropCount 4096) ++ padTo 32 root ++ padTo 32 (dropRoot (drops.take 4096)) ++ le 24 0
/-- Round-entry flags: [0] TWO_PASS, [1] SCALE_MISS, [2] SCALE_COARSE, [3] HIST_OVERFLOW, [4] RERUN. -/
def roundFlags (twoPass miss coarse overflow rerun : Bool) : Nat :=
  b2n twoPass + 2 * b2n miss + 4 * b2n coarse + 8 * b2n overflow + 16 * b2n rerun
/-- Round entry of one output. -/
def roundEntry (flags output round first last maxG maxH wordG wordH : Nat) : Bytes :=
  le 1 2 ++ le 1 flags ++ le 2 output ++ le 4 round ++ le 8 first ++ le 8 last ++ le 8 maxG ++ le 8 maxH ++ le 4 wordG ++ le 4 wordH ++ le 80 0
/-- Phase entry. -/
def phaseEntry (firstScoring : Nat) (meas : Bytes) : Bytes := le 1 3 ++ le 7 0 ++ le 8 firstScoring ++ le 24 0 ++ padTo 32 meas ++ le 56 0
/-- ID hash of a dropped record: the first 16 bytes of SHA3-256("IZDR" ‖ record ID). -/
def dropHash (recId : Bytes) : Bytes := (digest (ascii [0x49, 0x5A, 0x44, 0x52] ++ recId)).take 16

/-! ## Chain -/

/-- Genesis value of a chain (09, The chain and the ledger pages). -/
def genesisOf (meas : Bytes) (source launchAt : Nat) (replay : Bool) : Bytes :=
  digest (ascii [0x49, 0x5A, 0x4C, 0x47] ++ meas ++ le 2 source ++ le 8 launchAt ++ le 1 (b2n replay))
def State.genesis (s : State) (f : FoldId) (launchAt : Nat) (replay : Bool) : Bytes :=
  match (s.fold f).load with
  | some l => genesisOf l.foldMeas (s.foldSource f) launchAt replay
  | none => []
/-- C_i = SHA3-256(C_{i−1} ‖ e_i) (09, R245). -/
def chainOver (c : Bytes) (es : List Bytes) : Bytes := es.foldl (fun c e => digest (c ++ e)) c

/-! ## Pages -/

/-- Frames of a page: E = min(4,096, floor(10^9 / P)) (09, R246). -/
def pageFrames (p : Nat) : Nat := min 4096 (1000000000 / p)
/-- Model measurement of this Fold's tags: the grown image's after the re-shard (09, Table 9.7). -/
def Fold.tagMeas (x : Fold) : Bytes := match x.load with
  | some l => if x.grow.resharded then x.grow.grownMeas else l.modelMeas
  | none => []
/-- The Fold is in its Growing phase. -/
def Fold.growingNow (x : Fold) : Bool := match x.load with
  | some l => l.growing && !x.grow.resharded
  | none => false
/-- PageSeq of the latest sealed page; free before the first seal (13, Table 13.11; DESIGN CHOICE, log entry 47). -/
def State.latestSeq (s : State) (f : FoldId) : Nat := ((s.fold f).led.latest.map (·.1)).getD (Config.noneYet 0 f.val s.now)
/-- ChainOut of the latest sealed page; free before the first seal (13, Table 13.11; DESIGN CHOICE, log entry 47). -/
def State.latestOut (s : State) (f : FoldId) : Bytes := ((s.fold f).led.latest.map (·.2)).getD (Config.noChainYet f.val s.now)
/-- Ring slots that no page holds. -/
def State.freeSlots (s : State) (f : FoldId) : Nat :=
  let l := (s.fold f).led
  (s.foldCfg f).ringPages - (l.ring.length + b2n l.page.isSome + l.closing.length)
/-- Page header (09, Table 9.9). -/
def pageHeader (flags source count seq first launchAt openTick sealTick : Nat) (foldMeas meas chainIn chainOut : Bytes) (p op : Nat) : Bytes :=
  ascii [0x49, 0x5A, 0x4C, 0x50] ++ le 2 1 ++ le 2 flags ++ le 2 source ++ le 2 count ++ le 4 0 ++ le 8 seq ++ le 8 first ++ le 8 launchAt ++
    le 8 openTick ++ le 8 sealTick ++ padTo 32 foldMeas ++ padTo 32 meas ++ padTo 32 chainIn ++ padTo 32 chainOut ++ le 4 p ++ le 1 op ++ le 3 0
/-- Annex: per frame its number, its count and its hashes (09, Export). -/
def annexOf (l : List (Nat × List Bytes)) : Bytes := (l.map fun e => le 8 e.1 ++ le 4 e.2.length ++ le 4 0 ++ (e.2.map (padTo 16)).flatten).flatten

/-- Change the page to which a frame belongs: a closed page that covers it, else the open one. -/
def Ledger.modPage (l : Ledger) (frame : Nat) (g : OpenPage → OpenPage) : Ledger :=
  match l.closing.findIdx? fun p => decide (frame ≤ p.last.getD 0) with
  | some i => { l with closing := l.closing.modify i g }
  | none => { l with page := l.page.map g }
/-- Append an entry to the page of a frame. -/
def Ledger.append (l : Ledger) (frame : Nat) (e : Bytes) : Ledger := l.modPage frame fun p => { p with entries := p.entries ++ [e] }
/-- Add drop hashes and tags under a number to the annexes of the page of a frame. -/
def Ledger.annex (l : Ledger) (frame number : Nat) (drops tags : List Bytes) : Ledger :=
  l.modPage frame fun p => { p with drops := p.drops ++ [(number, drops.take 4096)], tags := p.tags ++ [(number, tags)] }
/-- Set DISCARDED in the unsealed frame entries of a frame (09, R248). -/
def markEntry (frame : Nat) (e : Bytes) : Bytes :=
  if fld e 0 1 = 1 ∧ fld e 8 8 = frame then e.take 1 ++ le 1 (Nat.lor (fld e 1 1) 4) ++ e.drop 2 else e
def Ledger.discard (l : Ledger) (frame : Nat) : Ledger :=
  let m := fun (p : OpenPage) => { p with entries := p.entries.map (markEntry frame) }
  { l with page := l.page.map m, closing := l.closing.map m }

/-! ## The file store (12, R334, R335) -/

/-- Hexadecimal digits of a number, most significant first. -/
def hexDigits : Nat → Nat → Bytes
  | 0, _ => []
  | k + 1, n => hexDigits k (n / 16) ++ [BitVec.ofNat 8 (if n % 16 < 10 then 0x30 + n % 16 else 0x57 + n % 16)]
/-- Host NQN "nqn.2031-01.com.rosburos:iz9:" and the card serial number in hexadecimal (12; 16 digits, lower case: DESIGN CHOICE, log
entry 42). -/
def hostNqn (serial : Nat) : Bytes :=
  ascii [0x6E, 0x71, 0x6E, 0x2E, 0x32, 0x30, 0x33, 0x31, 0x2D, 0x30, 0x31, 0x2E, 0x63, 0x6F, 0x6D, 0x2E, 0x72, 0x6F, 0x73, 0x62, 0x75, 0x72,
    0x6F, 0x73, 0x3A, 0x69, 0x7A, 0x39, 0x3A] ++ hexDigits 16 serial
/-- Connect to the Fold's target: CRC32C header and data digests, no TLS, an I/O queue of depth 128 (12, R335). -/
def State.fileConnect (s : State) (f : FoldId) : State :=
  (s.modFold f fun x => { x with file := { x.file with up := true } }).send
    (.fileConnect f.val (s.foldCfg f).target (hostNqn s.sec.serial) true true false 128)
/-- Put a command on the wire, over a connection that stands. -/
def State.fileSend (s : State) (f : FoldId) (c : FileCmd) : State :=
  (if (s.fold f).file.up then s else s.fileConnect f).send (if c.data.isEmpty then .fileFlush f.val else .fileWrite f.val c.lba c.data)
/-- Issue a command: it is outstanding until its Flush completes. -/
def State.fileIssue (s : State) (f : FoldId) (c : FileCmd) : State :=
  (s.fileSend f c).modFold f fun x => { x with file := { x.file with issued := x.file.issued ++ [c] } }
/-- Issue the next `n` waiting commands. -/
def State.fileTake (s : State) (f : FoldId) (n : Nat) : State :=
  let w := (s.fold f).file.waiting
  (w.take n).foldl (fun s c => s.fileIssue f c) (s.modFold f fun x => { x with file := { x.file with waiting := w.drop n } })
/-- Issue what the queue has room for. -/
def State.filePump (s : State) (f : FoldId) : State := s.fileTake f (128 - (s.fold f).file.issued.length)
/-- Queue commands, ledger pages ahead of checkpoint blocks (12, R334). -/
def State.fileQueue (s : State) (f : FoldId) (cs : List FileCmd) : State :=
  let put := fun (w : List FileCmd) => w.filter (!·.ckpt) ++ cs.filter (!·.ckpt) ++ w.filter (·.ckpt) ++ cs.filter (·.ckpt)
  (s.modFold f fun x => { x with file := { x.file with waiting := put x.file.waiting } }).filePump f
/-- Commands without those of a kind up to its first Flush. -/
def pastFlush (ckpt : Bool) : List FileCmd → List FileCmd
  | [] => []
  | c :: r => if c.ckpt != ckpt then c :: pastFlush ckpt r else if c.data.isEmpty then r else pastFlush ckpt r
/-- The oldest Flush of a kind has completed: what stood before it has been issued by then, and the commands that it ends are done. The end
of a single Write is no command of this model, so a Write that waited for room shows at the end of its Flush at the latest (DESIGN CHOICE,
log entry 42). -/
def State.fileDone (s : State) (f : FoldId) (ckpt : Bool) : State :=
  let q := (s.fold f).file
  let last := fun (c : FileCmd) => c.ckpt == ckpt && c.data.isEmpty
  let s := if q.issued.any last then s else match q.waiting.findIdx? last with
    | some i => s.fileTake f (i + 1)
    | none => s
  (s.modFold f fun x => { x with file := { x.file with issued := pastFlush ckpt x.file.issued } }).filePump f
/-- Drop the checkpoint commands: none is issued any more (12, R347, R348). -/
def State.fileDropCkpt (s : State) (f : FoldId) : State :=
  s.modFold f fun x => { x with file := { x.file with issued := x.file.issued.filter (!·.ckpt), waiting := x.file.waiting.filter (!·.ckpt) } }
/-- Close the queue: no checkpoint command is issued any more; ledger commands whose Flush has not completed wait for the next connection. -/
def State.fileEnd (s : State) (f : FoldId) : State :=
  let up := (s.fold f).file.up
  let s := (s.fileDropCkpt f).modFold f fun x => { x with file := ⟨false, [], x.file.issued ++ x.file.waiting⟩ }
  if up then s.send (.fileClose f.val) else s

/-- Bytes written for a sealed page to the file store, each page and annex on its own LBA (12, The file store). -/
def toLba (b : Bytes) : Bytes := padTo (roundUp b.length 4096) b
/-- Writes of at most 64 KiB in a ledger range that wraps to its base, from an offset in LBAs on; a range of length 0 does not wrap. -/
def ledgerWrites (base size : Nat) : Nat → Nat → Bytes → List FileCmd
  | 0, _, _ => []
  | k + 1, off, b =>
    if b.isEmpty then [] else
      let o := if size = 0 then off else off % size
      let n := if size = 0 then 16 else min 16 (size - o)
      ⟨false, base + o, b.take (4096 * n)⟩ :: ledgerWrites base size k (off + n) (b.drop (4096 * n))
/-- Send a sealed page with its annexes to the file store where LedgerExport names it, the certificate chain first (09, R249). -/
def State.exportFile (s : State) (f : FoldId) (p : Page) (tagAnnex : Bool) : State :=
  let c := s.foldCfg f
  let l := (s.fold f).led
  if !c.dests.getLsbD 1 then s else
    let first := if l.certSent.getD 1 false then [] else toLba (s.foldChain f)
    let b := first ++ toLba p.bytes ++ toLba p.dropAnnex ++ (if tagAnnex then toLba p.tagAnnex else [])
    let n := b.length / 4096
    let s := s.modFold f fun x => { x with led := { x.led with fileLba := x.led.fileLba + n, certSent := x.led.certSent.set 1 true } }
    s.fileQueue f (ledgerWrites c.target.ledgerBase c.target.ledgerLbas n l.fileLba b ++ [⟨false, 0, []⟩])

/-- Seal a page at a count: header, entries, ES384 signature; it holds its ring slot until every destination has
acknowledged it, none where LedgerExport names none (09, R247, R250). No page is sealed after a trip (14, R404). -/
def State.sealPage (s : State) (f : FoldId) (p : OpenPage) (count : Nat) : State :=
  let x := s.fold f
  match x.load with
  | none => s
  | some l =>
    if s.power.halted then s else
      let out := chainOver x.led.chain p.entries
      let flags := b2n x.run.replay + 2 * b2n p.final + 4 * b2n p.growing
      let hdr := pageHeader flags (s.foldSource f) p.entries.length p.seq p.first x.run.launchAt p.openTick count l.foldMeas p.meas x.led.chain out
        l.period (opCode l.op)
      let body := hdr ++ p.entries.flatten
      let pg : Page := ⟨p.seq, body ++ Config.sign x.keys.attest body, annexOf p.drops, if l.res.tagAnnex then annexOf p.tags else [], 0, out, p.final, 0, 0⟩
      let keep := (s.foldCfg f).dests.toNat % 8 != 0
      let s := s.modFold f fun y =>
        { y with led := { y.led with chain := out, latest := some (p.seq, out), ring := if keep then y.led.ring ++ [pg] else y.led.ring } }
      (s.exportFile f pg l.res.tagAnnex).advanceJournal

/-- Last frame that a page covers while admission stays open. -/
def pageLast (x : Fold) (p : OpenPage) : Nat := p.first + pageFrames x.period - 1

/-- Open a page at the tick that opens frame `n`: it takes a ring slot; without one the caller stops the Fold (09, R251, R252). -/
def State.openPage (s : State) (f : FoldId) (n : Nat) : State :=
  let x := s.fold f
  let p : OpenPage := ⟨x.led.nextSeq, n, x.tickOf n, x.growingNow, x.tagMeas, [], [], [], none, false⟩
  let s := s.modFold f fun y => { y with led := { y.led with page := some p, nextSeq := y.led.nextSeq + 1 } }
  let free := s.freeSlots f
  if free < 2 then
    (s.modFold f fun y => { y with adm := { y.adm with backlog := true } }).emit (unitFold f) 0x0601 (le 8 p.seq ++ le 2 free)
  else s.modFold f fun y => { y with adm := { y.adm with backlog := false } }

/-- Seal tick of a page: in Scoring the tick that closes frame last + 3, in Growing the tick that closes frame last (09, R246). -/
def sealTick (x : Fold) (p : OpenPage) : Nat :=
  let n := p.last.getD 0
  if p.growing then x.tickOf (n + 1) else x.tickOf (n + 4)
/-- Seal the oldest page that has closed. -/
def State.sealClosing (s : State) (f : FoldId) (count : Nat) : State :=
  match (s.fold f).led.closing with
  | [] => s
  | p :: r => (s.sealPage f p count).modFold f fun y => { y with led := { y.led with closing := r } }
/-- Close the open page with last frame `n`. -/
def State.closePage (s : State) (f : FoldId) (n : Nat) (final : Bool) : State :=
  match (s.fold f).led.page with
  | none => s
  | some p => s.modFold f fun y => { y with led := { y.led with page := none, closing := y.led.closing ++ [{ p with last := some n, final := final }] } }
/-- The page that closed last carries FINAL (09, Table 9.9). -/
def Ledger.markFinal (l : Ledger) : Ledger := { l with closing := l.closing.modify (l.closing.length - 1) fun p => { p with final := true } }

/-! ## Acknowledgements (09, R250) -/

/-- Every destination that LedgerExport names has acknowledged the page. -/
def Page.done (p : Page) (dests : BitVec 8) : Bool := p.acked.toNat &&& (dests.toNat % 8) == dests.toNat % 8
/-- The destination's bit is set in the pages of the ring up to and including the first of number `sq` that lacks it. -/
def ackRing (dest : Nat) (sq : Nat) (ring : List Page) : List Page :=
  let i := ring.findIdx fun p => p.seq == sq && !p.acked.getLsbD dest
  if i < ring.length then (ring.take (i + 1)).map (fun p => { p with acked := p.acked ||| BitVec.ofNat 8 (2 ^ dest) }) ++ ring.drop (i + 1)
  else ring
/-- An acknowledgement counts: the destination is named and the page is sealed. -/
def State.ackOk (s : State) (f : FoldId) (dest sq : Nat) : Bool :=
  (s.foldCfg f).dests.getLsbD dest && ((match (s.fold f).led.latest with | some (n, _) => decide (sq ≤ n) | none => false) ||
    (s.fold f).led.ring.any fun p => p.seq == sq)
/-- Acknowledge pages up to `sq` for a destination: 0 host, 1 file store, 2 evidence card; pages that every destination has
acknowledged leave the ring. -/
def State.ackPage (s : State) (f : FoldId) (dest sq : Nat) : State :=
  if !s.ackOk f dest sq then s else
    s.modFold f fun x =>
      let old := x.led.acks.getD dest none
      { x with led := { x.led with
          ring := (ackRing dest sq x.led.ring).filter fun p => !p.done (s.foldCfg f).dests
          acks := x.led.acks.set dest (some (match old with | some o => max o sq | none => sq)) } }

/-! ## Objects for the host (18, LEDGER_READ) -/

/-- Objects of a sealed page: kind, PageSeq, bytes. Kinds: 1 page, 4 drop annex, 5 tag annex. -/
def pageObjects (tagA : Bool) (p : Page) : List (Nat × Nat × Bytes) :=
  [(1, p.seq, p.bytes), (4, p.seq, p.dropAnnex)] ++ (if tagA then [(5, p.seq, p.tagAnnex)] else [])
/-- Tag annexes are asked for by the bundle. -/
def Fold.tagAnnex (x : Fold) : Bool := match x.load with
  | some l => l.res.tagAnnex
  | none => false
/-- The next object that the host has neither acknowledged nor read to its end, in the order of R249; kind 3 is the
certificate chain. -/
def State.hostObject (s : State) (f : FoldId) : Option (Nat × Nat × Bytes) :=
  let x := s.fold f
  if !(s.foldCfg f).dests.getLsbD 0 || x.load.isNone then none
  else if !x.led.certSent.getD 0 false then some (3, 0, s.foldChain f)
  else ((x.led.ring.filter (fun p => !p.acked.getLsbD 0)).flatMap fun p => (pageObjects x.tagAnnex p).drop p.hostRead).head?
/-- The current object has been read to its end: the next read starts the following one. -/
def State.hostAdvance (s : State) (f : FoldId) : State :=
  s.modFold f fun x =>
    if !x.led.certSent.getD 0 false then { x with led := { x.led with certSent := x.led.certSent.set 0 true } }
    else
      let n := if x.tagAnnex then 3 else 2
      let i := x.led.ring.findIdx fun p => !p.acked.getLsbD 0 && decide (p.hostRead < n)
      { x with led := { x.led with ring := (x.led.ring.zipIdx).map fun e => if e.2 = i then { e.1 with hostRead := e.1.hostRead + 1 } else e.1 } }

end Sys2Proof.Machine
end

