-- ==== Sys2Proof/Machine/Records.lean ====
section
/-! DEFINITION. Result bodies, record tags, trailers, the frame entry of a cohort, and the result queues (06, 08, 09). -/

namespace Sys2Proof.Machine

/-! ## Bodies and tags -/

/-- Result-body flags: [0] LATE, [1] INVALID, [2] format (06, Table 6.5). -/
def bodyFlags (late invalid b32 : Bool) : Nat := b2n late + 2 * b2n invalid + 4 * b2n b32
/-- Result body (06, Table 6.5; 04, R89). -/
def resultBody (l : Loaded) (r : Rec) : Bytes :=
  le 2 (bodyFlags r.late r.invalid l.binary32) ++ le 2 l.outputCount ++
    ((List.range l.outputCount).map fun i =>
      let v := mget 0 r.scores i
      if l.binary32 then le 4 (toBinary32 v) else fix48 v).flatten
/-- Bytes of the largest result body of a bundle. -/
def bodyLen (l : Loaded) : Nat := 4 + l.outputCount * (if l.binary32 then 4 else 6)
/-- Record tag: the first 16 bytes of SHA3-256 over the preimage of Table 9.7 (09, R241). -/
def recordTag (meas : Bytes) (stamp : Nat) (input body : Bytes) : Bytes :=
  (digest (ascii [0x49, 0x5A, 0x54, 0x31] ++ padTo 32 meas ++ le 8 stamp ++ le 4 input.length ++ input ++ le 4 body.length ++ body)).take 16
/-- Form the body and the tag of a record, once; the stamp of a replayed record is its OrigStamp (03, R64). -/
def Rec.finish (l : Loaded) (meas : Bytes) (openTick : Nat) (r : Rec) : Rec :=
  if r.tag ≠ [] then r else
    let body := resultBody l r
    let stamp := match r.orig with
      | some o => o.stamp
      | none => openTick
    { r with body := body, tag := recordTag meas stamp r.input body, hashIn := true }
/-- Result trailer, 32 bytes (09, Table 9.8). -/
def trailer (tag : Bytes) (frame leaf count : Nat) : Bytes := padTo 16 tag ++ le 8 frame ++ le 4 leaf ++ le 4 count
/-- A result as its sink takes it: body, then trailer. -/
def Result.bytes (r : Result) : Bytes := r.body ++ trailer r.tag r.frame r.leaf r.count

/-- Form every body and tag of a cohort that still lacks one. -/
def Cohort.finish (l : Loaded) (meas : Bytes) (c : Cohort) : Cohort :=
  { c with recs := c.recs.map (Rec.finish l meas c.openTick) }
/-- Frame root of a cohort: none, so 32 zero bytes, where it is withheld (09, R243). -/
def Cohort.root (c : Cohort) : Bytes :=
  if c.withheld.isSome then List.replicate 32 0 else frameRoot (c.recs.map (·.tag))
/-- Frame entry of a cohort (09, Table 9.10). -/
def Cohort.entry (c : Cohort) (discarded : Bool) : Bytes :=
  frameEntry (frameFlags c.withheld.isSome c.recs.isEmpty discarded (c.late != 0)) c.recs.length c.frame c.openTick c.late c.dropCount c.drops c.root
/-- A closed page is complete once a later frame's entry comes: it is sealed first. -/
def State.sealBefore (s : State) (f : FoldId) (frame : Nat) : State :=
  match (s.fold f).led.closing with
  | p :: _ => if p.last.getD 0 < frame then s.sealClosing f (sealTick (s.fold f) p) else s
  | [] => s
/-- Write a cohort's entry and annexes into the ledger; a replay Fold writes one entry per header instead (03, R65, R69). -/
def State.enterCohort (s : State) (f : FoldId) (c : Cohort) (discarded : Bool) : State :=
  (s.sealBefore f c.frame).modFold f fun x =>
    if x.run.replay then x else
      let tags := if c.withheld.isSome then [] else c.recs.map (·.tag)
      { x with led := (x.led.annex c.frame c.frame c.drops tags).append c.frame (c.entry discarded) }

/-! ## Result queues (08, Back-pressure) -/

/-- The record came over PCIe. -/
def Arrival.fromPcie (a : Arrival) : Bool := match a.route with
  | .pcie _ _ => true
  | _ => false

/-- Scoring capacity C = F × Bf × 256 of the mapping in force (06, R153). -/
def Fold.capacity (x : Fold) : Nat :=
  match x.load, x.run.mapping with
  | some l, some m => match l.maps.find? fun e => e.id == m with
    | some e => e.capacity
    | none => 0
  | _, _ => 0
/-- A result takes the egress queue if it has room, else staging while spill is empty, else spill (08, R211). -/
def Results.put (q : Results) (c : Nat) (r : Result) : Results :=
  if q.egress.length < c then { q with egress := q.egress ++ [r] }
  else if q.spill.isEmpty && decide (q.staging.length < c) then { q with staging := q.staging ++ [r] }
  else { q with spill := q.spill ++ [r] }
/-- Refill the queues nearest to the sink first: staging to egress, then spill to staging (08, R212). -/
def Results.refill (q : Results) (c : Nat) : Results :=
  let k := min (c - q.egress.length) q.staging.length
  let e := q.egress ++ q.staging.take k
  let st := q.staging.drop k
  let j := min (c - st.length) q.spill.length
  { q with egress := e, staging := st ++ q.spill.take j, spill := q.spill.drop j }
/-- Every queue is empty. -/
def Results.idle (q : Results) : Bool := q.egress.isEmpty && q.staging.isEmpty && q.spill.isEmpty
/-- Held results in arrival order. -/
def Results.all (q : Results) : List Result := q.egress ++ q.staging ++ q.spill
/-- Free result credits of the pool of 4C (08, R209, R210). -/
def Fold.freeCredits (x : Fold) : Nat := 4 * x.capacity - x.res.taken
/-- Credits return as results leave (08, R210). -/
def State.returnCredits (s : State) (f : FoldId) (n : Nat) : State :=
  s.modFold f fun x => { x with res := { x.res with taken := x.res.taken - n } }
/-- Result entries of a Fold's channels in RESULT messages that have not left. -/
def State.messageEntries (s : State) (f : FoldId) : List (Nat × Bytes) :=
  (s.chansOf f).flatMap fun c => ((s.chan c).openMsg.toList ++ (s.chan c).closed).flatMap (·.entries)
/-- Only held results keep credits: nothing else of the Fold is under way. -/
def State.recountCredits (s : State) (f : FoldId) : State :=
  s.modFold f fun x => { x with res := { x.res with taken := x.res.all.length + (s.messageEntries f).length } }

/-- Completion of a queue 1 record entry: Result0 the arrival frame, Result2 the bytes written (18, R492). -/
def State.postRecord (s : State) (f : FoldId) (cid status event frame len : Nat) : State :=
  s.post (vfOf f) ⟨1, cid, status, event, frame, 0, len⟩
/-- Result status of Table 18.6 for results that are not released: WITHHELD 0x20, DISCARDED 0x23. -/
def dropResult (s : State) (f : FoldId) (status : Nat) (r : Result) : State :=
  match r.route with
  | .pcie cid _ => s.postRecord f cid (if r.status = 0 then status else r.status) 0 r.frame 0
  | _ => s
/-- The queues without the results that `p` names. -/
def Results.without (q : Results) (p : Result → Bool) : Results :=
  { q with egress := q.egress.filter (fun r => !p r), staging := q.staging.filter (fun r => !p r), spill := q.spill.filter (fun r => !p r) }
/-- Drop held results with a status for their PCIe entries. -/
def State.dropResults (s : State) (f : FoldId) (status : Nat) (p : Result → Bool) : State :=
  let l := (s.fold f).res.all.filter p
  let s := s.modFold f fun x => { x with res := x.res.without p }
  l.foldl (fun s r => dropResult s f status r) s
/-- Drop every held result. -/
def State.dropHeld (s : State) (f : FoldId) (status : Nat) : State := s.dropResults f status fun _ => true
/-- Complete the PCIe entries of a cohort's records whose results were not placed. -/
def State.dropCohort (s : State) (f : FoldId) (status : Nat) (c : Cohort) : State :=
  (c.recs.drop c.placed).foldl (fun s r => match r.route with
    | .pcie cid _ => s.postRecord f cid status 0 c.frame 0
    | _ => s) s
/-- Complete the entries whose record-buffer reads are outstanding or whose records landed without admission. -/
def State.dropReads (s : State) (f : FoldId) (status : Nat) : State :=
  let x := s.fold f
  let cids := x.adm.reads.map (·.cid) ++ x.adm.arrivals.filterMap fun a => match a.route with
    | .pcie cid _ => some cid
    | _ => none
  let s := s.modFold f fun x => { x with adm := { x.adm with reads := [], arrivals := [] } }
  cids.foldl (fun s c => s.postRecord f c status 0 0 0) s

/-! ## Placing results (06, R157; 08, R211; 10, R282) -/

/-- Result of record `i` of a cohort; leaf index and record count of a replayed record are its header's (DEDUCED, log entry 25). -/
def Cohort.result (c : Cohort) (i : Nat) (r : Rec) (status : Nat) : Result :=
  let (leaf, n) := match r.orig with
    | some o => (o.leaf, o.count)
    | none => (i, c.recs.length)
  ⟨c.frame, leaf, n, r.route, r.body, r.tag, status, r.poisoned⟩
/-- Place the result of record `i` in the queues. A withheld record leaves no result; its PCIe entry completes WITHHELD in its place in
arrival order (18, R492). A field result waits for the closing tick of its frame. -/
def State.placeResult (s : State) (f : FoldId) (c : Cohort) (i : Nat) (r : Rec) : State :=
  let put := fun (status : Nat) => s.modFold f fun x => { x with res := x.res.put x.capacity (c.result i r status) }
  match r.route, c.withheld with
  | .pcie _ _, some _ => put 0x20
  | .pcie _ _, none => put 0
  | .izr _ _ _ _, none => put 0
  | .izr _ _ _ _, some _ => s.returnCredits f 1
  | .field, _ => s
/-- Place every result of a cohort that is not placed yet. -/
def State.placeRest (s : State) (f : FoldId) (c : Cohort) : State :=
  ((c.recs.zipIdx).drop c.placed).foldl (fun s e => s.placeResult f c e.2 e.1) s
/-- Bytes of a Fold's field result: body and trailer; without a bundle the trailer alone (DESIGN CHOICE, log entry 34). -/
def Fold.fieldLen (x : Fold) : Nat := match x.load with
  | some l => bodyLen l + 32
  | none => 32
/-- The destination of a result binding holds `n` bytes from its offset: a TxPDO image of 512 bytes, a TPDO of 64 (13, R387; 10, R282). -/
def OutBind.holds (b : OutBind) (n : Nat) : Bool := b.dest == 0 || decide (b.offset + n ≤ if b.dest = 1 then 512 else 64)
/-- Two byte ranges overlap. -/
def overlaps (a n b m : Nat) : Bool := decide (a < b + m) && decide (b < a + n)
/-- Another Fold's result binding takes bytes of this one (13, R387). -/
def State.bindClash (s : State) (f : FoldId) (b : OutBind) (n : Nat) : Bool :=
  b.dest != 0 && allFolds.any fun g =>
    let o := (s.foldCfg g).outBind
    g != f && o.dest == b.dest && (b.dest == 1 || o.pdo == b.pdo) && overlaps b.offset n o.offset (s.fold g).fieldLen
/-- Bytes with others written over them from an offset on. -/
def putBytes (b : Bytes) (off : Nat) (x : Bytes) : Bytes := (padTo (max b.length (off + x.length)) b).take off ++ x ++ b.drop (off + x.length)
/-- Write a field result: into the TxPDO image, or into a TPDO, which goes out while the node is Operational (10, R282; 13, Table 13.14). -/
def State.writeField (s : State) (f : FoldId) (b : Bytes) : State :=
  if s.power.gated then s else
    let ob := (s.foldCfg f).outBind
    if ob.dest = 1 then { s with shep := { s.shep with txImage := mwrite s.shep.txImage ob.offset b } }
    else if ob.dest = 2 then
      let d := putBytes (mget [] s.shep.tpdos ob.pdo) ob.offset b
      let s := { s with shep := { s.shep with tpdos := mset [] s.shep.tpdos ob.pdo d } }
      if s.shep.nmt = 5 then s.send (.canPdo ob.pdo d) else s
    else s
/-- Field results of a cohort at the tick that closes frame n + 3 (10, R282). -/
def State.fieldResults (s : State) (f : FoldId) (c : Cohort) : State :=
  (c.recs.zipIdx).foldl (fun s e => match e.1.route with
    | .field => (if c.withheld.isNone then s.writeField f (c.result e.2 e.1 0).bytes else s).returnCredits f 1
    | _ => s) s

end Sys2Proof.Machine
end

