-- ==== Sys2Proof/Machine/FoldLife.lean ====
section
/-! DEFINITION. How a Fold arms, stops, faults and empties, and how a quadrant is quarantined (02, 09, 13, 14). -/

namespace Sys2Proof.Machine

/-! ## Stopping -/

/-- Round entries of the attempt in progress, one per output (09, Table 9.10). -/
def Fold.roundEntries (x : Fold) (last : Nat) : List Bytes :=
  let flags := roundFlags x.grow.twoPass x.grow.miss.isSome x.grow.coarse x.grow.overflow x.grow.rerun
  (x.grow.scales.zipIdx).map fun e => roundEntry flags e.2 x.grow.round x.grow.attemptFirst last e.1.maxG e.1.maxH e.1.stepG e.1.stepH
/-- Append entries to the ledger, in the page of a frame. -/
def State.appendAll (s : State) (f : FoldId) (frame : Nat) (es : List Bytes) : State :=
  s.modFold f fun x => { x with led := es.foldl (fun l e => l.append frame e) x.led }
/-- A round attempt is in progress. -/
def Fold.inAttempt (x : Fold) : Bool :=
  x.growingNow && (decide (5 ≤ x.run.role ∧ x.run.role ≤ 20) || (x.run.role == 22 && (x.grow.cls != 0 || x.grow.step != 0)))
/-- Coarse tensors of the running round: output and TensorKind, as its gradient step recorded them; a two-pass step has none (04, R99). -/
def coarseTensors (j : Job) (g : Grow) : List (Nat × Nat) :=
  if j.kind = 2 || g.twoPass then [] else
    (g.history.filter fun h => h.round == g.round).flatMap fun h =>
      (if h.coarseG then [(h.output, if j.gradWidth = 4 then 1 else 0)] else []) ++ (if h.coarseH then [(h.output, 2)] else [])
/-- The running round attempt is the job's last: the last round, and no re-run of it follows (09, R246). -/
def Fold.lastAttempt (x : Fold) : Bool := match x.load.bind (·.job) with
  | some j => x.grow.round + 1 == j.rounds && !(j.rerun && !(coarseTensors j x.grow).isEmpty)
  | none => false
/-- The entries of an attempt, with `k` further ones, would take a page past 4,096 (09, R246). -/
def Fold.entriesOver (x : Fold) (p : OpenPage) (k : Nat) : Bool := match x.load.bind (·.job) with
  | some j => decide (4096 < p.entries.length + j.outputs + k)
  | none => false
/-- The page of an attempt's entries where only the close of its last frame `n` shows that the attempt ends there: a page that they would
take past 4,096 entries closed at the tick that opened the frame, and the next page started with it (09, R246). Without a free slot the
entries stay in the open page (DEDUCED, log entry 71). -/
def State.splitPage (s : State) (f : FoldId) (n : Nat) : State :=
  let x := s.fold f
  match x.led.page with
  | some p => if p.growing && decide (p.first < n) && x.entriesOver p 0 && decide (0 < s.freeSlots f) then
      ((s.closePage f (n - 1) false).sealClosing f (x.tickOf n)).openPage f n else s
  | none => s
/-- An attempt ends unforeseen with its last frame: at a stop or a fault, or as its gradient step runs again: its round entries (09, R244,
R246; 12, R330). -/
def State.endAttempt (s : State) (f : FoldId) (last : Nat) : State := (s.splitPage f last).appendAll f last ((s.fold f).roundEntries last)
/-- A stop or a fault ends the attempt in progress. -/
def State.cutAttempt (s : State) (f : FoldId) (last : Nat) : State := if (s.fold f).inAttempt then s.endAttempt f last else s
/-- Open frame's cohort as yet unclosed, in Scoring: its records were not admitted. -/
def Fold.openCohort (x : Fold) : List Cohort :=
  if x.run.started && !x.run.closed && !x.growingNow && (match x.adm.closeFrom with | some n => decide (x.frame < n) | none => true) then
    [⟨x.frame, x.tickOf x.frame, [], 0, [], 0, none, false, 0, 0, [], [], []⟩] else []
/-- A locked or running TDI of the Fold goes to ERROR (09, R236). -/
def State.tdiError (s : State) (f : FoldId) : State :=
  if (s.fn (vfOf f)).tdi == Tdi.locked || (s.fn (vfOf f)).tdi == Tdi.run then s.modFn (vfOf f) fun v => { v with tdi := .error } else s
/-- The Fold moves to STOPPED; a stop of the physical function takes a locked or running TDI to ERROR (09, R236). -/
def State.toStopped (s : State) (f : FoldId) : State :=
  let pf := (s.fold f).run.pfStop
  let s := s.modFold f fun x =>
    { x with run := { x.run with pfStop := false, closed := true, idle := false }, adm := { x.adm with q := 0, qp := 0, qe := 0 } }
  let s := if pf then s.tdiError f else s
  (s.recountCredits f).setSt f .stopped
/-- Everything held has left: no cohort, result, read, replay header or drain remains. A replay header whose records have not all been
fetched keeps the Fold here until they are, or FORCE_STOP (09, Table 9.1; 03, R65; DESIGN CHOICE, log entry 66). -/
def Fold.drained (x : Fold) : Bool :=
  x.pipe.isEmpty && x.res.idle && x.adm.reads.isEmpty && x.adm.arrivals.isEmpty && x.pre.drain.isNone && x.rep.hdrs.isEmpty &&
    x.led.page.isNone && x.led.closing.isEmpty
/-- A DRAINING Fold whose last held result has left and whose checkpoint writing has ended moves to STOPPED (09, Table 9.1). -/
def State.tryStopped (s : State) (f : FoldId) : State :=
  if (s.fold f).st = .draining && (s.fold f).drained && (s.messageEntries f).isEmpty then s.toStopped f else s
/-- Withhold a cohort, the first cause standing. -/
def Cohort.withhold (cause : Nat) (c : Cohort) : Cohort := { c with withheld := some (c.withheld.getD cause) }
/-- Close the open page with last frame `n` and seal every closed page at once; the one that closes last carries FINAL (09, R246, R247). -/
def State.finalPage (s : State) (f : FoldId) (n : Nat) : State :=
  let s := (s.closePage f n true).modFold f fun x => { x with led := x.led.markFinal }
  (s.fold f).led.closing.foldl (fun s _ => s.sealClosing f s.now) s
/-- The entries of the frames in the pipeline as a stop or a fault leaves them, and the PCIe entries of their records: DISCARDED for a
released cohort that `held` names, WITHHELD for a withheld one. -/
def State.endCohorts (s : State) (f : FoldId) (held : List Nat) (cs : List Cohort) : State :=
  cs.foldl (fun s c => (s.dropCohort f (if c.withheld.isSome then 0x20 else 0x23) c).enterCohort f c (c.withheld.isNone && held.contains c.frame)) s
/-- What follows the pipeline's end at every halt of a Fold: reads and replay headers complete, the attempt and the pages close (09). -/
def State.endRun (s : State) (f : FoldId) : State :=
  let x := s.fold f
  let s := s.dropReads f 0x23
  let s := x.rep.hdrs.foldl (fun s h => s.postRecord f h.cid 0x20 0 h.hdr.origFrame 0) s
  ((s.cutAttempt f x.frame).finalPage f x.frame).modFold f fun y => { y with rep := { y.rep with hdrs := [] }, pre := { y.pre with drain := none } }
/-- The cohorts of a Fold that halts, the open frame's with them: those that are scored are finished, the others are withheld. -/
def Fold.haltCohorts (x : Fold) (l : Loaded) : List Cohort :=
  (x.pipe ++ x.openCohort).map fun c =>
    if c.withheld.isSome then c else if c.frame + 3 ≤ x.frame then c.finish l x.tagMeas else c.withhold 0
/-- FORCE_STOP: held results are discarded, their tags still enter the ledger with DISCARDED; frames not scored yet get WITHHELD entries
(08, R213; 09, R248; DEDUCED, log entry 20). -/
def State.forceStopNow (s : State) (f : FoldId) : State :=
  let x := s.fold f
  match x.load with
  | none => s.toStopped f
  | some l =>
    let cs := x.haltCohorts l
    let held := (x.res.all.filter fun r => r.status == 0).map (·.frame) ++
      (cs.filter fun c => c.withheld.isNone).flatMap fun c => List.replicate (c.recs.length - c.placed) c.frame
    let s := s.dropHeld f 0x23
    let s := s.modFold f fun y => { y with pipe := [], led := held.foldl Ledger.discard y.led }
    let s := (s.endCohorts f held cs).endRun f
    let s := if held.isEmpty then s else s.emit (unitFold f) 0x0507 (le 8 (held.foldl min (held.headD 0)) ++ le 4 held.length)
    s.toStopped f
/-- NO_MAPPING and LEDGER_FULL: the Fold is STOPPED at once, and no forced stop: the results of scored frames are placed and stay held
until they leave; frames not scored yet get WITHHELD entries (08, R213; 09, Table 9.1; DEDUCED, log entry 20). -/
def State.stopNow (s : State) (f : FoldId) : State :=
  let x := s.fold f
  match x.load with
  | none => s.toStopped f
  | some l =>
    let cs := x.haltCohorts l
    let s := s.modFold f fun y => { y with pipe := [] }
    let s := cs.foldl (fun s c => if c.withheld.isSome then s else (s.placeRest f c).fieldResults f c) s
    let cs := cs.map fun c => if c.withheld.isSome then c else { c with placed := c.recs.length }
    ((s.endCohorts f [] cs).endRun f).toStopped f
/-- NO_MAPPING: card count, quadrant count, lost stacks; then the Fold stops (08, R219; 14, R411). -/
def State.noMapping (s : State) (f : FoldId) : State :=
  let lost := (List.range 8).map fun k => if h : k < 8 then b2n (s.hbm ⟨k, h⟩).lost * 2 ^ k else 0
  let q := ((List.range 4).filter fun i => bit (s.foldQuads f) i).length
  (s.emit (unitFold f) 0x030B (le 1 (s.fold f).run.job.2 ++ le 1 q ++ le 1 lost.sum)).stopNow f
/-- A fault the Fold cannot contain: FOLD_FAULTED, WITHHELD entries for the frames in the pipeline, the page sealed with FINAL, channel
keys zeroised. Results of earlier frames stay held until they leave, under the retired keys they hold (08, R213; 09, Table 9.1, Table 9.2,
R239, Corners; DEDUCED, log entry 20). -/
def State.faultFold (s : State) (f : FoldId) (cause frame : Nat) : State :=
  let x := s.fold f
  let s := s.emit (unitFold f) 0x030A (le 2 cause ++ le 8 frame)
  let cs := (x.pipe ++ x.openCohort).map (Cohort.withhold cause)
  let s := (s.dropResults f 0x20 fun r => cs.any fun c => c.frame == r.frame).modFold f fun y => { y with pipe := [] }
  let s := (s.endCohorts f [] cs).endRun f
  let s := (s.modFold f fun y =>
    { y with run := { y.run with closed := true, idle := false }, adm := { y.adm with q := 0, qp := 0, qe := 0 } }).zeroChans f
  (s.recountCredits f).setSt f .faulted
/-- Close admission for a stop from the frame after the open one and move to DRAINING (09, Table 9.1; DEDUCED, log entry 21). -/
def State.startDraining (s : State) (f : FoldId) : State :=
  (s.modFold f fun x => { x with adm := { x.adm with closeFrom := some (match x.adm.closeFrom with | some n => min n x.run.opened | none => x.run.opened) } }).setSt f .draining

/-! ## Fold commands (13, R381; 18, FOLD_CONTROL): the state, an abort code, an event code -/

/-- The access comes from the physical function. -/
def fromPf (a : Access) : Bool := a.path == 0 && a.fn == 0
/-- STOP: only a RUNNING Fold. -/
def State.stopCommit (s : State) (f : FoldId) (pf : Bool) : State × Nat × Nat :=
  if (s.fold f).st = .running then ((s.modFold f fun x => { x with run := { x.run with pfStop := x.run.pfStop || pf } }).startDraining f, 0, 0)
  else (s, 0x08000022, 0)
/-- FORCE_STOP: only a RUNNING or DRAINING Fold. -/
def State.forceStopCommit (s : State) (f : FoldId) (pf : Bool) : State × Nat × Nat :=
  if (s.fold f).st = .running || (s.fold f).st = .draining then
    ((s.modFold f fun x => { x with run := { x.run with pfStop := x.run.pfStop || pf } }).forceStopNow f, 0, 0)
  else (s, 0x08000022, 0)
/-- UNLOAD: only a LOADED or STOPPED Fold. -/
def State.unloadCommit (s : State) (f : FoldId) : State × Nat × Nat :=
  if (s.fold f).st = .loaded || (s.fold f).st = .stopped then ((s.dropHeld f 0x23).emptyFold f, 0, 0) else (s, 0x08000022, 0)
/-- A Fold reset: any state to EMPTY; background command ABORTED, record entries ABORTED, the function's session keys
zeroised; a locked or running TDI goes to ERROR at once (09, R223, R229, R236; 18, R488). -/
def State.resetFold (s : State) (f : FoldId) : State :=
  let s := s.abortBg f
  let cs := (s.fold f).pipe
  let s := s.dropHeld f 0x0E
  let s := cs.foldl (fun s c => s.dropCohort f 0x0E c) s
  let s := ((s.dropReads f 0x0E).emptyFold f).zeroSession (vfOf f)
  s.tdiError f
/-- FOLD_RESET: any state; a halted card ignores it (14, R405). -/
def State.resetCommit (s : State) (f : FoldId) : State × Nat × Nat :=
  if s.power.halted then (s, 0x08000022, 0) else (s.resetFold f, 0, 0)

/-! ## Launch (02, R40; 13, R379, R380) -/

/-- Why a LaunchAt is refused. -/
inductive LaunchRefusal | state | past | conflict | shape
  deriving DecidableEq, Repr
/-- The refusal of a LaunchAt, the first that applies, in the order in which they stand here: wrong state, service level, link at Gen1 or
Gen2, SYNC0 not locked, replay of a Growing bundle, a joining card's Fold without a running Scoring job, LAUNCH_PAST, cap, other
operating point active, usable power, a field result that its binding does not hold, job shape. The spec names each refusal and not their
order (DESIGN CHOICE, log entry 53); a binding that was written before the load is held to R387 here (log entry 34). -/
def State.launchRefusal (s : State) (f : FoldId) (replay : Bool) (at_ : Nat) : Option LaunchRefusal :=
  let x := s.fold f
  match x.load with
  | none => some .state
  | some l =>
    if !(x.st == .loaded || x.st == .stopped) then some .state
    else if s.power.level < 2 || s.pcie.gen == 1 || s.pcie.gen == 2 then some .state
    else if s.card = 0 && s.num 0x2021 0 0 == 2 && !(s.clock.sync0Locked && s.clock.sync0Cycle == s.cfg.tickPeriod) then some .state
    else if replay && l.growing then some .state
    else if s.heath.joining && (l.growing || x.runCards == 0) then some .state
    else if at_ < s.now + 1000000 then some .past
    else if opCode l.op < opCode s.cfg.opCap then some .conflict
    else if s.otherActive f && l.op != s.cfg.op then some .conflict
    else if s.power.usableW < opCapW l.op then some .conflict
    else if !(s.foldCfg f).outBind.holds x.fieldLen || s.bindClash f (s.foldCfg f).outBind x.fieldLen then some .conflict
    else if !shapeOk (s.jobSet f) then some .shape
    else none
/-- The Fold as an accepted LaunchAt leaves it: ARMED with a fresh run, a new chain, and its notices forgotten. Words held from other
cards for this LaunchAt, and the RUN words of a running job, count as held (02, R42; DEDUCED, log entry 54). -/
def armedFold (s : State) (f : FoldId) (replay : Bool) (at_ : Nat) : Fold :=
  let x := s.fold f
  { x with
    run := { Run.dflt with launchAt := at_, replay := replay, job := shapeOf (s.jobSet f), joins := s.heath.joining,
                           armWords := x.run.armWords.filter fun e => e.2.run || e.2.launchAt == at_ }
    adm := Admit.dflt
    pipe := []
    res := { x.res with lastSent := none }
    led := { x.led with chain := s.genesis f at_ replay, nextSeq := 0, page := none, closing := [], latest := none,
                        certSent := [false, false, false] }
    grow := if x.grow.restored.isSome then x.grow else Grow.dflt
    rep := Replay.dflt
    pre := { x.pre with notice := none, conts := [], drain := none, waited := 0 } }
/-- Commit of LaunchAt: LOADED or STOPPED to ARMED; the card takes the Fold's operating point when no other Fold is active
(13, Corners). -/
def State.launchCommit (s : State) (f : FoldId) (replay : Bool) (v : Bytes) : State × Nat × Nat :=
  let at_ := leNat v
  match s.launchRefusal f replay at_ with
  | some .state => (s, 0x08000022, 0)
  | some .past => (s.emit (unitFold f) 0x0101 (le 8 at_ ++ le 8 s.now), 0x06090032, 0x0101)
  | some .conflict => (s, 0x06040043, 0)
  | some .shape => (s.emit (unitFold f) 0x0706 (le 4 (s.jobSet f).toNat), 0x06040043, 0x0706)
  | none =>
    let op := match (s.fold f).load with
      | some l => l.op
      | none => s.cfg.op
    let s := if s.otherActive f then s else { s with cfg := { s.cfg with op := op } }
    ((s.setFold f (armedFold s f replay at_)).setSt f .armed, 0, 0)
/-- An ARMED Fold returns to LOADED (02, R42; 12, R326). -/
def State.disarm (s : State) (f : FoldId) : State := s.setSt f .loaded

/-! ## Quarantine (14, R410, R411) -/

/-- Folds with tiles in a quadrant. -/
def State.foldsIn (s : State) (q : QuadId) : List FoldId := allFolds.filter fun f => decide (0 < (s.foldCfg f).plotsIn q.val)
/-- A running Growing Fold with tiles in a quadrant that goes out of service idles in whole frames until the epoch; a Fold
without a mapping for what remains stops at that epoch (14, R411; DEDUCED, log entry 22). -/
def State.dropQuad (s : State) (q : QuadId) : State :=
  (s.foldsIn q).foldl (fun s f =>
    let x := s.fold f
    if (x.st == .running || x.st == .draining) && x.growingNow then s.modFold f fun y => { y with run := { y.run with idle := true } }
    else s) s
/-- Quarantine a quadrant: its tiles stop, an epoch is asked for (14, R410). -/
def State.quarantine (s : State) (q : QuadId) (cause count : Nat) : State :=
  let s := s.modQuad q fun x => { x with state := 1 }
  let s := s.emit (unitQuad q) 0x0307 (le 2 cause ++ le 1 count)
  ((s.requestEpoch (unitQuad q)).dropQuad q).updateLevel
/-- A counted fault of a quadrant at a count: the third within 10^9 counts quarantines it (14, R410). -/
def State.countFault (s : State) (q : QuadId) (code stamp : Nat) : State :=
  let l := ((s.quad q).faults.filter fun t => stamp < t + 1000000000) ++ [stamp]
  let s := s.modQuad q fun x => { x with faults := l }
  if 3 ≤ l.length && (s.quad q).state == 0 then s.quarantine q code l.length else s
/-- The first withholding cause of a Fold's open frame. -/
def State.causeFrame (s : State) (f : FoldId) (code : Nat) : State :=
  s.modFold f fun x => { x with run := { x.run with cause := some (x.run.cause.getD code) } }

end Sys2Proof.Machine
end

