-- ==== Sys2Proof/Machine/Notice.lean ====
section
/-! DEFINITION. Pre-emption notices: payload, checks and acceptance (12). -/

namespace Sys2Proof.Machine

/-- Notice payload (12, Table 12.1). -/
structure NoticePayload where
  fold : Nat
  mode : Nat
  rsvd : Nat
  seq : Nat
  issueAt : Nat
  deadline : Nat
  rsvd2 : Nat
  deriving DecidableEq, Repr

def decodeNotice (b : Bytes) : NoticePayload :=
  ⟨fld b 0 1, fld b 1 1, fld b 2 2, fld b 4 4, fld b 8 8, fld b 16 8, fld b 24 8⟩

/-- The Fold a payload names; a number above 15 names none. -/
def NoticePayload.foldId (n : NoticePayload) : Option FoldId := if h : n.fold < 16 then some ⟨n.fold, h⟩ else none

/-- What of R323 remains after the signature: 32 bytes, mode, reserved bytes, Deadline, Sequence, window. -/
def State.noticeOk (s : State) (f : FoldId) (b : Bytes) : Bool :=
  let n := decodeNotice b
  b.length == 32 && n.fold == f.val && decide (n.mode ≤ 1) && n.rsvd == 0 && n.rsvd2 == 0 && decide (n.issueAt < n.deadline) &&
  (match (s.fold f).pre.lastSeq with | some q => decide (q < n.seq) | none => true) &&
  decide (n.issueAt ≤ s.now ∧ s.now < n.issueAt + 1000000)

/-- NOTICE_REJECT with its path: 0 to 3 as Table 13.3, 4 for IZR (DEDUCED, log entry 23). -/
def State.noticeReject (s : State) (f : FoldId) (path seq : Nat) : State := s.emit (unitFold f) 0x0801 (le 1 path ++ le 4 seq)

/-- Take an accepted notice: an ARMED Fold returns to LOADED, a RUNNING one takes the cut of this notice, a later STOP
notice only moves the Deadline; every CONTINUE notice to a Growing Fold has its own cut; a CONTINUE notice to a Scoring Fold and
a notice to a Fold in another state take no action (12, R326 to R331; DEDUCED, log entry 23). -/
def State.takeNotice (s : State) (f : FoldId) (n : NoticePayload) : State :=
  let s := s.modFold f fun x => { x with pre := { x.pre with lastSeq := some n.seq } }
  let x := s.fold f
  let new : Notice := ⟨n.mode == 0, n.seq, n.issueAt, n.deadline⟩
  match x.st with
  | .armed => s.disarm f
  | .running | .draining =>
    if n.mode = 1 && !x.growingNow then s
    else if n.mode = 1 then s.modFold f fun y => { y with pre := { y.pre with conts := y.pre.conts ++ [new] } }
    else
      let keep := match x.pre.notice with
        | some o => { o with deadline := n.deadline }
        | none => new
      s.modFold f fun y =>
        { y with pre := { y.pre with notice := some keep,
                                     drain := y.pre.drain.map fun d => if d.stop then { d with deadline := n.deadline } else d } }
  | _ => s

/-- Commit of a notice whose signature was accepted: the state, an abort code, an event code (12, R323, R325, R327; R372). -/
def State.noticeCommit (s : State) (path : Nat) (b : Bytes) (addressed : Option FoldId) : State × Nat × Nat :=
  let n := decodeNotice b
  let f := match addressed with
    | some g => some g
    | none => n.foldId
  match f with
  | none => (s, 0x06090030, 0)
  | some f =>
    if !s.noticeOk f b then (s.noticeReject f path n.seq, 0x06090030, 0x0801)
    else if n.mode = 1 && (s.fold f).pre.drain.isSome then (s.emit (unitFold f) 0x0802 (le 4 n.seq), 0x08000022, 0x0802)
    else (s.takeNotice f n, 0, 0)

/-- The cut count of a notice: IssueAt + 1,000,000 (12, R329, R331). -/
def Notice.cutAt (n : Notice) : Nat := n.issueAt + 1000000
/-- Cut tick of a Scoring Fold: the first frame boundary at or after the cut count (12, R331). -/
def scoringCut (x : Fold) (n : Notice) : Nat := x.run.launchAt + ceilDiv (n.cutAt - x.run.launchAt) x.period * x.period

end Sys2Proof.Machine
end

