-- ==== Sys2Proof/Machine/Resets.lean ====
section
/-! DEFINITION. Trips and halts, and what each reset clears and keeps (09, 14, 15). -/

namespace Sys2Proof.Machine

/-! ## Trip and halt (14, Table 14.5) -/

/-- FOLD_HALTED of one Fold: latest sealed PageSeq and last arrival frame wholly sent, free values where it has none (14, R404; DESIGN
CHOICE, log entry 47). -/
def State.foldHalted (s : State) (f : FoldId) : State :=
  let x := s.fold f
  if isActive x.st then
    s.emit (unitFold f) 0x0907 (le 8 (s.latestSeq f) ++ le 8 (x.res.lastSent.getD (Config.noneYet 1 f.val s.now)))
  else s
def State.foldsHalted (s : State) : State := allFolds.foldl (fun s f => s.foldHalted f) s
/-- A result's route without the egress key and salt that it holds. -/
def Route.wipe : Route → Route
  | .izr c k _ _ => .izr c k [] []
  | r => r
/-- The channel keys that a Fold's records and results hold, zeroised. -/
def Fold.wipeKeys (x : Fold) : Fold :=
  let q := fun (l : List Result) => l.map fun r => { r with route := r.route.wipe }
  { x with adm := { x.adm with arrivals := x.adm.arrivals.map fun a => { a with route := a.route.wipe } }
           pipe := x.pipe.map fun c => { c with recs := c.recs.map fun r => { r with route := r.route.wipe } }
           res := { x.res with egress := q x.res.egress, staging := q x.res.staging, spill := q x.res.spill } }
/-- Zeroise SPDM session, IDE, channel and Stile link keys, the retired channel keys too (09, R229, Table 9.2; 14, Table 14.5). -/
def State.zeroTripKeys (s : State) : State :=
  let s := (List.finRange 17).foldl (fun s v => s.zeroSession v) s
  { s with chans := s.chans.map (fun e => (e.1, e.2.wipe))
           folds := s.folds.map Fold.wipeKeys
           links := s.links.map fun k => { k with keys := Vector.replicate 2 [], salts := Vector.replicate 2 [] } }
/-- The sequence of Table 14.5 to its end: FOLD_HALTED sealed, egress gated, keys zeroised, clocks stopped, halted at level 0
(14, R403; DESIGN CHOICE, log entry 33). -/
def State.tripCard (s : State) : State :=
  let s := s.foldsHalted.zeroTripKeys
  ({ s with power := { s.power with gated := true, clocksStopped := true, halted := true, tripAt := none } }).updateLevel

/-! ## Event logs at a loss of the Shepherd (13) -/

/-- Waiting sealed events are in FRAM before the volatile log goes; the others are lost (14, Table 14.5; DESIGN CHOICE, log entry 33). -/
def Events.lose (e : Events) : Events :=
  let e := e.place (e.waiting.filter (·.isSealed))
  { e with waiting := [], log := [] }

/-! ## Resets (15, Table 15.3) -/

/-- RestoreDefaults takes effect at a cold or warm reset; it spares the always-kept entries (13, R378). -/
def State.applyRestore (s : State) : State :=
  if s.shep.restore then { s with cfg := Settings.dflt, shep := { s.shep with stored := Settings.dflt, restore := false } } else s
/-- DICE keys below the UDS zeroised (09, Table 9.2). -/
def Sec.clear (x : Sec) : Sec := { x with fwMeas := [], devId := 0, cdi1 := [], aliasKey := 0, aliasCert := [], bootFrom := 0 }
/-- Parts after a warm reset: counters stay, which only a cold reset zeroes (13, Table 13.10). -/
def Fold.cleared (x : Fold) : Fold := { Fold.dflt with tel := x.tel }
def Quad.cleared (q : Quad) : Quad :=
  { Quad.dflt with junction := q.junction, divergences := q.divergences, withheld := q.withheld, corrected := q.corrected }
def Stack.cleared (h : Stack) : Stack := { Stack.dflt with temp := h.temp, corrected := h.corrected, uncorrectable := h.uncorrectable }
def Link.cleared (k : Link) : Link := { Link.dflt with losses := k.losses, corrected := k.corrected }
def Port.cleared (p : Port) : Port := { p with pausedUntil := 0 }
def Power.rerun (p : Power) (now : Nat) : Power :=
  { p with booted := false, recovery := false, stileTrained := false, hbmTrained := false, selfTested := false, engineFailed := false,
           ready := false, releasedAt := now, chunks := [], landing := [] }
/-- A warm reset: Table 15.1 runs again from the Root-firmware milestone; the Shepherd and the tick generator run on (15). A
halted card ignores it (14, R405). -/
def State.warmReset (s : State) : State :=
  if s.power.halted then s else
    let s := s.applyRestore
    ({ s with
      folds := s.folds.map Fold.cleared, tiles := [], quads := s.quads.map Quad.cleared, hbms := s.hbms.map Stack.cleared,
      links := s.links.map Link.cleared, ports := s.ports.map Port.cleared, fns := Vector.replicate 17 Func.dflt, chans := [],
      heath := Heath.dflt, sec := s.sec.clear, sd := s.sd.restart, pcie := { Pcie.dflt with rateChanges := s.pcie.rateChanges },
      power := s.power.rerun s.now }).updateLevel
/-- PERST# stops active Folds at once with FOLD_HALTED and resets the card warm (15, R435). -/
def State.perstReset (s : State) : State :=
  if s.power.halted then s else s.foldsHalted.warmReset
/-- A quadrant reset: the quadrant's tiles zeroised, its fault count cleared; it returns through self-test in grazing and the
epoch that admits it (15, R437). A halted card ignores it. -/
def State.quadReset (s : State) (q : QuadId) : State :=
  if s.power.halted then s else
    let s := { s with tiles := s.tiles.filter fun e => quadOfTile e.1 != q }
    ((s.modQuad q fun x => { x with state := if x.state = 0 then 1 else x.state, faults := [], returning := true, tested := false }).outOfMappings q).updateLevel
/-- A Shepherd reset begins: dictionary refused, field controllers stopped, volatile log lost, transfers dropped (15, R439). -/
def State.shepReset (s : State) : State :=
  { s with
    shep := { s.shep with restarting := true, fieldBefore := (s.shep.alState, s.shep.nmt), alState := 1, nmt := 0, segs := [] }
    events := s.events.lose }
/-- Dictionary values that return to their defaults at a cold reset while the Shepherd runs on: live entries, cursors, images. -/
def Shepherd.coldDefaults (x : Shepherd) : Shepherd :=
  { x with nodes := [], rxImage := [], txImage := [], tpdos := [], cursors := [], eatNonces := [], eats := [], refusals := [], segs := [],
           snap := Snapshot.dflt, norRepaired := false }
/-- A cold reset: loss of main power (15). Stored entries, the always-kept ones, the sealed log and the staged journal pages
stay; the Shepherd runs on where PoE or 3.3Vaux is present. -/
def State.coldReset (s : State) : State :=
  let s := s.applyRestore
  { s with
    clock := Clock.dflt
    power := { Power.dflt with perst := s.power.perst, lowPower := s.power.lowPower }
    shep := s.shep.coldDefaults
    cfg := s.shep.stored
    folds := Vector.replicate 16 Fold.dflt
    quads := Vector.replicate 4 Quad.dflt
    hbms := Vector.replicate 8 Stack.dflt
    links := Vector.replicate 16 Link.dflt
    ports := Vector.replicate 16 Port.dflt
    fns := Vector.replicate 17 Func.dflt
    tiles := []
    chans := []
    heath := Heath.dflt
    sec := { s.sec.clear with udsLocked := false }
    sd := s.sd.restart
    pcie := Pcie.dflt
    events := { s.events.place s.events.waiting with waiting := [], seqs := [], discards := [], ceLast := [] } }
/-- The Shepherd loses every supply (13; 15). -/
def State.shepOff (s : State) : State :=
  { s with shep := { s.shep.coldDefaults with up := false, restarting := false, supplies := (false, false, false), alState := 1, nmt := 0 }
           events := s.events.lose }

end Sys2Proof.Machine
end

