-- ==== Sys2Proof/Machine/Telemetry.lean ====
section
/-! DEFINITION. The telemetry entries of the dictionary and their snapshot (13, Table 13.10, R373). -/

namespace Sys2Proof.Machine

/-- The last card tick (02, R32). -/
def State.lastTick (s : State) : Nat := s.now - s.now % s.cfg.tickPeriod
/-- CardTelemetry. -/
def State.cardTel (s : State) (sub : Nat) : Bytes := match sub with
  | 1 => le 8 s.lastTick
  | 2 => le 4 s.power.boardMw
  | 3 => le 2 s.power.coreMv
  | 4 => le 2 s.power.hbmMv
  | 5 => le 2 (wrap 16 s.power.hottest)
  | 6 => le 8 (wrap 64 s.clock.offsetPs)
  | _ => le 8 (wrap 64 s.clock.slew)
/-- QuadrantTelemetry. -/
def Quad.tel (x : Quad) (sub : Nat) : Bytes := match sub with
  | 1 => le 1 x.state
  | 2 => le 2 (wrap 16 x.junction)
  | 3 => le 8 x.divergences
  | 4 => le 8 x.withheld
  | _ => le 8 x.corrected
/-- StackTelemetry. -/
def Stack.tel (x : Stack) (sub : Nat) : Bytes := match sub with
  | 1 => le 1 (b2n x.lost)
  | 2 => le 2 (wrap 16 x.temp)
  | 3 => le 8 x.corrected
  | 4 => le 8 x.uncorrectable
  | _ => le 2 x.remapped
/-- PortTelemetry. -/
def Port.tel (x : Port) (sub : Nat) : Bytes := match sub with
  | 1 => le 1 (b2n x.up)
  | 2 => le 8 x.rx
  | 3 => le 8 x.fcs
  | 4 => le 8 x.fec
  | 5 => le 8 x.discard
  | _ => le 8 x.pause
/-- PcieTelemetry. -/
def Pcie.tel (x : Pcie) (sub : Nat) : Bytes := match sub with
  | 1 => le 1 x.gen
  | 2 => le 1 x.width
  | _ => le 4 x.rateChanges
/-- StileTelemetry. -/
def Link.tel (x : Link) (sub : Nat) : Bytes := match sub with
  | 1 => le 1 x.state
  | 2 => le 1 x.partner
  | 3 => le 8 x.losses
  | _ => le 8 x.corrected
/-- FoldTelemetry. -/
def FoldTel.value (x : FoldTel) (sub : Nat) : Bytes := match sub with
  | 1 => le 8 x.admitted
  | 2 => le 8 x.drops
  | 3 => le 8 x.invalidValue
  | 4 => le 8 x.invalidLabel
  | 5 => le 8 x.late
  | 6 => le 8 x.misses
  | 7 => le 8 x.withheld
  | _ => le 8 x.waits
/-- LldpNeighbour at a count; a neighbour whose time to live has run out is none (10, R285). -/
def Port.lldpTel (x : Port) (now sub : Nat) : Bytes := match x.neighbour with
  | none => if sub = 4 then le 2 0 else []
  | some n =>
    if n.expires ≤ now then (if sub = 4 then le 2 0 else [])
    else match sub with
      | 1 => n.chassis
      | 2 => n.portName
      | 3 => n.system
      | _ => le 2 ((n.expires - now) / 1000000000)
/-- Value now of a telemetry entry that the Root die maintains. -/
def State.telNow (s : State) (idx sub : Nat) : Bytes :=
  if idx = 0x4000 then s.cardTel sub
  else if idx < 0x4014 then (s.quad ⟨idx % 4, by omega⟩).tel sub
  else if idx < 0x4028 then (s.hbm ⟨idx % 8, by omega⟩).tel sub
  else if idx < 0x4040 then (s.port ⟨idx % 16, by omega⟩).tel sub
  else if idx = 0x4040 then s.pcie.tel sub
  else if idx < 0x4060 then (s.link ⟨idx % 16, by omega⟩).tel sub
  else if idx < 0x4090 then (s.fold ⟨idx % 16, by omega⟩).tel.value sub
  else (s.port ⟨idx % 16, by omega⟩).lldpTel s.now sub
/-- The telemetry entries that the Root die maintains: first index, count, subindices, in ascending order. -/
def telGroups : List (Nat × Nat × Nat) :=
  [(0x4000, 1, 7), (0x4010, 4, 5), (0x4020, 8, 5), (0x4030, 16, 6), (0x4040, 1, 3), (0x4050, 16, 4), (0x4080, 16, 8), (0x4100, 16, 4)]
/-- Every telemetry entry with its value now, by key. -/
def State.telAll (s : State) : SMap Bytes :=
  telGroups.flatMap fun g => (List.range g.2.1).flatMap fun i => (List.range g.2.2).filterMap fun k =>
    let v := s.telNow (g.1 + i) (k + 1)
    if v.isEmpty then none else some ((g.1 + i) * 256 + k + 1, v)
/-- A snapshot is due: the first card tick at or after the multiple of 1,000,000 counts that follows the last snapshot has come; after the GTC
has stepped back the next card tick takes one (13, R373). -/
def State.snapDue (s : State) : Bool :=
  decide (s.lastTick < s.shep.snap.tick ∨ s.cardTick ((s.shep.snap.tick / 1000000 + 1) * 1000000) ≤ s.now)
/-- The snapshot of the telemetry at the last card tick (13, R373). -/
def State.takeSnapshot (s : State) : State := { s with shep := { s.shep with snap := ⟨s.lastTick, s.telAll⟩ } }
/-- The Shepherd's analogue readings become the telemetry registers' values. -/
def State.takeReadings (s : State) (m : Readings) : State :=
  { s with
    power := { s.power with boardMw := m.boardPower, coreMv := m.coreRail, hbmMv := m.hbmRail, hottest := m.hottest }
    shep := { s.shep with powerMw := m.shepherdPower }
    quads := Vector.ofFn fun q => { s.quad q with junction := m.quadJunction.getD q.val (s.quad q).junction }
    hbms := Vector.ofFn fun k => { s.hbm k with temp := m.stackTemp.getD k.val (s.hbm k).temp } }

end Sys2Proof.Machine
end

