-- ==== Sys2Proof/Machine/DictCommands.lean ====
section
/-! DEFINITION. What an accepted dictionary write does, entry by entry, and the dictionary's timed steps (10, 12, 13, 15). A
commit answers the state, an abort code and an event code. -/

namespace Sys2Proof.Machine

/-! ## Entry commits -/

/-- What a commit answers. -/
abbrev Commit := State × Nat × Nat
def okC (s : State) : Commit := (s, 0, 0)
def noC (s : State) (abort : Nat) : Commit := (s, abort, 0)

/-- A stored entry without behaviour of its own. -/
def State.setVal (s : State) (idx sub : Nat) (v : Bytes) : State :=
  { s with cfg := { s.cfg with vals := mset [] s.cfg.vals (idx * 256 + sub) v } }
/-- 0x2010:00 TickPeriod (02, R34). -/
def State.commitPeriod (s : State) (v : Bytes) : Commit := okC { s with cfg := { s.cfg with tickPeriod := leNat v } }
/-- 0x2011:00 OperatingPoint: a point faster than the cap conflicts with it (13, Tables 13.6, 13.8). -/
def State.commitOp (s : State) (v : Bytes) : Commit := match opOfCode (leNat v) with
  | none => noC s 0x06090030
  | some op => if leNat v < opCode s.cfg.opCap then noC s 0x06040043 else okC { s with cfg := { s.cfg with op := op } }
/-- 0x2012:00 OperatingPointCap. -/
def State.commitCap (s : State) (v : Bytes) : Commit := match opOfCode (leNat v) with
  | none => noC s 0x06090030
  | some op => okC { s with cfg := { s.cfg with opCap := op } }
/-- A port of the layout in force in a cage is up. -/
def State.cageUp (s : State) (cage : Nat) : Bool :=
  (List.finRange 16).any fun p => p.val < portCount s.cfg.portLayout && cageOf s.cfg.portLayout p.val == cage && (s.port p).up
/-- 0x2030:00 PortLayout: the ports that the layout lacks are down, the others up where their cage's module is (10, R256; 17, R464). -/
def State.commitLayout (s : State) (v : Bytes) : Commit :=
  let n := leNat v
  okC { s with cfg := { s.cfg with portLayout := n }
               ports := Vector.ofFn fun p => { s.port p with pausedUntil := 0, up := decide (p.val < portCount n) && s.cageUp (cageOf n p.val) } }
/-- 0x1010:01 StoreParameters. -/
def State.commitStore (s : State) : Commit := okC { s with shep := { s.shep with stored := s.cfg } }
/-- 0x1011:01 RestoreDefaults: at the next cold or warm reset. -/
def State.commitRestore (s : State) : Commit := okC { s with shep := { s.shep with restore := true } }
/-- A warm reset by dictionary is refused unless every Fold is quiescent (15; 13, Table 13.8). -/
def State.commitWarm (s : State) : Commit := if s.anyActive || s.power.halted then noC s 0x08000022 else okC s.warmReset
/-- Shepherd reset (15, R439). -/
def State.commitShep (s : State) : Commit := okC s.shepReset
/-- Quadrant reset: every Fold with tiles in the quadrant is quiescent (13, Table 13.8). -/
def State.commitQuad (s : State) (q : QuadId) : Commit :=
  if s.power.halted || (s.foldsIn q).any fun f => isActive (s.fold f).st then noC s 0x08000022 else okC (s.quadReset q)
/-- 0x2002:00 ResetRequest by value. -/
def State.commitReset (s : State) (v : Nat) : Commit := match v with
  | 1 => s.commitWarm
  | 2 => s.commitShep
  | 0x10 => s.commitQuad 0
  | 0x11 => s.commitQuad 1
  | 0x12 => s.commitQuad 2
  | 0x13 => s.commitQuad 3
  | _ => noC s 0x06090030
/-- The channel table and the checkpoint targets with every byte zero. -/
def Settings.zeroised (c : Settings) : Settings :=
  { c with channels := (List.range 256).map fun i => (i, ChanCfg.zero), folds := c.folds.map fun (x : FoldCfg) => { x with target := CkptTarget.zero } }
/-- Entries that a release of ownership zeroises. -/
def releasedEntry (idx : Nat) : Bool := decide (0x2200 ≤ idx ∧ idx < 0x2300 ∨ 0x5810 ≤ idx ∧ idx < 0x5820)
/-- Release of ownership: keys, channel table, checkpoint targets and AuthSeq zeroised, where they are stored too; the card leaves every Heath
(13, R367). The quadrants and stacks that failed are out of service still, and its relayed words count on. -/
def State.releaseOwner (s : State) : State :=
  let s := s.flood 7 (be 1 s.card ++ be 1 4 ++ be 8 s.now)
  { s with
    kept := Kept.dflt, chans := [], cfg := s.cfg.zeroised
    heath := { Heath.dflt with lostQuads := s.heath.lostQuads.filter (fun e => e.1 == s.card), lostStacks := s.heath.lostStacks,
                               seq := s.heath.seq, seen := s.heath.seen }
    shep := { s.shep with stored := s.shep.stored.zeroised, deferred := s.shep.deferred.filter fun e => !releasedEntry e.1 } }
/-- 0x2110:00 OwnerKey: a new key, or its release, which needs every Fold EMPTY; an unowned card has nothing to release (13, R366, R367). -/
def State.commitOwner (s : State) (v : Bytes) : Commit :=
  if allZero v then
    (if s.kept.ownerKey.isEmpty then okC s
     else if allFolds.all fun f => (s.fold f).st == .empty then okC s.releaseOwner else noC s 0x08000022)
  else okC { s with kept := { s.kept with ownerKey := v } }
/-- One subindex of a ChannelTable entry (10, Table 10.4). -/
def ChanCfg.write (c : ChanCfg) (sub : Nat) (v : Bytes) : ChanCfg := match sub with
  | 1 => { c with fold := leNat v }
  | 2 => { c with clientKey := normKey v }
  | 3 => { c with allowed := if allZero v then [] else v }
  | 4 => { c with egressAddr := if allZero v then [] else v }
  | 5 => { c with egressUdp := leNat v }
  | 6 => { c with egressPort := leNat v }
  | 7 => { c with byteBudget := leNat v }
  | 8 => { c with recordQuota := leNat v }
  | 9 => { c with role := leNat v }
  | 10 => { c with input := leNat v }
  | 11 => { c with mtu := leNat v }
  | _ => c
/-- The result leaves by a channel. -/
def Result.onChan (r : Result) (c : Nat) : Bool := match r.route with
  | .izr k _ _ _ => k == c
  | _ => false
/-- A write to a channel's entry: sequences to zero, both key slots and their retired keys zeroised, and with them the results that a
quiescent Fold still holds for the channel, which nothing can encrypt (10, R263; DEDUCED, log entry 20). -/
def State.commitChan (s : State) (c sub : Nat) (v : Bytes) : Commit :=
  let s := match s.chanFold c with
    | none => s.setChan c Chan.dflt
    | some f => ((s.dropResults f 0x23 fun r => r.onChan c).setChan c Chan.dflt).recountCredits f
  okC { s with cfg := { s.cfg with channels := mset ChanCfg.dflt s.cfg.channels c ((s.chanCfg c).write sub v) } }
/-- LedgerRingPages: no more than the loaded bundle's LedgerRingMax (09, R255). -/
def State.commitRing (s : State) (f : FoldId) (v : Bytes) : Commit :=
  let beyond := match (s.fold f).load with
    | some l => decide (l.res.ringMax < leNat v)
    | none => false
  if beyond then noC s 0x06040043 else okC (s.modFoldCfg f fun c => { c with ringPages := leNat v })
/-- LedgerExport. -/
def State.commitExport (s : State) (f : FoldId) (v : Bytes) : Commit := okC (s.modFoldCfg f fun c => { c with dests := BitVec.ofNat 8 (leNat v) })
/-- PlotMask and HbmUnitMask: none that another Fold owns (13, R382). -/
def State.commitMask (s : State) (f : FoldId) (sub : Nat) (v : Bytes) : Commit :=
  if sub = 1 then
    (if allFolds.any fun g => g != f && (s.foldCfg g).plots &&& BitVec.ofNat 80 (leNat v) != 0 then noC s 0x06040043
     else okC (s.setMasks f (BitVec.ofNat 80 (leNat v)) (s.foldCfg f).units))
  else
    (if allFolds.any fun g => g != f && (s.foldCfg g).units &&& BitVec.ofNat 192 (leNat v) != 0 then noC s 0x06040043
     else okC (s.setMasks f (s.foldCfg f).plots (BitVec.ofNat 192 (leNat v))))
/-- OwnerKek: an HPKE base-mode seal to the Fold's HPKE key with info "IZCK" and the Fold measurement (12, R340). A seal that
does not open leaves no KEK (DESIGN CHOICE, log entry 34). -/
def State.commitKek (s : State) (f : FoldId) (k : Option KekSeal) : Commit :=
  match k, (s.fold f).load with
  | some k, some l =>
    if k.recipient == (s.fold f).keys.hpke && !(s.fold f).keys.hpke.isEmpty && k.info == ascii [0x49, 0x5A, 0x43, 0x4B] ++ l.foldMeas then
      okC (s.modFold f fun x => { x with keys := { x.keys with kek := some k.kek } })
    else noC s 0x06090030
  | _, _ => noC s 0x06090030
/-- One subindex of a binding (13, Table 13.14). -/
def InBind.write (b : InBind) (sub : Nat) (v : Bytes) : InBind := match sub with
  | 1 => { b with source := leNat v }
  | 2 => { b with pdo := leNat v }
  | 3 => { b with offset := leNat v }
  | 4 => { b with length := leNat v }
  | 5 => { b with kind := leNat v }
  | _ => b
/-- The PDO fits the source: 0 for EtherCAT, 1 to 4 for CAN (13, Table 13.14). -/
def InBind.pdoOk (b : InBind) : Bool := if b.source = 1 then b.pdo == 0 else if b.source = 2 then decide (1 ≤ b.pdo ∧ b.pdo ≤ 4) else true
/-- InputBinding: a declared input, a PDO of its source, a range inside the image, no byte of another Fold's binding (13, R386; DESIGN CHOICE, log entry 34). -/
def State.commitInput (s : State) (f : FoldId) (i sub : Nat) (v : Bytes) : Commit :=
  let b := (mget ⟨0, 0, 0, 0, 0⟩ s.cfg.inBinds (64 * f.val + i)).write sub v
  let declared := match (s.fold f).load with
    | some l => l.res.inputs.any fun d => d.number == i
    | none => false
  let lim := if b.source = 1 then 1024 else 64
  if b.source ≠ 0 && (!declared || !b.pdoOk || lim < b.offset + b.length) then noC s 0x06090030
  else if b.source ≠ 0 && s.cfg.inBinds.any (fun e => e.1 / 64 != f.val && e.2.source == b.source && e.2.pdo == b.pdo &&
      overlaps b.offset b.length e.2.offset e.2.length) then noC s 0x06040043
  else okC { s with cfg := { s.cfg with inBinds := mset ⟨0, 0, 0, 0, 0⟩ s.cfg.inBinds (64 * f.val + i) b } }
def OutBind.write (b : OutBind) (sub : Nat) (v : Bytes) : OutBind := match sub with
  | 1 => { b with dest := leNat v }
  | 2 => { b with pdo := leNat v }
  | 3 => { b with offset := leNat v }
  | _ => b
/-- ResultBinding: the destination holds body and trailer from the offset; no byte of another Fold's (13, R387). -/
def State.commitResult (s : State) (f : FoldId) (sub : Nat) (v : Bytes) : Commit :=
  let b := (s.foldCfg f).outBind.write sub v
  let n := (s.fold f).fieldLen
  if !b.holds n then noC s 0x06090030
  else if s.bindClash f b n then noC s 0x06040043
  else okC (s.modFoldCfg f fun c => { c with outBind := b })
/-- One subindex of CheckpointTarget (12, Table 12.3). -/
def CkptTarget.write (c : CkptTarget) (sub : Nat) (v : Bytes) : CkptTarget := match sub with
  | 1 => { c with address := if allZero v then [] else v }
  | 2 => { c with tcpPort := leNat v }
  | 3 => { c with nqn := v }
  | 4 => { c with nsid := leNat v }
  | 5 => { c with base := leNat v }
  | 6 => { c with areaLbas := leNat v }
  | 7 => { c with egressPort := leNat v }
  | 8 => { c with ledgerBase := leNat v }
  | 9 => { c with ledgerLbas := leNat v }
  | _ => c
/-- HeathIndex: the card's own quadrants stay as they are under its new index. -/
def State.commitIndex (s : State) (v : Bytes) : State :=
  let l := s.heath.lostQuads.map fun e => if e.1 = s.card then (leNat v, e.2) else e
  { s.setVal 0x2100 1 v with heath := { s.heath with lostQuads := l } }
/-- Fold-area entries at their offset (13, Table 13.9). -/
def State.commitFoldArea (s : State) (a : Access) (f : FoldId) (o sub : Nat) (v : Bytes) : Commit := match o with
  | 1 => s.commitMask f sub v
  | 5 => s.launchCommit f false v
  | 6 => match leNat v with
    | 1 => s.stopCommit f (fromPf a)
    | 2 => s.forceStopCommit f (fromPf a)
    | 3 => s.unloadCommit f
    | 4 => s.resetCommit f
    | _ => noC s 0x06090030
  | 10 => s.commitRing f v
  | 11 => s.commitExport f v
  | 13 => okC { s with shep := { s.shep with eatNonces := mset [] s.shep.eatNonces (16 * a.path.val + f.val) v } }
  | _ => noC s 0x06010002
/-- Every entry's commit: the entries with behaviour, then the stored ones. -/
def State.commitEntry (s : State) (a : Access) (idx sub : Nat) (v : Bytes) : Commit :=
  if idx = 0x1010 then s.commitStore
  else if idx = 0x1011 then s.commitRestore
  else if idx = 0x2002 then s.commitReset (leNat v)
  else if idx = 0x2010 then s.commitPeriod v
  else if idx = 0x2011 then s.commitOp v
  else if idx = 0x2012 then s.commitCap v
  else if idx = 0x2030 then s.commitLayout v
  else if idx = 0x2032 then (if leNat v < portCount s.cfg.portLayout then okC (s.setVal idx sub v) else noC s 0x06090030)
  else if idx = 0x2110 then s.commitOwner v
  else if idx = 0x2111 then okC { s with kept := { s.kept with operatorKey := normKey v } }
  else if idx = 0x2100 ∧ sub = 1 then okC (s.commitIndex v)
  else if idx = 0x2100 ∧ sub = 3 then okC { s with kept := { s.kept with heathOwner := normKey v } }
  else if 0x2200 ≤ idx ∧ idx < 0x2300 then s.commitChan (idx - 0x2200) sub v
  else if 0x3000 ≤ idx ∧ idx < 0x3200 then s.commitFoldArea a ⟨(idx - 0x3000) / 0x20 % 16, by omega⟩ ((idx - 0x3000) % 0x20) sub v
  else if idx = 0x5000 then okC { s with shep := { s.shep with cursors := mset 0 s.shep.cursors (2 * a.path.val) (leNat v) } }
  else if idx = 0x5100 then okC { s with shep := { s.shep with cursors := mset 0 s.shep.cursors (2 * a.path.val + 1) (leNat v) } }
  else if idx = 0x5800 then s.noticeCommit a.path.val v none
  else if 0x5810 ≤ idx ∧ idx < 0x5820 then
    okC (s.modFoldCfg ⟨(idx - 0x5810) % 16, by omega⟩ fun c => { c with target := c.target.write sub v })
  else if 0x5830 ≤ idx ∧ idx < 0x5840 then s.commitKek ⟨(idx - 0x5830) % 16, by omega⟩ none
  else if 0x6200 ≤ idx ∧ idx < 0x6600 then s.commitInput ⟨(idx - 0x6200) / 0x40 % 16, by omega⟩ ((idx - 0x6200) % 0x40) sub v
  else if 0x6600 ≤ idx ∧ idx < 0x6610 then s.commitResult ⟨(idx - 0x6600) % 16, by omega⟩ sub v
  else okC (s.setVal idx sub v)

/-! ## Writes -/

/-- DICTIONARY_WRITE: any entry (13, R359 to R372). -/
def execDictionaryWrite (t : Nat) (index sub : Nat) (r : WReq) (s : State) : Out :=
  .next ((s.tick t).dictWrite index sub r fun s v => s.commitEntry r.acc index sub v)
/-- TICK_PERIOD_WRITE (02, R32, R34). -/
def execTickPeriodWrite (t : Nat) (r : WReq) (s : State) : Out := .next ((s.tick t).dictWrite 0x2010 0 r State.commitPeriod)
/-- OPERATING_POINT_WRITE (13, Table 13.8). -/
def execOperatingPointWrite (t : Nat) (r : WReq) (s : State) : Out := .next ((s.tick t).dictWrite 0x2011 0 r State.commitOp)
/-- PORT_LAYOUT_WRITE (10, R257). -/
def execPortLayoutWrite (t : Nat) (r : WReq) (s : State) : Out := .next ((s.tick t).dictWrite 0x2030 0 r State.commitLayout)
/-- STORE_PARAMETERS (13, Tables 13.5, 13.7). -/
def execStoreParameters (t : Nat) (r : WReq) (s : State) : Out := .next ((s.tick t).dictWrite 0x1010 1 r fun s _ => s.commitStore)
/-- RESTORE_DEFAULTS (13, R378). -/
def execRestoreDefaults (t : Nat) (r : WReq) (s : State) : Out := .next ((s.tick t).dictWrite 0x1011 1 r fun s _ => s.commitRestore)
/-- A ResetRequest whose value must be `want`. -/
def State.resetWrite (s : State) (r : WReq) (want : Nat) : State :=
  s.dictWrite 0x2002 0 r fun s v => if leNat v = want then s.commitReset want else noC s 0x06090030
/-- WARM_RESET (15, Table 15.3). -/
def execWarmReset (t : Nat) (r : WReq) (s : State) : Out := .next ((s.tick t).resetWrite r 1)
/-- SHEPHERD_RESET (15, R439). -/
def execShepherdReset (t : Nat) (r : WReq) (s : State) : Out := .next ((s.tick t).resetWrite r 2)
/-- QUADRANT_RESET (15, R437). -/
def execQuadrantReset (t : Nat) (q : QuadId) (r : WReq) (s : State) : Out := .next ((s.tick t).resetWrite r (0x10 + q.val))
/-- OWNER_KEY_WRITE (13, R366). -/
def execOwnerKeyWrite (t : Nat) (r : WReq) (s : State) : Out := .next ((s.tick t).dictWrite 0x2110 0 r State.commitOwner)
/-- OWNERSHIP_RELEASE: OwnerKey written with zeros (13, R367). -/
def execOwnershipRelease (t : Nat) (r : WReq) (s : State) : Out :=
  .next ((s.tick t).dictWrite 0x2110 0 r fun s v => if allZero v then s.commitOwner v else noC s 0x06090030)
/-- CHANNEL_TABLE_WRITE (10, R263, R266). -/
def execChannelTableWrite (t : Nat) (c sub : Nat) (r : WReq) (s : State) : Out :=
  .next ((s.tick t).dictWrite (0x2200 + c % 256) sub r fun s v => s.commitChan (c % 256) sub v)
/-- LEDGER_RING_PAGES_WRITE (09, R255). -/
def execLedgerRingPagesWrite (t : Nat) (f : FoldId) (r : WReq) (s : State) : Out :=
  .next ((s.tick t).dictWrite (0x300A + 0x20 * f.val) 0 r fun s v => s.commitRing f v)
/-- PLOT_MASK_WRITE: PlotMask or HbmUnitMask (13, R382). -/
def execPlotMaskWrite (t : Nat) (f : FoldId) (sub : Nat) (r : WReq) (s : State) : Out :=
  .next ((s.tick t).dictWrite (0x3001 + 0x20 * f.val) sub r fun s v => s.commitMask f sub v)
/-- OWNER_KEK_WRITE (12, R340). -/
def execOwnerKekWrite (t : Nat) (f : FoldId) (r : WReq) (kek : KekSeal) (s : State) : Out :=
  .next ((s.tick t).dictWrite (0x5830 + f.val) 0 r fun s _ => s.commitKek f (some kek))
/-- INPUT_BINDING_WRITE (13, R386). -/
def execInputBindingWrite (t : Nat) (f : FoldId) (i sub : Nat) (r : WReq) (s : State) : Out :=
  .next ((s.tick t).dictWrite (0x6200 + 0x40 * f.val + i % 64) sub r fun s v => s.commitInput f (i % 64) sub v)
/-- RESULT_BINDING_WRITE (13, R387). -/
def execResultBindingWrite (t : Nat) (f : FoldId) (sub : Nat) (r : WReq) (s : State) : Out :=
  .next ((s.tick t).dictWrite (0x6600 + f.val) sub r fun s v => s.commitResult f sub v)

/-! ## The token (09, Table 9.5; 13, R383) -/

/-- Claims of a Fold's token over a nonce, in the order of Table 9.5; a claim that is absent for the Fold's state is empty. -/
def State.eatClaims (s : State) (f : FoldId) (nonce : Bytes) : List Bytes :=
  let x := s.fold f
  let model := match x.load with
    | some _ => if x.grow.resharded then x.grow.grownMeas else (x.load.map (·.modelMeas)).getD []
    | none => []
  [nonce, le 1 1 ++ digest (Config.publicKey s.sec.devId), [0x5A, 0x1C, 0x09], ascii [0x49, 0x5A, 0x39], le 1 3, le 1 f.val,
   le 2 (s.card * 0x800 + unitFold f), le 1 (stCode x.st), model, (x.load.map (·.bundleDigest)).getD [], s.sec.fwMeas,
   (x.load.map fun l => le 1 (opCode l.op)).getD [], (x.load.map fun l => le 4 l.period).getD [],
   if isActive x.st || x.st == .stopped || x.run.launchAt != 0 then le 8 x.run.launchAt else [], x.keys.hpke, le 1 (b2n x.run.replay),
   (x.led.latest.map fun p => le 8 p.1 ++ p.2).getD [], le 8 s.now]
/-- A Fold's token: claims and ES384 signature by the Fold attestation key (09, R232). -/
def State.eatOf (s : State) (f : FoldId) (nonce : Bytes) : Bytes :=
  let body := Config.message 1 (s.eatClaims f nonce)
  body ++ Config.sign (s.fold f).keys.attest body
/-- EAT_READ: the token over the nonce that this path last wrote; without one, or without a loaded bundle, no data (13, R383). -/
def execEatRead (t : Nat) (a : Access) (f : FoldId) (s : State) : Out :=
  let s := s.tick t
  let idx := 0x300D + 0x20 * f.val
  let nonce := mget [] s.shep.eatNonces (16 * a.path.val + f.val)
  if a.path == 0 && s.barDead a.fn then .next s.unsupported
  else if s.writeService a ≠ 2 || (a.path == 3 && !inPrefix (s.val 0x2050 4 (List.replicate 17 0)) a.source) then
    .next (s.answer a idx 2 0x08000022 0 [])
  else if a.path == 0 && a.fn != 0 && a.fn != vfOf f then .next (s.answer a idx 2 0x06020000 0 [])
  else if nonce.isEmpty || (s.fold f).load.isNone then .next (s.answer a idx 2 0x08000024 0 [])
  else
    let e := s.eatOf f nonce
    let s := { s with shep := { s.shep with eats := mset [] s.shep.eats (16 * a.path.val + f.val) e } }
    .next (s.answer a idx 2 0 0 e)
/-- SEGMENTED_TRANSFER_TIMEOUT: a transfer idle for 1 s is aborted, the entry unchanged (13, R374). -/
def execSegmentedTransferTimeout (t : Nat) (a : Access) (index sub : Nat) (s : State) : Out :=
  let s := s.tick t
  if !s.shep.up || s.shep.restarting then .next s else
    let s := { s with shep := { s.shep with segs := s.shep.segs.filter fun x => !(x.path == a.path.val && x.fn == a.fn.val && x.index == index && x.sub == sub) } }
    .next (s.answer a index sub 0x05040000 0 [])

/-! ## Snapshots and log positions -/

/-- SNAPSHOT_REFRESH: the Root-maintained telemetry is copied into the dictionary, the analogue readings with it (13, R373, Table 13.10). -/
def execSnapshotRefresh (t : Nat) (m : Readings) (s : State) : Out :=
  let s := s.tick t
  if !s.shep.up || s.shep.restarting || !s.clock.running || !s.snapDue then .next s else .next (s.takeReadings m).takeSnapshot
/-- EVENT_LOG_POSITION: events whose stamp the GTC has passed by 1,000,000 counts take their positions, in the order of R44
(13, R384, R385); a new sealed event fires vector 3 of the PF (18; DEDUCED, log entry 48). -/
def execEventLogPosition (t : Nat) (s : State) : Out :=
  let s := s.tick t
  let due := fun (e : Event) => decide (e.stamp + 1000000 ≤ s.now)
  let e := s.events.place (s.events.waiting.filter due)
  let n := s.events.sealedNext
  let s := { s with events := { e with waiting := s.events.waiting.filter fun x => !due x } }
  .next (if n < s.events.sealedNext then s.sendVec 0 3 else s)

end Sys2Proof.Machine
end

