-- ==== Sys2Proof/Machine/Field.lean ====
section
/-! DEFINITION. The field controllers: when they run, and how the CAN controller joins its bus (10, 15, 17). -/

namespace Sys2Proof.Machine

/-- Field controllers run: a bracket is fitted, the Shepherd is up (17, R467). -/
def State.fieldUp (s : State) : Bool := s.shep.up && !s.shep.restarting && !s.shep.fbPresHigh
/-- The EtherCAT slave's PHYs have power: only on main power or PoE (17, R466). -/
def State.ecatUp (s : State) : Bool := s.fieldUp && s.shep.source != .aux
/-- 0x2060:01 CanNodeId. -/
def State.canNode (s : State) : Nat := s.num 0x2060 1 0xFF
/-- The boot-up message goes out only with a node ID from 1 to 127, and the node is Pre-operational then (15, R419; PRESUMED, log entry 31). -/
def State.canBoot (s : State) : State :=
  if 1 ≤ s.canNode ∧ s.canNode ≤ 127 then ({ s with shep := { s.shep with nmt := 0x7F } }).send (.canNmt s.canNode)
  else { s with shep := { s.shep with nmt := 0 } }

end Sys2Proof.Machine
end

