-- ==== Sys2Proof/Machine/Izr.lean ====
section
/-! DEFINITION. IZR messages: header bytes, nonces, sealing and opening, the discard causes of Table 10.6 (10). -/

namespace Sys2Proof.Machine

/-- Header bytes, most-significant first (10, Table 10.2). -/
def izrHdrBytes (h : IzrHdr) : Bytes :=
  be 2 h.magic ++ [BitVec.ofNat 8 (16 * h.version + h.typ), BitVec.ofNat 8 (128 * b2n h.epoch + h.fold)] ++ be 2 h.channel ++ be 2 h.count ++
    be 8 h.seq ++ be 4 h.length ++ be 4 0
/-- GCM nonce: the salt of the slot, then Sequence (10, R262). -/
def izrNonce (salt : Bytes) (sq : Nat) : Bytes := padTo 4 salt ++ be 8 sq
/-- AES-256-GCM: a box opens exactly under its own key, nonce and additional data; an empty key opens nothing (DESIGN CHOICE, log entry 7). -/
def openBox (key nonce aad : Bytes) (b : GcmBox) : Option Bytes :=
  if !key.isEmpty && b.key == key && b.nonce == nonce && b.aad == aad then some b.plain else none
/-- Key slot of an epoch bit. -/
def slotOf (e : Bool) : Fin 2 := if e then 1 else 0
/-- Bytes of a whole message: header, payload, tag. -/
def rxSize (rx : IzrRx) : Nat := 24 + rx.hdr.length + 16
/-- 0x2031:00 IzrUdpPort. -/
def State.izrUdp (s : State) : Nat := s.num 0x2031 0 47290

/-- Types that a channel's Role takes: DATA on Roles 0 and 1, KEY_OFFER on all, NOTICE on Role 2 (10, Channels; DEDUCED, log entry 23). -/
def roleTakes (role typ : Nat) : Bool := typ == 2 || (typ == 0 && decide (role ≤ 1)) || (typ == 4 && role == 2)
/-- Positions of a resource in a slot plan. -/
def slotCount (l : Loaded) (res : Nat) : Nat := (l.slots.filter fun e => e.resource == res).length
/-- Byte budget of a channel in a frame; 0 stands for what its AES and binning positions carry (10, R267). -/
def State.byteBudget (s : State) (c : Nat) (f : FoldId) : Nat :=
  let b := (s.chanCfg c).byteBudget
  if b ≠ 0 then b else match (s.fold f).load with
    | some l => Config.wheelBytes (slotCount l 2) (slotCount l 1) l.period
    | none => Config.wheelBytes 0 0 1
/-- Bytes accepted on a channel in the open frame. -/
def State.chanBytes (s : State) (c : Nat) (f : FoldId) : Nat := mget 0 (s.fold f).adm.bytes (65536 * (s.fold f).frameAt s.now + c)

/-- Discard cause before authentication: 1 not IZR, 2 reserved, 3 channel or Fold, 4 source, 9 type, 5 length, 8 budget
(10, Table 10.6; order: DEDUCED, log entry 23). -/
def State.izrCause (s : State) (rx : IzrRx) : Option Nat :=
  let h := rx.hdr
  if rx.fragment || !rx.wellFormed || h.magic != 0x495A || h.version != 1 then some 1
  else if h.rsvd != 0 || 255 < h.channel then some 2
  else match s.chanFold h.channel with
    | none => some 3
    | some f =>
      if h.fold != f.val then some 3
      else if !inPrefix (s.chanCfg h.channel).allowed rx.source then some 4
      else if !roleTakes (s.chanCfg h.channel).role h.typ then some 9
      else if rx.room < rxSize rx then some 5
      else if s.byteBudget h.channel f < s.chanBytes h.channel f + rxSize rx then some 8
      else none
/-- Plaintext of a message under its slot's ingress key: cause 6 where the tag fails, 7 where Sequence is not above the last
accepted (10, R262, R263). -/
def State.izrOpen (s : State) (rx : IzrRx) : Except Nat Bytes :=
  let c := s.chan rx.hdr.channel
  let k := slotOf rx.hdr.epoch
  match openBox (vget c.inKey k) (izrNonce (vget c.salt k) rx.hdr.seq) (izrHdrBytes rx.hdr) rx.box with
  | none => .error 6
  | some b => if rx.hdr.seq ≤ c.inSeq then .error 7 else .ok b
/-- IZR_DISCARD at most once per port, cause and channel per 1,000,000 counts: the window opens at the first discard, later
ones are counted and carried by the next event (14, R416; DEDUCED, log entry 23). -/
def State.discardIzr (s : State) (p : PortId) (cause chan : Nat) : State :=
  let s := s.modPort p fun x => { x with discard := x.discard + 1 }
  let same := fun (w : DiscardWin) => w.port == p.val && w.cause == cause && w.channel == chan
  let others := s.events.discards.filter fun w => !same w
  match s.events.discards.find? same with
  | some w =>
    if s.now < w.opened + 1000000 then { s with events := { s.events with discards := { w with count := w.count + 1 } :: others } }
    else ({ s with events := { s.events with discards := ⟨p.val, cause, chan, s.now, 0⟩ :: others } }).emit (unitPort p) 0x0202
      (le 1 cause ++ le 2 chan ++ le 4 (w.count + 1))
  | none => ({ s with events := { s.events with discards := ⟨p.val, cause, chan, s.now, 0⟩ :: others } }).emit (unitPort p) 0x0202
      (le 1 cause ++ le 2 chan ++ le 4 1)
/-- A message accepted: its bytes count against the budget, its Sequence is the channel's last (10, R263, R267). -/
def State.izrAccept (s : State) (rx : IzrRx) (f : FoldId) : State :=
  let s := s.modFold f fun x =>
    let k := 65536 * x.frameAt s.now + rx.hdr.channel
    { x with adm := { x.adm with bytes := mset 0 x.adm.bytes k (mget 0 x.adm.bytes k + rxSize rx) } }
  s.setChan rx.hdr.channel { s.chan rx.hdr.channel with inSeq := rx.hdr.seq }
/-- A frame on a port: counted, and discarded by the MAC where its FCS is bad (10, Table 10.6); a datagram on another UDP
port is no IZR traffic. -/
def State.rxFrame (s : State) (rx : IzrRx) : State :=
  if rx.fcsOk then s.modPort rx.port fun x => { x with rx := if rx.msgIndex = 0 then x.rx + 1 else x.rx }
  else s.modPort rx.port fun x => { x with fcs := x.fcs + 1 }
/-- Send an IZR message of this card on a channel under the egress key of a slot, numbered 1, 2, 3 (10, R263, R275). -/
def State.sendIzr (s : State) (c : Nat) (typ : Nat) (e : Bool) (key salt : Bytes) (count : Nat) (payload : Bytes) (frag : Bool) : State :=
  let ch := s.chan c
  let cf := s.chanCfg c
  let n := ch.outSeq + 1
  let h : IzrHdr := ⟨0x495A, 1, typ, e, cf.fold, c, count, n, payload.length, 0⟩
  (s.setChan c { ch with outSeq := n }).send
    (.izr cf.egressPort c typ e count n cf.egressAddr cf.egressUdp ⟨key, izrNonce salt n, izrHdrBytes h, payload⟩ frag)

end Sys2Proof.Machine
end

