-- ==== Sys2Proof/Machine/Operands.lean ====
section
/-! DEFINITION. Every operand form of the tile operation set: the operation word of Table 19.10, the operations of Table 19.11,
decoding and encoding of the word, cycles, address operands and the registers an operation reads and writes (05, 19). -/

namespace Sys2Proof.Machine

/-- Tile operations with their operands (19, Table 19.11). -/
inductive TileOp
  | ldwin (window addr width : Nat)
  | ldnode (latch addr : Nat)
  | ldmask (latch addr len : Nat)
  | pass (window latch : Nat)
  | ldleaf (addr len : Nat)
  | resolve (lane : Nat)
  | ldact (addr : Nat)
  | linres (lane : Nat)
  | lclr (lane : Nat)
  | ladd (lane src : Nat)
  | lload (lane addr : Nat)
  | laddm (lane addr : Nat)
  | lstore (lane addr : Nat)
  | stgt (units target : Nat)
  | clear (units : Nat)
  | update (units addr quad : Nat)
  | side (units addr : Nat)
  | merge (units addr : Nat)
  | sub (units addr : Nat)
  | drain (units addr : Nat)
  | loss (loss groups : Nat)
  | maxr (groups : Nat)
  | quant (tensor groups : Nat)
  | gen (stream groups : Nat)
  | scan (feature node : Nat)
  | best (addr other : Nat)
  | part (addr quad : Nat)
  | leafv (leaf : Nat)
  | margin (addr cls : Nat)
  | irange (feature node : Nat)
  | sbin (addr entries : Nat)
  | psort (addr : Nat)
  | pmerge (addr run : Nat)
  | pcut (addr : Nat)
  | copy (src dst len : Nat)
  | zero (addr len : Nat)
  | send (tile src dst len : Nat)
  | strm (desc : Nat)
  | loop (count body stride : Nat)
  | waitc (cycle : Nat)
  | setj (word : Nat)
  | fend
  deriving DecidableEq, Repr

/-- An operation word: the LAST mark and the operation (19, Table 19.10). -/
structure OpWord where
  last : Bool
  op : TileOp
  deriving DecidableEq, Repr

/-! ## Encoding (19, Table 19.10) -/

/-- The operation of an opcode with operands a, b, c, d; none where Table 19.11 lists no such opcode. -/
def opOf (o a b c d : Nat) : Option TileOp := match o with
  | 0x10 => some (.ldwin a b c)
  | 0x11 => some (.ldnode a b)
  | 0x12 => some (.ldmask a b c)
  | 0x13 => some (.pass a b)
  | 0x14 => some (.ldleaf b c)
  | 0x15 => some (.resolve a)
  | 0x16 => some (.ldact b)
  | 0x17 => some (.linres a)
  | 0x20 => some (.lclr a)
  | 0x21 => some (.ladd a b)
  | 0x22 => some (.lload a b)
  | 0x23 => some (.laddm a b)
  | 0x24 => some (.lstore a b)
  | 0x30 => some (.stgt a b)
  | 0x31 => some (.clear a)
  | 0x32 => some (.update a b c)
  | 0x33 => some (.side a b)
  | 0x34 => some (.merge a b)
  | 0x35 => some (.sub a b)
  | 0x36 => some (.drain a b)
  | 0x40 => some (.loss a b)
  | 0x41 => some (.maxr b)
  | 0x42 => some (.quant a b)
  | 0x43 => some (.gen a b)
  | 0x44 => some (.scan a b)
  | 0x45 => some (.best b c)
  | 0x46 => some (.part b c)
  | 0x47 => some (.leafv b)
  | 0x48 => some (.margin b c)
  | 0x49 => some (.irange a b)
  | 0x4A => some (.sbin b c)
  | 0x4B => some (.psort b)
  | 0x4C => some (.pmerge b c)
  | 0x4D => some (.pcut b)
  | 0x50 => some (.copy b c d)
  | 0x51 => some (.zero b d)
  | 0x52 => some (.send a b c d)
  | 0x53 => some (.strm b)
  | 0x60 => some (.loop a b c)
  | 0x61 => some (.waitc b)
  | 0x62 => some (.setj a)
  | 0x63 => some .fend
  | _ => none

/-- The operation word of 128 bits; none for an unlisted opcode or a set reserved bit (19, R519). -/
def decodeOp (w : BitVec 128) : Option OpWord :=
  let n := w.toNat
  if n / 2 ^ 9 % 2 ^ 7 ≠ 0 then none
  else (opOf (n % 2 ^ 8) (n / 2 ^ 16 % 2 ^ 16) (n / 2 ^ 32 % 2 ^ 32) (n / 2 ^ 64 % 2 ^ 32) (n / 2 ^ 96)).map (OpWord.mk (n / 2 ^ 8 % 2 == 1))

/-- Opcode and operands a, b, c, d of an operation; an operand it does not have is zero. -/
def TileOp.fields : TileOp → Nat × Nat × Nat × Nat × Nat
  | .ldwin a b c => (0x10, a, b, c, 0)
  | .ldnode a b => (0x11, a, b, 0, 0)
  | .ldmask a b c => (0x12, a, b, c, 0)
  | .pass a b => (0x13, a, b, 0, 0)
  | .ldleaf b c => (0x14, 0, b, c, 0)
  | .resolve a => (0x15, a, 0, 0, 0)
  | .ldact b => (0x16, 0, b, 0, 0)
  | .linres a => (0x17, a, 0, 0, 0)
  | .lclr a => (0x20, a, 0, 0, 0)
  | .ladd a b => (0x21, a, b, 0, 0)
  | .lload a b => (0x22, a, b, 0, 0)
  | .laddm a b => (0x23, a, b, 0, 0)
  | .lstore a b => (0x24, a, b, 0, 0)
  | .stgt a b => (0x30, a, b, 0, 0)
  | .clear a => (0x31, a, 0, 0, 0)
  | .update a b c => (0x32, a, b, c, 0)
  | .side a b => (0x33, a, b, 0, 0)
  | .merge a b => (0x34, a, b, 0, 0)
  | .sub a b => (0x35, a, b, 0, 0)
  | .drain a b => (0x36, a, b, 0, 0)
  | .loss a b => (0x40, a, b, 0, 0)
  | .maxr b => (0x41, 0, b, 0, 0)
  | .quant a b => (0x42, a, b, 0, 0)
  | .gen a b => (0x43, a, b, 0, 0)
  | .scan a b => (0x44, a, b, 0, 0)
  | .best b c => (0x45, 0, b, c, 0)
  | .part b c => (0x46, 0, b, c, 0)
  | .leafv b => (0x47, 0, b, 0, 0)
  | .margin b c => (0x48, 0, b, c, 0)
  | .irange a b => (0x49, a, b, 0, 0)
  | .sbin b c => (0x4A, 0, b, c, 0)
  | .psort b => (0x4B, 0, b, 0, 0)
  | .pmerge b c => (0x4C, 0, b, c, 0)
  | .pcut b => (0x4D, 0, b, 0, 0)
  | .copy b c d => (0x50, 0, b, c, d)
  | .zero b d => (0x51, 0, b, 0, d)
  | .send a b c d => (0x52, a, b, c, d)
  | .strm b => (0x53, 0, b, 0, 0)
  | .loop a b c => (0x60, a, b, c, 0)
  | .waitc b => (0x61, 0, b, 0, 0)
  | .setj a => (0x62, a, 0, 0, 0)
  | .fend => (0x63, 0, 0, 0, 0)

/-- Every operand fits its field of Table 19.10. -/
def TileOp.wf (o : TileOp) : Prop :=
  o.fields.2.1 < 2 ^ 16 ∧ o.fields.2.2.1 < 2 ^ 32 ∧ o.fields.2.2.2.1 < 2 ^ 32 ∧ o.fields.2.2.2.2 < 2 ^ 32

/-- The 128 bits of an operation word (19, Table 19.10). -/
def encodeOp (w : OpWord) : BitVec 128 :=
  let (o, a, b, c, d) := w.op.fields
  BitVec.ofNat 128 (o + b2n w.last * 2 ^ 8 + a * 2 ^ 16 + b * 2 ^ 32 + c * 2 ^ 64 + d * 2 ^ 96)

/-! ## Loops (19, Table 19.11) -/

/-- Add `k` to every address operand (19, LOOP). -/
def TileOp.shift (k : Nat) (o : TileOp) : TileOp :=
  let at_ := fun (a : Nat) => (a + k) % 2 ^ 32
  match o with
  | .ldwin w b c => .ldwin w (at_ b) c
  | .ldnode l b => .ldnode l (at_ b)
  | .ldmask l b c => .ldmask l (at_ b) c
  | .ldleaf b c => .ldleaf (at_ b) c
  | .ldact b => .ldact (at_ b)
  | .lload l b => .lload l (at_ b)
  | .laddm l b => .laddm l (at_ b)
  | .lstore l b => .lstore l (at_ b)
  | .update u b q => .update u (at_ b) q
  | .side u b => .side u (at_ b)
  | .merge u b => .merge u (at_ b)
  | .sub u b => .sub u (at_ b)
  | .drain u b => .drain u (at_ b)
  | .best b c => .best (at_ b) (at_ c)
  | .part b q => .part (at_ b) q
  | .margin b c => .margin (at_ b) c
  | .sbin b c => .sbin (at_ b) c
  | .psort b => .psort (at_ b)
  | .pmerge b n => .pmerge (at_ b) n
  | .pcut b => .pcut (at_ b)
  | .copy b c d => .copy (at_ b) (at_ c) d
  | .zero b d => .zero (at_ b) d
  | .send t b c d => .send t (at_ b) (at_ c) d
  | o => o

/-! ## Cycles (19, Table 19.11; 05, Table 5.5) -/

/-- What the cycles of LOSS depend on: rows of a ranking slot and the cycles of a custom loss per 64 rows. -/
structure LossCost where
  outputs : Nat
  slot : Nat
  custom : Nat
  deriving DecidableEq, Repr

/-- Cycles of LOSS over groups of 64 rows (05, Table 5.5); a ranking slot costs 2 × ceil(G(G − 1) / 128). -/
def lossCycles (k : LossCost) (loss groups : Nat) : Nat := match loss with
  | 2 => 2 * groups
  | 3 => (2 * k.outputs + 1) * groups
  | 5 => 2 * groups
  | 8 => 2 * ceilDiv (k.slot * (k.slot - 1)) 128 * ceilDiv (64 * groups) k.slot
  | 0x0100 => k.custom * groups
  | _ => groups

/-- Cycles of an operation (19, Table 19.11); WAITC retires at its cycle. -/
def TileOp.cycles (k : LossCost) : TileOp → Nat
  | .ldwin _ _ w => ceilDiv w 2
  | .ldnode _ _ => 2
  | .ldmask _ _ c => ceilDiv c 512
  | .ldleaf _ c => ceilDiv c 512
  | .ldact _ => 32
  | .lload _ _ => 3
  | .laddm _ _ => 3
  | .lstore _ _ => 3
  | .update _ _ _ => 4096
  | .side _ _ => 64
  | .merge _ _ => 256
  | .sub _ _ => 256
  | .drain _ _ => 256
  | .loss l g => lossCycles k l g
  | .maxr g => g
  | .quant _ g => g
  | .gen _ g => g
  | .scan _ _ => 512
  | .best _ _ => 2
  | .part _ _ => 64
  | .leafv _ => 96
  | .margin _ _ => 64
  | .irange _ _ => 256
  | .sbin _ e => 4 * ceilDiv e 8
  | .psort _ => 2048
  | .pmerge _ n => n
  | .pcut _ => 256
  | .copy _ _ d => ceilDiv d 512
  | .zero _ d => ceilDiv d 512
  | .send _ _ _ d => ceilDiv d 512
  | _ => 1

/-- The unit an operation runs on: 0 comparator array, 1 leaf-mask network, 2 accumulators, 3 multipliers, 4 Sheaf, 5 gradient
unit, 6 tile-store transfers, 7 barrel control (05, Table 5.1). -/
def TileOp.unit : TileOp → Fin 8
  | .pass _ _ => 0
  | .resolve _ => 1
  | .lclr _ | .ladd _ _ | .lload _ _ | .laddm _ _ | .lstore _ _ => 2
  | .linres _ => 3
  | .stgt _ _ | .clear _ | .update _ _ _ | .side _ _ | .merge _ _ | .sub _ _ | .drain _ _ => 4
  | .loss _ _ | .maxr _ | .quant _ _ | .gen _ _ | .scan _ _ | .best _ _ | .part _ _ | .leafv _ | .margin _ _ | .irange _ _
  | .sbin _ _ | .psort _ | .pmerge _ _ | .pcut _ => 5
  | .ldwin _ _ _ | .ldnode _ _ | .ldmask _ _ _ | .ldleaf _ _ | .ldact _ | .copy _ _ _ | .zero _ _ | .send _ _ _ _ => 6
  | .strm _ | .loop _ _ _ | .waitc _ | .setj _ | .fend => 7

/-- The operation moves 512 bytes in every cycle it runs, so that a grazing cycle lengthens it (05, Tile store); the others' streams
are placed around the grazing cycles (05, Worked example). -/
def TileOp.wide : TileOp → Bool
  | .lload _ _ | .laddm _ _ | .lstore _ _ => true
  | o => o.unit == 6

/-! ## What an operation reads and writes -/

/-- Units of a unit mask, ascending. -/
def unitsOf (m : Nat) : List Nat := (List.range 4).filter fun u => bit m u
/-- Places of one block in tile store: codes, gradient block, hessian block, node ids (07, Table 7.4). -/
structure BlockAt where
  codes : Nat
  grad : Nat
  hess : Nat
  nodes : Nat
  deriving DecidableEq, Repr
/-- Bytes of a gradient block: 4,672, or 2,624 with 4-bit codes (04, Tables 4.5 and 4.6). -/
def gradLen (g4 : Bool) : Nat := if g4 then 2624 else 4672
/-- The block at an address: 16,384 bytes for the codes, then the gradient block, the hessian block and the node ids, each from a 2 KiB
slot on (07, Table 7.4; codes of less than 8 bits keep these places, DESIGN CHOICE, log entry 11). -/
def blockFrom (g4 : Bool) (a : Nat) : BlockAt :=
  let h := a + 16384 + roundUp (gradLen g4) 2048
  ⟨a, a + 16384, h, h + 6144⟩
/-- The block whose gradient side list starts at an address (04, Table 4.6). -/
def blockOfSide (g4 : Bool) (a : Nat) : BlockAt := blockFrom g4 (a - (16384 + gradLen g4 - 512))

/-- Tile-store ranges (address, length) that an operation reads at its address operands; `g4` marks 4-bit gradient codes. -/
def TileOp.readsAt (g4 : Bool) : TileOp → List (Nat × Nat)
  | .ldwin _ b w => [(b, 256 * w)]
  | .ldnode _ b => [(b, 1024)]
  | .ldmask _ b c => [(b, c)]
  | .ldleaf b c => [(b, c)]
  | .ldact b => [(b, 16384)]
  | .lload _ b => [(b, 1536)]
  | .laddm _ b => [(b, 1536)]
  | .update _ b _ => let k := blockFrom g4 b; [(k.codes, 16384), (k.grad, gradLen g4 - 512), (k.hess, 4160), (k.nodes, 8192)]
  | .side _ b => let k := blockOfSide g4 b; [(k.codes, 16384), (k.grad, 64), (b, 512), (k.hess, 64), (k.hess + 4160, 512), (k.nodes, 8192)]
  | .merge u b => [(b, 3072 * (unitsOf u).length)]
  | .sub u b => [(b, 3072 * (unitsOf u).length)]
  | .best b c => [(b, 64), (c, 64)]
  | .part b _ => let k := blockFrom g4 b; [(k.codes, 16384), (k.grad, 64), (k.nodes, 8192)]
  | .margin b _ => let k := blockFrom g4 b; [(k.grad, 64), (k.nodes, 8192)]
  | .sbin b _ => [(b, 1536)]
  | .psort b => [(b, 32768)]
  | .pmerge b n => [(b, 16 * n)]
  | .pcut b => [(b, 8)]
  | .copy b _ d => [(b, d)]
  | .send _ b _ d => [(b, d)]
  | _ => []

/-- Tile-store ranges that an operation reads where its feed says: `fa`, `fo` are the feed's address and output (DESIGN CHOICE, log
entry 11). -/
def TileOp.readsFed (fa fo : Nat) : TileOp → List (Nat × Nat)
  | .scan _ _ => [(fa, 3072)]
  | .irange _ _ => [(fa, 3072)]
  | .sbin _ e => [(fa, 8 * e + ceilDiv e 8)]
  | .pcut b => [(b, 8 * fo)]
  | _ => []

/-- Tile-store ranges that an operation reads. -/
def TileOp.reads (g4 : Bool) (fa fo : Nat) (o : TileOp) : List (Nat × Nat) := o.readsAt g4 ++ o.readsFed fa fo

/-- Tile-store ranges that an operation writes in its own tile at its address operands. -/
def TileOp.writesAt (g4 : Bool) : TileOp → List (Nat × Nat)
  | .lstore _ b => [(b, 1536)]
  | .drain u b => [(b, 3072 * (unitsOf u).length)]
  | .best b _ => [(b, 64)]
  | .part b _ => [((blockFrom g4 b).nodes, 8192)]
  | .psort b => [(b, 32768)]
  | .pmerge b n => [(b, 16 * n)]
  | .copy _ c d => [(c, d)]
  | .zero b d => [(b, d)]
  | _ => []

/-- Tile-store ranges that an operation writes in its own tile where its feed says. -/
def TileOp.writesFed (g4 : Bool) (fa fo rows : Nat) : TileOp → List (Nat × Nat)
  | .quant t _ => [(fa, gradLen (t % 2 = 0 && g4))]
  | .gen s _ => if s = 1 then [(fa, 2 * rows)] else []
  | .sbin _ _ => [(fo, 256)]
  | _ => []

/-- Tile-store ranges that an operation writes in its own tile. -/
def TileOp.writes (g4 : Bool) (fa fo rows : Nat) (o : TileOp) : List (Nat × Nat) := o.writesAt g4 ++ o.writesFed g4 fa fo rows

/-- What SEND writes in the tile it names. -/
def TileOp.sends : TileOp → List (Nat × Nat)
  | .send _ _ c d => [(c, d)]
  | _ => []

/-- The address operand must stand on a 512-byte boundary: windows, planes and leaf tables (05, R128). -/
def TileOp.alignedAt : TileOp → Option Nat
  | .ldwin _ b _ => some b
  | .ldnode _ b => some b
  | .ldmask _ b _ => some b
  | .ldleaf b _ => some b
  | .ldact b => some b
  | _ => none

/-- The lengths that Table 19.11 limits. -/
def TileOp.lengthOk : TileOp → Bool
  | .ldwin _ _ w => decide (w ≤ 128)
  | .ldmask _ _ c => decide (c ≤ 8192)
  | .ldleaf _ c => decide (c ≤ 6144)
  | .sbin _ e => decide (e ≤ 255)
  | _ => true

/-! ## Banks (05, R126, R129) -/

/-- Bank of a tile-store address: A[8:3]. -/
def bankOf (a : Nat) : Nat := a / 8 % 64
/-- Banks that a byte run touches: the first, and their number. -/
def banksOf (r : Nat × Nat) : Nat × Nat := if r.2 = 0 then (0, 0) else (bankOf r.1, (r.1 + r.2 - 1) / 8 - r.1 / 8 + 1)
/-- Two byte runs touch one bank: the first bank of one lies among the banks of the other, counted around the 64. -/
def bankMeets (a b : Nat × Nat) : Bool :=
  let (i, n) := banksOf a
  let (j, m) := banksOf b
  decide (0 < n ∧ 0 < m) && (decide ((i + 64 - j) % 64 < m) || decide ((j + 64 - i) % 64 < n))
/-- The part of a byte range that access `i` of `n` moves: an operation moves a range evenly over its cycles (DESIGN CHOICE, log
entry 58). -/
def partOf (r : Nat × Nat) (n i : Nat) : Nat × Nat := (r.1 + i * r.2 / n, (i + 1) * r.2 / n - i * r.2 / n)

/-- Operand registers that an operation reads, by the keys of `Tile.taint`. -/
def TileOp.regsIn : TileOp → List Nat
  | .pass w l => [w % 2, 2, 4 + l % 2, 6 + l % 2]
  | .resolve a => [2, 8, 16 + a % 16]
  | .linres a => [2, 3, 8, 16 + a % 16]
  | .ladd a b => [16 + a % 16, 16 + b % 16]
  | .laddm a _ => [16 + a % 16]
  | .lstore a _ => [16 + a % 16]
  | .update u _ _ | .side u _ | .merge u _ | .sub u _ | .drain u _ => (unitsOf u).map (9 + ·)
  | .maxr _ | .quant _ _ => [13]
  | _ => []

/-- Operand registers that an operation writes. -/
def TileOp.regsOut : TileOp → List Nat
  | .ldwin w _ _ => [w % 2]
  | .ldnode l _ => [4 + l % 2]
  | .ldmask l _ _ => [6 + l % 2]
  | .pass _ _ => [2]
  | .ldleaf _ _ => [8]
  | .resolve a => [2, 16 + a % 16]
  | .ldact _ => [3]
  | .linres a => [2, 16 + a % 16]
  | .lclr a | .ladd a _ | .lload a _ | .laddm a _ => [16 + a % 16]
  | .clear u | .update u _ _ | .side u _ | .merge u _ | .sub u _ => (unitsOf u).map (9 + ·)
  | .loss _ _ | .gen _ _ | .scan _ _ | .irange _ _ | .sbin _ _ | .pcut _ => [13]
  | _ => []

/-- Registers that must hold their result before the operation issues. A register that it only adds to or ANDs into is no operand of
it: PASS runs in every cycle (01, R25; 05, R135; DEDUCED, log entry 57). -/
def TileOp.waitsOn : TileOp → List Nat
  | .pass w l => [w % 2, 4 + l % 2, 6 + l % 2]
  | .resolve _ => [2, 8]
  | .linres _ => [2, 3, 8]
  | .ladd _ b => [16 + b % 16]
  | .lstore a _ => [16 + a % 16]
  | .drain u _ => (unitsOf u).map (9 + ·)
  | .maxr _ | .quant _ _ => [13]
  | _ => []

/-- Registers whose results are under way until the operation retires: LINRES gives the bank back to the next LINRES at once, one
linear segment a cycle (05, R117; log entry 57). -/
def TileOp.pends : TileOp → List Nat
  | .linres a => [16 + a % 16]
  | o => o.regsOut

/-- Operations whose result takes nothing from the registers they write. -/
def TileOp.resets : TileOp → Bool
  | .ldwin _ _ _ | .ldnode _ _ | .ldmask _ _ _ | .ldleaf _ _ | .ldact _ | .lclr _ | .lload _ _ | .clear _ | .loss _ _ => true
  | _ => false

end Sys2Proof.Machine
end

