-- ==== Sys2Proof/Machine/Bundle.lean ====
section
/-! DEFINITION. Bundles: section decoders, digests, and the load checks of Table 19.12 in order (19). -/

namespace Sys2Proof.Machine

/-! ## Decoders -/

/-- Feature entry (19, Table 19.4). -/
def decodeFeature (b : Bytes) : Feature :=
  ⟨fld b 0 2, fld b 2 1, fld b 3 1, fld b 4 1, bit (fld b 5 1) 0, bit (fld b 5 1) 1, if bit (fld b 5 1) 2 then some (fld b 6 1) else none⟩
/-- Feature entries of ResultOptions. -/
def decodeFeatures (r : Bytes) : List Feature := (List.range (fld r 0 2)).map fun i => decodeFeature (slice r (64 + 8 * i) 8)
/-- A feature entry is legal: source type, declared scale, width, reserved bits (19, Table 19.4; R11). -/
def featureOk (b : Bytes) : Bool :=
  let ft := decodeFeature b
  srcWidth ft.typ != 0 && (if ft.typ = 0x31 then decide (ft.scale ≤ 18) else ft.scale == 0) && [4, 8, 12, 16].contains ft.width &&
    fld b 5 1 / 8 == 0 && fld b 7 1 == 0 && (match ft.external with | some i => decide (i ≤ 63) | none => fld b 6 1 == 0) &&
    !(ft.categorical && ft.linear)
/-- Job descriptor (19, Table 19.5) of the ResultOptions with digest `d`, which names the label and row-weight entries; an ISOLATION job
names no label (07, Table 7.1). -/
def decodeJob (d b : Bytes) : Job :=
  let k := fld b 4 2
  ⟨fld b 0 1, fld b 1 1 == 1, fld b 2 1, fld b 3 1, k, fld b 6 2, fld b 8 4, fldS b 12 4, fldS b 16 8, fldS b 24 8, fldS b 32 8,
   fldS b 40 4, fld b 44 8, fld b 52 2, fld b 54 2, fld b 56 8, fld b 64 8, fld b 72 8, fldS b 80 8,
   (List.range k).map fun i => fldS b (96 + 8 * i) 8, if fld b 0 1 = 2 then none else Config.labelEntry d, Config.weightEntry d⟩
/-- Every field of the job descriptor is in the range of Table 7.1 (19, R506); `n` is the number of feature entries. -/
def jobOk (n : Nat) (d b : Bytes) : Bool :=
  let j := decodeJob d b
  (j.kind == 2 || j.label.any fun i => decide (i < n)) && j.weight.all (fun i => decide (i < n)) &&
  decide (j.kind ≤ 2) && decide (fld b 1 1 ≤ 1) && (j.gradWidth == 8 || j.gradWidth == 4) && decide (1 ≤ j.depth ∧ j.depth ≤ 14) &&
  decide (1 ≤ j.outputs ∧ j.outputs ≤ 256) && (decide (1 ≤ j.loss ∧ j.loss ≤ 8) || j.loss == 0x100 || j.kind == 2) &&
  decide (1 ≤ j.rounds ∧ j.rounds ≤ 65536) && decide (0 ≤ j.lambda ∧ j.lambda < 2 ^ 39) && decide (0 ≤ j.gamma ∧ j.gamma < 2 ^ 39) &&
  decide (0 ≤ j.minH ∧ j.minH < 2 ^ 39) && decide (0 < j.leafClamp) && decide (j.rowRate ≤ 2 ^ 32) && decide (j.sampleRate ≤ 2 ^ 32) &&
  (j.base.all fun x => decide (-(2 ^ 47) ≤ x ∧ x < 2 ^ 47)) && fld b 88 8 == 0 &&
  (!([5, 6, 7].contains j.loss) || decide (-(2 ^ 39) ≤ j.lossParam ∧ j.lossParam < 2 ^ 39)) &&
  (j.loss != 8 || (j.outputs == 1 && decide (2 ≤ j.lossParam ∧ j.lossParam ≤ 256)))

/-- Bytes of one cut-table record (19, ModelImage). -/
def cutRecLen (b : Bytes) : Nat := roundUp (16 + fld b 4 2 * thrWidth (fld b 2 1) (fld b 6 1) + ceilDiv (fld b 4 2) 8) 8
/-- One cut-table record. -/
def decodeCut (b : Bytes) : CutTable :=
  let n := fld b 4 2
  let typ := fld b 2 1
  let use := fld b 6 1
  let w := thrWidth typ use
  let km := fld b (16 + n * w) (ceilDiv n 8)
  ⟨fld b 0 2, typ, fld b 3 1, use, (List.range n).map fun i => (fld b (16 + i * w) w, bit km i)⟩
/-- The cut tables of the region, one after another. -/
def decodeCuts : Nat → Bytes → List CutTable
  | 0, _ => []
  | k + 1, b => if b.length < 16 then [] else decodeCut b :: decodeCuts k (b.drop (cutRecLen b))
/-- Reserved bytes of the cut-table records are zero. -/
def cutsRsvd : Nat → Bytes → Bool
  | 0, _ => true
  | k + 1, b => decide (b.length < 16) || (allZero (slice b 7 9) && cutsRsvd k (b.drop (cutRecLen b)))
/-- What follows the passes of a pass group: node plane, mask length, 14 reserved bytes, mask plane padded to 16 bytes (19, ModelImage). -/
def passesEnd : Nat → Bytes → Option Bytes
  | 0, b => some b
  | k + 1, b =>
    let n := 1040 + roundUp (fld b 1024 2) 16
    if b.length < n || !allZero (slice b 1026 14) then none else passesEnd k (b.drop n)
/-- A group image is pass-group images one after another, their reserved bits zero (19, ModelImage). -/
def groupOk : Nat → Bytes → Bool
  | 0, b => b.isEmpty
  | k + 1, b => b.isEmpty || (decide (48 ≤ b.length) && decide (fld b 2 2 ≤ 1) && allZero (slice b 8 8) &&
      match passesEnd (fld b 0 2) (b.drop 48) with
      | some r => decide (fld b 4 4 ≤ r.length) && groupOk k (r.drop (fld b 4 4))
      | none => false)
/-- The group directory: 16 bytes a group, reserved bytes zero, every group inside the image on a 2 KiB boundary (19, ModelImage; R11). -/
def groupsOk (image : Bytes) (h : ImageHdr) : Bool :=
  h.dirLen == 16 * h.groups && (List.range h.groups).all fun i =>
    let e := slice image (h.dirOff + 16 * i) 16
    let (off, len) := (fld e 0 8, fld e 8 4)
    allZero (slice e 13 3) && off % 2048 == 0 && decide (off + len ≤ image.length) && groupOk (len / 48 + 1) (slice image off len)
/-- Sorted by threshold, GE before GT; equal entries only in an activation table (04, R75, R103). -/
def cutsSorted (c : CutTable) : Bool :=
  let l := c.cuts.map fun e => (thrVal c.typ c.use e.1, e.2)
  (l.zip (l.drop 1)).all fun p =>
    p.1.1.lt p.2.1 || (!p.2.1.lt p.1.1 && ((!p.1.2 && p.2.2) || (c.use == 1 && p.1.2 == p.2.2)))
/-- A cut table is accepted: known type and use, sorted, no NaN, within its width (19, R505; 04, Table 4.3). -/
def cutOk (fs : List Feature) (c : CutTable) : Bool :=
  let lim := if c.use = 0 then mostCuts (fs.getD c.feature ⟨0, 0, 0, 16, false, false, none⟩).width else 255
  decide (c.use ≤ 2) && (thrWidth c.typ c.use != 0) && cutsSorted c && (c.use != 1 || c.cuts.length == 255) &&
    decide (c.cuts.length ≤ lim) && c.cuts.all fun e => thrVal c.typ c.use e.1 != Xv.missing

/-- Input declarations (19, Table 19.6). -/
def decodeInputs (b : Bytes) (n : Nat) : List InDecl :=
  (List.range n).map fun i => ⟨fld b (64 + 8 * i) 1, fld b (65 + 8 * i) 1, fld b (66 + 8 * i) 1⟩
/-- Resources (19, Table 19.6). -/
def decodeResources (b : Bytes) : Resources :=
  ⟨(List.range 4).map fun i => fld b i 1, (List.range 8).map fun i => fld b (4 + i) 1, fld b 12 4, fld b 16 4, fld b 20 8, fld b 28 8,
   bit (fld b 36 1) 0, fld b 38 2, fld b 40 8, decodeInputs b (fld b 37 1)⟩
/-- Resources are in range, reserved bytes zero. -/
def resourcesOk (b : Bytes) : Bool :=
  let r := decodeResources b
  (r.plots.all fun n => decide (n ≤ 20)) && (r.units.all fun n => decide (n ≤ 24)) && decide (fld b 36 1 ≤ 1) && decide (fld b 37 1 ≤ 64) &&
  decide (4 ≤ r.ringMax ∧ r.ringMax ≤ 256) && r.annexBytes % 2048 == 0 && allZero (slice b 48 16) &&
  r.inputs.all (fun d => decide (d.number ≤ 63) && (d.kind == 1 || d.kind == 2) && decide (1 ≤ d.carrier ∧ d.carrier ≤ 3)) &&
  ((List.range (fld b 37 1)).all fun i => allZero (slice b (67 + 8 * i) 5))
/-- Slot-plan entries (19). -/
def decodeSlots (b : Bytes) : List SlotEntry :=
  (List.range (b.length / 4)).map fun i => ⟨fld b (4 * i) 1, fld b (4 * i + 1) 1, fld b (4 * i + 2) 1, fld b (4 * i + 3) 1⟩
/-- A slot-plan entry is legal. -/
def slotOk (e : SlotEntry) : Bool :=
  decide (e.resource ≤ 6 ∧ e.pos ≤ 63) && (if e.resource = 0 then decide (e.kind % 16 ≤ 3 ∧ e.kind / 16 ≤ 3 ∧ e.inst ≤ 7) else e.kind == 0)
/-- Mapping entries (19, Table 19.7). -/
def decodeMapping (b : Bytes) : Mapping :=
  ⟨fld b 0 2, fld b 2 1, fld b 3 1, fld b 4 1, fld b 6 2, fld b 8 2, fld b 10 4, (List.range 25).map fun i => fld b (16 + 2 * i) 2⟩
def decodeMappings (b : Bytes) : List Mapping := (List.range (b.length / 80)).map fun i => decodeMapping (slice b (80 * i) 80)
/-- A mapping entry is legal: F × Bf × 256 is its capacity, reserved bytes zero. -/
def mappingOk (b : Bytes) : Bool :=
  let m := decodeMapping b
  decide (1 ≤ m.cards ∧ m.cards ≤ 32) && decide (m.quads ≤ 15) && fld b 5 1 == 0 && allZero (slice b 14 2) && allZero (slice b 66 14) &&
    m.capacity == m.files * m.bf * 256 &&
    (m.variant == 0 || decide (0x10 ≤ m.variant ∧ m.variant ≤ 0x17) || decide (0x20 ≤ m.variant ∧ m.variant ≤ 0x2F))
/-- Segments one after another: a 16-byte header and its frame entries (19, Table 19.8). -/
def decodeSegs : Nat → Bytes → List Segment
  | 0, _ => []
  | k + 1, b =>
    if b.length < 16 then [] else
      let n := fld b 0 4
      ⟨bit (fld b 4 2) 0, (List.range n).map fun i =>
        ⟨fld b (16 + 24 * i) 4, (List.range 4).map fun q => fld b (20 + 24 * i + 4 * q) 4⟩⟩ :: decodeSegs k (b.drop (16 + 24 * n))
/-- Reserved bytes of segments are zero. -/
def segsRsvd : Nat → Bytes → Bool
  | 0, _ => true
  | k + 1, b =>
    if b.length < 16 then b.isEmpty else
      let n := fld b 0 4
      decide (fld b 4 2 ≤ 1) && allZero (slice b 6 10) && ((List.range n).all fun i => allZero (slice b (36 + 24 * i) 4)) &&
        segsRsvd k (b.drop (16 + 24 * n))

/-! ## Digests (19, R521) -/

/-- Bundle bytes before the section table, with the bundle-digest field zero (19, Table 19.1). -/
def hdrBytes (h : BundleHdr) (count : Nat) : Bytes :=
  ascii [0x49, 0x5A, 0x42, 0x4E] ++ le 2 h.version ++ le 2 (b2n h.growing + 2 * b2n h.realtime) ++ le 1 h.op ++ le 3 0 ++ le 4 h.period ++
    le 8 h.total ++ padTo 32 h.modelMeasurement ++ List.replicate 32 0 ++ le 2 count ++ List.replicate 38 0
/-- Section-table bytes. -/
def tableBytes (t : List SecEntry) : Bytes := (t.map fun e => le 2 e.typ ++ le 6 0 ++ le 8 e.offset ++ le 8 e.length).flatten
/-- The sections in table order. -/
def bundleSections (b : Bundle) : List Bytes :=
  [b.source, b.result, b.image, b.resources, b.slotPlan, b.mappings, b.segments, b.programs]
/-- Sections laid out at their offsets with zero padding. -/
def layOut : List SecEntry → List Bytes → Bytes → Bytes
  | e :: t, x :: xs, acc => layOut t xs (padTo e.offset acc ++ x)
  | _, _, acc => acc
/-- Bundle digest: everything up to the Signature section, header bytes 56 to 87 zero. -/
def bundleDigestOf (b : Bundle) : Bytes :=
  let body := layOut b.table (bundleSections b) (hdrBytes b.hdr b.table.length ++ tableBytes b.table)
  digest (padTo ((b.table.getLast?.map (·.offset)).getD body.length) body)
/-- Model measurement from the three digests or images (19, Digests and signature). -/
def modelMeasOf (graph result image : Bytes) : Bytes :=
  digest (ascii [0x49, 0x5A, 0x4D, 0x4D] ++ graph ++ result ++ image)
/-- Model measurement of a bundle. -/
def bundleMeas (b : Bundle) : Bytes := modelMeasOf (digest b.source) (digest b.result) (digest b.image)
/-- Signature payload "IZBS" ‖ bundle digest ‖ model measurement. -/
def sigPayload (b : Bundle) : Bytes := ascii [0x49, 0x5A, 0x42, 0x53] ++ bundleDigestOf b ++ bundleMeas b
/-- Fold measurement (09, Table 9.4). -/
def foldMeasOf (mm bd fw : Bytes) (op period : Nat) : Bytes :=
  digest (ascii [0x49, 0x5A, 0x46, 0x4D] ++ mm ++ bd ++ fw ++ le 1 op ++ le 4 period ++ le 8 0)

/-! ## Load checks (19, Table 19.12) -/

/-- Operation words of a tile program, 16 bytes each (19, Table 19.10). -/
def progWords (p : TileProg) : List (BitVec 128) := (List.range (p.image.length / 16)).map fun i => BitVec.ofNat 128 (fld p.image (16 * i) 16)
/-- Its context entry table: 16 two-byte word indices for each FrameBlock (19). -/
def progEntries (p : TileProg) : List (List Nat) :=
  (List.range (p.table.length / 32)).map fun i => (List.range 16).map fun j => fld p.table (32 * i + 2 * j) 2
/-- A stream descriptor of 40 bytes (19, The tile operation set). -/
def decodeStream (b : Bytes) : StreamDesc :=
  ⟨fld b 0 8, fld b 8 8, fld b 16 4, fld b 20 2, fld b 22 1, fld b 23 1, fld b 24 4, fld b 28 4, BitVec.ofNat 64 (fld b 32 8)⟩
/-- Its stream descriptors. -/
def progStreams (p : TileProg) : List StreamDesc := (List.range (p.streams.length / 40)).map fun i => decodeStream (slice p.streams (40 * i) 40)
/-- Tile operations listed in Table 19.11. -/
def opListed (o : Nat) : Bool :=
  decide (0x10 ≤ o ∧ o ≤ 0x17) || decide (0x20 ≤ o ∧ o ≤ 0x24) || decide (0x30 ≤ o ∧ o ≤ 0x36) || decide (0x40 ≤ o ∧ o ≤ 0x4D) ||
    decide (0x50 ≤ o ∧ o ≤ 0x53) || decide (0x60 ≤ o ∧ o ≤ 0x63)
/-- An operation word is listed and has no reserved bit set (19, R519). -/
def wordOk (w : BitVec 128) : Bool := opListed (w.toNat % 256) && w.toNat / 2 ^ 9 % 2 ^ 7 == 0
/-- Loops whose bodies hold word `i` of a program: repetitions and signed address stride (19, LOOP). -/
def loopsAt (ws : List OpWord) (i : Nat) : List (Nat × Int) :=
  (ws.zipIdx).filterMap fun e => match e.1.op with
    | .loop a b c => if e.2 < i ∧ i ≤ e.2 + b then some (a, signed 32 c) else none
    | _ => none
/-- First byte beyond the compiler-placed range (05, Table 5.7). -/
def placedEnd : Nat := 0xFC000
/-- How far the loops around word `i` move an address operand: lowest and highest offset. -/
def loopSpan (ws : List OpWord) (i : Nat) : Int × Int :=
  let ls := loopsAt ws i
  ((ls.map fun l => min 0 (l.2 * ((l.1 : Int) - 1))).sum, (ls.map fun l => max 0 (l.2 * ((l.1 : Int) - 1))).sum)
/-- Some repetition reaches word `i`. -/
def reached (ws : List OpWord) (i : Nat) : Bool := (loopsAt ws i).all fun l => l.1 != 0
/-- Every address that operation `i` of a program names, in every repetition of its loops, lies in the compiler-placed range; windows,
planes and leaf tables stand on 512-byte boundaries (05, R128). An operation that no repetition reaches names none. -/
def placedAt (g4 : Bool) (ws : List OpWord) (i : Nat) (o : TileOp) : Bool :=
  let (lo, hi) := loopSpan ws i
  !reached ws i || (o.lengthOk &&
    ((o.readsAt g4 ++ o.writesAt g4 ++ o.sends).all fun r => decide (0 ≤ (r.1 : Int) + lo ∧ (r.1 : Int) + r.2 + hi ≤ (placedEnd : Int))) &&
    (match o with
      | .side _ b => decide ((16384 + gradLen g4 - 512 : Int) ≤ (b : Int) + lo)
      | _ => true) &&
    (match o.alignedAt with
      | some a => a % 512 == 0 && (loopsAt ws i).all fun l => l.1 == 1 || l.2 % 512 == 0
      | none => true))
/-- Every operation of a program is placed. -/
def progPlaced (g4 : Bool) (ws : List OpWord) : Bool := (ws.zipIdx).all fun e => placedAt g4 ws e.2 e.1.op
/-- Two ranges meet. -/
def meets (a b : Nat × Nat) : Bool := decide (0 < a.2 ∧ 0 < b.2 ∧ a.1 < b.1 + b.2 ∧ b.1 < a.1 + a.2)
/-- The stream fills its ring: kind 0, read. -/
def fillsRing (d : StreamDesc) : Bool := d.kind == 0
/-- Ring of a stream's credits: at the destination of a read, at the source of a write or a Stile send, and in HBM at the destination of a
remote stream, whose source is a StreamTag (08, R200, R203). Places in HBM count on from 2^40, stack by stack. -/
def ringOf (d : StreamDesc) : Nat × Nat :=
  (if d.kind = 0 then d.dest else if d.kind = 2 then 2 ^ 40 * (d.unit + 1) + d.dest else d.source, 2048 * d.credits)
/-- The ring lies in landing SRAM, whose 128 MiB count on from the end of tile store in a stream's addresses (01, Table 1.1; DESIGN
CHOICE, log entry 63). -/
def ringInLanding (d : StreamDesc) : Bool := decide (2 ^ 20 ≤ (ringOf d).1 ∧ (ringOf d).1 < 2 ^ 40)
/-- The ring is aligned to 2 KiB and lies in one store (05, R128). -/
def ringPlaced (d : StreamDesc) : Bool :=
  decide (d.kind ≤ 3) && (ringOf d).1 % 2048 == 0 &&
    (if d.kind = 2 then decide (d.unit < 8 ∧ d.dest + (ringOf d).2 ≤ 24 * 2 ^ 30)
     else decide ((ringOf d).1 + (ringOf d).2 ≤ if ringInLanding d then 2 ^ 20 + 2 ^ 27 else placedEnd))
/-- Operation `i` of a program writes into the ring of a stream that fills it and does not read it there: the space is not the stream's
alone (08, R203). -/
def takesRing (g4 : Bool) (ws : List OpWord) (i : Nat) (o : TileOp) (d : StreamDesc) : Bool :=
  let (lo, hi) := loopSpan ws i
  let moved := fun (r : Nat × Nat) => (((r.1 : Int) + lo).toNat, r.2 + (hi - lo).toNat)
  fillsRing d && !ringInLanding d && reached ws i && (o.writesAt g4).any (fun r => meets (moved r) (ringOf d)) &&
    !(o.readsAt g4).any fun r => meets (moved r) (ringOf d)
/-- The rings of a program's streams are placed, no byte is granted twice, and no operation takes a ring's space for data of its own
(05, R128; 08, R203). -/
def streamsOk (g4 : Bool) (ws : List OpWord) (l : List StreamDesc) : Bool :=
  l.all ringPlaced && decide ((l.map ringOf).Pairwise fun a b => !meets a b) &&
    (ws.zipIdx).all fun e => !(l.any (takesRing g4 ws e.2 e.1.op))
/-- The addresses and streams of one tile program. -/
def progOk (g4 : Bool) (p : TileProg) : Bool :=
  let ws := (progWords p).filterMap decodeOp
  progPlaced g4 ws && streamsOk g4 ws (progStreams p)
/-- Shape of Table 11.4 in which a job of `n` cards stands: the smallest that holds them. -/
def shapeFor (n : Nat) : Nat := if n ≤ 1 then 1 else if n ≤ 2 then 2 else if n ≤ 4 then 4 else if n ≤ 8 then 8 else if n ≤ 16 then 16 else 32
/-- Links of a shape whose partner a spare link serves too (11, Table 11.4). -/
def sparedLinks (shape : Nat) : List Nat := match shape with
  | 4 => [0, 1, 2, 3, 4]
  | 8 => [0, 1, 2, 3]
  | 32 => [0, 1, 2]
  | _ => []
/-- The mapping set holds the required mappings (11, R300): for each card count, each nonempty subset of the quadrants with
plots; spare substitutions of the topology of that card count. -/
def mapSetOk (r : Resources) (ms : List Mapping) : Bool :=
  let qm := ((List.range 4).map fun q => if r.plots.getD q 0 = 0 then 0 else 2 ^ q).sum
  let subs := (List.range 15).filterMap fun i => if Nat.land (i + 1) qm = i + 1 then some (i + 1) else none
  (List.range 32).all fun i => let n := i + 1
    (ms.any fun m => m.cards == n && m.variant == 0) && (subs.all fun q => ms.any fun m => m.cards == n && m.quads == q && m.variant == 0) &&
      ((sparedLinks (shapeFor n)).all fun k => ms.any fun m => m.cards == n && m.variant == 0x20 + k)
/-- Every prediction of every frame entry is at or below B (02, R36). -/
def predictionsOk (segs : List Segment) (b : Nat) : Bool :=
  segs.all fun g => g.frames.all fun e => e.predicted.all fun p => decide (p ≤ b)
/-- A custom loss program, which runs to the end of ResultOptions, holds listed operation words alone; a built-in loss has none (19, Table
19.3, R519). -/
def lossProgramOk (r : Bytes) (loss : Nat) : Bool :=
  let off := fld r 44 4
  if off = 0 then loss != 0x100
  else loss == 0x100 && decide (off < r.length) && (r.length - off) % 16 == 0 &&
    (List.range ((r.length - off) / 16)).all fun i => wordOk (BitVec.ofNat 128 (fld r (off + 16 * i) 16))
/-- ReferenceCast names none, binary16, binary32 or binary64; a Growing bundle names none (04, R526). -/
def castOk (growing : Bool) (c : Nat) : Bool := decide (c ≤ 3) && (!growing || c == 0)

/-- Step 1: header, section table, layout and every reserved field (19, R502, R505, R506, R519; 00, R11; 11, R300; 04, R526). -/
def layoutOk (b : Bundle) : Bool :=
  let h := b.hdr
  let t := b.table
  let r := b.result
  let fs := decodeFeatures r
  h.magicOk && h.version == 1 && h.rsvd == 0 && t.map (·.typ) == [1, 2, 3, 0x10, 0x11, 0x12, 0x13, 0x14, 0x1F] &&
  (t.all fun e => e.rsvd == 0 && e.offset % 4096 == 0 && decide (128 + 24 * 9 ≤ e.offset) && decide (e.offset + e.length ≤ h.total)) &&
  ((t.zip (t.drop 1)).all fun p => decide (p.1.offset + p.1.length ≤ p.2.offset)) &&
  (t.take 8).map (·.length) == (bundleSections b).map (·.length) &&
  decide (1 ≤ fld r 0 2 ∧ fld r 0 2 ≤ 4096) && decide (fld r 2 1 ≤ 1) && castOk h.growing (fld r 3 1) && decide (fld r 4 1 ≤ 1) &&
  fld r 5 1 == 0 && decide (1 ≤ fld r 6 2 ∧ fld r 6 2 ≤ 4096) && allZero (slice r 48 16) &&
  ((List.range (fld r 0 2)).all fun i => featureOk (slice r (64 + 8 * i) 8)) &&
  (if h.growing then fld r 40 4 != 0 && jobOk (fld r 0 2) (digest r) (r.drop (fld r 40 4)) && lossProgramOk r (fld r (fld r 40 4 + 6) 2)
    else fld r 40 4 == 0) &&
  b.imageHdr.magicOk && b.imageHdr.version == 1 &&
  ((decodeCuts 4096 (slice b.image b.imageHdr.cutOff b.imageHdr.cutLen)).all (cutOk fs)) &&
  cutsRsvd 4096 (slice b.image b.imageHdr.cutOff b.imageHdr.cutLen) && groupsOk b.image b.imageHdr &&
  resourcesOk b.resources && ((decodeSlots b.slotPlan).all slotOk) &&
  ((List.range (b.mappings.length / 80)).all fun i => mappingOk (slice b.mappings (80 * i) 80)) &&
  segsRsvd (b.segments.length + 1) b.segments && mapSetOk (decodeResources b.resources) (decodeMappings b.mappings) &&
  (b.progs.all fun p => p.image.length % 16 == 0 && p.table.length % 32 == 0 && p.streams.length % 40 == 0 &&
    (progWords p).all wordOk && decide ((progWords p).length ≤ 4096))

/-- Steps 2 and 3: the signature under the named role's key, the digests equal to the header's (19, R521, R522). -/
def signatureOk (s : State) (b : Bundle) : Bool :=
  b.sig.alg == -35 && decide (b.sig.role ≤ 1) && !(s.roleKey b.sig.role).isEmpty && b.sig.signedBy == s.roleKey b.sig.role
def digestsOk (b : Bundle) : Bool :=
  bundleMeas b == b.hdr.modelMeasurement && bundleDigestOf b == b.hdr.bundleDigest && b.sig.payload == sigPayload b

/-- What a bundle leaves for a Fold. -/
def loadedOf (s : State) (b : Bundle) (op : OpPoint) : Loaded :=
  let r := b.result
  { modelMeas := b.hdr.modelMeasurement, bundleDigest := b.hdr.bundleDigest,
    foldMeas := foldMeasOf b.hdr.modelMeasurement b.hdr.bundleDigest s.sec.fwMeas b.hdr.op b.hdr.period,
    graphDigest := digest b.source, resultDigest := digest b.result, op := op, period := b.hdr.period, realtime := b.hdr.realtime,
    growing := b.hdr.growing, presence := bit (fld r 2 1) 0, cast := fld r 3 1, binary32 := fld r 4 1 == 1, outputCount := fld r 6 2,
    features := decodeFeatures r, job := if b.hdr.growing then some (decodeJob (digest r) (r.drop (fld r 40 4))) else none,
    cuts := decodeCuts 4096 (slice b.image b.imageHdr.cutOff b.imageHdr.cutLen),
    bundleCuts := (decodeCuts 4096 (slice b.image b.imageHdr.cutOff b.imageHdr.cutLen)).length, res := decodeResources b.resources,
    slots := decodeSlots b.slotPlan, maps := decodeMappings b.mappings, segs := decodeSegs (b.segments.length + 1) b.segments,
    progs := b.progs, imageLen := b.image.length, role := b.sig.role }

/-- Step 6: the Fold's masks hold exactly what Resources requires; LedgerRingPages fits (19, R508; 09, R255). -/
def resourcesMatch (c : FoldCfg) (r : Resources) : Bool :=
  (List.range 4).map (fun q => c.plotsIn q) == r.plots && (List.range 8).map (fun k => c.unitsOn k) == r.units && decide (c.ringPages ≤ r.ringMax)
/-- Step 7: the first position of the slot plan that another Fold owns (08, R196; 09, R224). -/
def slotConflict (s : State) (f : FoldId) (sl : List SlotEntry) : Option (SlotEntry × FoldId) :=
  sl.findSome? fun e => (allFolds.find? fun g => g != f && (match (s.fold g).load with
    | some l => l.slots.any fun x => x.resource == e.resource && x.inst == e.inst && x.pos == e.pos
    | none => false)).map fun g => (e, g)
/-- Step 8: placement and credits (05, R128; 08, R203). -/
def placementOk (l : Loaded) : Bool := l.progs.all (progOk l.g4)

/-- Outcome of the load checks. -/
inductive LoadCheck
  | verifyFailed
  | conflict
  | slotConflict (e : SlotEntry) (other : FoldId)
  | ok (l : Loaded)
  deriving DecidableEq, Repr

/-- The checks of Table 19.12 in order; the first failure is the outcome (19, R523). -/
def loadCheck (s : State) (f : FoldId) (b : Bundle) : LoadCheck :=
  if !layoutOk b then .verifyFailed
  else if !signatureOk s b then .verifyFailed
  else if !digestsOk b then .verifyFailed
  else match opOfCode b.hdr.op with
    | none => .verifyFailed
    | some op =>
      if !periodOk b.hdr.period then .verifyFailed
      else if !predictionsOk (decodeSegs (b.segments.length + 1) b.segments) (budget b.hdr.period op) then .verifyFailed
      else if !resourcesMatch (s.foldCfg f) (decodeResources b.resources) then .conflict
      else match slotConflict s f (decodeSlots b.slotPlan) with
        | some (e, g) => .slotConflict e g
        | none => if !placementOk (loadedOf s b op) then .verifyFailed else .ok (loadedOf s b op)

/-! ## The model store (08, R215) -/

/-- XOR of two members. -/
def xorBytes (a b : Bytes) : Bytes := (List.range (max a.length b.length)).map fun i => a.getD i 0 ^^^ b.getD i 0
/-- Data member j of stripe k of an image, padded with zeros. -/
def dataMember (img : Bytes) (k j : Nat) : Bytes := padTo 2048 (slice img (14336 * k + 2048 * j) 2048)
/-- The eight members of stripe k by stack: parity on stack k mod 8, data j on stack (k + 1 + j) mod 8. -/
def stripeMembers (img : Bytes) (k : Nat) : List (Nat × Bytes) :=
  let ds := (List.range 7).map fun j => (8 * k + (k + 1 + j) % 8, dataMember img k j)
  (8 * k + k % 8, (ds.map (·.2)).foldl xorBytes (List.replicate 2048 0)) :: ds
/-- Write stripes of an image into a model store. -/
def ModelStore.writeStripes (m : ModelStore) (img : Bytes) (ks : List Nat) : ModelStore :=
  { m with members := ks.foldl (fun a k => (stripeMembers img k).foldl (fun a e => mset [] a e.1 e.2) a) m.members }
/-- Spare of a model store with `n` stripes, one member of each on every stack: ceil(M/7) bytes, rounded up to 2 KiB (08, R216). -/
def spareBytes (n : Nat) : Nat := 2048 * ceilDiv (ceilDiv (2048 * n) 7) 2048
/-- The model store right after an image is written. -/
def storeImage (img : Bytes) : ModelStore :=
  let n := ceilDiv img.length 14336
  ({ ModelStore.dflt with stripes := n, spare := spareBytes n }).writeStripes img (List.range n)

end Sys2Proof.Machine
end

