-- ==== Sys2Proof/Machine/Load.lean ====
section
/-! DEFINITION. What a finished LOAD_BUNDLE, RESTAGE_MODEL and RESTORE do to a Fold (09, 12, 19). -/

namespace Sys2Proof.Machine

/-! ## Programs (19, R518) -/

/-- Load the programs of a mapping into the idle banks of the Fold's tiles; the Fold numbers its tiles in ascending plot
order (19, Resources). -/
def State.loadIdle (s : State) (f : FoldId) (m : Nat) : State :=
  match (s.fold f).load with
  | none => s
  | some l =>
    let ts := (s.foldCfg f).tiles
    (l.progs.filter fun p => p.mapping == m).foldl (fun s p =>
      match ts[p.tile]? with
      | none => s
      | some t => s.setTile t { s.tile t with idle := some (progWords p, progEntries p), descs := progStreams p }) s
/-- Change banks: what the idle bank holds is in force. -/
def Tile.switchBank (t : Tile) : Tile := match t.idle with
  | none => t
  | some (w, e) => { t with prog := w, entries := e, idle := none }
def State.switchBanks (s : State) (f : FoldId) : State :=
  (s.foldCfg f).tiles.foldl (fun s t => if (s.tile t).idle.isNone then s else s.setTile t (s.tile t).switchBank) s
/-- Put the mapping of the situation in force with its programs. -/
def State.installMapping (s : State) (f : FoldId) (m : Nat) : State :=
  ((s.loadIdle f m).switchBanks f).modFold f fun x => { x with run := { x.run with mapping := some m, nextMapping := none } }

/-! ## Load (19, Table 19.12; 09, Table 9.2) -/

/-- CDI_F = MAC(CDI_1, "IZ-CDIF" ‖ Fold measurement ‖ Fold number) (09, Table 9.2). -/
def cdiOf (cdi1 meas : Bytes) (f : Nat) : Bytes := mac cdi1 (ascii [0x49, 0x5A, 0x2D, 0x43, 0x44, 0x49, 0x46] ++ meas ++ le 1 f)
/-- Keys of a Fold at load: CDI and attestation key derived, HPKE pair and checkpoint key fresh, certificate issued (09, R228, R230; 12, R339). -/
def foldKeysAt (s : State) (f : FoldId) (l : Loaded) : FoldKeys :=
  let cdi := cdiOf s.sec.cdi1 l.foldMeas f.val
  let att := keypair cdi (ascii [0x49, 0x5A, 0x2D, 0x46, 0x4F, 0x4C, 0x44])
  { cdi := cdi, attest := att, cert := Config.certificate s.sec.aliasKey (Config.publicKey att) l.foldMeas,
    hpke := Config.publicKey (beNat (Config.fresh s.free)), ckpt := padTo 32 (Config.fresh (s.free + 1)), kek := none }
/-- A verified bundle: the Fold holds its digests, keys, model store and programs, its channels start anew, and it is LOADED. -/
def State.installBundle (s : State) (f : FoldId) (l : Loaded) (image : Bytes) : State :=
  let keys := foldKeysAt s f l
  let x := s.fold f
  let y : Fold := { Fold.dflt with st := x.st, tel := x.tel, load := some l, keys := keys, store := storeImage image,
                                   run := { Run.dflt with job := shapeOf (s.jobSet f) } }
  let s := ({ s with free := s.free + 2 }).setFold f y
  let s := (s.chansOf f).foldl (fun s c => s.setChan c Chan.dflt) s
  let s := match s.findMapping f with
    | some m => s.installMapping f m.id
    | none => s
  s.setSt f .loaded

/-! ## Re-stage (08, R221; 19, Digests and signature) -/

/-- Magic, signature over "IZMS" ‖ model measurement, and the Fold's own model measurement. -/
def restageOk (s : State) (l : Loaded) (r : RestageImage) : Bool :=
  let m := modelMeasOf r.graphDigest r.resultDigest (digest r.image)
  r.magicOk && r.sig.alg == -35 && decide (r.sig.role ≤ 1) && !(s.roleKey r.sig.role).isEmpty && r.sig.signedBy == s.roleKey r.sig.role &&
    r.sig.payload == ascii [0x49, 0x5A, 0x4D, 0x53] ++ m && m == l.modelMeas
/-- Stacks that are not lost, ascending. -/
def State.survivors (s : State) : List StackId := (List.finRange 8).filter fun k => !(s.hbm k).lost
/-- The stack that takes the new copy of a member: its own, or where that is lost a survivor (08, R217, R219, R221; DESIGN CHOICE, log
entry 45). -/
def State.memberStack (s : State) (key : Nat) : Option StackId :=
  let own : StackId := ⟨key % 8, by omega⟩
  if (s.hbm own).lost then s.survivors[(key / 8) % max 1 s.survivors.length]? else some own
/-- The members of the lost stripes wait in the grazing queues of the stacks that take them (14, Table 14.1; 08, R221). -/
def State.stageStripes (s : State) (f : FoldId) (image : Bytes) : State :=
  let ms := (s.fold f).store.lost.flatMap (stripeMembers image)
  let s := s.modFold f fun x => { x with store := { x.store with staged := ms.foldl (fun a e => mset [] a e.1 e.2) x.store.staged } }
  (List.finRange 8).foldl (fun s (k : StackId) => s.modHbm k fun x =>
    { x with restages := x.restages ++ ((ms.filter fun e => s.memberStack e.1 == some k).map fun e => (f.val, e.1)) }) s

/-! ## Restore (12, R350) -/

/-- Generation, card count, cut tick, and round, class and step of a manifest (12, Table 12.4). -/
def manifestGen (b : Bytes) : Nat := fld b 8 4
def manifestCards (b : Bytes) : Nat := fld b 13 1
def manifestCut (b : Bytes) : Nat × Nat × Nat × Nat := (fld b 80 8, fld b 88 4, fld b 92 2, fld b 94 1)
/-- The manifest is valid: "RICK", version 1, its own rank, reserved bits zero, its tag verifies (12, Table 12.4; 00, R11). -/
def headValid (h : ShardHead) : Bool :=
  let b := h.manifest
  b.length == 4096 && b.take 4 == ascii [0x52, 0x49, 0x43, 0x4B] && fld b 4 2 == 1 && decide (fld b 6 2 < 4) && fld b 12 1 == h.rank &&
    fld b 95 1 == 0 && ((List.range 5).all fun i => allZero (slice b (188 + 32 * i) 12)) && allZero (slice b 328 32) &&
    allZero (slice b 400 3680) && h.tagOk
/-- Section `n` of a shard is complete. -/
def sectionComplete (h : ShardHead) (n : Nat) : Bool := h.complete.getD (n - 1) false
/-- The generation is restorable: every rank's shard of it has a valid manifest and complete sections 1 to 3 for the same cut (12, R349). -/
def restorable (d : Shard) (generation : Nat) (own : Bytes) : Bool :=
  (List.range (manifestCards own)).all fun r => d.heads.any fun h =>
    h.rank == r && headValid h && manifestGen h.manifest == generation && manifestCards h.manifest == manifestCards own &&
      manifestCut h.manifest == manifestCut own && sectionComplete h 1 && sectionComplete h 2 && sectionComplete h 3
/-- This rank's shard. -/
def ownHead (d : Shard) (rank : Nat) : Option ShardHead := d.heads.find? fun h => h.rank == rank
/-- First failing check of R350, in order: restorable generation, model measurement, card count; 0 where none fails. A Fold
without the KEK that the manifest names cannot unwrap its key. -/
def restoreCheck (s : State) (f : FoldId) (l : Loaded) (generation : Nat) (d : Shard) : Nat :=
  let (b, n) := shapeOf (s.jobSet f)
  match ownHead d (s.card - b), (s.fold f).keys.kek with
  | some h, some k =>
    let m := h.manifest
    if !headValid h || manifestGen m != generation || !restorable d generation m || slice m 120 8 != (digest k).take 8 then 1
    else if slice m 16 32 != padTo 32 l.modelMeas then 2
    else if manifestCards m != n then 3
    else 0
  | _, _ => 1
/-- Pre-phase cut tables of section 1 as tables of the bundle (12, Table 12.2). -/
def shardCuts (d : Shard) : List CutTable := d.cuts.map fun c => ⟨c.1, c.2.1, c.2.2.1, 0, c.2.2.2⟩
/-- The restored position: trees, partial tree, scale history, round, class, step, banks, node ids and margins, the cut tables of
the pre-phase; the phases it still needs; the slot that holds the generation and the number of the next one (12, R342, R351, R353, R532). -/
def State.installShard (s : State) (f : FoldId) (d : Shard) (h : ShardHead) : State :=
  let m := h.manifest
  let (tick, round, cls, step) := manifestCut m
  s.modFold f fun x => { x with
    load := x.load.map fun l => { l with cuts := l.cuts ++ shardCuts d }
    grow := { Grow.dflt with
      phase := 1, round := round, cls := cls, step := step, trees := d.trees, partialTree := d.partialTree, history := d.scales,
      nodeBank := d.nodeBank, marginBank := d.marginBank, blocks := (fld m 96 8, fld m 104 8), rowTotal := fld m 112 8,
      nodes := d.nodes.foldl (fun m e => mset 0 m (2 * e.1 + d.nodeBank) e.2) [],
      margins := d.margins.foldl (fun m e => mset 0 m ((e.1 * 256 + e.2.1) * 2 + e.2.2.1) e.2.2.2) [],
      restored := some (!sectionComplete h 4, !sectionComplete h 5, cls != 0 || step != 0) }
    pre := { x.pre with generation := some (manifestGen m), cutTick := tick, nextGen := manifestGen m + 1, newestSlot := d.slot, doneSlot := d.slot } }

end Sys2Proof.Machine
end

