-- ==== Sys2Proof/Machine/Peers.lean ====
section
/-! DEFINITION. Departure of a job member, and the faults that replay a level-step (02, 11, 14). -/

namespace Sys2Proof.Machine

/-- The card belongs to a multi-card job of the Fold. -/
def Fold.inJob (x : Fold) (c : Nat) : Bool := decide (1 < x.run.job.2) && decide (x.run.job.1 ≤ c ∧ c < x.run.job.1 + x.run.job.2)
/-- The Fold runs frames. -/
def Fold.live (x : Fold) : Bool := x.st == .running || x.st == .draining
/-- Job neighbours at launch: members of the job that are directly linked (11, Scoring peers). -/
def State.jobNeighbours (s : State) (x : Fold) : List (Nat × Nat) :=
  ((neighboursOf s.topology s.card).filter fun c => x.inJob c && c != s.card).map fun c => (c, 0)
/-- The card is in the Fold's peer set and has not departed. -/
def Fold.expects (x : Fold) (c : Nat) : Bool := (x.run.neighbours.any fun n => n.1 == c) && !x.run.leaving.contains c
/-- A member departed, for one Fold: a Scoring Fold has it out of its peer set from the next frame, a Growing run ends at the next tick
without a checkpoint (11, R315, R318). -/
def State.departFor (s : State) (f : FoldId) (c cond : Nat) : State :=
  let x := s.fold f
  let ev := fun (s : State) => s.emit (unitFold f) 0x0705 (le 1 c ++ le 1 cond)
  if !x.live || !x.inJob c then s
  else if x.growingNow then (if x.st = .running then (ev s).startDraining f else s)
  else if x.expects c then (ev s).modFold f fun x => { x with run := { x.run with leaving := c :: x.run.leaving } }
  else s
/-- A live Fold still counts the card as a peer or as a job member. -/
def State.countsMember (s : State) (c : Nat) : Bool := allFolds.any fun f =>
  let x := s.fold f
  x.live && x.inJob c && (if x.growingNow then x.st == .running else x.expects c)
/-- The arm words of a departed card are worth nothing. -/
def Fold.dropWords (c : Nat) (x : Fold) : Fold := { x with run := { x.run with armWords := x.run.armWords.filter fun e => e.1 != c } }
/-- A neighbour has departed: PEER_LOST, from the Shepherd where no Fold of a job with it runs; the detecting card floods
LEAVE, and the upstream is chosen again (11, R303, R315). Conditions: 1 two frames missing, 2 every link lost lane lock, 3 GTC_ALIGN_LOSS, 4 its LEAVE word. -/
def State.depart (s : State) (c cond ref : Nat) (detected : Bool) : State :=
  let s := if s.countsMember c then s else s.emit 0 0x0705 (le 1 c ++ le 1 cond)
  let s := allFolds.foldl (fun s f => s.departFor f c cond) s
  let s := { s with heath := { s.heath with members := s.heath.members &&& ~~~(BitVec.ofNat 32 (2 ^ (c % 32))) }
                    folds := s.folds.map (Fold.dropWords c)
                    links := s.links.map fun (k : Link) => if k.partner = c && 3 ≤ k.state then { k with state := 2 } else k }
  let s := s.reselect
  if detected then s.flood 7 (be 1 c ++ be 1 cond ++ be 8 ref) else s
/-- Mark the running step for replay and flood REPLAY, once per step (11, R317, R296). -/
def State.markReplay (s : State) (f : FoldId) (code : Nat) : State :=
  let x := s.fold f
  let s := s.modFold f fun y => { y with grow := { y.grow with replayCause := some (y.grow.replayCause.getD code) } }
  if x.grow.replayCause.isNone && decide (1 < x.run.job.2) then s.flood 8 (be 1 f.val ++ be 4 x.grow.round ++ be 1 x.grow.step) else s
/-- A fault in a frame of a level-step: the step replays on every card of the job; a fault in its replay takes the Fold to
FAULTED (02, R49; 11, R317; 14, R401). -/
def State.stepFault (s : State) (f : FoldId) (code : Nat) : State :=
  let x := s.fold f
  if x.grow.inReplay then s.faultFold f code x.frame else s.markReplay f code
/-- A fault of the open frame of a Fold: a Scoring frame is withheld, a Growing step replays (14, Table 14.6). -/
def State.frameFault (s : State) (f : FoldId) (code : Nat) : State :=
  if (s.fold f).growingNow then s.stepFault f code else s.causeFrame f code

end Sys2Proof.Machine
end

