-- ==== Sys2Proof/Machine/Frames.lean ====
section
/-! DEFINITION. The frames of a Fold: start, opening, admission, closing, result drain, pages (02, 03, 06, 08, 09, 10, 19).
A step that is not due, or whose Fold is not in a state to which it applies, only lets time pass (DESIGN CHOICE, log entry 3). -/

namespace Sys2Proof.Machine

/-! ## Roles and segments (19, Tables 19.7 to 19.9) -/

/-- Role in force in the open frame: WAIT in the idle frames of a quarantine or link wait. -/
def Fold.roleNow (x : Fold) : Nat := if x.run.idle then 22 else x.run.role
/-- Segment of a role under the mapping in force. -/
def Fold.segmentOf (x : Fold) (role : Nat) : Option Segment :=
  match x.load, x.mapEntry with
  | some l, some m => if m.roles.getD role 0xFFFF = 0xFFFF then none else l.segs[m.roles.getD role 0xFFFF]?
  | _, _ => none
/-- Frames of a role's segment; 0 where the role is absent. -/
def Fold.segLen (x : Fold) (role : Nat) : Nat := match x.segmentOf role with
  | some g => g.frames.length
  | none => 0
/-- Frame entry in force. -/
def Fold.frameEntryNow (x : Fold) : Option FrameEntry :=
  (x.segmentOf x.roleNow).bind fun g => g.frames[if x.run.idle then 0 else x.run.pos]?
/-- Predicted finish cycle of a quadrant in the open frame. -/
def Fold.predictedFor (x : Fold) (q : Nat) : Nat := match x.frameEntryNow with
  | some e => e.predicted.getD q 0
  | none => 0
/-- The segment of the running role has run to its end, and what ends it has not come yet: the barrier after a GRAD head, the
start of the next level-step, the close of the segment. -/
def Fold.segmentOver (x : Fold) : Bool :=
  !x.run.idle && ((x.run.role == 4 || decide (7 ≤ x.run.role ∧ x.run.role ≤ 21) || x.run.role == 23 || x.run.role == 24) &&
    decide (x.segLen x.run.role ≤ x.run.pos) ||
    (x.run.role == 7 && x.run.pos == 0 && x.grow.step == 0 && x.grow.cls == 0 && !x.grow.barrierDone) || (x.run.role == 22 && x.grow.between))
/-- Role and position after a frame has closed: SCORE_FILL is frames 0 and 1, a GRAD head passes into STEP_0, REPEAT roles
start again, every other role runs to its end (19, Table 19.9); a restored round's head passes into the step that was cut (12, R532). -/
def Fold.advance (x : Fold) : Nat × Nat :=
  let (r, p) := (x.run.role, x.run.pos)
  if x.run.idle then (r, p)
  else if r = 0 then (if p = 0 then (0, 1) else (1, 0))
  else if r = 5 ∨ r = 6 then (if p + 1 < x.segLen r then (r, p + 1) else (7 + x.grow.step, 0))
  else if r ≤ 3 ∨ r = 22 then (r, if p + 1 < x.segLen r then p + 1 else 0)
  else (r, p + 1)
/-- First role after launch: SCORE_FILL; in Growing the sample ingest where the mapping has one, else the bin ingest, with
which a restored job begins too (19, Table 19.9; 12, R352; DEDUCED, log entry 28). -/
def Fold.firstRole (x : Fold) : Nat :=
  if !x.growingNow then 0 else if x.grow.restored.isNone && decide (0 < x.segLen 2) then 2 else 3

/-! ## Opening -/

/-- HBM address of a stream's first byte: its source where it reads HBM, else its destination. -/
def hbmBase (d : StreamDesc) : Nat := if d.kind = 0 then d.source else d.dest
/-- Slots that a transfer costs: every slot its byte range touches (08, R190). -/
def streamSlots (d : StreamDesc) : Nat := if d.length = 0 then 0 else (hbmBase d + d.length - 1) / 2048 + 1 - hbmBase d / 2048
/-- What a tile leaves behind at a frame's start: units free, nothing under way, credits that were coming back are free,
streams that have moved their length are gone (05; 08, R200). -/
def Tile.clearFrame (t : Tile) : Tile :=
  let live := t.streams.filter fun k => decide (k.moved < streamSlots k.desc) || decide (k.done < k.moved)
  { t with busy := Vector.replicate 8 0, ports := [], inflight := [],
           streams := live.map fun k => { k with free := k.free + k.back.length, back := [] } }
/-- Contexts of a tile start at the entries of a FrameBlock row (05, R134; 19). -/
def Tile.start (t : Tile) (block : Nat) : Tile :=
  match t.entries[block]? with
  | none => t.clearFrame
  | some row => { t.clearFrame with
      ctxs := Vector.ofFn fun (i : Fin 16) => { Ctx.dflt with pc := row.getD i.val 0, ended := decide (row.length ≤ i.val) } }
/-- Start every context of the Fold's tiles in the quadrants of the mapping that are in service. -/
def State.startContexts (s : State) (f : FoldId) : State :=
  let x := s.fold f
  match x.frameEntryNow, x.mapEntry with
  | some e, some m =>
    if x.run.idle then s else
      ((s.foldCfg f).tiles.filter fun t => bit m.quads (quadOfTile t).val && s.quadHealthy (quadOfTile t)).foldl
        (fun s t => s.setTile t ((s.tile t).start e.block)) s
  | _, _ => s
/-- Records of the frame just closed that admission may still take: they hold credits already (08, R210; 10, R273). -/
def Fold.pendingAdm (x : Fold) : Nat := min x.adm.qe ((x.adm.arrivals.filter fun a => decide (a.frame < x.run.opened) && !a.fromPcie).length)
/-- Quota of a frame: capacity and free credits bound it; zero in Growing, under backlog and once admission has closed (06,
R153; 08, R210; 09, R251). -/
def Fold.quotaAt (x : Fold) (stopped : Bool) : Nat :=
  if x.growingNow || x.adm.backlog || x.adm.closed || stopped then 0 else min x.capacity (x.freeCredits - x.pendingAdm)
/-- PCIe records that landed at the opening tick of frame `n`, before it opened. -/
def Fold.landedIn (x : Fold) (n : Nat) : List Arrival := x.adm.arrivals.filter fun a => a.frame == n && a.fromPcie
/-- PCIe share of frame `n`: Qp = max(min(PcieRecords, Q), O); a replay Fold takes its whole quota from PCIe (10, R270; 03, R67). -/
def Fold.pcieShare (x : Fold) (n q : Nat) : Nat :=
  let o := x.adm.reads.length + (x.landedIn n).length
  let p := match x.load with
    | some l => if x.run.replay then q else l.res.pcieRecords
    | none => 0
  max (min p q) o
/-- A pending Scoring cut: the Fold drains from the first frame boundary at or after IssueAt + 1,000,000 (12, R331). -/
def State.takeScoringCut (s : State) (f : FoldId) (tick : Nat) : State :=
  let x := s.fold f
  match x.pre.notice with
  | some n => if n.stop && x.st == .running && !x.growingNow && decide (scoringCut x n ≤ tick) then s.startDraining f else s
  | none => s
/-- Role that starts the running level-step: the GRAD head for step 0 of class 0, GRAD_SINGLE for the head of a restored round,
else STEP_k (19, Table 19.9; 12, R532). -/
def Fold.stepRole (x : Fold) : Nat :=
  if x.grow.restored.any (·.2.2) then 5
  else if x.grow.step = 0 && x.grow.cls = 0 then (if x.grow.twoPass then 6 else 5) else 7 + x.grow.step
/-- A gradient step begins: its maxima and totals start at zero (04, R98). -/
def Grow.startHead (g : Grow) : Grow :=
  { g with scales := g.scales.map fun s => { s with maxG := 0, maxH := 0, totG := 0, totH := 0 }, miss := none, overflow := false, passDone := false,
           barrierDone := false }
/-- Start a role at its first frame; a GRAD head begins a gradient step. -/
def Fold.toRole (x : Fold) (r : Nat) : Fold :=
  { x with run := { x.run with role := r, pos := 0 }, grow := if r = 5 ∨ r = 6 then x.grow.startHead else x.grow }
/-- Records, exchange and lost frames of the running step are forgotten (02, R49; 07, R161). -/
def Grow.forget (g : Grow) : Grow :=
  { g with partialTree := g.partialTree.filter (fun r => decide (Nat.log2 r.heap < g.step)), exchanged := false }
/-- The running step's segments start again; other roles that run once restart their own segment. -/
def Fold.restart (x : Fold) : Fold :=
  if 5 ≤ x.run.role && x.run.role ≤ 20 then ({ x with grow := x.grow.forget }).toRole x.stepRole
  else if x.run.role == 4 || x.run.role == 21 || x.run.role == 23 || x.run.role == 24 then { x with run := { x.run with pos := 0 } }
  else x
/-- A Growing Fold takes a mapping at a level-step boundary, or where it idles for it (11, R311). STEP_0 behind a GRAD head goes on with
the level-step that the head began. -/
def Fold.mayRemap (x : Fold) : Bool := !x.growingNow || x.run.idle ||
  (x.run.pos == 0 && decide (5 ≤ x.run.role) && !(x.run.role == 7 && x.grow.step == 0 && x.grow.cls == 0))
/-- Idle frames end: a Growing Fold replays its step under the new mapping, and that run counts as the step's replay, whose own fault takes
the Fold to FAULTED (14, Quarantine; 11; 02, R49; DEDUCED, log entry 70). -/
def State.endIdle (s : State) (f : FoldId) (tick : Nat) : State :=
  let x := s.fold f
  if !x.run.idle then s else
    let s := s.modFold f fun y => { y with run := { y.run with idle := false } }
    if !x.growingNow then s else
      let s := s.modFold f fun y => { y.restart with grow := { y.grow with replayCause := none, inReplay := true } }
      if 5 ≤ x.run.role && x.run.role ≤ 20 then
        s.emitAt tick (unitFold f) 0x0405 false
          (le 4 x.grow.round ++ le 2 x.grow.cls ++ le 1 x.grow.step ++ le 2 (x.grow.replayCause.getD 0x0307))
      else s
/-- Switch to a mapping installed by an epoch at the first boundary at or after E; idle frames end (11, R311; 14, R411). -/
def State.takeMapping (s : State) (f : FoldId) (tick : Nat) : State :=
  match (s.fold f).run.nextMapping with
  | some (m, e) => if e ≤ tick && (s.fold f).mayRemap then (s.installMapping f m).endIdle f tick else s
  | none => s

/-! ## Pages (09, R246, R251, R252) -/

/-- Open the next page at frame `n`, or stop with LEDGER_FULL where no slot is free. -/
def State.takePage (s : State) (f : FoldId) (n : Nat) : State :=
  if s.freeSlots f = 0 then (s.emit (unitFold f) 0x0602 (le 8 (s.fold f).led.nextSeq)).stopNow f else s.openPage f n
/-- Close the open page with last frame `n - 1`; a Growing page is sealed at its close. -/
def State.endPage (s : State) (f : FoldId) (n : Nat) (final : Bool) : State :=
  let x := s.fold f
  match x.led.page with
  | none => s
  | some p =>
    let s := s.closePage f (n - 1) final
    if p.growing then s.sealClosing f (x.tickOf n) else s
/-- Admission has closed for a stop at or before frame `n`. -/
def Fold.stoppedAt (x : Fold) (n : Nat) : Bool := match x.adm.closeFrom with
  | some c => decide (c ≤ n)
  | none => false
/-- The frame to open is the last of the round's last level-step, where no replay of the step is decided (09, R246). -/
def Fold.roundEnds (x : Fold) : Bool := match x.load.bind (·.job) with
  | some j => x.run.role == 6 + j.depth && x.grow.cls + 1 == j.outputs && x.grow.replayCause.isNone
  | none => false
/-- The frame to open is the last of a single-pass gradient step that this card knows to run again (09, R246; 04, R97). -/
def Fold.headFails (x : Fold) : Bool := x.run.role == 5 && x.grow.miss.isSome
/-- The frame to open is the last of a round attempt and the attempt's entries, with the Phase entry after the job's last attempt, would
take the page past 4,096 (09, R246). -/
def Fold.attemptOver (x : Fold) (p : OpenPage) : Bool :=
  x.growingNow && decide (x.run.pos + 1 = x.segLen x.run.role) &&
    ((x.roundEnds && x.entriesOver p (b2n x.lastAttempt)) || (x.headFails && x.entriesOver p 0))
/-- The page is due to close at the tick that opens frame `n`. -/
def Fold.pageDue (x : Fold) (n : Nat) : Bool := match x.led.page with
  | some p => x.stoppedAt n || decide (pageLast x p < n) || x.attemptOver p
  | none => false
/-- Pages at the tick that opens frame `n`: a due page closes, with FINAL at a stop; a page opens while admission is open. -/
def State.turnPage (s : State) (f : FoldId) (n : Nat) : State :=
  let x := s.fold f
  let s := if x.pageDue n then s.endPage f n (x.stoppedAt n) else s
  if (s.fold f).led.page.isNone && !x.stoppedAt n then s.takePage f n else s

/-- A Growing Fold that stops at the tick opening frame `n`: the interrupted attempt's entries, the page sealed with FINAL (12, R330; 11, R318). -/
def State.endGrowing (s : State) (f : FoldId) (n : Nat) : State :=
  let x := s.fold f
  if x.growingNow && x.stoppedAt n && x.led.page.isSome then
    (s.cutAttempt f (n - 1)).endPage f n true
  else s

/-- What opening frame `n` leaves in the Fold. -/
def Fold.begin (x : Fold) (n q qp qe : Nat) : Fold :=
  { x with
    run := { x.run with started := true, opened := n + 1, closed := false, finish := Vector.replicate 4 0,
                        precise := Vector.replicate 4 false, overrun := Vector.replicate 4 false, cause := none, dieSlots := [] }
    adm := { x.adm with q := q, qp := qp, qe := qe, stamped := (x.landedIn n).length,
                        bytes := x.adm.bytes.filter fun e => decide (n ≤ e.1 / 65536),
                        delivered := x.adm.delivered.filter fun e => decide (x.tickOf n ≤ e.2.1) }
    grow := { x.grow with rowsThisFrame := 0 }
    store := { x.store with rebuilding := [] } }
/-- The frame that opens is withheld whatever happens in it: a quadrant of the mapping is out of service (14, R411). -/
def State.withheldAhead (s : State) (f : FoldId) : Bool := match (s.fold f).mapEntry with
  | some m => (List.finRange 4).any fun (q : QuadId) => bit m.quads q.val && decide (0 < (s.foldCfg f).plotsIn q.val) && !s.quadHealthy q
  | none => false
/-- An arm word shows that the card's own Fold runs from a frame boundary of this Fold at or before `tick`. -/
def Fold.peerRuns (x : Fold) (c tick : Nat) : Bool := x.run.armWords.any fun e =>
  e.1 == c && !e.2.abort && (match x.load with | some l => e.2.digest == l.bundleDigest | none => false) && decide (e.2.launchAt ≤ tick) &&
    (max e.2.launchAt x.run.launchAt - min e.2.launchAt x.run.launchAt) % x.period == 0
/-- The peer set at the tick that opens a frame: departed cards go, a member of the job that was admitted again comes in from the first
frame boundary at which its Fold runs (11, R311, R315; DEDUCED, log entry 55). -/
def State.turnPeers (s : State) (f : FoldId) (tick : Nat) : State :=
  let x := s.fold f
  if x.growingNow then s else
    let stay := x.run.neighbours.filter fun n => !x.run.leaving.contains n.1
    let new := (s.jobNeighbours x).filter fun n => !(stay.any fun m => m.1 == n.1) && s.heath.members.getLsbD n.1 && x.peerRuns n.1 tick
    s.modFold f fun y => { y with run := { y.run with neighbours := stay ++ new, leaving := [] } }
/-- Peer frame of a Scoring Fold: opening tick, Fold, withheld flag; on every live link to each neighbour (11, R313). -/
def State.queuePeers (s : State) (f : FoldId) (n : Nat) : State :=
  let x := s.fold f
  if x.growingNow then s else
    (List.finRange 16).foldl (fun s (k : LinkId) =>
      if (s.link k).state == 3 && x.run.neighbours.any (fun c => c.1 == (s.link k).partner) then
        s.modLink k fun y => { y with peerq := y.peerq ++ [(f.val, be 8 (x.tickOf n) ++ be 1 f.val ++ be 1 (b2n (s.withheldAhead f)))] }
      else s) s
/-- Fix the shares of frame `n` and start it (10, R270; 02, R43). -/
def State.beginFrame (s : State) (f : FoldId) (n : Nat) : State :=
  if !(s.fold f).live then s else
    let s := if n = 0 then s else s.turnPeers f ((s.fold f).tickOf n)
    let x := s.fold f
    let q := x.quotaAt (x.stoppedAt n)
    let qp := x.pcieShare n q
    ((s.modFold f fun x => x.begin n q qp (q - qp)).startContexts f).queuePeers f n
/-- Reads still outstanding at a stop keep their frame open for them alone: admission closes after the frame that takes them
(10, R270; DEDUCED, log entry 21). -/
def State.carryReads (s : State) (f : FoldId) (n : Nat) : State :=
  let x := s.fold f
  if x.stoppedAt n && (!x.adm.reads.isEmpty || !(x.landedIn n).isEmpty) && !x.growingNow && x.led.page.isSome then
    s.modFold f fun y => { y with adm := { y.adm with closeFrom := some (n + 1), closed := true } }
  else s
/-- Open frame `n`: cut, mapping, pages, quotas, contexts, in that order (02, R524). -/
def State.openFrame (s : State) (f : FoldId) (n : Nat) : State :=
  let tick := (s.fold f).tickOf n
  let s := (s.takeScoringCut f tick).takeMapping f tick
  let s := (s.carryReads f n).endGrowing f n
  (s.turnPage f n).beginFrame f n

/-! ## Settling a DRAINING Fold -/

/-- Every cohort up to the page's last frame has its entry. -/
def Fold.entriesIn (x : Fold) (p : OpenPage) : Bool := x.pipe.all fun c => decide (p.last.getD 0 < c.frame)
/-- The oldest closed page may be sealed now: its seal tick has come and its entries are in (09, R246). -/
def Fold.sealDue (x : Fold) (now : Nat) : Bool := match x.led.closing with
  | p :: _ => decide (sealTick x p ≤ now) && x.entriesIn p
  | [] => false
/-- Seal what is due, then leave DRAINING where nothing is held (09, Table 9.1). -/
def State.settle (s : State) (f : FoldId) : State :=
  let x := s.fold f
  if x.st ≠ .draining then s else
    let s := if x.sealDue s.now then (match x.led.closing with | p :: _ => s.sealClosing f (sealTick x p) | [] => s) else s
    s.tryStopped f

/-! ## FOLD_START and FRAME_OPEN -/

/-- The run state at frame zero: peer set, phase, first Scoring frame; the pool of 4C result credits is free but for results still held
(08, R209; 11, R313). -/
def State.runFold (s : State) (f : FoldId) : State :=
  let x := s.fold f
  s.modFold f fun y => { y with
    run := { y.run with neighbours := s.jobNeighbours x, role := x.firstRole, pos := 0 }
    grow := { y.grow with phase := if x.growingNow then 1 else 2, scoringFrom := if x.growingNow then none else some 0 } }
/-- FOLD_START: at LaunchAt an ARMED Fold whose cut-off passed starts frame zero on every quadrant (02, R42, R43). -/
def execFoldStart (t : Nat) (f : FoldId) (s : State) : Out :=
  let s := s.tick t
  let x := s.fold f
  if s.power.halted || x.st ≠ .armed || !x.run.cutoffOk || x.run.aborted || decide (s.now < x.run.launchAt) then .next s else
    match s.findMapping f with
    | none => .next ((s.setSt f .running).noMapping f)
    | some m => .next ((((s.installMapping f m.id).setSt f .running).runFold f).openFrame f 0)
/-- FRAME_OPEN: the next frame opens once the frame before it has closed (10, R270). -/
def execFrameOpen (t : Nat) (f : FoldId) (s : State) : Out :=
  let s := s.tick t
  let x := s.fold f
  if s.power.halted || !x.live || !x.run.started || !x.run.closed || x.segmentOver || decide (s.now < x.tickOf x.run.opened) then .next s
  else .next ((s.openFrame f x.run.opened).settle f)

/-! ## The cycle ledger (02, R47 to R49; 14, R398) -/

/-- TIMING_DIVERGENCE of a quadrant, stamped with the closing tick; it withholds the frame or replays the step, and counts
towards quarantine (02; 14, R410). -/
def State.diverge (s : State) (f : FoldId) (q : QuadId) (predicted reported : Nat) : State :=
  let x := s.fold f
  let tick := x.tickOf (x.frame + 1)
  let s := s.modQuad q fun y => { y with divergences := y.divergences + 1 }
  let s := s.emitAt tick (unitQuad q) 0x0301 true (le 1 f.val ++ le 8 x.frame ++ le 3 predicted ++ le 3 reported)
  (s.frameFault f 0x0301).countFault q 0x0301 tick
/-- The mapping in force uses the quadrant, and the Fold owns tiles in it. -/
def State.quadIn (s : State) (f : FoldId) (q : QuadId) : Bool := match (s.fold f).mapEntry with
  | some m => bit m.quads q.val && decide (0 < (s.foldCfg f).plotsIn q.val)
  | none => false
/-- Compare one quadrant of the mapping at the close of a frame. A precise fault, a mismatch raised at B and a quadrant out
of service are not compared. -/
def State.compareQuad (s : State) (f : FoldId) (q : QuadId) : State :=
  let x := s.fold f
  if !s.quadIn f q || !x.live || x.run.idle || vget x.run.precise q || vget x.run.overrun q || !s.quadHealthy q then s
  else if vget x.run.finish q = x.predictedFor q then s
  else s.diverge f q (x.predictedFor q) (vget x.run.finish q)
/-- A quarantined or failed quadrant of the mapping withholds every Scoring frame (14, R411). -/
def State.sickQuads (s : State) (f : FoldId) : State :=
  let x := s.fold f
  match x.mapEntry with
  | none => s
  | some m => (List.finRange 4).foldl (fun s (q : QuadId) =>
      if bit m.quads q.val && decide (0 < (s.foldCfg f).plotsIn q.val) && !s.quadHealthy q && !x.growingNow then
        s.causeFrame f (if (s.quad q).failed then 0x0308 else 0x0307)
      else s) s
/-- Some context of the Fold in the quadrant still has work. -/
def State.quadBusy (s : State) (f : FoldId) (q : QuadId) : Bool :=
  (s.foldCfg f).tiles.any fun t => quadOfTile t == q && (s.tile t).ctxs.toList.any fun c => !c.ended && !c.stopped
/-- CYCLE_BUDGET_EXPIRY: a quadrant with a context still busy at cycle B mismatches at B at once (02, Corners). -/
def execCycleBudgetExpiry (t : Nat) (f : FoldId) (q : QuadId) (s : State) : Out :=
  let s := s.tick t
  let x := s.fold f
  match x.load with
  | none => .next s
  | some l =>
    let b := budget x.period l.op
    let due := decide (x.tickOf x.frame + ceilDiv (b * (opRatio l.op).2) (opRatio l.op).1 ≤ s.now)
    if s.power.halted || !x.live || x.run.closed || !x.run.started || x.run.idle || vget x.run.overrun q || vget x.run.precise q || !due ||
      !s.quadIn f q || !s.quadHealthy q || !s.quadBusy f q
    then .next s
    else .next ((s.modFold f fun y => { y with run := { y.run with overrun := vset y.run.overrun q true } }).diverge f q (x.predictedFor q) b)

end Sys2Proof.Machine
end

