-- ==== Sys2Proof/Machine/Flags.lean ====
section
/-! DEFINITION. The one-bit results of the comparator array and what they do to the leaf bank: lane tests, missing detectors,
exclusion masks, exit leaves (05, 06). -/

namespace Sys2Proof.Machine

/-- One lane of a column group (05, Table 5.2; `Config.laneFields`). -/
structure Lane where
  mode : Nat
  pos : Nat
  code : Nat
  ge : Bool
  dflt : Bool
  start : Nat
  width : Nat
  maskAt : Nat
  index : Nat
  deriving DecidableEq, Repr

/-- Nodes of a column group in a mode (05, Table 5.2). -/
def lanesPerGroup (mode : Nat) : Nat := match mode with
  | 0 => 4
  | 1 => 2
  | _ => 1
/-- The lane tests codes; any other entry of a group's fields only names a segment. -/
def Lane.tests (l : Lane) : Bool := decide (l.mode ≤ 3)
/-- Lanes of one group: all in the mode of its first, and no more than the mode has nodes (05, R106, Table 5.2). -/
def groupLanes (ls : List Lane) : List Lane := match ls.filter Lane.tests with
  | [] => []
  | x :: r => ((x :: r).filter fun l => l.mode == x.mode).take (lanesPerGroup x.mode)
/-- Lanes and segment names of a column group's 16 bytes of node plane. -/
def lanesOf (b : Bytes) : List Lane :=
  let ls := (Config.laneFields b).map fun (m, p, c, g, d, s, w, k, i) => (⟨m, p, c, g, d, s, w, k, i⟩ : Lane)
  groupLanes ls ++ ls.filter fun l => !l.tests
/-- Code width of a mode; membership works on 8-bit codes (05, Table 5.2; 04, R85). -/
def laneWidth (mode : Nat) : Nat := match mode with
  | 0 => 4
  | 2 => 16
  | _ => 8
/-- Code at a position of a row window, in units of its width (05, The comparator array). -/
def windowCode (w : Bytes) (width pos : Nat) : Nat := leNat w / 2 ^ (width * pos) % 2 ^ width
/-- Threshold test: D for the missing code, else code < s under LT and code ≥ s under GE (05, R108). -/
def threshold (width code s : Nat) (ge d : Bool) : Bool :=
  if code = missingCode width then d else if ge then decide (s ≤ code) else decide (code < s)
/-- Membership test: bit [code] of the 256-bit mask (05, R109). -/
def member (mask : Nat) (code : Nat) : Bool := bit mask code
/-- Result of a lane on a row window; a lane that only names a segment is true. -/
def laneTest (plane : Nat → Nat → Bytes) (w : Bytes) (l : Lane) : Bool :=
  let code := windowCode w (laneWidth l.mode) l.pos
  if l.mode = 3 then member (leNat (plane l.code 32)) code
  else if !l.tests then true
  else threshold (laneWidth l.mode) code l.code l.ge l.dflt
/-- Index mode: a 1 at every leaf whose index has bit k set (06, R144). -/
def indexMask (width k : Nat) : Nat := ((List.range width).map fun i => b2n (bit i k) * 2 ^ i).sum
/-- Exclusion mask of a lane over its segment: generated in index mode, else from the mask plane (05, R112; 06, R144). -/
def lanemask (plane : Nat → Nat → Bytes) (l : Lane) : Nat :=
  if 0 < l.index then indexMask l.width (l.index - 1) else leNat (plane l.maskAt (ceilDiv l.width 8)) % 2 ^ l.width
/-- AND a mask into a segment of the leaf bank (05, R112). -/
def andSegment (bank : BitVec 256) (start width mask : Nat) : BitVec 256 :=
  bank &&& BitVec.ofNat 256 (2 ^ 256 - 1 - (2 ^ width - 1 - mask % 2 ^ width) * 2 ^ start)
/-- The bank of a row after every lane of a pass: lanes whose result is 0 AND their masks (05, R112). -/
def passRow (plane : Nat → Nat → Bytes) (w : Bytes) (ls : List Lane) (bank : BitVec 256) : BitVec 256 :=
  ls.foldl (fun b l => if laneTest plane w l then b else andSegment b l.start l.width (lanemask plane l)) bank
/-- Exit leaf of a segment: its lowest set bit, none where no bit is set (05, R114, R115). -/
def exitLeaf (bank : BitVec 256) (start width : Nat) : Option Nat :=
  (List.range width).find? fun i => bank.getLsbD (start + i)
/-- Segments that lanes name, ascending, each once. -/
def addSegments (segs : List (Nat × Nat)) (ls : List Lane) : List (Nat × Nat) :=
  let add := fun (l : List (Nat × Nat)) (e : Nat × Nat) =>
    if l.contains e then l else l.filter (fun x => x.1 < e.1) ++ [e] ++ l.filter (fun x => e.1 ≤ x.1)
  ls.foldl (fun a l => if l.width = 0 then a else add a (l.start, l.width)) segs

end Sys2Proof.Machine
end

