-- ==== Sys2Proof/Machine/Tile.lean ====
section
/-! DEFINITION. What the operations of the comparator array, the leaf-mask network, the accumulators, the multipliers, the Sheaf
units and the tile-store transfers compute, on the tile alone (05, 06; 19, Table 19.11). -/

namespace Sys2Proof.Machine

/-! ## Loads of the operand registers -/

/-- Pieces (value, bits) of a packed row of `len` bits with 12-bit codes at the listed bits: code k becomes k in 16 bits, and
0xFFF becomes 0xFFFF (05, R107). -/
def expand12 (v len : Nat) : List Nat → Nat → List (Nat × Nat)
  | [], pos => [(v / 2 ^ pos % 2 ^ (len - pos), len - pos)]
  | st :: r, pos =>
    let c := v / 2 ^ st % 4096
    (v / 2 ^ pos % 2 ^ (st - pos), st - pos) :: (if c = 0xFFF then 0xFFFF else c, 16) :: expand12 v len r (st + 12)
/-- Pieces joined, the first lowest: value and bits. -/
def joinBits : List (Nat × Nat) → Nat × Nat
  | [] => (0, 0)
  | (v, n) :: r => let (w, m) := joinBits r; (v + w * 2 ^ n, n + m)
/-- A row window's bytes from the packed row at its address (05, R107). -/
def windowRow (addr width : Nat) (b : Bytes) : Bytes :=
  let (v, n) := joinBits (expand12 (leNat b) (8 * b.length) (Config.packed12 addr width) 0)
  (le (ceilDiv n 8) v).take 128
/-- LDWIN: W bytes per row for 256 rows into one window (05, R111). -/
def Tile.ldwin (x : Tile) (w addr width : Nat) : Tile :=
  let put := fun (m : SMap Byte) (r : Nat) => mwrite m ((w % 2 * 256 + r) * 128) (windowRow addr width (mread x.mem (addr + r * width) width))
  { x with win := (List.range 256).foldl put x.win }
/-- LDNODE: a node plane of 1 KiB into one latch. -/
def Tile.ldnode (x : Tile) (l addr : Nat) : Tile := { x with node := mwrite x.node (l % 2 * 1024) (mread x.mem addr 1024) }
/-- LDMASK: a mask plane into one latch. -/
def Tile.ldmask (x : Tile) (l addr len : Nat) : Tile := { x with mask := mwrite x.mask (l % 2 * 8192) (mread x.mem addr len) }
/-- LDLEAF: leaf values or linear-leaf records into the leaf latch. -/
def Tile.ldleaf (x : Tile) (addr len : Nat) : Tile := { x with leaf := mwrite x.leaf 0 (mread x.mem addr len), leafLen := len }
/-- LDACT: 64 activation bytes for each of 256 rows. -/
def Tile.ldact (x : Tile) (addr : Nat) : Tile := { x with act := mwrite x.act 0 (mread x.mem addr 16384) }

/-! ## Pass and resolve (05, R106 to R115) -/

/-- A leaf-bank row of all ones. -/
def allOnes : BitVec 256 := BitVec.ofNat 256 (2 ^ 256 - 1)
/-- Lanes of a node latch, group by group. -/
def Tile.lanes (x : Tile) (l : Nat) : List Lane := (List.range 64).flatMap fun g => lanesOf (mread x.node (l * 1024 + 16 * g) 16)
/-- Bytes of a mask plane. -/
def Tile.plane (x : Tile) (l off len : Nat) : Bytes := mread x.mask (l * 8192 + off) len
/-- Bytes of a row window. -/
def Tile.window (x : Tile) (w r : Nat) : Bytes := mread x.win ((w * 256 + r) * 128) 128
/-- Leaf bank of a row. -/
def Tile.bankRow (x : Tile) (r : Nat) : BitVec 256 := mget allOnes x.bank r
/-- PASS: 256 rows against every lane (05, R106, R112). -/
def Tile.pass (x : Tile) (w l : Nat) : Tile :=
  let ls := x.lanes (l % 2)
  let put := fun (m : SMap (BitVec 256)) (r : Nat) => mset allOnes m r (passRow (x.plane (l % 2)) (x.window (w % 2) r) ls (x.bankRow r))
  { x with bank := (List.range 256).foldl put x.bank
           segs := addSegments x.segs ls }
/-- Accumulator of a row and lane. -/
def Tile.accOf (x : Tile) (r lane : Nat) : BitVec 48 := mget 0 x.acc (r * 16 + lane % 16)
/-- Write an accumulator lane, row by row (05, R116). -/
def Tile.setLane (x : Tile) (lane : Nat) (v : Nat → BitVec 48) : Tile :=
  let put := fun (m : SMap (BitVec 48)) (r : Nat) => mset 0 m (r * 16 + lane % 16) (v r)
  { x with acc := (List.range 256).foldl put x.acc }
/-- A 48-bit pattern of an integer. -/
def bv48 (n : Int) : BitVec 48 := BitVec.ofInt 48 n
/-- A segment has no set bit in some row (05, R115). -/
def Tile.emptySegment (x : Tile) (segs : List (Nat × Nat)) : Bool :=
  (List.range 256).any fun r => segs.any fun g => (exitLeaf (x.bankRow r) g.1 g.2).isNone
/-- Exit-leaf value of a segment in a row: a 32-bit leaf value of the leaf latch, by bank index (05, R114). -/
def Tile.leafAt (x : Tile) (r : Nat) (g : Nat × Nat) : Int := match exitLeaf (x.bankRow r) g.1 g.2 with
  | some i => signed 32 (leNat (mread x.leaf (4 * (g.1 + i)) 4))
  | none => 0
/-- RESOLVE: sums of exit-leaf values into one lane, the bank back to all ones (05, R114). -/
def Tile.resolve (x : Tile) (lane : Nat) : Tile :=
  let y := x.setLane lane fun r => x.accOf r lane + bv48 (x.segs.map (x.leafAt r)).sum
  { y with bank := [], segs := [] }

/-! ## Linear leaves (04, R104; 05, R117) -/

/-- Zero points of the activation window, in the order of the linear inputs (DEDUCED, log entry 17). -/
def zeroPoints (l : Loaded) : List Nat := ((l.features.zipIdx).filter fun e => e.1.linear).map fun e =>
  match findCut l.cuts e.2 1 with
  | some c => zeroPoint c
  | none => 0
/-- c + acc × 2^h of a linear-leaf record on a row's activations (05, Table 5.3; 04, R104). -/
def linearValue (rec24 acts : Bytes) (zs : List Nat) : Int :=
  let acc := ((List.range 8).map fun k =>
    let sel := fld rec24 (12 + k) 1 % 64
    (((fld acts sel 1 : Nat) : Int) - (zs.getD sel 0 : Nat)) * fldS rec24 (4 + k) 1).sum
  fldS rec24 0 4 + signed 32 (wrap 32 acc) * 2 ^ fld rec24 20 1
/-- Contribution of a linear segment in a row. -/
def Tile.linearAt (x : Tile) (zs : List Nat) (r : Nat) (g : Nat × Nat) : Int := match exitLeaf (x.bankRow r) g.1 g.2 with
  | some i => linearValue (mread x.leaf (24 * (g.1 + i)) 24) (mread x.act (r * 64) 64) zs
  | none => 0
/-- A leaf-bank row with one segment back at all ones. -/
def fillSegment (g : Nat × Nat) (b : BitVec 256) : BitVec 256 := b ||| BitVec.ofNat 256 ((2 ^ g.2 - 1) * 2 ^ g.1)
/-- LINRES: the first segment still to be resolved, for all rows; its bits go back to ones (05, R117; DEDUCED, log entry 39). -/
def Tile.linres (x : Tile) (zs : List Nat) (lane : Nat) : Tile := match x.segs with
  | [] => x
  | g :: r =>
    let put := fun (m : SMap (BitVec 256)) (i : Nat) => mset allOnes m i (fillSegment g (x.bankRow i))
    let y := x.setLane lane fun i => x.accOf i lane + bv48 (x.linearAt zs i g)
    { y with bank := (List.range 256).foldl put x.bank, segs := r }

/-! ## Accumulators (19, Table 19.11) -/

/-- FIX48 score of a row in a score image. -/
def Tile.scoreAt (x : Tile) (addr r : Nat) : BitVec 48 := BitVec.ofNat 48 (leNat (mread x.mem (addr + 6 * r) 6))
/-- LSTORE: a lane as FIX48. -/
def Tile.lstore (x : Tile) (lane addr : Nat) : Tile :=
  { x with mem := mwrite x.mem addr ((List.range 256).flatMap fun r => fix48 (x.accOf r lane)) }

/-! ## Sheaf units (05, R118 to R121) -/

/-- Signed 48-bit sum pair of a bin of a histogram image: 6 bytes G, 6 bytes H (05, Table 5.4). -/
def Tile.imageBin (x : Tile) (addr i : Nat) : Int × Int :=
  (fldS (mread x.mem (addr + 12 * i) 6) 0 6, fldS (mread x.mem (addr + 12 * i + 6) 6) 0 6)
/-- Add to one bin of a unit, modulo 2^48 (05, R121). -/
def Tile.addBin (x : Tile) (u bin : Nat) (g h : Int) : Tile :=
  let k := u * 256 + bin
  { x with binsG := mset 0 x.binsG k (mget 0 x.binsG k + bv48 g), binsH := mset 0 x.binsH k (mget 0 x.binsH k + bv48 h) }
/-- CLEAR: every bin of the units zero. -/
def Tile.clearBins (x : Tile) (us : List Nat) : Tile :=
  us.foldl (fun x u => { x with binsG := mdrop x.binsG (u * 256) (u * 256 + 256), binsH := mdrop x.binsH (u * 256) (u * 256 + 256) }) x
/-- STGT: the target node id of the units (05, R118). -/
def Tile.setTarget (x : Tile) (us : List Nat) (t : Nat) : Tile :=
  us.foldl (fun x u => if h : u < 4 then { x with target := x.target.set u (t % 2 ^ 16) h } else x) x
/-- Target of a unit. -/
def Tile.targetOf (x : Tile) (u : Nat) : Nat := if h : u < 4 then x.target[u] else 0

/-- RowCount of a block, which holds at most 4,096 rows (04, Table 4.5; DEDUCED, log entry 38). -/
def Tile.rowCount (x : Tile) (k : BlockAt) : Nat := min 4096 (leNat (mread x.mem (k.grad + 16) 2))
/-- Code of feature j of a quad in a row of the block, packed as Table 4.3 states (04, R83). -/
def Tile.codeAt (x : Tile) (l : Loaded) (k : BlockAt) (quad r j : Nat) : Nat :=
  let n := (l.quadPlaces quad).2
  l.codeIn quad j (mread x.mem (k.codes + n * r) n)
/-- Node id of a row of the block. -/
def Tile.nodeAt (x : Tile) (k : BlockAt) (r : Nat) : Nat := leNat (mread x.mem (k.nodes + 2 * r) 2)
/-- Gradient code of a row; the escape code contributes zero in UPDATE (05, R118). -/
def Tile.gradCode (x : Tile) (g4 : Bool) (k : BlockAt) (r : Nat) : Int :=
  if g4 then
    let v := signed 4 (leNat (mread x.mem (k.grad + 64 + r / 2) 1) / 16 ^ (r % 2))
    if v = -8 then 0 else v
  else
    let v := signed 8 (leNat (mread x.mem (k.grad + 64 + r) 1))
    if v = -128 then 0 else v
/-- Hessian code of a row; the escape code contributes zero in UPDATE. -/
def Tile.hessCode (x : Tile) (k : BlockAt) (r : Nat) : Int :=
  let v := leNat (mread x.mem (k.hess + 64 + r) 1)
  if v = 255 then 0 else v
/-- UPDATE: every row of a block whose node id equals a unit's target (05, R118). -/
def Tile.update (x : Tile) (l : Loaded) (us : List Nat) (addr quad : Nat) : Tile :=
  let k := blockFrom l.g4 addr
  (List.range (x.rowCount k)).foldl (fun y r =>
    us.foldl (fun y u => if x.nodeAt k r = x.targetOf u then y.addBin u (x.codeAt l k quad r u) (x.gradCode l.g4 k r) (x.hessCode k r) else y) y)
    { x with quad := quad }
/-- Step Δ of the block at an address. -/
def Tile.stepAt (x : Tile) (a : Nat) : Nat := stepOfWord (leNat (mread x.mem a 4))
/-- Side-list entry i of the block at an address. -/
def Tile.sideAt (x : Tile) (a i : Nat) : Nat :=
  leNat (mread x.mem (((a : Int) + fldS (mread x.mem (a + 24) 8) 0 8).toNat + 8 * i) 8)
/-- One side-list entry into the bins of the matching units: c = RNE(v / Δ) when VALID (05, R119). -/
def Tile.sideEntryInto (x : Tile) (l : Loaded) (k : BlockAt) (us : List Nat) (hess : Bool) (y : Tile) (i : Nat) : Tile :=
  let a := if hess then k.hess else k.grad
  let e := x.sideAt a i
  if !bit e 52 then y else
    let r := e % 4096
    let c := rneDiv (signed 40 (e / 4096)) (x.stepAt a)
    us.foldl (fun y u => if x.nodeAt k r = x.targetOf u then y.addBin u (x.codeAt l k x.quad r u) (if hess then 0 else c) (if hess then c else 0) else y) y
/-- SIDE: all 64 entries of both side lists of the block; the codes are those of the quad that UPDATE named (05, R119). -/
def Tile.side (x : Tile) (l : Loaded) (us : List Nat) (addr : Nat) : Tile :=
  let k := blockOfSide l.g4 addr
  (List.range 64).foldl (fun y i => x.sideEntryInto l k us true (x.sideEntryInto l k us false y i) i) x
/-- MERGE (sign 1) and SUB (sign −1) of 256-bin images, one per selected unit in ascending order (05, R121). -/
def Tile.mergeImages (x : Tile) (sign : Int) (us : List Nat) (addr : Nat) : Tile :=
  (us.zipIdx).foldl (fun y e => (List.range 256).foldl (fun y i =>
    let v := x.imageBin (addr + 3072 * e.2) i
    y.addBin e.1 i (sign * v.1) (sign * v.2)) y) x
/-- A unit's bins as an image. -/
def Tile.binImage (x : Tile) (u : Nat) : Bytes :=
  (List.range 256).flatMap fun i => le 6 (mget 0 x.binsG (u * 256 + i)).toNat ++ le 6 (mget 0 x.binsH (u * 256 + i)).toNat
/-- DRAIN: the bins of the units to tile store (05, Table 5.4). -/
def Tile.drain (x : Tile) (us : List Nat) (addr : Nat) : Tile := { x with mem := mwrite x.mem addr (us.flatMap x.binImage) }

/-! ## Stage binning and the pre-phase's sort -/

/-- Codes of SBIN: entries of the integer cut table at `cuts` that each row's score passes (06, R149). -/
def Tile.sbinCodes (x : Tile) (addr cuts e : Nat) : List Nat :=
  (List.range 256).map fun r =>
    let v := (x.scoreAt addr r).toInt
    ((List.range e).filter fun i =>
      let t := fldS (mread x.mem (cuts + 8 * i) 8) 0 8
      if bit (leNat (mread x.mem (cuts + 8 * e + i / 8) 1)) (i % 8) then decide (t < v) else decide (t ≤ v)).length
/-- Insert into an ascending list. -/
def insInt (v : Int) : List Int → List Int
  | [] => [v]
  | x :: r => if v ≤ x then v :: x :: r else x :: insInt v r
/-- Ascending order. -/
def sortInts (l : List Int) : List Int := l.foldr insInt []
/-- Signed 64-bit values at an address. -/
def Tile.values (x : Tile) (addr n : Nat) : List Int := (List.range n).map fun i => fldS (mread x.mem (addr + 8 * i) 8) 0 8
/-- Write values in ascending order in place (DESIGN CHOICE, log entry 11). -/
def Tile.sortInPlace (x : Tile) (addr n : Nat) : Tile :=
  let v := sortInts (x.values addr n)
  { x with mem := mwrite x.mem addr (v.flatMap fun n => le 8 (wrap 64 n)), grad := { x.grad with sorted := v } }
/-- Values of a sorted list at its distinct places. -/
def distinctInts : List Int → List Int
  | [] => []
  | [a] => [a]
  | a :: b :: r => if a = b then distinctInts (b :: r) else a :: distinctInts (b :: r)
/-- Cut values of N sorted values for a width w: every distinct value above the smallest, or the values at ranks
floor(j × N / (2^w − 1)), duplicates removed (07, R164). -/
def cutValues (w : Nat) (v : List Int) : List Int :=
  let u := distinctInts v
  if u.length ≤ 2 ^ w - 1 then u.drop 1
  else distinctInts ((List.range (2 ^ w - 2)).map fun j => v.getD ((j + 1) * v.length / (2 ^ w - 1)) 0)

/-! ## Transfers -/

/-- COPY within a tile. -/
def Tile.copy (x : Tile) (src dst len : Nat) : Tile := { x with mem := mwrite x.mem dst (mread x.mem src len) }
/-- ZERO. -/
def Tile.zero (x : Tile) (addr len : Nat) : Tile := { x with mem := mdrop x.mem addr (addr + len) }

end Sys2Proof.Machine
end

