-- ==== Sys2Proof/Machine/Train.lean ====
section
/-! DEFINITION. The operations of the gradient unit: losses, max-reduction, quantisation, the counter generator, split finding,
partition, leaf values, margins (04, 05, 07; 19, Table 19.11). -/

namespace Sys2Proof.Machine

/-! ## Job and progress -/

/-- Figures of an output in the running gradient step. -/
def OutScale.zero : OutScale := ⟨0, 0, 0, 0, 0, 0, 0, 0⟩
def Grow.scaleOfOut (g : Grow) (c : Nat) : OutScale := g.scales.getD c OutScale.zero
/-- Change the figures of one output. -/
def Grow.modScale (g : Grow) (c : Nat) (k : OutScale → OutScale) : Grow :=
  let l := g.scales ++ List.replicate (c + 1 - g.scales.length) OutScale.zero
  { g with scales := l.set c (k (l.getD c OutScale.zero)) }
/-- Margin of a row and class in a bank (07, R161). -/
def Grow.margin (g : Grow) (row c bank : Nat) : BitVec 48 := mget 0 g.margins ((row * 256 + c) * 2 + bank)
def Grow.setMargin (g : Grow) (row c bank : Nat) (v : BitVec 48) : Grow := { g with margins := mset 0 g.margins ((row * 256 + c) * 2 + bank) v }
/-- Node id of a row in a bank (07, R160). -/
def Grow.node (g : Grow) (row bank : Nat) : Nat := mget 0 g.nodes (2 * row + bank)
def Grow.setNode (g : Grow) (row bank v : Nat) : Grow := { g with nodes := mset 0 g.nodes (2 * row + bank) v }
/-- The bank that is not read. -/
def otherBank (b : Nat) : Nat := (b + 1) % 2
/-- Split record of a node of the running tree. -/
def Grow.recAt (g : Grow) (heap : Nat) : Option SplitRec := g.partialTree.find? fun r => r.heap == heap
/-- Put a record in its place. -/
def Grow.putRec (g : Grow) (r : SplitRec) : Grow := { g with partialTree := g.partialTree.filter (fun x => x.heap != r.heap) ++ [r] }
/-- Steps Δg and Δh of the class whose tree grows. -/
def Grow.steps (g : Grow) : Nat × Nat := (stepOfWord (g.scaleOfOut g.cls).stepG, stepOfWord (g.scaleOfOut g.cls).stepH)

/-! ## Gradients (05, Table 5.5; 07, R167, R531) -/

/-- Source type that a label has under a loss: int64 for a raw value, any integer type for a class, a relevance, a logistic label and the
label of a custom loss (07, Table 7.9; DEDUCED, log entry 62). -/
def labelType (loss k typ : Nat) : Bool :=
  if k ≤ 1 ∧ [1, 4, 5, 6, 7].contains loss then typ == 0x14 else [0x11, 0x12, 0x13, 0x14, 0x21, 0x22, 0x23, 0x24].contains typ
/-- Plain integer that a feature entry holds in a row, read under R504; none where it is absent. -/
def plainInt (l : Loaded) (typeOk : Nat → Bool) (i : Option Nat) (b : Bytes) : Option Int := match i with
  | none => none
  | some i => match l.features[i]? with
    | none => none
    | some ft => match featBytes l.presence l.features.length i ft b with
      | none => none
      | some x => match (srcVal ft.typ x).1 with
        | .fin n => if typeOk ft.typ then some n else none
        | _ => none
/-- Label and row weight of a row, read from the row's own entries and never binned (07, R531). -/
def labelOf (l : Loaded) (b : Bytes) : Option Int := plainInt l (labelType l.jobOr.loss l.jobOr.outputs) l.jobOr.label b
def weightOf (l : Loaded) (b : Bytes) : Option Nat := (plainInt l (· == 0x22) l.jobOr.weight b).map Int.toNat
/-- Keep the label and the row weight of a row for the job's gradient steps. -/
def Grow.keepLabel (l : Loaded) (row : Nat) (b : Bytes) (g : Grow) : Grow :=
  { g with labels := mset none g.labels row (labelOf l b), weights := mset none g.weights row (weightOf l b) }
/-- Label of a row in its loss's domain. -/
def Grow.label (g : Grow) (loss k row : Nat) : Option Int := match mget none g.labels row with
  | none => none
  | some y => if labelOk loss k y then some y else none
/-- Row weight with 8 fraction bits; 1.0 where the row has none (07, R531). -/
def Grow.weight (g : Grow) (row : Nat) : Nat := (mget none g.weights row).getD 256
/-- Rows that an operation over `b` groups of 64 rows takes. -/
def feedRows (feed : Feed) (b : Nat) : List GRow := feed.rows.take (64 * b)
/-- Exact g and h of output c of a row (05, R122, R123). -/
def rowGH (l : Loaded) (j : Job) (g : Grow) (loss : Nat) (r : GRow) (c : Nat) : Int × Int :=
  if r.pad then (0, 0) else
    let ms := (List.range j.outputs).map fun k => (g.margin r.row k g.marginBank).toInt
    match g.label loss j.outputs r.row with
    | none => (0, 0)
    | some y =>
      let gh := if loss = 0x0100 then Config.customLoss l.resultDigest ms (some y) c else lossGH loss j.lossParam ms c (labelFor loss j.outputs c y)
      writeGH (g.weight r.row) gh
/-- Rows cut into slots of G (05, R124). -/
def slotsOf (n : Nat) : Nat → List GRow → List (List GRow)
  | 0, _ => []
  | k + 1, r => if r.isEmpty || n = 0 then [] else r.take n :: slotsOf n k (r.drop n)
/-- g and h of the rows of a ranking slot (05, R122, R124). -/
def slotGH (g : Grow) (rs : List GRow) : List (Int × Int) :=
  let live := rs.map fun r => if r.pad then none else (g.label 8 1 r.row).map fun y => ((g.margin r.row 0 g.marginBank).toInt, y.toNat)
  ((rankGH live).zip rs).map fun e => writeGH (g.weight e.2.row) e.1
/-- Exact (g, h) of every row and output, key row × 256 + output. -/
def lossTable (l : Loaded) (j : Job) (g : Grow) (loss : Nat) (rs : List GRow) : List (Nat × Int × Int) :=
  if loss = 8 then ((slotsOf j.lossParam.toNat rs.length rs).flatMap fun sl => ((slotGH g sl).zip sl).map fun e => (e.2.row * 256, e.1.1, e.1.2))
  else rs.flatMap fun r => (List.range j.outputs).map fun c => let v := rowGH l j g loss r c; (r.row * 256 + c, v.1, v.2)
/-- Rows with an absent or invalid label that the round has not counted yet (07, R167). -/
def newBadRows (j : Job) (g : Grow) (loss : Nat) (rs : List GRow) : List Nat :=
  ((rs.filter fun r => !r.pad && (g.label loss j.outputs r.row).isNone).map (·.row)).filter fun r => !g.badRows.contains r
/-- Exact (g, h) that LOSS left for a row and output; an ISOLATION job's rows carry 0 and 1.0 (07, R185). -/
def Tile.ghOf (x : Tile) (j : Job) (row c : Nat) : Int × Int :=
  if j.kind = 2 then (0, one24) else match x.grad.gh.find? fun e => e.1 == row * 256 + c with
    | some e => e.2
    | none => (0, 0)
/-- MAXR: the largest |g| and h of the rows enter the round's maxima (05, R125; 04, R90). -/
def maxReduce (x : Tile) (j : Job) (rs : List GRow) (g : Grow) : Grow :=
  (List.range j.outputs).foldl (fun g c => g.modScale c fun s =>
    (rs.filter fun r => !r.pad).foldl (fun s r =>
      let v := x.ghOf j r.row c
      { s with maxG := max s.maxG v.1.natAbs, maxH := max s.maxH v.2.toNat }) s) g

/-! ## Quantisation (04, R91 to R96) -/

/-- Record of the running round in the scale history, where a restored round's head runs again (12, R532). -/
def Grow.recordOf (g : Grow) (c : Nat) : Option ScaleRec :=
  if g.restored.any (·.2.2) then g.history.find? fun e => e.output == c && e.round == g.round else none
/-- Scale source of a tensor: the round's own maximum in two-pass form, else the largest of rounds r − 4 to r − 1 (04, R91). A restored
round takes its own maximum from the history (12, R532). -/
def Grow.source (g : Grow) (c : Nat) (hess : Bool) : Nat :=
  let own := match g.recordOf c with
    | some e => if hess then e.maxH else e.maxG
    | none => if hess then (g.scaleOfOut c).maxH else (g.scaleOfOut c).maxG
  if g.twoPass then own else
    scaleSource ((g.history.filter fun e => e.output == c && decide (e.round < g.round ∧ g.round ≤ e.round + 4)).map fun e => if hess then e.maxH else e.maxG)
/-- Scale word recorded for the running round, where a restored round's head runs again (12, R532). -/
def Grow.recorded (g : Grow) (c : Nat) (hess : Bool) : Option Nat := (g.recordOf c).map fun e => if hess then e.stepH else e.stepG
/-- Scale word of a tensor; an ISOLATION job's step is 2^24 (04, R92; 07, R185). -/
def Grow.word (g : Grow) (j : Job) (c : Nat) (hess : Bool) : Nat := match g.recorded c hess with
  | some w => w
  | none => if j.kind = 2 then 0x118 else scaleWord (scaleOf (g.source c hess) (codeLimit hess j.gradWidth))
/-- Codes packed one per byte, or two per byte with the lower-numbered row in [3:0] (04, Table 4.3). -/
def packRows (four : Bool) (cs : List Int) : Bytes :=
  if four then (List.range (ceilDiv cs.length 2)).map fun i => BitVec.ofNat 8 (wrap 4 (cs.getD (2 * i) 0) + 16 * wrap 4 (cs.getD (2 * i + 1) 0))
  else cs.map fun c => BitVec.ofNat 8 (wrap 8 c)
/-- One quantised row: its integer, its code, and its side-list entry when it escapes (04, R93). -/
structure QRow where
  c : Int
  code : Int
  side : Option Nat
  deriving DecidableEq, Repr
/-- Escape code of a tensor (04, Table 4.4). -/
def escapeCode (hess : Bool) (gradWidth : Nat) : Int := if hess then 255 else if gradWidth = 4 then -8 else -128
/-- Quantise one value of the row at an offset. -/
def quantRow (step limit : Nat) (esc : Int) (off : Nat) (v : Int) : QRow :=
  let c := quant v step
  if escapes c limit then ⟨c, esc, some (sideEntry off v)⟩ else ⟨c, c, none⟩
/-- Block of a tensor: header, codes, side-list region (04, Tables 4.5 and 4.6). -/
def tensorBlock (word round block rows kind pass : Nat) (four : Bool) (qs : List QRow) : Bytes :=
  let esc := qs.filterMap (·.side)
  let codes := padTo (if four then 2048 else 4096) (packRows four (qs.map (·.code)))
  padTo 64 (le 4 word ++ le 4 round ++ le 8 block ++ le 2 rows ++ le 2 (min esc.length 65) ++ le 1 kind ++ le 1 pass ++ le 2 0 ++
    le 8 (64 + codes.length)) ++ codes ++ padTo 512 ((esc.take 64).flatMap (le 8))
/-- The quantised rows of tensor `t` (2 × output, plus 1 for the hessian; DESIGN CHOICE, log entry 11). -/
def quantRows (x : Tile) (j : Job) (g : Grow) (t : Nat) (rs : List GRow) : List QRow :=
  let c := t / 2
  let hess := t % 2 == 1
  let step := stepOfWord (g.word j c hess)
  let lim := codeLimit hess j.gradWidth
  rs.map fun r =>
    let v := x.ghOf j r.row c
    if r.pad then ⟨0, 0, none⟩ else quantRow step lim (escapeCode hess j.gradWidth) r.row (if hess then v.2 else v.1)
/-- Block index of the rows of one block. -/
def blockOfRows (rs : List GRow) : Nat := match rs with
  | r :: _ => r.row / 4096
  | [] => 0
/-- RowCount of a block: 4,096, and in the job's last block what is left of the job's rows; padding rows count (04, Table 4.5). -/
def Grow.blockRows (g : Grow) (b : Nat) : Nat := min 4096 (g.rowTotal - 4096 * b)
/-- QUANT's block in tile store. -/
def Tile.quantInto (x : Tile) (j : Job) (g : Grow) (t addr : Nat) (rs : List GRow) : Tile :=
  let hess := t % 2 == 1
  let four := !hess && j.gradWidth == 4
  let b := tensorBlock (g.word j (t / 2) hess) g.round (blockOfRows rs) (g.blockRows (blockOfRows rs))
    (if hess then 2 else if four then 1 else 0) (b2n g.twoPass) four (quantRows x j g t rs)
  { x with mem := mwrite x.mem addr b }
/-- QUANT's figures: scale word and source, the total of |c|, and SCALE_MISS of a block with more than 64 escapes (04, R97, R98). -/
def quantFigures (x : Tile) (j : Job) (t : Nat) (rs : List GRow) (g : Grow) : Grow :=
  let c := t / 2
  let hess := t % 2 == 1
  let qs := quantRows x j g t rs
  let tot := (qs.map fun q => q.c.natAbs).sum
  let w := g.word j c hess
  let src := if j.kind = 2 then 0 else g.source c hess
  let g' := g.modScale c fun s => if hess then { s with totH := s.totH + tot, stepH := w, srcH := src } else { s with totG := s.totG + tot, stepG := w, srcG := src }
  if 64 < (qs.filterMap (·.side)).length && !g.twoPass then { g' with miss := some (match g.miss with | some b => min b (blockOfRows rs) | none => blockOfRows rs) } else g'

/-! ## Counter generator (07, Tables 7.2 and 7.3) -/

/-- Generator value of a row. -/
def genRow (j : Job) (g : Grow) (s row : Nat) : Nat := genU j.genKey s (if s = 0 then 0 else g.round) row
/-- Root node id of a row: 1, with OUT for a row outside the round's row sample (07, R160). -/
def rootId (j : Job) (g : Grow) (row : Nat) : Nat := if genRow j g 1 row < j.rowRate then 1 else 0x8001
/-- GEN's node ids in the read bank. -/
def genNodes (j : Job) (rs : List GRow) (g : Grow) : Grow :=
  (rs.filter fun r => !r.pad).foldl (fun g r => g.setNode r.row g.nodeBank (rootId j g r.row)) g

/-! ## Split finding (07, R174 to R179, R185) -/

/-- Features sampled in the round and at the running level, among those that are binned (07, R166, R531; streams 2 and 3). -/
def levelFeatures (l : Loaded) (j : Job) (g : Grow) : List Nat :=
  let round := selectFeatures (fun f => genU j.genKey 2 g.round f) ((List.range l.features.length).filter l.binned) j.colTree
  selectFeatures (fun f => genU j.genKey 3 g.round (f + 4096 * g.step)) round j.colLevel
/-- Width of a feature's code. -/
def featWidth (l : Loaded) (f : Nat) : Nat := match l.features[f]? with
  | some x => x.width
  | none => 8
/-- Cut count of a feature: its table's entries, or 2^w − 2 for a categorical one (04, R527). -/
def cutCount (l : Loaded) (f : Nat) : Nat := match l.features[f]? with
  | some x => if x.categorical then 2 ^ x.width - 2 else match findCut l.cuts f 0 with
    | some c => c.cuts.length
    | none => 0
  | none => 0
/-- Sum pair. -/
def sumPairs (p : List (Int × Int)) : Int × Int := ((p.map (·.1)).sum, (p.map (·.2)).sum)
/-- A node beneath an unsplit node accepts no candidate (07, R170). -/
def Grow.mayGrow (g : Grow) (heap : Nat) : Bool := decide (heap ≤ 1) || (match g.recAt (heap / 2) with
  | some r => r.valid
  | none => false)
/-- The node that a slot of the schedule stands for. Slot 1 is the root; of the children of a slot's node, the lighter is slot 2p and the
heavier slot 2p + 1, lighter meaning the smaller hessian sum of the node's record, with the true child on equality: the literals of
STGT, SCAN and IRANGE name slots, so that no program depends on data (07, R170; DESIGN CHOICE, log entry 64). -/
def Grow.slotNode (g : Grow) : Nat → Nat → Nat
  | 0, n => n
  | k + 1, n => if n ≤ 1 then n else
      let p := g.slotNode k (n / 2)
      let light := match g.recAt p with
        | some r => if r.valid && decide (r.hF < r.hT) then 2 * p + 1 else 2 * p
        | none => 2 * p
      if n % 2 = 0 then light else 4 * p + 1 - light
/-- Node of a slot number: a heap index of 15 bits has at most 14 ancestors. -/
def Grow.nodeOf (g : Grow) (n : Nat) : Nat := g.slotNode 15 n
/-- Range of feature quads that the card of a rank owns after the reduce-scatter over `n` cards: at dimension j it keeps the lower
ceil(count / 2) quads when bit j of its index is 0, else the upper ones; a tail rank has given everything away (07, R172; 11, R299). -/
def quadRange (n rank quads : Nat) : Nat × Nat :=
  if 2 ^ Nat.log2 n ≤ rank then (0, 0)
  else (List.range (Nat.log2 n)).foldl (fun r j =>
    let low := ceilDiv r.2 2
    if bit rank j then (r.1 + low, r.2 - low) else (r.1, low)) (0, quads)
/-- Feature quads of a bundle: 0 to ceil(F / 4) − 1 (07, Building and reducing histograms). -/
def Loaded.quads (l : Loaded) : Nat := ceilDiv l.features.length 4
/-- This card owns the quad of a feature in the running step. -/
def Grow.owns (g : Grow) (f : Nat) : Bool := decide (g.quads.1 ≤ f / 4 ∧ f / 4 < g.quads.1 + g.quads.2)
/-- One candidate's record where it is acceptable (07, R175 to R177). -/
def candidate (j : Job) (dg dh : Nat) (heap f s : Nat) (d : Bool) (bins : List (Int × Int)) (miss : Int × Int) : Option SplitRec :=
  let t0 := sumPairs (bins.take s)
  let f0 := sumPairs (bins.drop s)
  let t := if d then (t0.1 + miss.1, t0.2 + miss.2) else t0
  let e := if d then f0 else (f0.1 + miss.1, f0.2 + miss.2)
  let k := splitGain t.1 t.2 e.1 e.2 (lambdaC j.lambda dh)
  if t.2 < minHC j.minH dh || e.2 < minHC j.minH dh || k ≤ gammaC j.gamma dh dg then none
  else some ⟨heap, f, s, d, true, k, t.1, t.2, e.1, e.2⟩
/-- Better of two records for one node (07, R178; by stream 5 in an ISOLATION job, R185); an invalid record loses. -/
def betterRec (j : Job) (round : Nat) (a b : SplitRec) : Bool :=
  if !a.valid then false else if !b.valid then true
  else if j.kind = 2 then
    let u := fun (r : SplitRec) => genU j.genKey 5 round (r.heap * 4096 + r.feature)
    decide (u a < u b) || (u a == u b && decide (a.feature < b.feature))
  else better ⟨a.gain, a.feature, a.code, a.d⟩ ⟨b.gain, b.feature, b.code, b.d⟩
/-- The record of a node without an acceptable candidate: its own G and H (07, Table 7.5). -/
def leafRec (heap : Nat) (sum : Int × Int) : SplitRec := ⟨heap, 0, 0, false, false, 0, sum.1, sum.2, 0, 0⟩
/-- Enter a record among others for its node: the better stands. -/
def offerRec (j : Job) (round : Nat) (l : List SplitRec) (r : SplitRec) : List SplitRec :=
  if (l.find? fun x => x.heap == r.heap).all (betterRec j round r ·) then l.filter (fun x => x.heap != r.heap) ++ [r] else l
def Grow.offer (j : Job) (r : SplitRec) (g : Grow) : Grow := { g with partialTree := offerRec j g.round g.partialTree r }
/-- Value bins and missing bin of an image for a feature. -/
def Tile.featBins (x : Tile) (l : Loaded) (f addr : Nat) : List (Int × Int) × (Int × Int) :=
  let n := 2 ^ min (featWidth l f) 8 - 1
  ((List.range n).map (x.imageBin addr), x.imageBin addr n)
/-- The record that SCAN of one node and feature offers (07, R174 to R178). -/
def scanRec (x : Tile) (l : Loaded) (j : Job) (g : Grow) (f node addr : Nat) : SplitRec :=
  let (bins, miss) := x.featBins l f addr
  let tot := sumPairs (miss :: bins)
  let (dg, dh) := g.steps
  if !g.mayGrow node then leafRec node (0, 0)
  else if !(levelFeatures l j g).contains f then leafRec node tot
  else
    ((List.range (cutCount l f)).flatMap fun i => [(i + 1, false), (i + 1, true)]).foldl (fun best c =>
      match candidate j dg dh node f c.1 c.2 bins miss with
      | some r => if betterRec j g.round r best then r else best
      | none => best) (leafRec node tot)
/-- cmin and cmax: lowest and highest value bins with H > 0 (07, R185). -/
def binRange (bins : List (Int × Int)) : Option (Nat × Nat) :=
  let l := (bins.zipIdx).filter fun e => decide (0 < e.1.2)
  match l with
  | [] => none
  | e :: _ => some (e.2, (l.getLast?.map (·.2)).getD e.2)
/-- The record that IRANGE of one node and feature offers: split code by stream 4 between cmin and cmax (07, R185). -/
def irangeRec (x : Tile) (l : Loaded) (j : Job) (g : Grow) (f node addr : Nat) : SplitRec :=
  let (bins, miss) := x.featBins l f addr
  let tot := sumPairs (miss :: bins)
  if !g.mayGrow node then leafRec node (0, 0)
  else match binRange bins with
    | none => leafRec node (0, tot.2)
    | some (lo, hi) =>
      if hi ≤ lo || !(levelFeatures l j g).contains f then leafRec node (0, tot.2)
      else
        let s := lo + 1 + genU j.genKey 4 g.round (node * 4096 + f) % (hi - lo)
        let t := (sumPairs (bins.take s)).2
        ⟨node, f, s, false, true, 0, 0, t, 0, tot.2 - t⟩

/-! ## Split records in tile store (07, Table 7.5) -/

/-- The 64 bytes of a split record. -/
def recBytes (r : SplitRec) : Bytes :=
  padTo 64 (le 2 r.heap ++ le 2 r.feature ++ le 1 r.code ++ le 1 (b2n r.d + 2 * b2n r.valid) ++ le 2 0 ++ le 16 (wrap 128 r.gain) ++
    le 6 (wrap 48 r.gT) ++ le 6 (wrap 48 r.hT) ++ le 6 (wrap 48 r.gF) ++ le 6 (wrap 48 r.hF))
/-- The split record of 64 bytes. -/
def recOfBytes (b : Bytes) : SplitRec :=
  ⟨fld b 0 2, fld b 2 2, fld b 4 1, bit (fld b 5 1) 0, bit (fld b 5 1) 1, fldS b 8 16, fldS b 24 6, fldS b 30 6, fldS b 36 6, fldS b 42 6⟩
/-- BEST: the better of two records stands at the first address. -/
def Tile.bestInto (x : Tile) (j : Job) (round a b : Nat) : Tile :=
  let ra := mread x.mem a 64
  let rb := mread x.mem b 64
  if betterRec j round (recOfBytes rb) (recOfBytes ra) then { x with mem := mwrite x.mem a rb } else x

/-! ## Partition, leaves, margins (07, R180 to R183) -/

/-- Child of a node id for a code of its split feature (07, R180). -/
def childId (w : Nat) (r : SplitRec) (id code : Nat) : Nat :=
  let i := id % 2 ^ 15
  let c := if code = missingCode w then (if r.d then 2 * i else 2 * i + 1) else if code < r.code then 2 * i else 2 * i + 1
  c + (id / 2 ^ 15) * 2 ^ 15
/-- The node id that PART gives a row of a block for a feature quad. -/
def partId (x : Tile) (l : Loaded) (g : Grow) (k : BlockAt) (quad r : Nat) : Nat :=
  let id := x.nodeAt k r
  match g.recAt (id % 2 ^ 15) with
  | some rc => if rc.valid && rc.feature / 4 == quad then childId (featWidth l rc.feature) rc id (x.codeAt l k quad r (rc.feature % 4)) else id
  | none => id
/-- PART's node ids in the block. -/
def Tile.partInto (x : Tile) (l : Loaded) (g : Grow) (addr quad : Nat) : Tile :=
  let k := blockFrom l.g4 addr
  { x with mem := (List.range (x.rowCount k)).foldl (fun m r => mwrite m (k.nodes + 2 * r) (le 2 (partId x l g k quad r))) x.mem, quad := quad }
/-- Global row number of a row of a block (04, Table 4.5). -/
def Tile.globalRow (x : Tile) (k : BlockAt) (r : Nat) : Nat := leNat (mread x.mem (k.grad + 8) 8) * 4096 + r
/-- PART moves the rows whose node's record splits on a feature of the quad; a row at a node without a valid record keeps its id (07,
R180). A row that another quad's PART moves is left to that. -/
def partMoves (g : Grow) (quad id : Nat) : Bool := match g.recAt (id % 2 ^ 15) with
  | some rc => !rc.valid || rc.feature / 4 == quad
  | none => true
/-- PART's node ids in a bank: the one that the step did not read, or, while missing node ids are recomputed, the one that the step will
read (07, R161; 12, R351). -/
def partNodes (x : Tile) (l : Loaded) (addr quad bank : Nat) (g : Grow) : Grow :=
  let k := blockFrom l.g4 addr
  (List.range (x.rowCount k)).foldl (fun g' r =>
    if partMoves g quad (x.nodeAt k r) then g'.setNode (x.globalRow k r) bank (partId x l g k quad r) else g') g
/-- G and H of a leaf: an unsplit node's own, else those its parent's record gives that child (07, R181). -/
def Grow.leafSums (g : Grow) (heap : Nat) : Int × Int := match g.recAt heap with
  | some r => (r.gT, r.hT)
  | none => match g.recAt (heap / 2) with
    | some p => if !p.valid then (0, 0) else if heap % 2 = 0 then (p.gT, p.hT) else (p.gF, p.hF)
    | none => (0, 0)
/-- LEAFV: the value of a leaf (07, R181, R185). -/
def leafOf (j : Job) (g : Grow) (heap : Nat) : Int :=
  let (sg, sh) := g.leafSums heap
  if j.kind = 2 then isoLeaf (Nat.log2 heap) sh.toNat j.rounds
  else let (dg, dh) := g.steps; leafValue j.eta sg dg dh (gainDen sh (lambdaC j.lambda dh)) j.leafClamp
/-- MARGIN: read-bank margin plus leaf value into the write bank; FOREST and ISOLATION margins never change (07, R183). -/
def marginRows (x : Tile) (l : Loaded) (addr c : Nat) (g : Grow) : Grow :=
  if l.jobOr.kind ≠ 0 then g else
    let k := blockFrom l.g4 addr
    (List.range (x.rowCount k)).foldl (fun g' r =>
      let row := x.globalRow k r
      g'.setMargin row c (otherBank g.marginBank) (g.margin row c g.marginBank + bv48 (mget 0 g.leaves (x.nodeAt k r % 2 ^ 15)))) g

/-! ## Margins rebuilt after a restore (12, R351) -/

/-- Leaf value of a completed tree for the codes of a row: the walk of depth d, always to the true child below an unsplit node, whose
value fills every leaf beneath it (07, R180, R186). -/
def treeValue (l : Loaded) (t : GrownTree) (codes : Nat → Nat) : Int :=
  let d := l.jobOr.depth
  let leaf := (List.range d).foldl (fun id _ => match t.recs.find? fun r => r.heap == id && r.valid with
    | some r => childId (featWidth l r.feature) r id (codes r.feature)
    | none => 2 * id) 1
  t.leaves.getD (leaf - 2 ^ d) 0
/-- Trees of output `c` among the first `n` completed ones. -/
def Grow.treesOf (g : Grow) (c n : Nat) : List GrownTree := (g.trees.take n).filter fun t => t.output == c
/-- BaseScore plus the leaf values of trees of a row; margins of FOREST and ISOLATION jobs stay at BaseScore (07, R183). -/
def sumMargin (l : Loaded) (c : Nat) (ts : List GrownTree) (codes : Nat → Nat) : BitVec 48 :=
  bv48 (l.jobOr.base.getD c 0 + (if l.jobOr.kind = 0 then (ts.map fun t => treeValue l t codes).sum else 0))
/-- The margins of a row and class that a restored card lacks: in the read bank those of the completed rounds, and for a class that has
ended in the running round, in the write bank, those with its new tree. -/
def Grow.rebuildMargin (l : Loaded) (row c : Nat) (codes : Nat → Nat) (g : Grow) : Grow :=
  let n := g.round * l.jobOr.outputs
  let g' := g.setMargin row c g.marginBank (sumMargin l c (g.treesOf c n) codes)
  if c < g.cls then g'.setMargin row c (otherBank g.marginBank) (sumMargin l c (g.treesOf c g.trees.length) codes) else g'

end Sys2Proof.Machine
end

