-- ==== Sys2Proof/Machine/TileExec.lean ====
section
/-! DEFINITION. SCHEDULED_OPERATION: the barrel's issue rule, the effect of the operation, poison and parity, and the cycle
ledger's finish cycle (05, The barrel; 14, ECC and poison; 19, Table 19.11). Effects are applied at issue; what retires later
stands in `inflight`, `busy` and the finish cycle (DEDUCED, log entry 38). -/

namespace Sys2Proof.Machine

/-! ## Issue (05, R131 to R133) -/

/-- What LOSS costs under a bundle (05, Table 5.5). -/
def Loaded.lossCost (l : Loaded) : LossCost := ⟨l.jobOr.outputs, l.jobOr.lossParam.toNat, Config.customCycles l.resultDigest⟩
/-- Address offset of the open loops: stride times repetition (19, LOOP). -/
def Ctx.offset (c : Ctx) : Nat := (c.loops.map fun e => e.2.2.2.1 * e.2.2.2.2).sum
/-- Next operation of a context, its addresses moved by its open loops. -/
def Tile.nextOp (x : Tile) (i : Fin 16) : Option OpWord :=
  let c := vget x.ctxs i
  ((x.prog[c.pc]?).bind decodeOp).map fun w => { w with op := w.op.shift c.offset }
/-- Context of a cycle (05, R131). -/
def ctxOf (cycle : Nat) : Fin 16 := ⟨cycle % 16, by omega⟩
/-- GTC count of a core cycle of the open frame (02). -/
def Fold.cycleAt (x : Fold) (op : OpPoint) (cycle : Nat) : Nat := x.tickOf x.frame + cycle * (opRatio op).2 / (opRatio op).1
/-- Tile-store ranges that an operation reads, and writes, under a bundle. -/
def readsOf (l : Loaded) (o : TileOp) (feed : Feed) : List (Nat × Nat) := o.reads l.g4 feed.addr feed.output
def writesOf (l : Loaded) (o : TileOp) (feed : Feed) : List (Nat × Nat) := o.writes l.g4 feed.addr feed.output feed.rows.length
/-- Keys of what an operation waits for: tile-store ranges, then registers (State, `Tile.inflight`). -/
def readKeys (l : Loaded) (o : TileOp) (feed : Feed) : List (Nat × Nat) := readsOf l o feed ++ o.waitsOn.map fun k => (2 ^ 20 + k, 1)
/-- The ring of an armed stream. -/
def Stream.ring (k : Stream) : Nat × Nat := ringOf k.desc
/-- The stream fills tile store. -/
def Stream.fills (k : Stream) : Bool := fillsRing k.desc && !ringInLanding k.desc
/-- Every operand is ready in a cycle: no result under way meets it, and a stream buffer that it reads holds a member (05, R132). -/
def Tile.operandsReady (x : Tile) (l : Loaded) (o : TileOp) (feed : Feed) (cycle : Nat) : Bool :=
  let rd := readKeys l o feed
  !(x.inflight.any fun e => decide (cycle ≤ e.2.2) && rd.any (meets (e.1, e.2.1))) &&
    x.streams.all fun k => !k.fills || !(rd.any (meets k.ring)) || decide (k.done < k.moved)
/-- The Fold runs operations on a tile: its frame is open, its quadrant serves in the mapping, the clocks run. -/
def State.tileRuns (s : State) (f : FoldId) (tile cycle : Nat) : Bool :=
  let x := s.fold f
  match x.load, x.mapEntry with
  | some l, some m =>
    x.live && x.run.started && !x.run.closed && !x.run.idle && bit m.quads (quadOfTile tile).val && s.quadHealthy (quadOfTile tile) &&
      !s.power.halted && decide (cycle < budget x.period l.op) && decide (x.cycleAt l.op cycle ≤ s.now)
  | _, _ => false

/-! ## Cycles of one operation -/

/-- The part of a run of accesses that moves in a cycle; empty outside the run. -/
def PortUse.part (p : PortUse) (n : Nat) : Nat × Nat :=
  if p.first ≤ n ∧ n ≤ p.last then partOf (p.addr, p.len) (p.last - p.first + 1) (n - p.first) else (0, 0)
/-- An access of an operation is not served in cycle `n`: the cycle is the grazing scrub's, for a transfer that moves 512 bytes a cycle, or
an access with a lower requester number uses one of its banks; requesters number in the order of issue and landing (05, R127, R129;
DESIGN CHOICE, log entry 58). -/
def blocked (ports : List PortUse) (wide : Bool) (rs : List (Nat × Nat)) (n : Nat) : Bool :=
  (wide && n % 256 == 255) || ports.any fun p => rs.any fun r => bankMeets r (p.part n)
/-- Last cycle in which accesses `i` to `n - 1` of an operation are served, from cycle `c` on, one cycle later for each that is blocked. -/
def serve (ports : List PortUse) (wide : Bool) (rs : List (Nat × Nat)) (n : Nat) : Nat → Nat → Nat → Nat
  | 0, _, c => c - 1
  | k + 1, i, c =>
    if n ≤ i then c - 1
    else if blocked ports wide (rs.map fun r => partOf r n i) c then serve ports wide rs n k i (c + 1) else serve ports wide rs n k (i + 1) (c + 1)
/-- Cycle in which an operation issued in `cycle` retires: its cost from the next cycle on, one more for each cycle in which its access to
tile store is not served (05, R127, R129; 19, Table 19.11). -/
def Tile.retires (x : Tile) (l : Loaded) (o : TileOp) (feed : Feed) (cycle : Nat) : Nat :=
  let b := cycle + 1
  let n := max 1 (o.cycles l.lossCost)
  match o with
  | .waitc c => max b c
  | o => serve x.ports o.wide (readsOf l o feed ++ writesOf l o feed) n (2 * (n + (x.ports.map (·.last)).foldl max 0 + 2)) 0 b
/-- The operation that the slot of a cycle issues: the context's next one, if its unit is free, its operands are ready, and it retires
within the budget (05, R131, R132, R134); none where the context holds or has nothing to issue. A unit is free in the issue slot that
falls in its last busy cycle, so that a one-cycle operation runs in every cycle (01, R25; 05, R135; DEDUCED, log entry 57). An operation
that would run past B holds, so its context stands unfinished at B (log entry 65). -/
def State.issues (s : State) (tile cycle : Nat) (feed : Feed) : Option (FoldId × OpWord) :=
  match s.ownerOfTile tile with
  | none => none
  | some f =>
    let x := s.tile tile
    let c := vget x.ctxs (ctxOf cycle)
    match (s.fold f).load, x.nextOp (ctxOf cycle) with
    | some l, some w =>
      if !s.tileRuns f tile cycle || c.ended || c.stopped || decide (cycle < c.readyAt) then none
      else if decide (vget x.busy w.op.unit ≤ cycle) && x.operandsReady l w.op feed cycle &&
          decide (x.retires l w.op feed cycle ≤ budget (s.fold f).period l.op) then some (f, w)
      else none
    | _, _ => none
/-- Program counter and loops after the word before `pc`: innermost loops whose body has ended run again or close. -/
def closeLoops (pc : Nat) : List (Nat × Nat × Nat × Nat × Nat) → Nat × List (Nat × Nat × Nat × Nat × Nat)
  | [] => (pc, [])
  | (st, ln, left, stride, n) :: r =>
    if pc = st + ln then (if 1 < left then (st, (st, ln, left - 1, stride, n + 1) :: r) else closeLoops pc r)
    else (pc, (st, ln, left, stride, n) :: r)
/-- A context after it issued an operation that retires in cycle `e`: a control operation holds it until then. -/
def Ctx.after (c : Ctx) (o : TileOp) (cycle e : Nat) : Ctx :=
  let next := match o with
    | .loop a b k => if a = 0 || b = 0 then closeLoops (c.pc + 1 + b) c.loops else (c.pc + 1, (c.pc + 1, b, a, k, 0) :: c.loops)
    | _ => closeLoops (c.pc + 1) c.loops
  { c with pc := next.1, loops := next.2, readyAt := if o.unit = 7 then e + 1 else cycle + 1,
           ended := c.ended || decide (o = .fend),
           jobWord := match o with
             | .setj w => w
             | _ => c.jobWord }

/-! ## Effects -/

/-- Arm a stream: all its credits are free (08, R200). -/
def Tile.arm (x : Tile) (d : Nat) : Tile := match x.descs[d]? with
  | none => x
  | some k => { x with streams := x.streams.filter (fun y => y.desc != k) ++ [⟨k, k.credits, 0, 0, []⟩] }
/-- What an operation does to its tile. SUB leaves zero bins for a node beneath an unsplit one, whose result is discarded (07, R170). -/
def tileEffect (l : Loaded) (g : Grow) (feed : Feed) (o : TileOp) (x : Tile) : Tile :=
  let j := l.jobOr
  match o with
  | .ldwin w b n => x.ldwin w b n
  | .ldnode k b => x.ldnode k b
  | .ldmask k b c => x.ldmask k b c
  | .pass w k => x.pass w k
  | .ldleaf b c => x.ldleaf b c
  | .resolve a => x.resolve a
  | .ldact b => x.ldact b
  | .linres a => x.linres (zeroPoints l) a
  | .lclr a => x.setLane a fun _ => 0
  | .ladd a b => x.setLane a fun r => x.accOf r a + x.accOf r b
  | .lload a b => x.setLane a (x.scoreAt b)
  | .laddm a b => x.setLane a fun r => x.accOf r a + x.scoreAt b r
  | .lstore a b => x.lstore a b
  | .stgt u t => x.setTarget (unitsOf u) (g.nodeOf t)
  | .clear u => x.clearBins (unitsOf u)
  | .update u b q => x.update l (unitsOf u) b q
  | .side u b => x.side l (unitsOf u) b
  | .merge u b => x.mergeImages 1 (unitsOf u) b
  | .sub u b => (x.mergeImages (-1) (unitsOf u) b).clearBins ((unitsOf u).filter fun k => !g.mayGrow (x.targetOf k))
  | .drain u b => x.drain (unitsOf u) b
  | .loss k n => { x with grad := { x.grad with gh := lossTable l j g k (feedRows feed n) } }
  | .maxr _ => x
  | .quant t n => x.quantInto j g t feed.addr (feedRows feed n)
  | .gen k n =>
    let rs := feedRows feed n
    let y := { x with grad := { x.grad with gen := rs.map fun r => genRow j g k r.row } }
    if k = 1 then { y with mem := mwrite y.mem feed.addr (rs.flatMap fun r => le 2 (rootId j g r.row)) } else y
  | .scan f n => { x with grad := { x.grad with best := some (scanRec x l j g f (g.nodeOf n) feed.addr) } }
  | .best b c => x.bestInto j g.round b c
  | .part b q => x.partInto l g b q
  | .leafv _ => x
  | .margin _ _ => x
  | .irange f n => { x with grad := { x.grad with
      best := some (irangeRec x l j g f (g.nodeOf n) feed.addr),
      ranges := match binRange (x.featBins l f feed.addr).1 with
        | some r => x.grad.ranges.filter (fun e => e.1 != f) ++ [(f, r.1, r.2)]
        | none => x.grad.ranges.filter fun e => e.1 != f } }
  | .sbin b e =>
    let cs := x.sbinCodes b feed.addr e
    { x with grad := { x.grad with sbin := cs }, mem := mwrite x.mem feed.output (cs.map (BitVec.ofNat 8)) }
  | .psort b => x.sortInPlace b 4096
  | .pmerge b n => x.sortInPlace b (2 * n)
  | .pcut b => { x with grad := { x.grad with cutVals := cutValues feed.addr (x.values b feed.output) } }
  | .copy b c n => x.copy b c n
  | .zero b n => x.zero b n
  | .send _ _ _ _ => x
  | .strm d => x.arm d
  | .loop _ _ _ => x
  | .waitc _ => x
  | .setj _ => x
  | .fend => x
/-- Bank that PART writes: while missing node ids are recomputed, the bank that the step reads (07, R161; 12, R351). -/
def Grow.partBank (g : Grow) (role : Nat) : Nat := if role = 23 then g.nodeBank else otherBank g.nodeBank
/-- A split record of a card's scan enters where the card owns the feature's quad (07, R172, R174). -/
def Grow.offerOwn (j : Job) (r : SplitRec) (f : Nat) (g : Grow) : Grow := if g.owns f then g.offer j r else g
/-- What an operation does to the growing progress of its Fold, by the role that runs; `x` is the tile before it. -/
def growEffect (l : Loaded) (role : Nat) (x : Tile) (feed : Feed) (o : TileOp) (g : Grow) : Grow :=
  let j := l.jobOr
  match o with
  | .loss k n => { g with badRows := g.badRows ++ newBadRows j g k (feedRows feed n) }
  | .maxr n => maxReduce x j (feedRows feed n) g
  | .quant t n => quantFigures x j t (feedRows feed n) g
  | .gen k n => if k = 1 then genNodes j (feedRows feed n) g else g
  | .scan f n => g.offerOwn j (scanRec x l j g f (g.nodeOf n) feed.addr) f
  | .irange f n => g.offerOwn j (irangeRec x l j g f (g.nodeOf n) feed.addr) f
  | .part b q => partNodes x l b q (g.partBank role) g
  | .leafv n => { g with leaves := mset 0 g.leaves n (leafOf j g n) }
  | .margin b c => if role = 24 then g else marginRows x l b c g
  | _ => g

/-! ## Row data (07, R160; 12, R351) -/

/-- The packed codes of a quad of a row where the card keeps them. -/
def State.quadRow (s : State) (f : FoldId) (l : Loaded) (quad row : Nat) : Bytes :=
  let p := Config.rowPlace 0 (row / 4096) quad
  let n := (l.quadPlaces quad).2
  (List.range n).map fun i => match (s.foldCfg f).hbmAddr (p.1 % 8) (p.2 + n * (row % 4096) + i) with
    | none => 0
    | some a => mget 0 (s.hbm ⟨p.1 % 8, by omega⟩).mem a
/-- Code of a feature of a row. -/
def State.codeOf (s : State) (f : FoldId) (l : Loaded) (row i : Nat) : Nat := l.codeIn (i / 4) (i % 4) (s.quadRow f l (i / 4) row)
/-- MARGIN while missing margins are recomputed: the rows of the block take BaseScore and the completed trees' leaf values (12, R351). -/
def State.rebuildMargins (s : State) (f : FoldId) (l : Loaded) (x : Tile) (o : TileOp) : State :=
  match o with
  | .margin b c => if (s.fold f).run.role ≠ 24 then s else
      let k := blockFrom l.g4 b
      (List.range (x.rowCount k)).foldl (fun s r =>
        let row := x.globalRow k r
        s.modFold f fun y => { y with grow := y.grow.rebuildMargin l row c (s.codeOf f l row) }) s
  | _ => s

/-! ## Poison and correctable words (14, R394 to R398) -/

/-- 64-bit words that a range touches. -/
def wordsOf (r : Nat × Nat) : List Nat := if r.2 = 0 then [] else (List.range ((r.1 + r.2 - 1) / 8 + 1 - r.1 / 8)).map (r.1 / 8 + ·)
/-- The word lies in the range wholly. -/
def wordFull (w : Nat) (r : Nat × Nat) : Bool := decide (r.1 ≤ 8 * w ∧ 8 * w + 8 ≤ r.1 + r.2)
/-- The word touches the range. -/
def wordIn (w : Nat) (r : Nat × Nat) : Bool := meets (8 * w, 8) r
/-- Poisoned words among the listed ones that some range touches. -/
def touched (ws : List Nat) (rs : List (Nat × Nat)) : List Nat := ws.filter fun w => rs.any (wordIn w)
/-- Words written in part only. -/
def partly (ws : List Nat) (rs : List (Nat × Nat)) : List Nat := ws.filter fun w => rs.any (wordIn w) && !(rs.any (wordFull w))
/-- Poison and soft errors after writes to the ranges: a full-word write of clean data clears, a partial write onto a correctable
word corrects it, `bad` words are written with poison (14, Table 14.3). -/
def Tile.settleWords (x : Tile) (rs : List (Nat × Nat)) (bad : List Nat) : Tile :=
  let keep := x.poison.filter fun w => !(rs.any (wordFull w))
  { x with poison := keep ++ bad.filter (fun w => !keep.contains w), soft := x.soft.filter fun w => !(rs.any (wordIn w)) }
/-- Words of the destination that a copy from poisoned source words poisons. -/
def copiedPoison (poison : List Nat) (src dst len : Nat) : List Nat :=
  poison.flatMap fun w =>
    let a := max (8 * w) src
    let e := min (8 * w + 8) (src + len)
    if a < e then wordsOf (dst + (a - src), e - a) else []
/-- Whether an operation's operands hold poison: a word it reads or a register it reads. -/
def Tile.dirty (x : Tile) (l : Loaded) (o : TileOp) (feed : Feed) : Bool :=
  !(touched x.poison (readsOf l o feed)).isEmpty || (!o.resets && o.regsIn.any x.taint.contains)
/-- Poison after an operation: poison follows every value computed from it. -/
def Tile.poisonAfter (x : Tile) (l : Loaded) (o : TileOp) (feed : Feed) (y : Tile) : Tile :=
  let d := x.dirty l o feed
  let rs := writesOf l o feed
  let bad := match o with
    | .copy b c n => copiedPoison x.poison b c n
    | _ => if d then rs.flatMap wordsOf else []
  let t := y.taint.filter fun k => !(o.regsOut.contains k)
  let t := if d then t ++ o.regsOut.filter (fun k => !t.contains k) else t
  { y.settleWords rs bad with taint := match o with
      | .resolve _ => t.filter (· ≠ 2)
      | _ => t }

/-! ## The step -/

/-- The barrier cycle that ends a tree group returns the credits of its streamed buffer: those of the stream whose last-drain cycle it is
(08, R201; 06, R154; DEDUCED, log entry 73). -/
def Stream.endGroup (c e : Nat) (k : Stream) : Stream :=
  if k.fills && k.desc.lastDrain == c then { k with done := k.moved, back := k.back ++ List.replicate (k.moved - k.done) e } else k
/-- Free buffer of the stream whose ring the operation reads last: the credit comes back as it retires; WAITC is the barrier of a group
(08, R201; 19, LAST). -/
def Tile.giveBack (x : Tile) (l : Loaded) (w : OpWord) (feed : Feed) (e : Nat) : Tile :=
  match w.op with
  | .waitc c => { x with streams := x.streams.map (·.endGroup c e) }
  | _ => if !w.last then x else
    match x.streams.findIdx? fun k => k.fills && (readsOf l w.op feed).any (meets k.ring) with
    | none => x
    | some i => { x with streams := x.streams.modify i fun k => { k with done := k.done + 1, back := k.back ++ [e] } }
/-- The tile after the operation: effect, poison, unit, context, results under way. -/
def Tile.issueOp (x : Tile) (l : Loaded) (g : Grow) (cycle : Nat) (w : OpWord) (feed : Feed) (stop : Bool) : Tile :=
  let e := x.retires l w.op feed cycle
  let y := (x.poisonAfter l w.op feed (tileEffect l g feed w.op x)).giveBack l w feed e
  let c := (vget x.ctxs (ctxOf cycle)).after w.op cycle e
  { y with
    busy := vset y.busy w.op.unit e
    ports := y.ports ++ (readsOf l w.op feed ++ writesOf l w.op feed).map fun r => ⟨cycle + 1, e, r.1, r.2⟩
    inflight := y.inflight ++ ((writesOf l w.op feed).map fun r => (r.1, r.2, e)) ++ w.op.pends.map fun k => (2 ^ 20 + k, 1, e)
    ctxs := vset y.ctxs (ctxOf cycle) { c with stopped := c.stopped || stop } }
/-- Copy to another tile of the Fold; it lands 24 cycles after SEND retires, its accesses in the cycles before (19, Segments). A tile number
that the Fold does not have receives nothing (DEDUCED, log entry 38). -/
def State.sendTo (s : State) (f : FoldId) (x : Tile) (o : TileOp) (e : Nat) : State := match o with
  | .send t b c n => match (s.foldCfg f).tiles[t]? with
    | none => s
    | some d =>
      let y := s.tile d
      let z := ({ y with mem := mwrite y.mem c (mread x.mem b n) }).settleWords [(c, n)] (copiedPoison x.poison b c n)
      s.setTile d { z with inflight := z.inflight ++ [(c, n, e + 24)], ports := z.ports ++ [⟨e + 25 - ceilDiv n 512, e + 24, c, n⟩] }
  | _ => s
/-- A fault of a tile in the open frame: its event, the quadrant's count, the frame or the step (14, Table 14.6). -/
def State.tileFault (s : State) (f : FoldId) (tile code : Nat) (info : Bytes) : State :=
  let n := (s.fold f).frame
  ((s.emit (unitTile tile) code (le 1 f.val ++ le 8 n ++ info)).countFault (quadOfTile tile) code s.now).frameFault f code
/-- A resident word that read as poison in a Scoring frame waits for its copy from the model store (14, Where poison ends). -/
def State.askRestore (s : State) (f : FoldId) (tile w : Nat) : State :=
  let x := s.fold f
  let rel := (s.foldCfg f).tiles.findIdx? (· == tile)
  match (if x.growingNow then none else Config.residentSource (x.run.mapping.getD 0) (rel.getD 0) w) with
  | none => s
  | some a => s.modHbm ⟨(a / 14336 + 1 + a % 14336 / 2048) % 8, by omega⟩ fun k =>
      if k.restores.contains (tile, w) then k else { k with restores := k.restores ++ [(tile, w)] }
/-- TILE_PARITY: an empty segment at RESOLVE or LINRES, or a parity error in a register that the operation reads; the event names the unit
(05, R115, Table 5.1). -/
def State.reportParity (s : State) (f : FoldId) (tile : Nat) (x : Tile) (o : TileOp) (feed : Feed) : State :=
  let empty := match o with
    | .resolve _ => x.emptySegment x.segs
    | .linres _ => x.emptySegment (x.segs.take 1)
    | _ => false
  if empty then s.tileFault f tile 0x0303 (le 1 1)
  else if o.regsIn.any feed.parity.contains then s.tileFault f tile 0x0303 (le 1 o.unit.val)
  else s
/-- Reports of an operation: corrected words, POISON_READ, POISON_WRITE as a precise fault, TILE_PARITY. -/
def State.reportOp (s : State) (f : FoldId) (tile : Nat) (x : Tile) (l : Loaded) (o : TileOp) (feed : Feed) : State :=
  let q := quadOfTile tile
  let rd := readsOf l o feed
  let fixed := (touched x.soft rd).length + (partly x.soft (writesOf l o feed)).length
  let s := if fixed = 0 then s else s.modQuad q fun y => { y with corrected := y.corrected + fixed, ceWindow := y.ceWindow + fixed }
  let s := match touched x.poison rd with
    | [] => s
    | w :: ws => (w :: ws).foldl (fun s w => s.askRestore f tile w) (s.tileFault f tile 0x0304 (le 7 (8 * w)))
  let s := match partly x.poison (writesOf l o feed) with
    | [] => s
    | w :: _ =>
      let s := s.modFold f fun y => { y with run := { y.run with precise := vset y.run.precise q true } }
      s.tileFault f tile 0x0305 (le 7 (8 * w))
  s.reportParity f tile x o feed
/-- Issue an operation: the tile, the Fold's growing progress and telemetry, the finish cycle, what it sends, what it reports. -/
def State.runOp (s : State) (f : FoldId) (tile cycle : Nat) (w : OpWord) (feed : Feed) : State :=
  match (s.fold f).load with
  | none => s
  | some l =>
    let x := s.tile tile
    let g := (s.fold f).grow
    let e := x.retires l w.op feed cycle
    let q := quadOfTile tile
    let stop := !(partly x.poison (writesOf l w.op feed)).isEmpty
    let g' := growEffect l (s.fold f).run.role x feed w.op g
    let s := s.setTile tile (x.issueOp l g cycle w feed stop)
    let s := s.modFold f fun y => { y with
      grow := g'
      tel := { y.tel with invalidLabel := y.tel.invalidLabel + (g'.badRows.length - g.badRows.length) }
      run := { y.run with finish := if w.op = .fend then y.run.finish else vset y.run.finish q (max (vget y.run.finish q) e) } }
    ((s.rebuildMargins f l x w.op).sendTo f x w.op e).reportOp f tile x l w.op feed
/-- First byte beyond the 1 MiB tile store that an operation addresses. -/
def badAddress (l : Loaded) (o : TileOp) (feed : Feed) : Option Nat :=
  let rs := readsOf l o feed ++ writesOf l o feed ++ o.sends
  (rs.find? fun r => decide (0 < r.2 ∧ 2 ^ 20 < r.1 + r.2)).map (·.1)
/-- SCHEDULED_OPERATION: the issue slot of a cycle on a tile. A slot in which its context holds does nothing (05, R132). -/
def execScheduledOperation (t tile cycle : Nat) (feed : Feed) (s : State) : Out :=
  let s := s.tick t
  match s.issues tile cycle feed with
  | none => .next s
  | some (f, w) =>
    match (s.fold f).load.bind fun l => badAddress l w.op feed with
    | some a => .fault (.tileStoreAddress tile a)
    | none => .next (s.runOp f tile cycle w feed)

end Sys2Proof.Machine
end

