-- ==== Sys2Proof/Machine/Codes.lean ====
section
/-! DEFINITION. The die-to-die wheel: codes and activations of a cohort into the tiles of its files, scores back (02, R38; 06, R151, R152;
08, R204). Which tile belongs to which file and where its buffers lie is the compiler's (log entry 12). -/

namespace Sys2Proof.Machine

/-- Change the cohort that arrived `back` frames before the open one, once it is admitted. -/
def Fold.modCohort (x : Fold) (back : Nat) (g : Cohort → Cohort) : Fold :=
  { x with pipe := x.pipe.map fun c => if c.frame + back = x.frame && c.admitted then g c else c }
/-- That cohort. -/
def Fold.cohort (x : Fold) (back : Nat) : Option Cohort := x.pipe.find? fun c => c.frame + back == x.frame && c.admitted
/-- Change one record of a cohort. -/
def Cohort.modRec (c : Cohort) (leaf : Nat) (g : Rec → Rec) : Cohort := { c with recs := c.recs.modify leaf g }

/-! ## Codes and scores (08, R204; 06, R152) -/

/-- Continue a run of codes of width `w` in the order of a layout (04, R83): the run `cs` packs when the width changes. -/
def packRunsFrom : List (Nat × Nat) → Nat → List Nat → Bytes
  | [], w, cs => packCodes w cs
  | (v, c) :: r, w, cs => if v == w then packRunsFrom r w (cs ++ [c]) else packCodes w cs ++ packRunsFrom r v [c]
/-- Codes of a row in the order of a layout, packed by runs of one width (04, R83). -/
def packRuns : List (Nat × Nat) → Bytes
  | [] => []
  | (w, c) :: r => packRunsFrom r w [c]
/-- Bytes of one row: its codes in the tile's layout, or its activations; a row with no record is all ones. -/
def rowImage (l : Loaded) (rel : Nat) (acts : Bool) (r : Option Rec) : Bytes :=
  if acts then match r with
    | some r => padTo 64 (r.acts.map (BitVec.ofNat 8))
    | none => List.replicate 64 0xFF
  else packRuns ((Config.rowLayout l.bundleDigest rel).map fun i =>
    let w := match l.features[i]? with
      | some ft => ft.width
      | none => 8
    (w, match r with
      | some r => r.codes.getD i (missingCode w)
      | none => missingCode w))
/-- Rows of a batch: record 256b + i, or padding. -/
def batchImage (l : Loaded) (rel : Nat) (acts : Bool) (c : Cohort) (batch : Nat) : Bytes :=
  (List.range 256).flatMap fun i => rowImage l rel acts c.recs[256 * batch + i]?
/-- Bytes of a batch's image in a tile. -/
def State.batchOf (s : State) (f : FoldId) (l : Loaded) (tile : Nat) (acts : Bool) (c : Cohort) (batch : Nat) : Bytes :=
  match (s.foldCfg f).tiles.findIdx? (· == tile) with
  | some rel => batchImage l rel acts c batch
  | none => []
/-- Where a batch's image starts in a tile: the tile belongs to file b mod F, whose batch floor(b / F) it is (06, R152); none for another
tile, or where it would not fit in tile store. -/
def State.codesPlace (s : State) (f : FoldId) (l : Loaded) (tile frame batch : Nat) (acts : Bool) : Option Nat :=
  match (s.fold f).mapEntry, (s.foldCfg f).tiles.findIdx? (· == tile) with
  | some m, some rel =>
    let a := Config.codesAt l.bundleDigest m.id rel frame (batch / max 1 m.files) acts
    if Config.fileOf l.bundleDigest m.id rel = some (batch % max 1 m.files) ∧ batch / max 1 m.files < m.bf ∧ bit m.quads (quadOfTile tile).val ∧
        a + 256 * 128 ≤ 2 ^ 20 then some a else none
  | _, _ => none
/-- Write 2 KiB number `part` of a batch's image into a tile (08, R204). -/
def State.putPart (s : State) (f : FoldId) (l : Loaded) (c : Cohort) (batch tile part : Nat) (acts : Bool) (a : Nat) (ports : List PortUse) : State :=
  let b := slice (s.batchOf f l tile acts c batch) (2048 * part) 2048
  let x := s.tile tile
  let r := (a + 2048 * part, b.length)
  (s.setTile tile { ({ x with mem := mwrite x.mem r.1 b }).settleWords [r] [] with ports := x.ports ++ ports.map fun p => { p with addr := r.1, len := r.2 } }).modFold f
    fun y => { y with pipe := y.pipe.map fun d => if d.frame = c.frame then { d with moved := (batch, tile, part, acts) :: d.moved } else d }
/-- Scores of an output of a batch are read back from the tile that holds them; poison withholds the frame (06, R157; 14, R399). -/
def State.readScores (s : State) (f : FoldId) (l : Loaded) (c : Cohort) (batch out : Nat) : State :=
  let m := ((s.fold f).mapEntry.map (·.id)).getD 0
  let (rel, a) := Config.scoresAt l.bundleDigest m c.frame batch out
  let a := a % (2 ^ 20 - 1536)
  match (s.foldCfg f).tiles[rel]? with
  | none => s
  | some tile =>
    let x := s.tile tile
    let put := fun (e : Rec × Nat) => if e.2 / 256 = batch then { e.1 with scores := mset 0 e.1.scores out (x.scoreAt a (e.2 % 256)) } else e.1
    let s := s.modFold f fun y => { y with pipe := y.pipe.map fun d =>
      if d.frame = c.frame then { d with recs := d.recs.zipIdx.map put, read := (batch, out) :: d.read } else d }
    match touched x.poison [(a, 1536)] with
    | [] => s
    | w :: _ => s.tileFault f tile 0x0304 (le 7 (8 * w))

/-! ## Slots of the wheel (08, R204) -/

/-- The die-to-die slot that starts in this count of the open frame, one every 1.25 ns; its position is its number modulo 64, counted from
the frame's opening tick, as an HBM wheel's is (08, R193, R204; DEDUCED, log entry 68). -/
def State.dieSlot (s : State) (f : FoldId) : Option Nat :=
  let d := s.now - (s.fold f).tickOf (s.fold f).frame
  if 4 * d % 5 < 4 then some (4 * d / 5) else none
/-- A position of a port in a direction carries its slot now, and nothing has taken it yet. -/
def State.dieFree (s : State) (f : FoldId) (port pos dir : Nat) : Bool := match s.dieSlot f with
  | some n => n % 64 == pos && decide (mget 0 (s.fold f).run.dieSlots (2 * port + dir) ≤ n)
  | none => false
/-- The slot is taken. -/
def State.takeDie (s : State) (f : FoldId) (port dir : Nat) : State :=
  s.modFold f fun x => { x with run := { x.run with dieSlots := mset 0 x.run.dieSlots (2 * port + dir) ((s.dieSlot f).getD 0 + 1) } }
/-- Core cycle of the open frame now. -/
def State.cycleNow (s : State) (f : FoldId) (op : OpPoint) : Nat := (s.now - (s.fold f).tickOf (s.fold f).frame) * (opRatio op).1 / (opRatio op).2
/-- Every record of a batch is binned. -/
def Cohort.binnedBatch (c : Cohort) (batch : Nat) : Bool := ((c.recs.drop (256 * batch)).take 256).all (·.binned)
/-- A position outwards: one part of a binned batch of the cohort one frame back, over the port of the tile's quadrant. It occupies the
tile store for 4 cycles of 512 bytes (05, R129). -/
def State.codesOut (s : State) (f : FoldId) (l : Loaded) (port pos batch tile part : Nat) (acts : Bool) : State :=
  match (s.fold f).cohort 1 with
  | none => s
  | some c =>
    if port ≠ (quadOfTile tile).val || !s.dieFree f port pos 0 || !c.binnedBatch batch then s else
      match s.codesPlace f l tile c.frame batch acts with
      | none => s
      | some a =>
        let n := s.cycleNow f l.op
        (s.takeDie f port 0).putPart f l c batch tile part acts a [⟨n, n + 3, 0, 0⟩]
/-- A position inwards: the scores of an output of a batch of the cohort two frames back. -/
def State.scoresIn (s : State) (f : FoldId) (l : Loaded) (port pos batch out : Nat) : State :=
  match (s.fold f).cohort 2 with
  | none => s
  | some c => if !s.dieFree f port pos 1 || l.outputCount ≤ out then s else (s.takeDie f port 1).readScores f l c batch out

/-! ## The end of the frame -/

/-- Batches of the scoring capacity of the mapping in force. -/
def Fold.batches (x : Fold) : Nat := x.capacity / 256
/-- Code parts of a cohort that have not moved: every part of every batch, padding rows too, in the tiles of its file. -/
def State.partsLeft (s : State) (f : FoldId) (l : Loaded) (c : Cohort) : List ((Nat × Nat × Nat × Bool) × Nat) :=
  (s.foldCfg f).tiles.flatMap fun tile => (List.range (s.fold f).batches).flatMap fun b => [false, true].flatMap fun acts =>
    match s.codesPlace f l tile c.frame b acts with
    | none => []
    | some a => ((List.range (ceilDiv (s.batchOf f l tile acts c b).length 2048)).map fun p => ((b, tile, p, acts), a)).filter fun e => !c.moved.contains e.1
/-- At the close of the frame after their arrival all codes are in tile store, and at the close of the frame after that all scores are
back: the schedule leaves no part for later (02, R38; 08, R204). -/
def State.finishCodes (s : State) (f : FoldId) (n : Nat) : State :=
  match (s.fold f).load, (s.fold f).growingNow with
  | some l, false =>
    let s := ((s.fold f).pipe.filter fun c => c.frame + 1 == n && c.admitted).foldl (fun s c =>
      (s.partsLeft f l c).foldl (fun s e => s.putPart f l c e.1.1 e.1.2.1 e.1.2.2.1 e.1.2.2.2 e.2 []) s) s
    ((s.fold f).pipe.filter fun c => c.frame + 2 == n && c.admitted).foldl (fun s c =>
      ((List.range (ceilDiv c.recs.length 256)).flatMap fun b => (List.range l.outputCount).map fun o => (b, o)).foldl (fun s e =>
        if c.read.contains e then s else s.readScores f l c e.1 e.2) s) s
  | _, _ => s

end Sys2Proof.Machine
end

