-- ==== Sys2Proof/Machine/FrameClose.lean ====
section
/-! DEFINITION. Admission, the close of a frame, the result drain, and the page steps (02, 03, 06, 08, 09, 10). -/

namespace Sys2Proof.Machine

/-! ## Admission (10, R269 to R273; 09, R240) -/

/-- Arrival order: stamp, receiving-port unit, position in the carrying unit; submission order in a replay Fold (09, R240; 03, R65). -/
def Arrival.before (replay : Bool) (a b : Arrival) : Bool :=
  let pos := decide (a.pos.1 < b.pos.1) || (a.pos.1 == b.pos.1 && decide (a.pos.2 ≤ b.pos.2))
  if replay then pos
  else decide (a.stamp < b.stamp) || (a.stamp == b.stamp && (decide (a.unit < b.unit) || (a.unit == b.unit && pos)))
def insArrival (replay : Bool) (a : Arrival) : List Arrival → List Arrival
  | [] => [a]
  | x :: r => if a.before replay x then a :: x :: r else x :: insArrival replay a r
/-- Arrivals in arrival order. -/
def sortArrivals (replay : Bool) (l : List Arrival) : List Arrival := l.foldr (insArrival replay) []
/-- The record was made for a late tick source: no delivery carries it, so it has no ID (08, R207; 10, Table 10.5). -/
def Arrival.created (a : Arrival) : Bool := a.tick && a.recId.isEmpty
/-- The record that an admitted arrival becomes, with the values of its frame's external inputs. One made for a late tick source keeps its
empty input, and every feature of it is missing (08, R205, R207); a replayed record holds its values already (DEDUCED, log entry 27). -/
def Arrival.toRec (a : Arrival) (l : Option Loaded) (ext : List (Nat × Bytes)) : Rec :=
  let input := match l, a.orig with
    | some l, none => if a.created then a.input else completeBody l ext a.input
    | _, _ => a.input
  { stamp := a.stamp, unit := a.unit, pos := a.pos, route := a.route, input := input, fedMissing := a.created,
    codes := [], acts := [], late := false, invalid := false, binned := false, hashIn := false, scores := [], body := [], tag := [],
    sealedOut := false, poisoned := false, orig := a.orig }

/-- Admission of one frame in progress: admitted, ID hashes refused, refusals by unit, quota left, places kept for records made for late
tick sources, records by channel, credits taken. -/
structure Admitting where
  recs : List Arrival
  drops : List Bytes
  byUnit : SMap Nat
  quota : Nat
  kept : Nat
  byChan : SMap Nat
  taken : Nat
  deriving DecidableEq, Repr

/-- A record may be admitted: a PCIe record always, a further delivery of an input never, one made for a late tick source in a place kept
for it, another while Qe and its channel's RecordQuota remain (10, R271; 08, R205, R207). -/
def State.mayAdmit (s : State) (a : Arrival) (k : Admitting) : Bool :=
  if a.fromPcie then true
  else if a.external.isSome then false
  else if a.created then decide (0 < k.kept)
  else decide (0 < k.quota) && (match a.channel with
    | none => true
    | some c => (s.chanCfg c).recordQuota == 0 || decide (mget 0 k.byChan c < (s.chanCfg c).recordQuota))
/-- Take or refuse one arrival. A record made for a late tick source that has no place is never refused and listed: it is not made
(10, Table 10.5; 06, R153; 09, R251; DEDUCED, log entry 67). -/
def State.admitOne (s : State) (k : Admitting) (a : Arrival) : Admitting :=
  if s.mayAdmit a k then
    { k with recs := k.recs ++ [a], quota := if a.fromPcie || a.created then k.quota else k.quota - 1,
             kept := if a.created then k.kept - 1 else k.kept, taken := if a.fromPcie then k.taken else k.taken + 1,
             byChan := match a.channel with
               | some c => mset 0 k.byChan c (mget 0 k.byChan c + 1)
               | none => k.byChan }
  else if a.created then k
  else { k with drops := k.drops ++ [dropHash a.recId], byUnit := mset 0 k.byUnit a.unit (mget 0 k.byUnit a.unit + 1) }
/-- Admit the records of a cohort's frame; refusals are counted, hashed and reported once per source (10, R271, R272; 14, R416). -/
def State.admitCohort (s : State) (f : FoldId) (c : Cohort) : State :=
  let x := s.fold f
  let mine := sortArrivals x.run.replay (x.adm.arrivals.filter fun a => a.frame == c.frame)
  let kept := min c.quota (mine.filter (·.created)).length
  let k := mine.foldl s.admitOne ⟨[], [], [], c.quota - kept, kept, [], 0⟩
  let recs := k.recs.map fun a => a.toRec x.load c.ext
  let s := s.modFold f fun y => { y with
    adm := { y.adm with arrivals := y.adm.arrivals.filter fun a => a.frame != c.frame }
    res := { y.res with taken := y.res.taken + k.taken }
    tel := { y.tel with admitted := y.tel.admitted + k.recs.length, drops := y.tel.drops + k.drops.length }
    pipe := y.pipe.map fun d => if d.frame = c.frame then { d with recs := recs, drops := k.drops, dropCount := k.drops.length, admitted := true } else d }
  k.byUnit.foldl (fun s e => s.emitAt (x.tickOf (c.frame + 1)) e.1 0x0201 false (le 1 f.val ++ le 8 c.frame ++ le 4 e.2)) s
/-- Admit every closed frame that still waits for it. -/
def State.admitAll (s : State) (f : FoldId) : State :=
  ((s.fold f).pipe.filter fun c => !c.admitted).foldl (fun s c => s.admitCohort f c) s
/-- ADMISSION (10, R273). -/
def execAdmission (t : Nat) (f : FoldId) (s : State) : Out :=
  let s := s.tick t
  .next (if s.power.halted then s else s.admitAll f)

/-! ## RESULT messages (10, R275, R276) -/

/-- IP and UDP header bytes of a datagram to an address; IPv4 where it is mapped. -/
def ipOverhead (a : Bytes) : Nat :=
  (if allZero (a.take 10) && slice a 10 2 == [0xFF, 0xFF] then 20 else 40) + 8
/-- A RESULT message with this payload fits a datagram of EgressMtu. -/
def msgFits (c : ChanCfg) (n : Nat) : Bool := decide (ipOverhead c.egressAddr + 24 + n + 16 ≤ c.mtu)
def OpenMsg.payload (m : OpenMsg) : Bytes := (m.entries.map (·.2)).flatten
/-- The port of a channel takes result traffic: the layout has it, its link is up and not paused (10, R256, R258). -/
def State.portOpen (s : State) (c : Nat) : Bool :=
  let p := (s.chanCfg c).egressPort
  !s.power.gated && decide (p < portCount s.cfg.portLayout) &&
    (if h : p < 16 then (s.port ⟨p, h⟩).up && decide ((s.port ⟨p, h⟩).pausedUntil ≤ s.now) else false)
/-- Send closed RESULT messages, oldest first, while their port takes them; the credits of their entries return (08, R210). -/
def sendClosedLoop (c : Nat) : Nat → State → State
  | 0, s => s
  | k + 1, s => match (s.chan c).closed with
    | [] => s
    | m :: r =>
      if !s.portOpen c then s else
        let s := (s.setChan c { s.chan c with closed := r }).sendIzr c 1 m.slot m.key m.salt m.entries.length m.payload
          (!msgFits (s.chanCfg c) m.payload.length)
        sendClosedLoop c k (match s.chanFold c with
          | some f => s.returnCredits f m.entries.length
          | none => s)
def State.sendClosed (s : State) (c : Nat) : State := sendClosedLoop c (s.chan c).closed.length s
/-- Close a channel's RESULT message; what has closed goes out while the port takes it. -/
def State.flushMsg (s : State) (c : Nat) : State :=
  match (s.chan c).openMsg with
  | none => s.sendClosed c
  | some m => (s.setChan c { s.chan c with openMsg := none, closed := (s.chan c).closed ++ [m] }).sendClosed c
/-- Put a result entry into its channel's message: a message holds one key slot only and closes before it would exceed the
MTU; an entry too long for a datagram goes alone. -/
def State.pushEntry (s : State) (c : Nat) (slot : Bool) (key salt : Bytes) (frame : Nat) (b : Bytes) : State :=
  let e := be 2 b.length ++ b
  let cf := s.chanCfg c
  let s := match (s.chan c).openMsg with
    | some m => if m.slot != slot || m.key != key || !msgFits cf (m.payload.length + e.length) then s.flushMsg c else s
    | none => s
  let m : OpenMsg := match (s.chan c).openMsg with
    | some m => { m with entries := m.entries ++ [(frame, e)] }
    | none => ⟨slot, key, salt, [(frame, e)]⟩
  let s := s.setChan c { s.chan c with openMsg := some m }
  if msgFits cf e.length then s else s.flushMsg c
/-- Close every open message of a Fold's channels: the tick that closes frame n + 3. -/
def State.flushFold (s : State) (f : FoldId) : State := (s.chansOf f).foldl (fun s c => s.flushMsg c) s

/-! ## Result drain (08, R211 to R213) -/

/-- The sink takes the result: an up and unpaused port; an enabled completion ring with room on a Gen3 link (10; 18, R493). -/
def State.sinkOpen (s : State) (f : FoldId) (r : Result) : Bool :=
  !s.power.gated && (match r.route with
    | .izr c _ _ _ => s.portOpen c
    | .pcie _ _ =>
      let v := s.fn (vfOf f)
      v.q1.enabled && s.ringTakes (vfOf f) 1 && (v.firstWaiting 1).isNone && !s.power.perst && v.tdi != Tdi.error
    | .field => true)
/-- Result bytes in a ring completion: Result0 the arrival frame, Result1 the leaf index, Result2 the bytes written (18, Table 18.3). -/
def State.postResult (s : State) (f : FoldId) (cid status event : Nat) (r : Result) (len : Nat) : State :=
  s.post (vfOf f) ⟨1, cid, status, event, r.frame, r.leaf, len⟩
/-- Send one result, which its sink takes. A poisoned one is not sent: RESULT_POISONED, DISCARDED in its frame's entry (14, R400). -/
def State.sendResult (s : State) (f : FoldId) (r : Result) : State :=
  if r.poisoned && r.status == 0 then
    let s := ((s.emit (unitFold f) 0x0306 (le 8 r.frame ++ le 4 r.leaf)).modFold f fun x => { x with led := x.led.discard r.frame }).returnCredits f 1
    match r.route with
    | .pcie cid _ => s.postResult f cid 0x23 0x0306 r 0
    | _ => s
  else match r.route with
    | .izr c slot key salt => s.pushEntry c slot key salt r.frame r.bytes
    | .pcie cid a =>
      let s := s.returnCredits f 1
      if r.status ≠ 0 then s.postResult f cid r.status 0 r 0
      else (s.send (.hostWrite a r.bytes)).postResult f cid 0 0 r r.bytes.length
    | .field => s.returnCredits f 1
/-- Drain while the head of the egress queue can leave; every refill takes staging, then spill. -/
def drainLoop (f : FoldId) : Nat → State → State
  | 0, s => s
  | k + 1, s =>
    let x := s.fold f
    match x.res.egress with
    | [] => s
    | r :: rest =>
      if !s.sinkOpen f r then s else
        drainLoop f k ((s.modFold f fun y => { y with res := { y.res with egress := rest }.refill y.capacity }).sendResult f r)
/-- Last arrival frame whose results had all left. -/
def State.noteSent (s : State) (f : FoldId) : State :=
  let x := s.fold f
  let msgs := (s.messageEntries f).map (·.1)
  let top := if x.run.closed then x.run.opened else x.run.opened - 1
  let low := (x.pipe.map (·.frame) ++ x.res.all.map (·.frame) ++ msgs).foldl min top
  if low = 0 then s else s.modFold f fun y => { y with res := { y.res with lastSent := some (low - 1) } }
/-- RESULT_DRAIN: the egress queue to the wire, staging to the egress queue, spill to staging (08, R212). Closed RESULT messages go first;
a Fold whose frames have ended closes the open ones here (10, R276). -/
def execResultDrain (t : Nat) (f : FoldId) (s : State) : Out :=
  let s := s.tick t
  let s := (s.chansOf f).foldl (fun s c => s.sendClosed c) s
  let s := drainLoop f (s.fold f).res.all.length s
  let s := if (s.fold f).live then s else s.flushFold f
  .next ((s.noteSent f).settle f)

/-! ## Replay headers (03, R65 to R69) -/

/-- Ledger entry of a recorded frame in a replay Fold. -/
def repEntry (h : ReplayHdr) (withheld : Bool) (root : Bytes) : Bytes :=
  frameEntry (frameFlags withheld (h.recordCount == 0) false (h.lateSet != 0)) h.recordCount h.origFrame h.origStamp h.lateSet 0 [] root
/-- Tags in submission order. -/
def insTag (e : Nat × Bytes) : List (Nat × Bytes) → List (Nat × Bytes)
  | [] => [e]
  | x :: r => if e.1 ≤ x.1 then e :: x :: r else x :: insTag e r
def RepHdr.tagList (h : RepHdr) : List Bytes := ((h.tags.foldr insTag []).map (·.2))
/-- Close a header in the page of a frame: its entry, its completion, and where its root differs from a nonzero ExpectedRoot,
REPLAY_ROOT_MISMATCH 0x030D with OrigFrame and status 0x25 (03, R66; 18, Table 18.6). -/
def State.closeHeader (s : State) (f : FoldId) (tick frame : Nat) (h : RepHdr) (withheld : Bool) : State :=
  let root := if withheld then List.replicate 32 0 else frameRoot h.tagList
  let bad := !withheld && !allZero h.hdr.expectedRoot && root != h.hdr.expectedRoot
  let s := s.modFold f fun x => { x with
    led := (x.led.annex frame h.hdr.origFrame [] (if withheld then [] else h.tagList)).append frame (repEntry h.hdr withheld root)
    rep := { x.rep with hdrs := x.rep.hdrs.filter (fun y => y.id != h.id),
                        prev := x.rep.prev.map fun p => if p.2.1 = h.id then (p.1, p.2.1, withheld) else p } }
  let s := if bad then s.emitAt tick (unitFold f) 0x030D false (le 8 h.hdr.origFrame) else s
  s.postRecord f h.cid (if withheld then 0x20 else if bad then 0x25 else 0) (if bad then 0x030D else 0) h.hdr.origFrame 0
/-- A cohort's tags join their headers. -/
def addTags (c : Cohort) (h : RepHdr) : RepHdr :=
  { h with tags := h.tags ++ c.recs.filterMap fun r => match r.orig with
    | some o => if o.hid = h.id then some (o.leaf, r.tag) else none
    | none => none }
/-- A record of the cohort serves this header. -/
def Cohort.serves (c : Cohort) (h : RepHdr) : Bool := c.recs.any fun r => match r.orig with
  | some o => o.hid == h.id
  | none => false
/-- Headers at the close of frame `n` with the cohort whose root closes: one served by a withheld cohort completes WITHHELD,
one whose last record is tagged closes, an empty one closes three frames after the frame that fetched it. -/
def State.closeHeaders (s : State) (f : FoldId) (tick n : Nat) (c : Option Cohort) : State :=
  let x := s.fold f
  if !x.run.replay then s else
    x.rep.hdrs.foldl (fun s h =>
      match c with
      | some c =>
        let h' := if c.withheld.isSome then h else addTags c h
        let s := s.modFold f fun y => { y with rep := { y.rep with hdrs := y.rep.hdrs.map fun z => if z.id = h'.id then h' else z } }
        if c.withheld.isSome && c.serves h then s.closeHeader f tick (n - 3) h true
        else if h.hdr.recordCount ≠ 0 && h'.tags.length == h.hdr.recordCount then s.closeHeader f tick (n - 3) h' false
        else if h.hdr.recordCount = 0 && decide (h.fetchFrame + 3 ≤ n) then s.closeHeader f tick (n - 3) h' false
        else s
      | none => if h.hdr.recordCount = 0 && decide (h.fetchFrame + 3 ≤ n) then s.closeHeader f tick (n - 3) h false else s) s

/-! ## FRAME_CLOSE -/

/-- Unit of an input's carrier: the Shepherd for field carriers, port 0 for IZR (10, Table 10.5; DEDUCED, log entry 29). -/
def carrierUnit (carrier : Nat) : Nat := if carrier = 1 then 0x030 else 0x000
/-- A declared input is late for frame `n`: DEADLINE_MISS, its late bit, and for a tick record source the frame's record, stamped
with the last count of the frame (08, R206, R207). -/
def State.missInput (s : State) (f : FoldId) (n : Nat) (d : InDecl) : State :=
  let tick := (s.fold f).tickOf (n + 1)
  let s := s.emitAt tick (unitFold f) 0x0203 true (le 1 d.number ++ le 8 n)
  s.modFold f fun x => { x with
    tel := { x.tel with misses := x.tel.misses + 1 }
    adm := { x.adm with arrivals := if d.kind = 2 then
      x.adm.arrivals ++ [⟨n, tick - 1, carrierUnit d.carrier, (0, 0), [], none, [], .field, none, true, none⟩] else x.adm.arrivals } }
/-- External inputs delivered in frame `n`, with their values. -/
def Fold.deliveredIn (x : Fold) (n : Nat) : List (Nat × Bytes) :=
  (x.adm.delivered.filter fun e => x.frameAt e.2.1 == n).map fun e => (e.1, e.2.2)
/-- Declared inputs of a real-time Fold that had no delivery in frame `n`. -/
def Fold.lateInputs (x : Fold) (n : Nat) : List InDecl := match x.load with
  | some l => if l.realtime then l.res.inputs.filter fun d => !((x.deliveredIn n).any fun e => e.1 == d.number) else []
  | none => []
/-- Late-input set. -/
def lateSet (l : List InDecl) : BitVec 64 := l.foldl (fun b d => b ||| BitVec.ofNat 64 (2 ^ (d.number % 64))) 0
/-- Deadlines of the frame and the cohort of its arrivals, in Scoring while admission is open. -/
def State.closeArrivals (s : State) (f : FoldId) (n : Nat) : State :=
  let x := s.fold f
  if x.growingNow || x.stoppedAt n then s else
    let late := if x.run.replay then [] else x.lateInputs n
    let s := late.foldl (fun s d => s.missInput f n d) s
    s.modFold f fun y => { y with pipe := y.pipe ++
      [⟨n, y.tickOf n, [], lateSet late, [], 0, none, false, 0, y.adm.qe, y.deliveredIn n, [], []⟩] }
/-- Peer frames of frame `n`: a neighbour without one withholds the frame; two in a row and it has departed (11, R314, R315). -/
def State.checkPeers (s : State) (f : FoldId) (n : Nat) : State :=
  let x := s.fold f
  if x.growingNow then s else
    let tick := x.tickOf n
    x.run.neighbours.foldl (fun s e =>
      let held := x.run.peers.any fun p => p.1 == e.1 && p.2.1 == tick
      let set := fun (k : Nat) => s.modFold f fun y =>
        { y with run := { y.run with neighbours := y.run.neighbours.map fun z => if z.1 = e.1 then (e.1, k) else z } }
      if held then set 0 else
        let s := ((set (e.2 + 1)).causeFrame f 0x0701).emitAt (x.tickOf (n + 1)) (unitFold f) 0x0701 false (le 8 n ++ le 1 3)
        if 1 ≤ e.2 && !x.run.leaving.contains e.1 then s.depart e.1 1 n true else s) s
/-- A withheld Scoring frame: FRAME_WITHHELD with the first cause; the records it scored, landed two frames earlier, get no
results (02, R48; 14, R409). -/
def State.withholdFrame (s : State) (f : FoldId) (n : Nat) : State :=
  let x := s.fold f
  match x.run.cause with
  | none => s
  | some cause =>
    if x.growingNow then s else
      let s := s.emitAt (x.tickOf (n + 1)) (unitFold f) 0x0302 true (le 8 n ++ le 2 cause)
      let s := match x.mapEntry with
        | none => s
        | some m => (List.finRange 4).foldl (fun s (q : QuadId) =>
            if bit m.quads q.val && decide (0 < (s.foldCfg f).plotsIn q.val) then s.modQuad q fun y => { y with withheld := y.withheld + 1 } else s) s
      s.modFold f fun y => { y with
        tel := { y.tel with withheld := y.tel.withheld + 1 }
        pipe := y.pipe.map fun c => if c.frame + 2 = n then c.withhold cause else c }
/-- The cohort three frames back leaves the pipeline: bodies, tags, results, root and entry (02, R38; 09, R243, R244). -/
def State.closeRoot (s : State) (f : FoldId) (n : Nat) : State :=
  let x := s.fold f
  let tick := x.tickOf (n + 1)
  match x.load, x.pipe.find? fun c => decide (c.frame + 3 ≤ n) with
  | some l, some c0 =>
    let c := if c0.withheld.isSome then c0 else c0.finish l x.tagMeas
    let late := if c.withheld.isSome then 0 else (c.recs.filter (·.late)).length
    let s := s.modFold f fun y => { y with
      pipe := y.pipe.filter fun d => d.frame != c.frame
      tel := { y.tel with late := y.tel.late + late } }
    (((s.placeRest f c).fieldResults f c).enterCohort f c false).closeHeaders f tick n (some c)
  | _, _ => s.closeHeaders f tick n none
/-- Finish the Root wheels' work of the frame. -/
def State.finishWheels (s : State) (f : FoldId) (n : Nat) : State :=
  s.modFold f fun x => match x.load with
    | some l =>
      let due := x.pipe.filter fun c => decide (c.frame + 1 ≤ n)
      { x with pipe := x.pipe.map fun c => if c.frame + 1 ≤ n then c.bin l else c
               tel := { x.tel with invalidValue := x.tel.invalidValue + (due.map fun c => c.invalid l).sum } }
    | none => x
/-- The frame is closed and the role moves on. -/
def State.nextRole (s : State) (f : FoldId) : State :=
  s.modFold f fun x =>
    let r := x.advance
    { x with run := { x.run with closed := true, role := r.1, pos := r.2, peers := x.run.peers.filter (fun p => decide (x.tickOf x.run.opened ≤ p.2.1)),
                                 waitFrames := if x.roleNow = 22 then x.run.waitFrames + 1 else x.run.waitFrames }
             grow := { x.grow with between := x.grow.between || (x.run.role == 22 && !x.run.idle) } }
/-- Close the open frame: finish cycles, quadrants out of service, peers, withholding, arrivals and deadlines, the pipeline, the
open RESULT messages, the role (02, R524). -/
def State.closeFrame (s : State) (f : FoldId) : State :=
  let n := (s.fold f).frame
  let s := (List.finRange 4).foldl (fun s q => s.compareQuad f q) s
  if !(s.fold f).live then s else
    let s := ((s.sickQuads f).checkPeers f n).withholdFrame f n
    if !(s.fold f).live then s else
      (((((((s.admitAll f).finishWheels f n).finishCodes f n).closeArrivals f n).closeRoot f n).flushFold f).nextRole f).noteSent f
/-- FRAME_CLOSE (02, R47; 08, R206; 11, R314). -/
def execFrameClose (t : Nat) (f : FoldId) (s : State) : Out :=
  let s := s.tick t
  let x := s.fold f
  if s.power.halted || !x.live || !x.run.started || x.run.closed || decide (s.now < x.tickOf x.run.opened) then .next s
  else .next ((s.closeFrame f).settle f)

/-! ## Page steps (09, R246 to R252) -/

/-- The next frame boundary of a Fold has come. -/
def State.atBoundary (s : State) (f : FoldId) : Bool :=
  let x := s.fold f
  !s.power.halted && x.live && x.run.started && x.run.closed && decide (x.tickOf x.run.opened ≤ s.now)
/-- PAGE_CLOSE: after E frames, or at a stop with FINAL. -/
def execPageClose (t : Nat) (f : FoldId) (s : State) : Out :=
  let s := s.tick t
  if !s.atBoundary f then .next s else
    let n := (s.fold f).run.opened
    let s := (s.carryReads f n).endGrowing f n
    let x := s.fold f
    .next ((if x.pageDue n then s.endPage f n (x.stoppedAt n) else s).settle f)
/-- PAGE_OPEN: takes a ring slot; backlog closes admission, no free slot stops the Fold. -/
def execPageOpen (t : Nat) (f : FoldId) (s : State) : Out :=
  let s := s.tick t
  let x := s.fold f
  if !s.atBoundary f || x.led.page.isSome || x.stoppedAt x.run.opened then .next s else .next (s.takePage f x.run.opened)
/-- PAGE_SEAL: the page is sealed and signed when its last root has closed, and export starts. -/
def execPageSeal (t : Nat) (f : FoldId) (s : State) : Out :=
  let s := s.tick t
  let x := s.fold f
  match x.led.closing with
  | [] => .next s
  | p :: _ => if !x.sealDue s.now || s.power.halted then .next s else .next ((s.sealClosing f (sealTick x p)).tryStopped f)
/-- PAGE_FLUSH_COMPLETE: the Flush after a page's writes acknowledges it for the file store. -/
def execPageFlushComplete (t : Nat) (f : FoldId) (s : State) : Out :=
  let s := s.tick t
  match (s.fold f).led.ring.find? fun p => !p.acked.getLsbD 1 with
  | none => .next s
  | some p => .next ((s.fileDone f false).ackPage f 1 p.seq)

end Sys2Proof.Machine
end

