-- ==== Sys2Proof/Machine/Ports.lean ====
section
/-! DEFINITION. Record ports: IZR DATA and KEY_OFFER, pause frames, EtherCAT and CAN process data, field-network management,
LLDP (09, 10, 13). -/

namespace Sys2Proof.Machine

/-! ## Taking records -/

/-- The Fold takes records stamped at count `t`: live, in Scoring, and the frame to which the stamp alone assigns them still admits, be it
open already or about to open at that tick (00, R7; 02, R37, R39; 10, Table 10.6; 07, R187). A replay Fold takes records from PCIe
alone (03, R62). -/
def Fold.takesAt (x : Fold) (t : Nat) : Bool :=
  x.live && x.run.started && decide (x.run.launchAt ≤ t) && (decide (x.run.opened ≤ x.frameAt t) || !x.run.closed) && !x.growingNow &&
    !x.stoppedAt (x.frameAt t) && !x.run.replay
/-- A record refused outside a running Scoring frame: counted, not listed (10, R272; DEDUCED, log entry 30). -/
def State.refuseRecords (s : State) (f : FoldId) (n : Nat) : State := s.modFold f fun x => { x with tel := { x.tel with drops := x.tel.drops + n } }
/-- A record landed now. -/
def State.land (s : State) (f : FoldId) (a : Arrival) : State :=
  s.modFold f fun x => { x with adm := { x.adm with arrivals := x.adm.arrivals ++ [a] } }
/-- The declaration of an input in the Fold's bundle (19, Table 19.6). -/
def Fold.declOf (x : Fold) (i : Nat) : Option InDecl := match x.load with
  | some l => l.res.inputs.find? fun d => d.number == i
  | none => none
/-- A delivery of external input `i`: the first in a frame is its value, and the record of a tick record source; a further one
is refused with the frame's records (08, R205, R207). -/
def State.deliverInput (s : State) (f : FoldId) (i unit : Nat) (pos : Nat × Nat) (recId body : Bytes) (route : Route) : State :=
  let x := s.fold f
  let n := x.frameAt s.now
  let a : Arrival := ⟨n, s.now, unit, pos, recId, none, body, route, none, false, none⟩
  if !x.takesAt s.now then s.refuseRecords f 1
  else if (x.deliveredIn n).any fun e => e.1 == i then s.land f { a with external := some i }
  else
    let s := s.modFold f fun y => { y with adm := { y.adm with delivered := y.adm.delivered ++ [(i, s.now, body)] } }
    match x.declOf i with
    | some d => if d.kind = 2 then s.land f a else s
    | none => s

/-! ## IZR (10) -/

/-- Record entries of a DATA payload: 2-byte lengths, most-significant byte first, and bodies of 1 to 8,192 bytes that fill
the payload exactly. -/
def izrEntries : Nat → Bytes → Option (List Bytes)
  | 0, _ => none
  | k + 1, b =>
    if b.isEmpty then some []
    else
      let n := beNat (b.take 2)
      if b.length < 2 + n || n < 1 || 8192 < n then none
      else (izrEntries k (b.drop (2 + n))).map ((slice b 2 n) :: ·)
/-- Record ID of an IZR record: channel, Sequence, record index (10, Table 10.5). -/
def izrRecId (c sq i : Nat) : Bytes := be 2 c ++ be 8 sq ++ be 2 i
/-- Records of an accepted message on a Role 0 channel. -/
def State.landAll (s : State) (f : FoldId) (rx : IzrRx) (route : Route) (bs : List Bytes) : State :=
  let x := s.fold f
  let c := rx.hdr.channel
  if !x.takesAt s.now then s.refuseRecords f bs.length else
    (bs.zipIdx).foldl (fun s e => s.land f
      ⟨x.frameAt s.now, s.now, unitPort rx.port, (rx.msgIndex, e.2), izrRecId c rx.hdr.seq e.2, some c, e.1, route, none, false, none⟩) s
/-- Result route of what a message carries: its key slot with the egress key held now (09, R239). -/
def State.izrRoute (s : State) (rx : IzrRx) : Route :=
  let ch := s.chan rx.hdr.channel
  let k := slotOf rx.hdr.epoch
  .izr rx.hdr.channel rx.hdr.epoch (vget ch.outKey k) (vget ch.salt k)
/-- IZR traffic that the card looks at: good FCS, the IZR port, and egress not halted. -/
def State.izrLive (s : State) (rx : IzrRx) : Bool := rx.fcsOk && rx.udpPort == s.izrUdp && !s.power.halted
/-- IZR_DATA (09, R238; 10, R261 to R265, R269). -/
def execIzrData (t : Nat) (rx : IzrRx) (s : State) : Out :=
  let s := (s.tick t).rxFrame rx
  if !s.izrLive rx then .next s else
    match s.izrCause rx with
    | some c => .next (s.discardIzr rx.port c rx.hdr.channel)
    | none =>
      if rx.hdr.typ ≠ 0 then .next (s.discardIzr rx.port 9 rx.hdr.channel) else
        match s.izrOpen rx, s.chanFold rx.hdr.channel with
        | .error c, _ => .next (s.discardIzr rx.port c rx.hdr.channel)
        | .ok _, none => .next s
        | .ok b, some f =>
          let cf := s.chanCfg rx.hdr.channel
          match izrEntries (b.length + 1) b with
          | none => .next (s.discardIzr rx.port 5 rx.hdr.channel)
          | some es =>
            if es.length ≠ rx.hdr.count || b.length ≠ rx.hdr.length || (cf.role == 1 && es.length != 1) then
              .next (s.discardIzr rx.port 5 rx.hdr.channel)
            else
              let route := s.izrRoute rx
              let s := s.izrAccept rx f
              if cf.role = 1 then
                .next (s.deliverInput f cf.input (unitPort rx.port) (rx.msgIndex, 0) (izrRecId rx.hdr.channel rx.hdr.seq 0) (es.headD []) route)
              else .next (s.landAll f rx route es)

/-- Info string of a channel's HPKE context (09, Channel keys and epochs). -/
def hpkeInfo (foldMeas : Bytes) (c : Nat) (e : Bool) : Bytes := ascii [0x49, 0x5A, 0x52, 0x31] ++ foldMeas ++ be 2 c ++ le 1 (b2n e)
/-- The HPKE context of an offer opens (09, R237). -/
def State.offerOpens (s : State) (f : FoldId) (rx : IzrRx) (o : HpkeOffer) : Bool :=
  match (s.fold f).load with
  | none => false
  | some l =>
    let ck := normKey (s.chanCfg rx.hdr.channel).clientKey
    o.authMode && o.suiteOk && !(s.fold f).keys.hpke.isEmpty && o.recipient == (s.fold f).keys.hpke && !ck.isEmpty && o.sender == ck &&
      o.info == hpkeInfo l.foldMeas rx.hdr.channel rx.hdr.epoch && !o.ingress.isEmpty
/-- The offer's GCM tag: an empty plaintext under the offered ingress key and salt, the header and enc as additional data (10, Table 10.3). -/
def offerTagOk (rx : IzrRx) (o : HpkeOffer) : Bool :=
  openBox o.ingress (izrNonce o.salt rx.hdr.seq) (izrHdrBytes rx.hdr ++ o.enc) rx.box == some []
/-- Keys of a slot replaced (09, R238). -/
def Chan.setKeys (c : Chan) (k : Fin 2) (o : HpkeOffer) : Chan :=
  { c with inKey := vset c.inKey k o.ingress, outKey := vset c.outKey k o.egress, salt := vset c.salt k o.salt }
/-- KEY_OFFER: opens HPKE, installs the keys in the epoch slot, answers KEY_ACK under them (09, R237, R238; 10, R264). -/
def execKeyOffer (t : Nat) (rx : IzrRx) (offer : HpkeOffer) (s : State) : Out :=
  let s := (s.tick t).rxFrame rx
  let c := rx.hdr.channel
  if !s.izrLive rx then .next s else
    match s.izrCause rx with
    | some k => .next (s.discardIzr rx.port k c)
    | none =>
      if rx.hdr.typ ≠ 2 then .next (s.discardIzr rx.port 9 c)
      else match s.chanFold c with
        | none => .next s
        | some f =>
          if rx.hdr.length ≠ 97 || offer.enc.length ≠ 97 then .next (s.discardIzr rx.port 5 c)
          else if !s.offerOpens f rx offer then .next (s.emit (unitFold f) 0x0205 (le 2 c ++ le 8 rx.hdr.seq))
          else if !offerTagOk rx offer then .next (s.discardIzr rx.port 6 c)
          else if rx.hdr.seq ≤ (s.chan c).inSeq then .next (s.discardIzr rx.port 7 c)
          else
            let s := s.izrAccept rx f
            let s := s.setChan c ((s.chan c).setKeys (slotOf rx.hdr.epoch) offer)
            .next (s.sendIzr c 3 rx.hdr.epoch offer.egress offer.salt 0 (be 8 rx.hdr.seq) false)

/-- PAUSE_FRAME: a Clause 31 PAUSE, or a PFC frame for EgressPriority, pauses result traffic of the port for `len` counts (10, R258; DEDUCED, log entry 30). -/
def execPauseFrame (t : Nat) (port : PortId) (kind : PauseKind) (prio : Nat) (len : Nat) (s : State) : Out :=
  let s := s.tick t
  if portCount s.cfg.portLayout ≤ port.val then .next s else
  let s := s.modPort port fun p => { p with pause := p.pause + 1 }
  if kind = .clause31 ∨ prio = s.num 0x2033 0 0 then .next (s.modPort port fun p => { p with pausedUntil := s.now + len }) else .next s

/-! ## Field records (10, R281 to R283) -/

/-- Bindings of a source, with their Fold and input (13, Table 13.14). -/
def State.bindings (s : State) (source pdo : Nat) : List (FoldId × Nat × InBind) :=
  s.cfg.inBinds.filterMap fun e =>
    if h : e.1 / 64 < 16 then (if e.2.source == source && e.2.pdo == pdo then some (⟨e.1 / 64, h⟩, e.1 % 64, e.2) else none) else none
/-- Deliver an image to every input bound to it. -/
def State.deliverImage (s : State) (source pdo : Nat) (recId image : Bytes) : State :=
  (s.bindings source pdo).foldl (fun s e => s.deliverInput e.1 e.2.1 0 (e.2.2.offset, e.2.1) recId (slice image e.2.2.offset e.2.2.length) .field) s
/-- ETHERCAT_PROCESS_DATA: the RxPDO image of SyncManager 2 is taken in OP, the TxPDO image of SyncManager 3 goes out in
SAFE-OP and OP (10, R281; the AL states: PRESUMED, log entry 31). -/
def execEthercatProcessData (t : Nat) (fcsOk : Bool) (image : Bytes) (s : State) : Out :=
  let s := s.tick t
  if !s.ecatUp || !fcsOk || s.shep.alState < 4 then .next s
  else
    let img := image.take 1024
    let s := if s.shep.alState = 8 then
        ({ s with shep := { s.shep with rxImage := mwrite s.shep.rxImage 0 img } }).deliverImage 1 0 (le 1 2 ++ le 8 s.now) img
      else s
    .next (s.send (.txPdo (mread s.shep.txImage 0 512)))
/-- CAN_PDO: an RPDO in NMT Operational is an external input or a tick record (10, R283). -/
def execCanPdo (t : Nat) (pdo : Fin 4) (cobId : Nat) (data : Bytes) (s : State) : Out :=
  let s := s.tick t
  if !s.fieldUp || s.shep.nmt ≠ 5 then .next s
  else .next (s.deliverImage 2 (pdo.val + 1) (le 4 cobId ++ le 8 s.now) (data.take 64))

/-! ## Field-network management (13, R376; 10) -/

/-- NMT_COMMAND: it moves that field controller only (13, R376); LSS gives the node ID (10). -/
def execNmtCommand (t : Nat) (c : NmtCmd) (s : State) : Out :=
  let s := s.tick t
  if !s.fieldUp then .next s else
    let nmt := fun (n : Nat) => if s.shep.nmt = 0 then s else { s with shep := { s.shep with nmt := n } }
    match c with
    | .start => .next (nmt 5)
    | .stop => .next (nmt 4)
    | .preOperational => .next (nmt 0x7F)
    | .resetNode => .next (if s.shep.nmt = 0 then s else s.canBoot)
    | .resetComm => .next (if s.shep.nmt = 0 then s else s.canBoot)
    | .lssNodeId n =>
      if 1 ≤ n ∧ n ≤ 127 then
        let s := { s with cfg := { s.cfg with vals := mset [] s.cfg.vals (0x2060 * 256 + 1) (le 1 n) } }
        .next (if s.shep.nmt = 0 then s.canBoot else s)
      else .next s
    | .alState st => if s.ecatUp ∧ (st = 1 ∨ st = 2 ∨ st = 4 ∨ st = 8) then .next { s with shep := { s.shep with alState := st } } else .next s
/-- CAN_BOOTUP_MESSAGE of another node: the field-node table records 1 (13, Table 13.10). -/
def execCanBootupMessage (t : Nat) (node : Nat) (s : State) : Out :=
  let s := s.tick t
  if !s.fieldUp || node < 1 || 127 < node || s.shep.nmt = 0 then .next s
  else .next { s with shep := { s.shep with nodes := mset 0 s.shep.nodes node 1 } }

/-! ## LLDP (10, R285) -/

/-- LLDP_TIMER: every port of the layout that is up and due sends an LLDPDU with TTL 120 s, every 30 s; expired neighbours go. -/
def execLldpTimer (t : Nat) (s : State) : Out :=
  let s := s.tick t
  .next ((List.finRange 16).foldl (fun s (p : PortId) =>
    let y := s.port p
    let s := match y.neighbour with
      | some n => if n.expires ≤ s.now then s.modPort p fun z => { z with neighbour := none } else s
      | none => s
    if y.up && decide (p.val < portCount s.cfg.portLayout) && decide (y.lldpNext ≤ s.now) then
      (s.modPort p fun z => { z with lldpNext := s.now + 30000000000 }).send (.lldp p.val 120 s.sec.serial s.card)
    else s) s)
/-- LLDPDU_RECEIVED: the port's neighbour, kept for its TTL in seconds. -/
def execLldpduReceived (t : Nat) (port : PortId) (chassis portName system : Bytes) (ttl : Nat) (s : State) : Out :=
  let s := s.tick t
  .next (s.modPort port fun p =>
    { p with rx := p.rx + 1, neighbour := if ttl = 0 then none else some ⟨chassis.take 64, portName.take 64, system.take 64, s.now + ttl * 1000000000⟩ })

end Sys2Proof.Machine
end

