-- ==== Sys2Proof/Machine/Heath.lean ====
section
/-! DEFINITION. Time discipline, Stile links, service words, launch agreement, membership epochs and departures (02, 11). -/

namespace Sys2Proof.Machine

/-- The card takes part in the Heath: the Root firmware runs, no trip has stopped transmit (14, Table 14.5). -/
def State.awake (s : State) : Bool := s.power.booted && !s.power.halted

/-! ## Steps and slews (02, R28 to R30) -/

/-- SPDM KEY_UPDATE is asked for on every keyed link after a step (11, R293). -/
def State.askKeyUpdates (s : State) : State :=
  (List.finRange 16).foldl (fun s (k : LinkId) =>
    if (s.link k).attested then s.modLink k fun x =>
      { x with sendq := x.sendq ++ [(⟨3, 0, s.card, s.heath.seq, padTo 24 (Config.message 3 [be 1 k.val])⟩, 1)] } else s) s
/-- Load a new GTC value: GTC_STEP (02, R28). -/
def State.stepGtc (s : State) (v : Nat) : State :=
  if v = s.now then s else
    (({ s with clock := { s.clock with gtc := v, slewAt := v } }).emitAt v 2 0x0104 false (le 8 s.now ++ le 8 v)).askKeyUpdates
/-- A measured offset, ps, to the discipline source: telemetry, and what is left to slew in whole counts; where no Fold is active
the whole counts are stepped (02, R28 and Corners; DEDUCED, log entry 37). The spec gives no rounding of picoseconds to counts: the
quotient is rounded toward minus infinity (DESIGN CHOICE, log entry 37). -/
def State.discipline (s : State) (ps : Int) : State :=
  let n := ps / 1000
  if s.anyActive then { s with clock := { s.clock.setSlew n with offsetPs := ps } }
  else ({ s with clock := { s.clock with offsetPs := ps, slew := 0 } }).stepGtc ((s.now : Int) + n).toNat
/-- PTP_EVENT_MESSAGE: only card 0, only the port named in PtpPort, only with GtcSource 1 (02, R29; 10, R259). -/
def execPtpEventMessage (t : Nat) (port : PortId) (offset : Int) (s : State) : Out :=
  let s := s.tick t
  if !s.awake || !s.clock.running || s.card != 0 || s.num 0x2021 0 0 != 1 || s.num 0x2032 0 0 != port.val then .next s
  else .next (s.discipline offset)
/-- Signed distance to the nearest card tick. -/
def tickDistance (now p : Nat) : Int := let r := now % p; if 2 * r ≤ p then -(r : Int) else ((p - r : Nat) : Int)
/-- SYNC0: only card 0 with GtcSource 2; it locks only where the cycle equals TickPeriod and then slews each event onto a card
tick (02, R29, R30). -/
def execSync0 (t : Nat) (cycle : Nat) (offset : Int) (s : State) : Out :=
  let s := s.tick t
  if !s.awake || !s.clock.running || !s.ecatUp || s.card != 0 || s.num 0x2021 0 0 != 2 then .next s
  else if cycle ≠ s.cfg.tickPeriod then .next { s with clock := { s.clock with sync0Locked := false, sync0Cycle := cycle } }
  else .next { s with clock := { s.clock with sync0Locked := true, sync0Cycle := cycle, offsetPs := offset }.setSlew (tickDistance s.now cycle) }

/-! ## Alignment (11, R301 to R303; 02, R31) -/

/-- GTC_ALIGN_LOSS of this card, once: it is a departed peer from now on, its LEAVE word says so, its Growing runs end (02, R31;
11, R302, R315, R318). A card that belongs to no Heath has no card 0 to be aligned to and reports none, and a later loss is reported
again once an epoch has been applied (DEDUCED, log entry 56). -/
def State.alignLoss (s : State) (ps : Int) : State :=
  if s.heath.alignLost || s.heath.members = 0 then s else
    let s := ({ s with heath := { s.heath with alignLost := true } }).emit 2 0x0103 (le 8 (wrap 64 ps))
    let s := allFolds.foldl (fun s f => if (s.fold f).growingNow then s.departFor f s.card 3 else s) s
    s.flood 7 (be 1 s.card ++ be 1 3 ++ be 8 s.now)
/-- No upstream of depth 4 or less is a loss of alignment, except on the reference (11, R302). -/
def State.checkUpstream (s : State) : State :=
  if s.isReference || s.heath.members = 0 || (s.upstreams.any fun x => decide (x.2 ≤ 4)) then s else s.alignLoss s.clock.offsetPs
/-- A TIME word: the interval and depth of its link; from the upstream it gives the offset (sender GTC + 240) − local GTC, which is
slewed (02; 11, R301). -/
def State.onTime (s : State) (k : LinkId) (sender reference depth : Nat) : State :=
  if !(s.link k).carries then s else
    let s := s.modLink k fun x => { x with timeInterval := some (s.now / 65536), depth := some depth }
    let s := s.reselect
    if s.heath.upstream ≠ some k then s.checkUpstream
    else
      let off : Int := (sender : Int) + 240 - s.now
      let s := { s with clock := { s.clock.setSlew off with offsetPs := off * 1000 }, heath := { s.heath with reference := reference } }
      if 4 < off.natAbs then s.alignLoss (off * 1000) else s.checkUpstream
/-- TIME_WORD. -/
def execTimeWord (t : Nat) (link : LinkId) (sender reference depth : Nat) (s : State) : Out :=
  let s := s.tick t
  if !s.awake then .next s else .next (s.onTime link sender reference depth)

/-! ## Links that go down, and frames lost (11, R291 to R293, R317) -/

/-- Link that serves as a spare for a partner, trained, keyed and idle (11, Table 11.4). -/
def State.spareTo (s : State) (c : Nat) : Option LinkId :=
  if s.heath.spareFor.isSome then none else (List.finRange 16).find? fun (j : LinkId) =>
    cablePartner s.topology s.card j.val == some (c, true) && (s.link j).carries
/-- The Fold's slot plan owns a payload position on a link (19). -/
def Fold.ownsLink (x : Fold) (k : Nat) : Bool := match x.load with
  | some l => l.slots.any fun e => e.resource == 5 && e.inst == k
  | none => false
/-- The Fold runs a level-step, the re-shard or a recompute across cards. -/
def Fold.inStep (x : Fold) : Bool :=
  x.live && x.growingNow && decide (1 < x.run.job.2) && decide (4 ≤ x.run.role ∧ x.run.role ≤ 24 ∧ x.run.role ≠ 22)
/-- A Growing Fold whose link is gone idles until an epoch puts a spare in its place; without a spare it stops (11, Growing across
the Heath). -/
def State.growLinkDown (s : State) (k : LinkId) (spare : Bool) (f : FoldId) : State :=
  let x := s.fold f
  if !x.inStep || !x.ownsLink k.val then s
  else if spare then s.modFold f fun y => { y with run := { y.run with idle := true }, grow := { y.grow with replayCause := some (y.grow.replayCause.getD 0x0701) } }
  else s.noMapping f
/-- The keys, session and words of a link are gone (11, R293). -/
def Link.fall (k : Link) : Link :=
  { k with state := 0, helloOk := false, attested := false, tested := false, keys := Vector.replicate 2 [], salts := Vector.replicate 2 [],
           keySlot := false, depth := none, timeInterval := none, lossInterval := none, lostInStep := false, sendq := [], peerq := [],
           sentSlot := none, rxSlot := none }
/-- LINK_DOWN: keys zeroised, upstream chosen again, the spare asked for, the partner departed where no link to it is left
(11, R292, R293, R315; DEDUCED, log entry 36). -/
def State.dropLink (s : State) (k : LinkId) (cause : Nat) : State :=
  let x := s.link k
  if x.state = 0 then s else
    let s := ((s.modLink k Link.fall).emit (unitLink k) 0x0702 [BitVec.ofNat 8 cause]).reselect
    if x.state < 3 then s.checkUpstream else
      let spare := s.spareTo x.partner
      let s := match spare with
        | some j => s.requestEpoch (unitLink j)
        | none => s
      let s := allFolds.foldl (State.growLinkDown · k spare.isSome ·) s
      let left := (List.finRange 16).any fun (j : LinkId) => (s.link j).partner == x.partner && decide (0 < (s.link j).state)
      (if left then s else s.depart x.partner 2 s.now true).checkUpstream
/-- LINK_DOWN by lost lane lock (1) or no TIME word in two whole intervals since the last one, or since the link came up (3); two lost frames in an interval (2) and a second
loss in a replay (4) are found at STILE_FRAME itself. -/
def execLinkDown (t : Nat) (link : LinkId) (cause : Nat) (s : State) : Out :=
  let s := s.tick t
  let quiet := match (s.link link).timeInterval with
    | some i => decide (i + 3 ≤ s.now / 65536)
    | none => false
  if s.power.booted && (cause = 1 || (cause = 3 && quiet)) then .next (s.dropLink link cause) else .next s
/-- The Fold that owns a position of a link's payload wheel. -/
def State.linkOwner (s : State) (k pos : Nat) : Option FoldId := allFolds.find? fun f => match (s.fold f).load with
  | some l => l.slots.any fun e => e.resource == 5 && e.inst == k && e.pos == pos
  | none => false
/-- A lost frame of a running level-step replays it; a second loss on the same link, in the replay of the same step, takes the link down
(11, R292). -/
def State.growLoss (s : State) (k : LinkId) (pos : Nat) : State :=
  match s.linkOwner k.val pos with
  | none => s
  | some f =>
    let x := s.fold f
    if !x.inStep || x.run.idle then s
    else if x.grow.inReplay && (s.link k).lostInStep then s.dropLink k 4
    else (s.modLink k fun y => { y with lostInStep := true }).markReplay f 0x0701
/-- A frame is lost whole: STILE_FRAME_LOSS of the link; the second in one 65,536-count interval takes the link down (R291, R292). -/
def State.loseFrame (s : State) (k : LinkId) (cause slot : Nat) : State :=
  let i := s.now / 65536
  let second := (s.link k).lossInterval == some i
  let s := (s.modLink k fun y => { y with losses := y.losses + 1, lossInterval := some i }).emit (unitLink k) 0x0701 (le 8 slot ++ le 1 cause)
  let s := s.growLoss k (slot % 64)
  if second then s.dropLink k 2 else s

/-! ## Discovery and admission (11, R304 to R307) -/

/-- Length in cm of a cable that may be trained, from its EEPROM: readable and at most 300 cm (17, Table 17.2, R465). -/
def cableLength (c : Option Bytes) : Option Nat := (c.map fun b => fld b 0 2).filter (· ≤ 300)
/-- LINK_UP: lane lock, deskew and FEC lock on a cabled link; a cable above 300 cm never trains (11; 17, R465). -/
def execLinkUp (t : Nat) (link : LinkId) (cable : Option Bytes) (s : State) : Out :=
  let s := s.tick t
  if !s.awake then .next s else
    match cablePartner s.topology s.card link.val, cableLength cable with
    | some (c, _), some cm =>
      if (s.link link).state ≠ 0 then .next s
      else .next ((s.modLink link fun x =>
        { x with state := 2, partner := c, outOfUse := false, cable := some cm, timeInterval := some (s.now / 65536) }).startHello link)
    | _, _ => .next s
/-- A HELLO word: topology, card index for the link number, HeathOwner prefix; any difference is CABLE_MISMATCH (11, R305). -/
def State.onHello (s : State) (k : LinkId) (h : Hello) : State :=
  if (s.link k).state < 2 || (s.link k).outOfUse then s
  else
    let ok := h.topology == s.topology && h.owner8 == padTo 8 s.kept.heathOwner &&
      (match cablePartner s.topology s.card k.val with | some (c, _) => h.card == c | none => false)
    if ok then s.modLink k fun x => { x with helloOk := true, partner := h.card }
    else (((s.modLink k fun x => { x with outOfUse := true, helloOk := false }).emit (unitLink k) 0x0703
      (le 1 h.card ++ le 1 h.topology)).reselect).checkUpstream
/-- HELLO. -/
def execHello (t : Nat) (link : LinkId) (h : Hello) (s : State) : Out :=
  let s := s.tick t
  if !s.awake then .next s else .next (s.onHello link h)
/-- The card is a newcomer: outside any Heath, no active Fold, no EPOCH_REQ sent (11, R307). -/
def State.newcomer (s : State) : Bool := s.heath.members == 0 && !s.anyActive && !s.heath.joining
/-- PEER_ATTESTATION_DONE: key and salt of the session installed; a newcomer steps its GTC to the first authenticated TIME word
(11, R306, R307; 02, R28). -/
def execPeerAttestationDone (t : Nat) (link : LinkId) (r : PeerAtt) (s : State) : Out :=
  let s := s.tick t
  let x := s.link link
  if !s.awake || x.state < 2 || !x.helloOk || x.attested || x.outOfUse then .next s
  else if !r.chainOk || r.spdmError ≠ 0 || r.key.isEmpty || padTo 32 r.owner != padTo 32 s.kept.heathOwner then
    .next ((s.modLink link fun y => { y with outOfUse := true }).emit (unitLink link) 0x0704 (le 1 x.partner ++ le 1 r.spdmError))
  else
    let s := s.modLink link fun y => { y with attested := true, keySlot := false, keys := vset y.keys 0 r.key, salts := vset y.salts 0 r.salt }
    match r.peerGtc with
    | some g => .next (if s.newcomer then s.stepGtc (g + 240) else s)
    | none => .next s
/-- LINK_TEST_DONE: when the tests of every attested link have ended, a newcomer sends EPOCH_REQ for itself; on a member the link
asks for its own admission (11, R307, R319). -/
def execLinkTestDone (t : Nat) (link : LinkId) (ok : Bool) (s : State) : Out :=
  let s := s.tick t
  if !s.awake || !(s.link link).carries || (s.link link).tested then .next s
  else if !ok then
    .next (((s.modLink link fun x => { x with outOfUse := true }).emit 0 0x0A01 (le 1 6 ++ le 2 link.val)).reselect.checkUpstream)
  else
    let s := s.modLink link fun x => { x with tested := true }
    if s.newcomer then
      if (List.finRange 16).any fun (k : LinkId) => (s.link k).carries && !(s.link k).tested then .next s
      else .next (({ s with heath := { s.heath with joining := true } }).flood 9 (be 1 s.card ++ be 2 0 ++ be 1 (Config.epochKind 0)))
    else if s.memberSet.getLsbD (s.link link).partner then .next (s.requestEpoch (unitLink link))
    else .next s

/-! ## Launch agreement (02, R42; 11, R320; 19, R514) -/

/-- Job members other than this card. -/
def State.others (s : State) (x : Fold) : List Nat := ((List.range x.run.job.2).map (x.run.job.1 + ·)).filter (· != s.card)
/-- LAUNCH_INCOMPLETE: the Fold returns to LOADED; abort words follow in every time word before LaunchAt (02). -/
def State.launchIncomplete (s : State) (f : FoldId) (missing : List Nat) : State :=
  let at_ := (s.fold f).run.launchAt
  let s := s.emit (unitFold f) 0x0102 (le 8 at_ ++ le 4 ((missing.map (2 ^ ·)).sum))
  (s.modFold f fun x => { x with run := { x.run with aborted := true } }).disarm f
/-- Digest that the Fold's bundle arms with. -/
def Fold.armDigest (x : Fold) : Bytes := match x.load with
  | some l => l.bundleDigest
  | none => []
/-- An arm word held from a member matches this card's own arming. -/
def Fold.armMatch (x : Fold) (c : Nat) : Bool := x.run.armWords.any fun e =>
  e.1 == c && !e.2.abort && !e.2.run && e.2.launchAt == x.run.launchAt && e.2.digest == x.armDigest
/-- A RUN word held from a member fits joining its running job: same digest, LaunchAt a frame boundary of the job (11, R320). -/
def Fold.runMatch (x : Fold) (c : Nat) : Bool := x.run.armWords.any fun e =>
  e.1 == c && !e.2.abort && e.2.run && e.2.digest == x.armDigest && decide (e.2.launchAt ≤ x.run.launchAt) && (x.run.launchAt - e.2.launchAt) % x.period == 0
/-- A committed epoch admits this card at or before LaunchAt. -/
def State.admittedBy (s : State) (at_ : Nat) : Bool :=
  s.heath.committedLog.any fun e => decide (e.2.1 ≤ at_) && e.2.2.testBit s.card
/-- Members whose words are missing at the cut-off: none where every member arms alike, or where this card may join a running
Scoring job; every other member where no mapping fits. A Fold armed to join starts by R320 alone (11, R307, R320). -/
def State.missingWords (s : State) (f : FoldId) : List Nat :=
  let x := s.fold f
  let o := s.others x
  if (s.findMapping f).isNone then s.card :: o
  else if !o.isEmpty && !x.growingNow && s.admittedBy x.run.launchAt && o.all x.runMatch then []
  else if x.run.joins then (let l := o.filter fun c => !x.runMatch c
    if l.isEmpty then [s.card] else l)
  else o.filter fun c => !x.armMatch c
/-- ARM_CUTOFF at LaunchAt − 500,000. -/
def execArmCutoff (t : Nat) (f : FoldId) (s : State) : Out :=
  let s := s.tick t
  let x := s.fold f
  if s.power.halted || x.st ≠ .armed || x.run.cutoffOk || decide (s.now + 500000 < x.run.launchAt) then .next s
  else
    let m := s.missingWords f
    if m.isEmpty && (s.findMapping f).isSome then .next (s.modFold f fun y => { y with run := { y.run with cutoffOk := true } })
    else .next (s.launchIncomplete f m)
/-- A whole arm word: held for its Fold; an abort word before LaunchAt sends an ARMED Fold back (02, R42). -/
def State.onArm (s : State) (origin : Nat) (w : ArmWord) : State :=
    let s := s.modFold w.fold fun x => { x with run := { x.run with armWords := (origin, w) :: x.run.armWords.filter (fun e => e.1 != origin) } }
    let x := s.fold w.fold
    if w.abort && x.st == .armed && decide (s.now < x.run.launchAt) && w.launchAt == x.run.launchAt && x.inJob origin then
      s.launchIncomplete w.fold [origin]
    else s
/-- Body of an ARM_A: Fold, flags, LaunchAt, the digest's first bytes (11, Table 11.3). -/
def armABody (w : ArmWord) : Bytes := be 1 w.fold.val ++ be 1 (b2n w.run + 2 * b2n w.abort) ++ be 8 w.launchAt ++ padTo 14 w.digest
/-- Body of an ARM_B: Fold, the Sequence of its ARM_A, the rest of the digest (11, Table 11.3). -/
def armBBody (w : ArmWord) : Bytes := be 1 w.fold.val ++ be 4 w.bNamesSeq ++ padTo 18 (w.digest.drop 14) ++ be 1 0
/-- ARM_WORD: the two words of an arm word, each relayed under its own Sequence, and used where the ARM_B names the ARM_A (02, R42; 11). -/
def execArmWord (t : Nat) (h : RelayHdr) (w : ArmWord) (s : State) : Out :=
  let s := s.tick t
  if !s.awake then .next s else
    let a := { h with seq := w.armASeq }
    let b := { h with seq := w.bSeq }
    let fresh := s.freshWord a
    let s := if fresh then s.relay a 4 (armABody w) else s
    let s := if s.freshWord b then s.relay b 5 (armBBody w) else s
    .next (if fresh && w.armASeq == w.bNamesSeq then s.onArm h.origin w else s)

/-! ## Membership epochs (11, Table 11.5) -/

/-- EPOCH_REQ: relayed; the coordinator batches it. Of cards that all stand outside a Heath the lowest-indexed coordinates (DEDUCED, log entry 35). -/
def State.onEpochReq (s : State) (h : RelayHdr) (c u k : Nat) : State :=
  if !s.freshWord h then s else
    let s := s.relay h 9 (be 1 c ++ be 2 u ++ be 1 k)
    if s.coordinator != s.card || (s.heath.members = 0 && c < s.card) then s
    else if s.heath.requests.contains (c, u, k) then s
    else ({ s with heath := { s.heath with requests := s.heath.requests ++ [(c, u, k)] } }).tryPropose
def execEpochReq (t : Nat) (h : RelayHdr) (unitCard unitNo kind : Nat) (s : State) : Out :=
  let s := s.tick t
  if !s.awake then .next s else .next (s.onEpochReq h unitCard unitNo kind)
/-- The pending proposal is the one that a MEMBER word names. -/
def Proposal.names (p : Proposal) (b : MemberBody) : Bool := p.epoch == b.epoch && p.e == b.e
/-- Hold a proposal, or add a unit to the one held; another proposal that is still pending stays (11, R309), and one that an ABORT has
ended is not taken up again (11, R310). -/
def State.holdProposal (s : State) (b : MemberBody) : State :=
  match s.heath.proposal with
  | none => if s.heath.abortLog.contains (b.epoch, b.e) then s else { s with heath := { s.heath with proposal := some ⟨b.epoch, b.e, b.set, [(b.unitCard, b.unitNo)], 0, false, false⟩ } }
  | some p =>
    if p.names b && !p.units.contains (b.unitCard, b.unitNo) then
      { s with heath := { s.heath with proposal := some { p with units := p.units ++ [(b.unitCard, b.unitNo)] } } }
    else s
/-- Set the ACK of a card in the pending proposal. -/
def State.setAck (s : State) (b : MemberBody) (c : Nat) : State :=
  match s.heath.proposal with
  | some p => if p.names b then { s with heath := { s.heath with proposal := some { p with acks := p.acks ||| BitVec.ofNat 32 (2 ^ (c % 32)) } } } else s
  | none => s
/-- This card has flooded its ACK for the proposal named. -/
def State.hasAcked (s : State) (b : MemberBody) : Bool := match s.heath.proposal with
  | some p => !p.names b || p.acks.getLsbD (s.card % 32)
  | none => true
/-- Body bytes of a received MEMBER word. -/
def bodyOf (b : MemberBody) (kind : Nat) : Bytes := memberBody b.epoch b.e b.set kind b.unitCard b.unitNo
/-- A PROPOSE word: held, relayed, acknowledged once. -/
def State.onPropose (s : State) (h : RelayHdr) (b : MemberBody) : State :=
  if !s.freshWord h then s else
    let s := (s.relay h 6 (bodyOf b 0)).holdProposal b
    if s.hasAcked b then s else (s.setAck b s.card).flood 6 (bodyOf b 1)
def execMemberPropose (t : Nat) (h : RelayHdr) (b : MemberBody) (s : State) : Out :=
  let s := s.tick t
  if !s.awake then .next s else .next (s.onPropose h b)
/-- An ACK word: relayed and recorded; it carries the proposal too. -/
def State.onAck (s : State) (h : RelayHdr) (b : MemberBody) : State :=
  if !s.freshWord h then s else ((s.relay h 6 (bodyOf b 1)).holdProposal b).setAck b h.origin
def execMemberAck (t : Nat) (h : RelayHdr) (b : MemberBody) (s : State) : Out :=
  let s := s.tick t
  if !s.awake then .next s else .next (s.onAck h b)
/-- EPOCH_ABORTED: the proposal is gone; the coordinator proposes the units of cards that acknowledged again (11, Corners; DEDUCED, log entry 35). -/
def State.abortEpoch (s : State) : State :=
  match s.heath.proposal with
  | none => s
  | some p =>
    let s := ({ s with heath := { s.heath with proposal := none, joining := false,
                                               abortLog := (p.epoch, p.e) :: s.heath.abortLog } }).emit 0 0x0708 (le 4 p.epoch ++ le 8 p.e)
    if s.coordinator != s.card then s else
      let again := (p.units.filter fun u => p.acks.getLsbD u.1).map fun u => (u.1, u.2, Config.epochKind u.2)
      ({ s with heath := { s.heath with requests := s.heath.requests ++ again } }).tryPropose
/-- An ABORT word: relayed; it prevents the commit, also where it comes before the proposal it names (11, R310). -/
def State.onAbort (s : State) (h : RelayHdr) (b : MemberBody) : State :=
  if !s.freshWord h then s else
    let s := s.relay h 6 (bodyOf b 2)
    let note := { s with heath := { s.heath with abortLog := (b.epoch, b.e) :: s.heath.abortLog } }
    match s.heath.proposal with
    | some p => if p.names b then (if p.committed then s else s.abortEpoch) else note
    | none => note
def execMemberAbort (t : Nat) (h : RelayHdr) (b : MemberBody) (s : State) : Out :=
  let s := s.tick t
  if !s.awake then .next s else .next (s.onAbort h b)
/-- EPOCH_ACK_CUTOFF: at E − 1,000,000 a card lacking an ACK of any card of the old or new set floods ABORT (R310). -/
def execEpochAckCutoff (t : Nat) (s : State) : Out :=
  let s := s.tick t
  match s.heath.proposal with
  | none => .next s
  | some p =>
    if !s.awake || p.committed || decide (s.now + 1000000 < p.e) || (s.memberSet ||| p.set) &&& ~~~p.acks = 0 then .next s
    else
      let u := p.units.headD (0, 0)
      .next ((s.flood 6 (memberBody p.epoch p.e p.set 2 u.1 u.2)).abortEpoch)

/-- One unit of an epoch takes effect: a card's links, a quadrant that leaves or returns, a link or spare (11, Membership epochs). -/
def State.applyLink (s : State) (j : LinkId) : State :=
  let c := (s.link j).partner
  if cablePartner s.topology s.card j.val == some (c, true) then
    let k := (List.finRange 16).find? fun (i : LinkId) => i != j && (s.link i).partner == c && (s.link i).state == 0
    if !(s.link j).carries then s else
    { s.modLink j (fun x => { x with state := 3 }) with heath := { s.heath with spareFor := match k with
      | some i => some i.val
      | none => s.heath.spareFor } }
  else
    let s := s.modLink j fun x => if x.carries then { x with state := 3 } else x
    if s.heath.spareFor = some j.val then
      let s := { s with heath := { s.heath with spareFor := none } }
      (List.finRange 16).foldl (fun s (i : LinkId) =>
        if cablePartner s.topology s.card i.val == some (c, true) then s.modLink i fun x => { x with state := if x.state = 3 then 4 else x.state } else s) s
    else s
/-- Tested links between this card and a card, one of which this epoch makes a member: those in use carry payload from now on, spares
stay idle (11, R304, R319). A link that comes up later is a unit of an epoch of its own. -/
def State.admitLinks (s : State) (old : BitVec 32) : State :=
  (List.finRange 16).foldl (fun s (k : LinkId) =>
    let x := s.link k
    if x.carries && x.helloOk && x.tested && x.state == 2 && s.memberSet.getLsbD x.partner &&
        !(old.getLsbD x.partner && old.getLsbD (s.card % 32)) then
      let spare := cablePartner s.topology s.card k.val == some (x.partner, true)
      s.modLink k fun y => { y with state := if spare then 4 else 3 }
    else s) s
/-- A quadrant unit: the own quadrant returns if it was returning; another card's leaves or returns in turn. -/
def State.applyQuad (s : State) (c : Nat) (q : QuadId) : State :=
  let back := if c = s.card then (s.quad q).returning && (s.quad q).tested && !(s.quad q).failed else s.heath.lostQuads.contains (c, q.val)
  let s := if c = s.card && back then s.modQuad q fun x => { x with state := 0, faults := [], returning := false, tested := false } else s
  let l := s.heath.lostQuads.filter fun x => x != (c, q.val)
  { s with heath := { s.heath with lostQuads := if back then l else l ++ [(c, q.val)] } }
/-- A lost stack of this card is out of service from this epoch: the mappings of its variant are in force (08, R219; 11, R312). -/
def State.applyStack (s : State) (k : Nat) : State :=
  if s.heath.lostStacks.contains k then s else { s with heath := { s.heath with lostStacks := s.heath.lostStacks ++ [k] } }
/-- A unit returns or joins with this epoch: it is reported as admitted. -/
def State.unitIn (s : State) (u : Nat × Nat) : Bool :=
  if u.2 = 0 then !s.memberSet.getLsbD u.1
  else if 0x80 ≤ u.2 ∧ u.2 < 0x84 then
    (if h : u.1 = s.card ∧ u.2 - 0x80 < 4 then (s.quad ⟨u.2 - 0x80, h.2⟩).tested else s.heath.lostQuads.contains (u.1, u.2 - 0x80))
  else decide (0x50 ≤ u.2 ∧ u.2 < 0x60)
/-- The membership, quadrants and links of an epoch take effect. -/
def State.applyUnits (s : State) (p : Proposal) : State :=
  let old := s.heath.members
  let s := { s with heath := { s.heath with members := p.set } }
  let s := p.units.foldl (fun s u => if u.1 = s.card ∧ 0x60 ≤ u.2 ∧ u.2 < 0x68 then s.applyStack (u.2 - 0x60) else s) s
  let s := p.units.foldl (fun s u =>
    if h : u.2 - 0x80 < 4 then (if 0x80 ≤ u.2 then s.applyQuad u.1 ⟨u.2 - 0x80, h⟩ else s)
    else s) s
  let s := p.units.foldl (fun s u =>
    if h : u.2 - 0x50 < 16 then (if 0x50 ≤ u.2 && u.1 = s.card then s.applyLink ⟨u.2 - 0x50, h⟩ else s) else s) s
  s.admitLinks old
/-- EPOCH_COMMIT: at E − 750,000 a card that holds no ABORT commits, and loads the programs of the mappings that the epoch brings
into the idle banks (R310; 19, R518). -/
def execEpochCommit (t : Nat) (s : State) : Out :=
  let s := s.tick t
  match s.heath.proposal with
  | none => .next s
  | some p =>
    if !s.awake || p.committed || decide (s.now + 750000 < p.e) then .next s
    else
      let after := s.applyUnits p
      let new := (p.set &&& ~~~s.memberSet).toNat ||| (if s.heath.members = 0 then 2 ^ s.card else 0)
      let s := { s with heath := { s.heath with proposal := some { p with committed := true },
                                                committedLog := s.heath.committedLog ++ [(p.epoch, p.e, new)] } }
      .next (allFolds.foldl (fun s f => match after.findMapping f with
        | some m => if (s.fold f).live && (s.fold f).run.mapping != some m.id then s.loadIdle f m.id else s
        | none => s) s)
/-- The mapping that an epoch brings to a live Fold, or NO_MAPPING (R311; 14, R411). -/
def State.remap (s : State) (e : Nat) (f : FoldId) : State :=
  let x := s.fold f
  if !x.live then s else match s.findMapping f with
    | none => s.noMapping f
    | some m => if x.run.mapping = some m.id && !x.run.idle then s
        else s.modFold f fun y => { y with run := { y.run with nextMapping := some (m.id, e) } }
/-- EPOCH_APPLY: at E the committed epoch's member set, time tree and relay set are in force; live Folds switch at their next
boundary (R311). -/
def execEpochApply (t : Nat) (s : State) : Out :=
  let s := s.tick t
  match s.heath.proposal with
  | none => .next s
  | some p =>
    if !s.awake || !p.committed || decide (s.now < p.e) then .next s
    else
      let units := p.units.filter s.unitIn
      let s := s.applyUnits p
      let s := { s with heath := { s.heath with epoch := p.epoch, proposal := none, joining := false, alignLost := false } }
      let s := s.reselect
      let s := units.foldl (fun s u => s.emit 0 0x0309 (le 1 u.1 ++ le 2 u.2 ++ le 4 p.epoch)) s
      let s := s.emit 0 0x0707 (le 4 p.epoch ++ le 8 p.e ++ le 4 p.set.toNat)
      .next (((allFolds.foldl (State.remap · p.e ·) s).updateLevel.tryPropose).checkUpstream)

/-! ## Departures and replays by word (11, R315, R317) -/

/-- A LEAVE word: relayed; the card it names has departed, condition 4. -/
def State.onLeave (s : State) (h : RelayHdr) (c cause ref : Nat) : State :=
  if !s.freshWord h then s else
    let s := s.relay h 7 (be 1 c ++ be 1 cause ++ be 8 ref)
    if c != s.card && (s.memberSet.getLsbD c || s.countsMember c) then s.depart c 4 ref false else s
def execLeave (t : Nat) (h : RelayHdr) (card cause ref : Nat) (s : State) : Out :=
  let s := s.tick t
  if !s.awake then .next s else .next (s.onLeave h card cause ref)
/-- A REPLAY word for the running step marks it; relayed. -/
def State.onReplay (s : State) (h : RelayHdr) (f : FoldId) (round step : Nat) : State :=
  if !s.freshWord h then s else
    let s := s.relay h 8 (be 1 f.val ++ be 4 round ++ be 1 step)
    let x := s.fold f
    if x.inStep && x.inJob h.origin && x.grow.round == round && x.grow.step == step then
      s.modFold f fun y => { y with grow := { y.grow with replayCause := some (y.grow.replayCause.getD 0x0701) } }
    else s
def execReplayWord (t : Nat) (h : RelayHdr) (f : FoldId) (round step : Nat) (s : State) : Out :=
  let s := s.tick t
  if !s.awake then .next s else .next (s.onReplay h f round step)

/-! ## STILE_FRAME and STILE_SLOT (11, R286 to R296, R313, R314) -/

/-- Header bytes 0 to 15 of a frame: the additional data of its GCM tag (11, Table 11.1). -/
def stileHeader (owner : Nat) (valid keySlot : Bool) (sender slot tag : Nat) : Bytes :=
  [BitVec.ofNat 8 0x10, BitVec.ofNat 8 owner, BitVec.ofNat 8 (b2n valid + 2 * b2n keySlot), BitVec.ofNat 8 sender] ++ be 8 slot ++ be 4 tag
/-- Nonce: the link's salt, then the slot number (R290). -/
def stileNonce (salt : Bytes) (slot : Nat) : Bytes := padTo 4 salt ++ be 8 slot
/-- A service word in its 32 bytes (11, Table 11.3). -/
def wordBytes (w : SvcWord) : Bytes :=
  [BitVec.ofNat 8 w.typ, BitVec.ofNat 8 w.hops, BitVec.ofNat 8 w.origin, 0] ++ be 4 w.seq ++ padTo 24 w.body
def decodeWord (b : Bytes) : SvcWord := ⟨beNat (slice b 0 1), beNat (slice b 1 1), beNat (slice b 2 1), beNat (slice b 4 4), slice b 8 24⟩
/-- Most-significant-first field of a body. -/
def bfld (b : Bytes) (o n : Nat) : Nat := beNat (slice b o n)
/-- Body of a MEMBER word. -/
def decodeMember (b : Bytes) : MemberBody := ⟨bfld b 0 4, bfld b 4 8, BitVec.ofNat 32 (bfld b 12 4), bfld b 17 1, bfld b 18 2⟩
/-- The ARM_B completes the ARM_A: the same origin, and the Sequence that it names (11, Table 11.3). -/
def armPairs (a b : SvcWord) : Bool := a.typ == 4 && b.typ == 5 && a.origin == b.origin && bfld b.body 1 4 == a.seq
/-- The arm word of an ARM_A and its ARM_B. -/
def armOf (a b : SvcWord) : ArmWord :=
  ⟨⟨bfld a.body 0 1 % 16, by omega⟩, bit (bfld a.body 1 1) 0, bit (bfld a.body 1 1) 1, bfld a.body 2 8, slice a.body 10 14 ++ slice b.body 5 18, a.seq,
    bfld b.body 1 4, b.seq⟩
/-- One half of an arm word: relayed; it waits for its other half, in whatever frame that comes, and is used with it alone (11). -/
def State.takeArm (s : State) (h : RelayHdr) (w : SvcWord) : State :=
  if !s.freshWord h then s else
    let s := s.relay h w.typ w.body
    match s.heath.armHalves.find? fun y => armPairs w y || armPairs y w with
    | some y =>
      let s := { s with heath := { s.heath with armHalves := s.heath.armHalves.erase y } }
      s.onArm h.origin (if w.typ = 4 then armOf w y else armOf y w)
    | none =>
      let rest := s.heath.armHalves.filter fun y => !(y.typ == w.typ && y.origin == w.origin && bfld y.body 0 1 == bfld w.body 0 1)
      { s with heath := { s.heath with armHalves := rest ++ [w] } }
/-- Take one service word of a frame; SPDM fragments belong to the attestation that PEER_ATTESTATION_DONE ends. -/
def State.takeWord (s : State) (k : LinkId) (w : SvcWord) : State :=
  let h : RelayHdr := ⟨k, w.hops, w.origin, w.seq⟩
  let b := w.body
  match w.typ with
  | 1 => s.onTime k (bfld b 0 8) (bfld b 8 1) (bfld b 9 1)
  | 2 => s.onHello k ⟨bfld b 0 1, bfld b 1 1, bfld b 2 1, bfld b 3 8, slice b 11 8⟩
  | 4 => s.takeArm h w
  | 5 => s.takeArm h w
  | 6 => match bfld b 16 1 with
    | 0 => s.onPropose h (decodeMember b)
    | 1 => s.onAck h (decodeMember b)
    | 2 => s.onAbort h (decodeMember b)
    | _ => s
  | 7 => s.onLeave h (bfld b 0 1) (bfld b 1 1) (bfld b 2 8)
  | 8 => s.onReplay h ⟨bfld b 0 1 % 16, by omega⟩ (bfld b 1 4) (bfld b 5 1)
  | 9 => s.onEpochReq h (bfld b 0 1) (bfld b 1 2) (bfld b 3 1)
  | _ => s
/-- A peer frame is held for its Scoring Fold where the sender is a neighbour that has not departed (R314). -/
def State.holdPeer (s : State) (sender : Nat) (p : PeerFrame) : State :=
  let x := s.fold p.fold
  if x.live && !x.growingNow && x.run.neighbours.any (fun n => n.1 == sender) then
    s.modFold p.fold fun y => { y with run := { y.run with peers := y.run.peers ++ [(sender, p.openTick, p.withheld)] } }
  else s
/-- Slot of a count: slot s begins at 128 s / 5 (R286). -/
def slotAt (now : Nat) : Nat := now * 5 / 128
/-- Slot of the frame delivered at a count: it began 240 counts before (11, R288). -/
def deliveredSlot (now : Nat) : Nat := slotAt (now - 240)
/-- The decoder corrects up to seven symbols of each codeword; beyond that the codeword is uncorrectable (11, R287). -/
def codewordOk (n : Nat) : Bool := decide (n ≤ 7)
/-- Symbols that the decoder has corrected in a frame. -/
def correctedSymbols (l : List Nat) : Nat := (l.filter codewordOk).sum
/-- STILE_FRAME: the one frame that the link delivers for the slot 240 counts before. It is lost whole with an uncorrectable codeword or
a failed tag; else payload and service words are taken (11, R287, R288, R291). -/
def execStileFrame (t : Nat) (link : LinkId) (rx : StileRx) (peer : Option PeerFrame) (s : State) : Out :=
  let s := s.tick t
  let x := s.link link
  let slot := deliveredSlot s.now
  if !s.awake || x.state < 2 || x.outOfUse || s.now < 240 || x.rxSlot == some slot then .next s
  else
  let s := s.modLink link fun y => { y with corrected := y.corrected + correctedSymbols rx.errors, rxSlot := some slot }
  if !(rx.errors.all codewordOk) then .next (s.loseFrame link 1 slot)
  else if !x.attested then .next s
  else
    let k : Fin 2 := slotOf rx.keySlot
    match openBox (vget x.keys k) (stileNonce (vget x.salts k) rx.slot) (stileHeader rx.owner rx.payloadValid rx.keySlot rx.sender rx.slot rx.tag) rx.box with
    | none => .next (s.loseFrame link 2 slot)
    | some plain =>
      let ws := (List.range 7).map fun i => decodeWord (slice plain (2304 + 32 * i) 32)
      let s := ws.foldl (fun s w => s.takeWord link w) s
      if !rx.payloadValid || x.state < 3 then .next s
      else
        let s := s.modLink link fun y => { y with landed := mset [] y.landed rx.tag (plain.take 2304) }
        match peer with
        | some p => .next (s.holdPeer rx.sender p)
        | none => .next s
/-- TIME word of this card at a slot's start. -/
def State.timeWord (s : State) (slot : Nat) : SvcWord :=
  ⟨1, 0, s.card, s.heath.seq, be 8 (ceilDiv (slot * 128) 5) ++ be 1 s.heath.reference ++ be 1 s.heath.depth⟩
/-- Arm word pairs of the time group: each ARMED Fold, each RUNNING Fold of a multi-card job with RUN, and aborts before LaunchAt (02; 11). -/
def State.armWords (s : State) : List (Nat × Nat × Bytes) :=
  allFolds.filterMap fun f =>
    let x := s.fold f
    let w := fun (flags : Nat) => some (f.val, flags, be 8 x.run.launchAt ++ padTo 32 x.armDigest)
    if x.st = .armed then w 0
    else if x.st = .running && decide (1 < x.run.job.2) then w 1
    else if x.st = .loaded && x.run.aborted && decide (s.now < x.run.launchAt) then w 2
    else none
/-- ARM_A and ARM_B of the i-th arm word of a time group (11, Table 11.3). -/
def armPair (card group i : Nat) (e : Nat × Nat × Bytes) : List SvcWord :=
  let q := 2 * (group * 16 + i) + 2 ^ 31
  [⟨4, 10, card, q, be 1 e.1 ++ be 1 e.2.1 ++ e.2.2.take 22⟩, ⟨5, 10, card, q + 1, be 1 e.1 ++ be 4 q ++ e.2.2.drop 22 ++ be 1 0⟩]
/-- TIME and the arm words of frame `g` of a time group: three pairs a frame, each pair in all eight frames where the card has at most
three, in turn where it has more (11, R294, R296; DESIGN CHOICE, log entry 40). -/
def State.groupWords (s : State) (k : LinkId) (slot : Nat) : List SvcWord :=
  let g := slot % 2560
  if 8 ≤ g then [] else
    let pairs := if (s.link k).attested then (s.armWords.zipIdx).map fun e => armPair s.card (slot / 2560) e.2 e.1 else []
    let mine := ((pairs.drop (3 * (g % max 1 (ceilDiv pairs.length 3)))).take 3).flatten
    if g = 0 then s.timeWord slot :: mine else mine
/-- A word of the queue may go out in frame `g` of 2,560: one that goes in eight consecutive frames starts where no time group comes
between them (11, R296). -/
def maySend (g : Nat) (e : SvcWord × Nat) : Bool := e.2 != 8 || decide (8 ≤ g ∧ g ≤ 2552)
/-- The first `n` words of the queue that may go out in frame `g`, and the queue after them: a word that has started stands before every
word that has not, so that its copies are consecutive. -/
def sendOnce (g : Nat) : Nat → List (SvcWord × Nat) → List SvcWord × List (SvcWord × Nat)
  | 0, q => ([], q)
  | _, [] => ([], [])
  | n + 1, e :: q =>
    if maySend g e then
      let r := sendOnce g n q
      (e.1 :: r.1, if e.2 ≤ 1 then r.2 else (e.1, e.2 - 1) :: r.2)
    else
      let r := sendOnce g (n + 1) q
      (r.1, e :: r.2)
/-- STILE_SLOT: one frame in every slot of every link that is up, and no second one in the slot. The payload position's owner sends a waiting peer frame first,
then what its stream supplies; an unowned or empty position goes out with PAYLOAD_VALID clear (R286, R294, R304, R313; order of
the words: DESIGN CHOICE, log entry 40). -/
def execStileSlot (t : Nat) (link : LinkId) (payload : Option Bytes) (s : State) : Out :=
  let s := s.tick t
  let x := s.link link
  let slot := slotAt s.now
  if !s.awake || s.power.gated || x.state < 2 || x.outOfUse || x.sentSlot == some slot then .next s
  else
    let owner := if x.state = 3 then s.linkOwner link.val (slot % 64) else none
    let peer := match owner with
      | some f => x.peerq.find? fun e => e.1 == f.val
      | none => none
    let body := match owner, peer with
      | none, _ => none
      | some _, some p => some p.2
      | some _, none => payload
    let group := s.groupWords link slot
    let sent := sendOnce (slot % 2560) (7 - group.length) x.sendq
    let words := group ++ sent.1
    let valid := body.isSome
    let tag := match owner with
      | some f => if valid then Config.streamTag f.val link.val (slot % 64) else 0
      | none => 0
    let own := match owner with
      | some f => f.val
      | none => 0x10
    let k : Fin 2 := slotOf x.keySlot
    let plain := padTo 2304 (body.getD []) ++ padTo 224 (words.map wordBytes).flatten
    let box : GcmBox := ⟨vget x.keys k, stileNonce (vget x.salts k) slot, stileHeader own valid x.keySlot s.card slot tag, plain⟩
    let s := s.modLink link fun y => { y with sendq := sent.2, sentSlot := some slot, peerq := match peer with
      | some p => y.peerq.erase p
      | none => y.peerq }
    .next (s.send (.stile link.val own valid x.keySlot s.card slot tag box words))

end Sys2Proof.Machine
end

