-- ==== Sys2Proof/Machine/Commands.lean ====
section
/-! DEFINITION. The queue 0 commands and the ends of the background ones (18). Every command checks, in order: reserved bits,
the submitting function, READY, the TDISP lock, state and busy; an entry that the queue cannot fetch now stays on its ring,
so only time passes (DEDUCED, log entry 14). -/

namespace Sys2Proof.Machine

/-! ## Shared -/

/-- Fetch a queue 0 entry and run `k`, after the checks that hold for every command (18, R478, R480, R483; 00, R11). -/
def State.command (s : State) (t : Nat) (q : QHdr) (pfOnly early : Bool) (k : State → State) : Out :=
  let s := s.tick t
  if !s.canFetch q.fn 0 then .next s else
    let s := s.fetch q.fn 0
    if q.rsvd ≠ 0 then .next (s.complete q 2 0 0 0 0)
    else if (pfOnly && q.fn != 0) || (q.fn != 0 && q.fn != vfOf q.fold) then .next (s.complete q 3 0 0 0 0)
    else if !s.power.ready && !early then .next (s.complete q 0xF 0 0 0 0)
    else .next (k s)
/-- Path 0 access of a queue entry (18, R484). -/
def accOf (q : QHdr) : Access := ⟨0, q.fn, []⟩
/-- Completion status of a refused dictionary write (18, Table 18.6). -/
def statusOf (abort event : Nat) (locked : Bool) : Nat :=
  if event = 0x0801 ∨ event = 0x0802 then 0xA
  else if abort = 0 then 0
  else if abort = 0x08000020 then 6
  else if abort = 0x08000022 then (if locked then 5 else 4)
  else if abort = 0x06040043 then 8
  else if abort = 0x06090032 then 9
  else 2
/-- A signed command: the AUTH write of the entry it addresses, then its completion (18, R484). -/
def State.signedCommand (s : State) (q : QHdr) (o : Signed) (idx sub : Nat) (commit : State → Bytes → State × Nat × Nat)
    (result : State → Bytes → Nat) : State :=
  let locked := s.tdiLocked (accOf q) idx o.payload
  let c := s.admitWrite (accOf q) idx sub (.signed o) true
  if c.abort ≠ 0 then c.st.complete q (statusOf c.abort c.event locked) c.event 0 0 0
  else
    let r := commit c.st c.value
    r.1.complete q (statusOf r.2.1 r.2.2 false) r.2.2 (if r.2.1 = 0 then result c.st c.value else 0) 0 0
/-- Fold area index: base + offset (13, Table 13.9). -/
def foldIdx (f : FoldId) (o : Nat) : Nat := 0x3000 + 0x20 * f.val + o

/-! ## IDENTIFY -/

/-- The IDENTIFY page, 4,096 bytes (18, Commands). -/
def State.identifyPage (s : State) (v : FnId) : Bytes :=
  padTo 4096 (ascii [0x49, 0x5A, 0x49, 0x44] ++ le 2 1 ++ le 1 v.val ++ le 1 (if v = 0 then 0xFF else v.val - 1) ++ le 8 s.sec.serial ++
    le 1 s.power.level ++ le 1 s.pcie.gen ++ le 1 s.pcie.width ++ le 1 0 ++ le 4 4096 ++ le 4 8192 ++ le 4 0 ++ padTo 32 s.sec.fwMeas)
/-- IDENTIFY (18, Table 18.4). -/
def execIdentify (t : Nat) (q : QHdr) (addr : Nat) (s : State) : Out :=
  s.command t q false true fun s =>
    if addr % 4096 ≠ 0 then s.complete q 2 0 0 0 0
    else (s.send (.hostWrite addr (s.identifyPage q.fn))).complete q 0 0 0 0 4096

/-! ## CREATE_FOLD -/

/-- A mask names a plot or unit of another Fold (13, R382). -/
def State.plotsConflict (s : State) (f : FoldId) (m : BitVec 80) : Bool := allFolds.any fun g => g != f && (s.foldCfg g).plots &&& m != 0
def State.unitsConflict (s : State) (f : FoldId) (m : BitVec 192) : Bool := allFolds.any fun g => g != f && (s.foldCfg g).units &&& m != 0
/-- CREATE_FOLD: PlotMask and HbmUnitMask at one count, only while the Fold is EMPTY, or neither (18, R485). -/
def execCreateFold (t : Nat) (q : QHdr) (plots units : Signed) (s : State) : Out :=
  s.command t q true false fun s =>
    let idx := foldIdx q.fold 1
    let locked := s.tdiLocked (accOf q) idx []
    let a := s.admitWrite (accOf q) idx 1 (.signed plots) true
    if a.abort ≠ 0 then a.st.complete q (statusOf a.abort a.event locked) a.event 0 0 0
    else
      let b := a.st.admitWrite (accOf q) idx 2 (.signed units) true
      if b.abort ≠ 0 then b.st.complete q (statusOf b.abort b.event locked) b.event 0 0 0
      else if (b.st.fold q.fold).st ≠ .empty then b.st.complete q 4 0 0 0 0
      else
        let p := BitVec.ofNat 80 (leNat a.value)
        let u := BitVec.ofNat 192 (leNat b.value)
        if b.st.plotsConflict q.fold p || b.st.unitsConflict q.fold u then b.st.complete q 8 0 0 0 0
        else (b.st.setMasks q.fold p u).complete q 0 0 0 0 0

/-! ## Background commands (18, R482) -/

/-- Source fields are legal: source 0 with extents on 64-byte boundaries, their reserved bytes zero, every length but the last a multiple of 64, together
the total; or source 1 with entry 0 to 14 (18, Table 18.4). -/
def sourceOk (l : LoadSource) : Bool :=
  if l.source = 0 then
    (l.extents.all fun e => e.addr % 64 == 0 && e.rsvd == 0) && (l.extents.dropLast.all fun e => e.len % 64 == 0) &&
      decide ((l.extents.map (·.len)).sum = l.total) && !l.extents.isEmpty
  else l.source == 1 && decide (l.entry ≤ 14)
/-- The reads a source needs leave the card. -/
def State.readSource (s : State) (v : FnId) (l : LoadSource) : State :=
  if l.source = 0 then
    l.extents.foldl (fun s e => s.send (.hostRead v.val e.addr e.len)) (s.send (.hostRead v.val l.listAddr (16 * l.extents.length)))
  else s
/-- The evidence card can serve an import entry (16). -/
def State.importReady (s : State) : Bool := match s.sd.card with
  | some c => c.label.hasImport
  | none => false
/-- Start a background command: its opcode, or why it does not start. -/
def State.startBg (s : State) (q : QHdr) (kind : Nat) (l : LoadSource) (target generation : Nat) (fields states : Bool) : State :=
  if !fields then s.complete q 2 0 0 0 0
  else if s.power.level < 2 then s.complete q 0xF 0 0 0 0
  else if s.tdiLocked (accOf q) (foldIdx q.fold 6) [] then s.complete q 5 0 0 0 0
  else if !states then s.complete q 4 0 0 0 0
  else if (s.fold q.fold).bg.isSome then s.complete q 0xD 0 0 0 0
  else if kind ≠ 0x0A && l.source = 1 && !s.importReady then s.complete q 0xC 0 0 0 0
  else (s.modFold q.fold fun x => { x with bg := some ⟨kind, q.fn.val, q.cid, l, target, generation, false⟩ }).readSource q.fn l
/-- End the background command of a Fold with a completion; that of a reset function is discarded (18, R500). -/
def State.endBg (s : State) (f : FoldId) (status event r0 r1 r2 : Nat) : State :=
  match (s.fold f).bg with
  | none => s
  | some b =>
    let s := s.modFold f fun x => { x with bg := none }
    if b.orphan then s else s.post ⟨b.fn % 17, by omega⟩ ⟨0, b.cid, status, event, r0, r1, r2⟩
/-- The Fold's background command has this opcode. -/
def State.bgIs (s : State) (f : FoldId) (kind : Nat) : Bool := match (s.fold f).bg with
  | some b => b.kind == kind
  | none => false

/-- LOAD_BUNDLE: an EMPTY Fold starts a background load (18, Table 18.4; 15, R433). -/
def execLoadBundle (t : Nat) (q : QHdr) (src : LoadSource) (s : State) : Out :=
  s.command t q false false fun s => s.startBg q 3 src 0 0 (sourceOk src) ((s.fold q.fold).st == .empty)
/-- LOAD_BUNDLE_DONE: the bundle has been read; its checks run and the first failure is reported (19, R523). -/
def execLoadBundleDone (t : Nat) (f : FoldId) (data : Option Bundle) (s : State) : Out :=
  let s := s.tick t
  if !s.bgIs f 3 then .next s else
    match data with
    | none => .next (s.endBg f 0xC 0 0 0 0)
    | some b => match loadCheck s f b with
      | .verifyFailed => .next (s.endBg f 7 0 0 0 0)
      | .conflict => .next (s.endBg f 8 0 0 0 0)
      | .slotConflict e g =>
        .next ((s.emit (unitFold f) 0x0501 (le 1 e.resource ++ le 2 e.pos ++ le 1 g.val)).endBg f 8 0x0501 0 0 0)
      | .ok l =>
        let bg := (s.fold f).bg
        .next (((s.installBundle f l b.image).modFold f fun x => { x with bg := bg }).endBg f 0 0 (leNat (b.hdr.bundleDigest.take 8)) 0 0)
/-- RESTAGE_MODEL: a LOADED or STOPPED Fold starts the re-stage of its signed model image (08, R221). -/
def execRestageModel (t : Nat) (q : QHdr) (src : LoadSource) (s : State) : Out :=
  s.command t q false false fun s =>
    s.startBg q 4 src 0 0 (sourceOk src) ((s.fold q.fold).st == .loaded || (s.fold q.fold).st == .stopped)
/-- RESTAGE_MODEL_DONE: the image is checked against the Fold's model measurement before the lost stripes are rewritten (08, R221). -/
def execRestageModelDone (t : Nat) (f : FoldId) (data : Option RestageImage) (s : State) : Out :=
  let s := s.tick t
  if !s.bgIs f 4 then .next s else
    match data, (s.fold f).load with
    | some r, some l =>
      if restageOk s l r then .next ((s.stageStripes f r.image).endBg f 0 0 0 0 (s.fold f).store.lost.length)
      else .next (s.endBg f 7 0 0 0 0)
    | _, _ => .next (s.endBg f 0xC 0 0 0 0)
/-- The Fold holds a Growing bundle. -/
def Fold.isGrowing (x : Fold) : Bool := match x.load with
  | some l => l.growing
  | none => false
/-- RESTORE: a LOADED Growing Fold starts to read a shard of a generation (12, Restore and reshape). -/
def execRestore (t : Nat) (q : QHdr) (target generation : Nat) (s : State) : Out :=
  s.command t q false false fun s =>
    s.startBg q 0x0A ⟨2, 0, 0, [], 0⟩ target generation (target ≤ 15) ((s.fold q.fold).st == .loaded && (s.fold q.fold).isGrowing)
/-- RESTORE_DONE: the checks of R350, then the restored position (12, R350, R353). -/
def execRestoreDone (t : Nat) (f : FoldId) (data : Option Shard) (s : State) : Out :=
  let s := s.tick t
  if !s.bgIs f 0x0A then .next s else
    match (s.fold f).bg, (s.fold f).load with
    | some b, some l =>
      let c := match data with
        | none => 1
        | some d => restoreCheck s f l b.generation d
      let own := data.bind fun d => (ownHead d (s.card - (shapeOf (s.jobSet f)).1)).map fun h => (d, h)
      match own with
      | some (d, h) =>
        if c ≠ 0 then .next ((s.emit (unitFold f) 0x080C (le 1 c)).endBg f 0xB 0x080C 0 0 0)
        else .next ((s.installShard f d h).endBg f 0 0 (manifestCut h.manifest).1 0 0)
      | none => .next ((s.emit (unitFold f) 0x080C (le 1 1)).endBg f 0xB 0x080C 0 0 0)
    | _, _ => .next s

/-! ## Signed Fold commands -/

/-- FoldCommand by its value (13, Table 13.9). -/
def State.foldCommand (s : State) (f : FoldId) (pf : Bool) (v : Nat) : State × Nat × Nat :=
  match v with
  | 1 => s.stopCommit f pf
  | 2 => s.forceStopCommit f pf
  | 3 => s.unloadCommit f
  | 4 => s.resetCommit f
  | _ => (s, 0x06090030, 0)
/-- A Fold command from either source: the AUTH write of FoldCommand, which acts by its payload; a FOLD_CONTROL whose action
field and payload differ is BAD_FIELD (13, R381; 18, R484). -/
def State.foldControl (s : State) (t : Nat) (src : CtlSrc) (action : Nat) : Out :=
  match src with
  | .dict f r => .next ((s.tick t).dictWrite (foldIdx f 6) 0 r fun s v => s.foldCommand f (fromPf r.acc) (leNat v))
  | .queue q o =>
    s.command t q false false fun s =>
      s.signedCommand q o (foldIdx q.fold 6) 0
        (fun s v => if leNat v = action then s.foldCommand q.fold (q.fn == 0) action else (s, 0x06090030, 0)) fun _ _ => 0
/-- LAUNCH: LaunchAt by dictionary or by command; the replay form only by the command's option (18, R486; 02, R40). -/
def execLaunch (t : Nat) (replay : Bool) (src : CtlSrc) (s : State) : Out :=
  match src with
  | .dict f r => .next ((s.tick t).dictWrite (foldIdx f 5) 0 r fun s v => s.launchCommit f false v)
  | .queue q o =>
    s.command t q false false fun s =>
      if s.power.level < 2 then s.complete q 0xF 0 0 0 0
      else s.signedCommand q o (foldIdx q.fold 5) 0 (fun s v => s.launchCommit q.fold replay v) fun _ v => leNat v
/-- STOP (13, R381). -/
def execStop (t : Nat) (src : CtlSrc) (s : State) : Out := s.foldControl t src 1
/-- FORCE_STOP (13, R381). -/
def execForceStop (t : Nat) (src : CtlSrc) (s : State) : Out := s.foldControl t src 2
/-- UNLOAD (13, R381). -/
def execUnload (t : Nat) (src : CtlSrc) (s : State) : Out := s.foldControl t src 3
/-- FOLD_RESET (13, R381; 09, R223). -/
def execFoldReset (t : Nat) (src : CtlSrc) (s : State) : Out := s.foldControl t src 4
/-- Cut tick of an accepted notice when it is known: a RUNNING Scoring Fold's (18, Table 18.4). -/
def State.cutKnown (s : State) (v : Bytes) : Nat :=
  let n := decodeNotice v
  match n.foldId with
  | some f => if (s.fold f).st = .running && !(s.fold f).growingNow then scoringCut (s.fold f) ⟨true, n.seq, n.issueAt, n.deadline⟩ else 0
  | none => 0
/-- PREEMPT_NOTICE on its three paths (12, R322, R323, R325). -/
def execPreemptNotice (t : Nat) (src : NoticeSrc) (s : State) : Out :=
  match src with
  | .dict r => .next ((s.tick t).dictWrite 0x5800 0 r fun s v => s.noticeCommit r.acc.path.val v none)
  | .queue q o =>
    s.command t q false false fun s =>
      s.signedCommand q o 0x5800 0 (fun s v => s.noticeCommit 0 v (some q.fold)) State.cutKnown
  | .izr rx o =>
    let s := (s.tick t).rxFrame rx
    if !rx.fcsOk || rx.udpPort ≠ s.izrUdp || s.power.halted then .next s else
      match s.izrCause rx with
      | some c => .next (s.discardIzr rx.port c rx.hdr.channel)
      | none =>
        if rx.hdr.typ ≠ 4 then .next (s.discardIzr rx.port 9 rx.hdr.channel) else
          match s.izrOpen rx, s.chanFold rx.hdr.channel with
          | .error c, _ => .next (s.discardIzr rx.port c rx.hdr.channel)
          | .ok _, none => .next s
          | .ok _, some f =>
            let s := s.izrAccept rx f
            if 4096 < o.size || !s.sigOk 0x5800 0 1 o then .next (s.noticeReject f 4 (decodeNotice o.payload).seq)
            else
              let r := (s.setSeq o.role o.seq).noticeCommit 4 o.payload (some f)
              let k := slotOf rx.hdr.epoch
              let ch := r.1.chan rx.hdr.channel
              if r.2.1 = 0 then
                .next (r.1.sendIzr rx.hdr.channel 5 rx.hdr.epoch (vget ch.outKey k) (vget ch.salt k) 0 (be 8 rx.hdr.seq) false)
              else .next r.1

/-! ## Ledger export to the host -/

/-- LEDGER_READ: a piece of the current object (18, R487). -/
def execLedgerRead (t : Nat) (q : QHdr) (addr len offset : Nat) (s : State) : Out :=
  s.command t q false false fun s =>
    if 16777216 < len then s.complete q 2 0 0 0 0
    else match s.hostObject q.fold with
      | none => s.complete q 0x10 0 0 0 0
      | some (kind, sq, b) =>
        let p := slice b offset len
        let s := s.send (.hostWrite addr p)
        let s := if offset + p.length = b.length then s.hostAdvance q.fold else s
        s.complete q 0 0 sq b.length (kind + 256 * p.length)
/-- LEDGER_ACK: acknowledges up to a page for the host; any other acknowledgement acknowledges nothing (09, R250; DEDUCED, log entry 24). -/
def execLedgerAck (t : Nat) (q : QHdr) (pageSeq : Nat) (s : State) : Out :=
  s.command t q false false fun s =>
    if s.ackOk q.fold 0 pageSeq then (s.ackPage q.fold 0 pageSeq).complete q 0 0 0 0 0 else s.complete q 2 0 0 0 0

end Sys2Proof.Machine
end

