-- ==== Sys2Proof/Machine/Rings.lean ====
section
/-! DEFINITION. Record submissions, replay headers, doorbells, queue set-up, vectors, function resets (10, 18, 03). -/

namespace Sys2Proof.Machine

/-! ## Queue 1 entries -/

/-- Fetch a queue 1 entry and run `k`, after the checks that hold for every entry (18). -/
def State.entry (s : State) (q : QHdr) (k : State → State) : State :=
  let s := s.fetch q.fn 1
  if q.rsvd ≠ 0 then s.complete1 q 2 0 0 0 0
  else if q.fn != vfOf q.fold then s.complete1 q 3 0 0 0 0
  else if !s.power.ready then s.complete1 q 0xF 0 0 0 0
  else k s
/-- Fold of a virtual function. -/
def foldOf (v : FnId) : FoldId := ⟨(v.val - 1) % 16, by omega⟩
/-- Queue 1 exists on virtual functions only and can be fetched. -/
def State.canFetch1 (s : State) (v : FnId) : Bool := v != 0 && s.canFetch v 1
/-- A record of a replay Fold takes its place from the header being fetched (03, R64, R65). -/
def Fold.repTag (x : Fold) : Option RepTag := match x.rep.cur with
  | some (h, id, k) => if x.run.replay then some ⟨id, h.origStamp, h.lateSet, k, h.recordCount⟩ else none
  | none => none
/-- A RECORD entry of a replay Fold has a place: its header has come and expects more records (18, R494; DEDUCED, log entry 25). -/
def Fold.recordPlace (x : Fold) : Bool := !x.run.replay || (match x.rep.cur with | some (h, _, k) => decide (k < h.recordCount) | none => false)
/-- Issue the record-buffer read: one credit, one place among the reads outstanding (08, R210; 10, R280). -/
def State.issueRead (s : State) (f : FoldId) (q : QHdr) (addr len resAddr : Nat) : State :=
  (s.modFold f fun x => { x with
    adm := { x.adm with reads := x.adm.reads ++ [⟨q.cid, resAddr, x.adm.fetched, x.repTag⟩], fetched := x.adm.fetched + 1 }
    res := { x.res with taken := x.res.taken + 1 }
    rep := { x.rep with cur := x.rep.cur.map fun c => if x.run.replay then (c.1, c.2.1, c.2.2 + 1) else c } }).send (.hostRead q.fn.val addr len)
/-- RECORD: fetched while reads outstanding plus records stamped are below Qp; the result buffer is checked before anything
is read (10, R280; 18, R489, R494). -/
def execRecord (t : Nat) (q : QHdr) (addr len resAddr resLen : Nat) (s : State) : Out :=
  let s := s.tick t
  let f := foldOf q.fn
  let x := s.fold f
  if !s.canFetch1 q.fn then .next s
  else if s.power.ready && !x.live then .next s
  else if s.power.ready && !x.growingNow && x.recordPlace && decide (x.adm.qp ≤ x.adm.reads.length + x.adm.stamped) then .next s
  else .next (s.entry q fun s =>
    match x.load with
    | none => s
    | some l =>
      if x.growingNow then s.complete1 q 1 0 0 0 0
      else if !x.recordPlace then s.complete1 q 0x24 0 0 0 0
      else if len < 1 || 8192 < len || resAddr % 8 ≠ 0 then s.complete1 q 2 0 0 0 0
      else if resLen < bodyLen l + 32 then s.complete1 q 0x22 0 0 0 0
      else s.issueRead f q addr len resAddr)
/-- Records of one replay header move up over a place that a failed read gave back. -/
def moveUp (o : RepTag) (r : Option RepTag) : Option RepTag := r.map fun a => if a.hid = o.hid ∧ o.leaf < a.leaf then { a with leaf := a.leaf - 1 } else a
/-- A replay place is given back: the header's later records move up, one fewer has been fetched (DEDUCED, log entry 25). -/
def giveBack (o : RepTag) (x : Fold) : Fold :=
  { x with
    adm := { x.adm with reads := x.adm.reads.map (fun (y : Read) => { y with orig := moveUp o y.orig }),
                        arrivals := x.adm.arrivals.map (fun (y : Arrival) => { y with orig := moveUp o y.orig }) }
    pipe := x.pipe.map (fun (c : Cohort) => { c with recs := c.recs.map (fun (y : Rec) => { y with orig := moveUp o y.orig }) })
    rep := { x.rep with cur := x.rep.cur.map (fun c => if c.2.1 = o.hid then (c.1, c.2.1, c.2.2 - 1) else c) } }
/-- A read ends without a record: READ_ERROR, its credit and its place returned (08, R210; 10, R280; 18, R490). -/
def State.readError (s : State) (f : FoldId) (r : Read) : State :=
  let s := s.modFold f fun x => { x with
    adm := { x.adm with reads := x.adm.reads.filter (fun y => y.n != r.n) }
    res := { x.res with taken := x.res.taken - 1 } }
  let s := match r.orig with
    | none => s
    | some o => s.modFold f (giveBack o)
  s.postRecord f r.cid 0x21 0 0 0
/-- A record landed: stamped now, in the frame of its stamp, unit 0x040, position 0; equal stamps follow fetch order (02, R37; 10, R269;
18, R491). It counts among the records stamped in the open frame where that is its frame. -/
def State.landRecord (s : State) (f : FoldId) (r : Read) (b : Bytes) : State :=
  s.modFold f fun x => { x with adm := { x.adm with
    reads := x.adm.reads.filter (fun y => y.n != r.n), stamped := if x.frameAt s.now = x.frame then x.adm.stamped + 1 else x.adm.stamped,
    arrivals := x.adm.arrivals ++ [⟨x.frameAt s.now, s.now, 0x040, (0, r.n), [], none, b, .pcie r.cid r.resAddr, none, false, r.orig⟩] } }
/-- The outstanding read of a command ID. -/
def State.findRead (s : State) (f : FoldId) (cid : Nat) : Option Read := (s.fold f).adm.reads.find? fun r => r.cid == cid
/-- RECORD_READ_COMPLETE (02, R37; 18, R490, Table 18.8). -/
def execRecordReadComplete (t : Nat) (f : FoldId) (cid : Nat) (r : ReadResult) (s : State) : Out :=
  let s := s.tick t
  match s.findRead f cid with
  | none => .next s
  | some rd => match r with
    | .data b => .next (s.landRecord f rd b)
    | .poisoned => .next ({ s.readError f rd with pcie := { s.pcie with aerAdvisory := true } })
    | _ => .next (s.readError f rd)
/-- COMPLETION_TIMEOUT: Advisory Non-Fatal for a record buffer, Completion Timeout for a ring, extent or signed object; a
failed ring fetch sets the queue's error bit (18, Table 18.8, R478, R490). The status of a ROWS entry whose buffer read fails: DESIGN
CHOICE, log entry 41. -/
def execCompletionTimeout (t : Nat) (w : TimeoutOf) (s : State) : Out :=
  let s := s.tick t
  match w with
  | .record f cid => match s.findRead f cid with
    | none => .next s
    | some rd => .next ({ s.readError f rd with pcie := { s.pcie with aerAdvisory := true } })
  | .rows q =>
    if !s.canFetch1 q.fn then .next s
    else .next ({ (s.fetch q.fn 1).complete1 q 0x21 0 0 0 0 with pcie := { s.pcie with aerAdvisory := true } })
  | .ring v qn =>
    .next ({ s.modFn v fun x => x.setQueue qn.val { x.queue qn.val with error := true } with pcie := { s.pcie with aerTimeout := true } })
  | .extent f => .next ({ s.endBg f 0xC 0 0 0 0 with pcie := { s.pcie with aerTimeout := true } })
  | .object q =>
    if !s.canFetch q.fn 0 then .next s
    else .next ({ (s.fetch q.fn 0).complete q 0xC 0 0 0 0 with pcie := { s.pcie with aerTimeout := true } })
/-- Records of the previous header are still to be fetched (18, R494). -/
def Fold.headerBusy (x : Fold) : Bool := match x.rep.cur with
  | some (h, _, k) => decide (k < h.recordCount)
  | none => false
/-- OrigFrame breaks the order of R68, with the previous OrigFrame (03). -/
def Fold.headerOrder (x : Fold) (orig : Nat) : Option Nat := match x.rep.prev with
  | some (p, _, wh) => if orig < p ∨ orig = p ∧ wh = false then some p else none
  | none => none
/-- The replay frame header in bytes 64 to 127 of its entry (03, Table 3.3; 18, Table 18.5). -/
def decodeReplayHdr (b : Bytes) : ReplayHdr :=
  ⟨fld b 0 8, fld b 8 8, fld b 16 4, BitVec.ofNat 64 (fld b 20 8), padTo 32 (slice b 28 32), fld b 60 4⟩
/-- REPLAY_HEADER: only in a replay Fold, after the previous header's records, in rising OrigFrame (03, R63, R68; 18, R494). -/
def execReplayHeader (t : Nat) (q : QHdr) (b : Bytes) (s : State) : Out :=
  let s := s.tick t
  let h := decodeReplayHdr b
  let f := foldOf q.fn
  let x := s.fold f
  if !s.canFetch1 q.fn then .next s
  else if s.power.ready && x.st != .running then .next s
  else .next (s.entry q fun s =>
    if !x.run.replay then s.complete1 q 1 0 0 0 0
    else if h.rsvd ≠ 0 then s.complete1 q 2 0 0 0 0
    else if x.headerBusy then s.complete1 q 0x24 0 0 0 0
    else match x.headerOrder h.origFrame with
      | some p => (s.emit (unitFold f) 0x030E (le 8 h.origFrame ++ le 8 p)).complete1 q 0x24 0x030E 0 0 0
      | none => s.modFold f fun x => { x with rep :=
          { cur := some (h, x.rep.nextId, 0), hdrs := x.rep.hdrs ++ [⟨x.rep.nextId, h, q.cid, [], x.frame⟩], nextId := x.rep.nextId + 1,
            prev := some (h.origFrame, x.rep.nextId, false) } })

/-! ## Doorbells and queue blocks (18, Table 18.2) -/

/-- The queue exists on the function: queue 1 on a virtual function only (18, R476). -/
def hasQueue (v : FnId) (qn : Fin 2) : Bool := qn == 0 || v != 0
/-- SQ_TAIL_DOORBELL: ignored while the queue is disabled; an index beyond the ring sets the error bit (18, R478). -/
def execSqTailDoorbell (t : Nat) (fn : FnId) (qn : Fin 2) (v : Nat) (s : State) : Out :=
  let s := s.tick t
  let q := (s.fn fn).queue qn.val
  if s.barDead fn then .next s.unsupported
  else if !hasQueue fn qn || !q.enabled then .next s
  else if 2 ^ q.sqLog ≤ v then .next (s.modFn fn fun x => x.setQueue qn.val { q with error := true })
  else .next (s.modFn fn fun x => x.setQueue qn.val { q with sqTail := v })
/-- CQ_HEAD_DOORBELL: room in the completion ring; waiting completions follow (18, R479). -/
def execCqHeadDoorbell (t : Nat) (fn : FnId) (qn : Fin 2) (v : Nat) (s : State) : Out :=
  let s := s.tick t
  let q := (s.fn fn).queue qn.val
  if s.barDead fn then .next s.unsupported
  else if !hasQueue fn qn || !q.enabled then .next s
  else if 2 ^ q.cqLog ≤ v then .next (s.modFn fn fun x => x.setQueue qn.val { q with error := true })
  else .next ((s.modFn fn fun x => x.setQueue qn.val { q with cqHead := v }).flush fn)
/-- A queue enabled: its rings start at entry 0 with phase 1. -/
def Queue.start (q : Queue) : Queue := { q with enabled := true, error := false, sqTail := 0, sqHead := 0, cqHead := 0, cqTail := 0, phase := true }
/-- A queue disabled. -/
def Queue.stop (q : Queue) : Queue := { q with enabled := false, error := false }
/-- A write of one field: base, size and vector only while disabled and only legal values (18, R476, R477; DESIGN CHOICE, log entry 26). -/
def Queue.write (q : Queue) (w : QField) : Queue := match w with
  | .sqBase v => if q.enabled || v % 4096 ≠ 0 then q else { q with sqBase := v }
  | .cqBase v => if q.enabled || v % 4096 ≠ 0 then q else { q with cqBase := v }
  | .sqLog v => if q.enabled || v < 4 || 16 < v then q else { q with sqLog := v }
  | .cqLog v => if q.enabled || v < 4 || 16 < v then q else { q with cqLog := v }
  | .vector v => if q.enabled || 3 < v then q else { q with vector := v }
  | .enable b => if b then (if q.enabled then q else q.start) else q.stop
/-- QUEUE_ENABLE: a write of a queue block's field; what waited for the queue is posted from its first entry once it is enabled (18, Table
18.2, R500). -/
def execQueueEnable (t : Nat) (fn : FnId) (qn : Fin 2) (w : QField) (s : State) : Out :=
  let s := s.tick t
  if s.barDead fn then .next s.unsupported
  else if !hasQueue fn qn then .next s
  else .next ((s.modFn fn fun x => x.setQueue qn.val ((x.queue qn.val).write w)).flush fn)
/-- MSIX_COALESCE_EXPIRY: the one message at the end of the 2,000-count interval (18, R475). -/
def execMsixCoalesceExpiry (t : Nat) (fn : FnId) (vec : Fin 4) (s : State) : Out :=
  let s := s.tick t
  let due := match vget (s.fn fn).lastMsix vec with
    | some t0 => decide (t0 + 2000 ≤ s.now)
    | none => true
  if vget (s.fn fn).msixDue vec && due then .next (s.sendVec fn vec) else .next s
/-- FUNCTION_LEVEL_RESET: queues disabled, mailbox cleared, no Fold touched, completions of records wait for queue 1; a background command
of the function completes with its completion discarded (18, R492, R500). -/
def execFunctionLevelReset (t : Nat) (fn : FnId) (s : State) : Out :=
  let s := s.tick t
  let s := s.modFn fn fun x => { x with
    q0 := Queue.dflt, q1 := Queue.dflt, mbStatus := 0, mbResp := [], waitingCqes := x.waitingCqes.filter (fun c => c.q != 0),
    msixDue := Vector.replicate 4 false }
  .next { s with folds := s.folds.map fun x => { x with bg := x.bg.map fun b => if b.fn = fn.val then { b with orphan := true } else b } }

/-! ## Recovery chunks (18, Table 18.7, R498) -/

/-- Mailbox response of a request that names no entry. -/
def State.mbAnswer (s : State) (fn : FnId) (abort event : Nat) : State :=
  let resp := le 4 abort ++ le 2 event ++ le 2 0 ++ le 8 s.now ++ le 4 0 ++ le 4 0
  (s.modFn fn fun x => { x with mbStatus := 2, mbResp := resp }).sendVec fn 0
/-- RECOVERY_CHUNK: on the PF in the recovery state, a chunk goes to landing SRAM (18, R498; 00, R11). -/
def execRecoveryChunk (t : Nat) (m : MbReq) (offset : Nat) (data : Bytes) (s : State) : Out :=
  let s := s.tick t
  let fn := m.fn
  if s.barDead fn then .next s.unsupported
  else if m.rsvd ≠ 0 then .next (s.mbAnswer fn 0x06090030 0)
  else if fn ≠ 0 || !s.power.recovery then .next (s.mbAnswer fn 0x08000022 0)
  else if 8176 < data.length || 134217728 < offset + data.length then .next (s.mbAnswer fn 0x06090030 0)
  else .next (({ s with power := { s.power with chunks := mwrite s.power.chunks offset data } }).mbAnswer fn 0 0)
/-- IDE_CHECK_FAILED: AER IDE Check Failed; the stream enters Insecure (18, Table 18.8). -/
def execIdeCheckFailed (t : Nat) (fn : FnId) (s : State) : Out :=
  let s := s.tick t
  .next ({ s.modFn fn fun x => { x with ide := 3 } with pcie := { s.pcie with aerIde := true } })

end Sys2Proof.Machine
end

