-- ==== Sys2Proof/Machine/Boot.lean ====
section
/-! DEFINITION. Power-up, boot, resets from outside, trips, temperature, modules and the Shepherd's supplies (14, 15, 17, 18). -/

namespace Sys2Proof.Machine

/-! ## The Shepherd's supplies (15, R418, R419) -/

/-- The supply in use: main, then PoE, then 3.3Vaux. -/
def preferred (x : Bool × Bool × Bool) : Supply := if x.1 then .main else if x.2.1 then .poe else .aux
/-- A firmware set verifies (15, Secure boot). -/
def State.setVerifies (s : State) (x : FwSet) : Bool :=
  digest x.pubKey == s.sec.fwKeyDigest && x.signedBy == x.pubKey && decide (s.sec.minSvn ≤ x.svn) &&
    x.digests == [digest x.shepherd, digest x.root, digest x.quadrant]
/-- The Shepherd comes up: its configuration is what was stored, the field controllers start; without the bracket the CAN controller
stays off the bus (15, R419; 17, R467). -/
def State.shepStart (s : State) : State :=
  let s := { s with shep := { s.shep with up := true, restarting := false, alState := 1, nmt := 0 }
                    cfg := if s.power.main then s.cfg else s.shep.stored }
  if s.shep.fbPresHigh then s else s.canBoot
/-- SHEPHERD_SUPPLY_UP: the first supply; its ROM checks the images of devices A and B (15). -/
def execShepherdSupplyUp (t : Nat) (src : Supply) (a b : FwSet) (s : State) : Out :=
  let s := s.tick t
  let sup := match src with
    | .main => (true, s.shep.supplies.2.1, s.shep.supplies.2.2)
    | .poe => (s.shep.supplies.1, true, s.shep.supplies.2.2)
    | .aux => (s.shep.supplies.1, s.shep.supplies.2.1, true)
  let s := { s with shep := { s.shep with supplies := sup, source := preferred sup, norBad := (!s.setVerifies a, !s.setVerifies b) } }
  if s.shep.up then .next s else .next s.shepStart
/-- SUPPLY_SOURCE_CHANGE: the source changes without a reset (15, R418). With no supply left the loss is SHEPHERD_SUPPLY_LOSS's. -/
def execSupplySourceChange (t : Nat) (main poe aux : Bool) (s : State) : Out :=
  let s := s.tick t
  if !s.shep.up || !(main || poe || aux) then .next s
  else .next { s with shep := { s.shep with supplies := (main, poe, aux), source := preferred (main, poe, aux) } }
/-- SHEPHERD_SUPPLY_LOSS: the Shepherd loses every supply, main power among them (13; 15). -/
def execShepherdSupplyLoss (t : Nat) (s : State) : Out :=
  let s := s.tick t
  .next (if s.power.main then s.coldReset.shepOff else s.shepOff)
/-- SHEPHERD_RESTART_DONE: dictionary and field controllers are back in their previous state; a CAN controller that was off the
bus joins it where a bracket is fitted (15, R439; 17). -/
def execShepherdRestartDone (t : Nat) (s : State) : Out :=
  let s := s.tick t
  if !s.shep.restarting then .next s
  else
    let s := { s with shep := { s.shep with restarting := false, alState := s.shep.fieldBefore.1, nmt := s.shep.fieldBefore.2 } }
    .next (if s.shep.nmt = 0 && !s.shep.fbPresHigh then s.canBoot else s)

/-! ## Main power (15, Table 15.1; 17, Table 17.1) -/

/-- Usable main power, W, from the sideband. -/
def usablePower (cblLow s0Gnd s1Gnd : Bool) : Nat :=
  if !cblLow then 75 else match s0Gnd, s1Gnd with
    | true, true => 600
    | false, true => 525
    | true, false => 375
    | false, false => 225
/-- Warning and trip thresholds of a rail, mV (14, Table 14.4). -/
def warnMv (r : Rail) (op : OpPoint) : Nat := match r, op with
  | .core, .opA => 825
  | .core, .opB => 757
  | .core, .opC => 679
  | .hbmVdd, _ => 1067
  | .hbmVddq, _ => 388
def tripMv (r : Rail) (op : OpPoint) : Nat := match r, op with
  | .core, .opA => 800
  | .core, .opB => 735
  | .core, .opC => 660
  | .hbmVdd, _ => 1045
  | .hbmVddq, _ => 380
def railCode : Rail → Nat
  | .core => 0
  | .hbmVdd => 1
  | .hbmVddq => 2
/-- SUPPLY_TRIP, then the sequence of Table 14.5. -/
def State.supplyTrip (s : State) (r : Rail) (mv : Nat) : State :=
  (s.emit 0 0x0902 (le 1 (railCode r) ++ le 2 mv ++ le 2 (tripMv r s.cfg.op) ++ le 1 (opCode s.cfg.op))).tripCard
/-- Writes taken on PoE act at main power-up (13, Table 13.4). -/
def State.applyDeferred (s : State) : State :=
  let l := s.shep.deferred
  let s := { s with shep := { s.shep with deferred := [] } }
  l.foldl (fun s e => (s.commitEntry ⟨1, 0, []⟩ e.1 e.2.1 e.2.2).1) s
/-- MAIN_POWER_GOOD: M. The sideband is read, the rails rise in order; one that does not pass its warning threshold is a supply
trip (15, R421; 17). -/
def execMainPowerGood (t : Nat) (cblPresLow sense0Gnd sense1Gnd : Bool) (fail : Option (Rail × Nat)) (s : State) : Out :=
  let s := s.tick t
  if !s.shep.up || s.power.main then .next s else
    let sup := (true, s.shep.supplies.2.1, s.shep.supplies.2.2)
    let s := { s with shep := { s.shep with supplies := sup, source := .main } }.applyDeferred
    let s := { s with power := { s.power with main := true, usableW := usablePower cblPresLow sense0Gnd sense1Gnd } }
    match fail with
    | none => .next { s with power := { s.power with railsUp := 4 } }
    | some (r, mv) =>
      .next (({ s with power := { s.power with railsUp := match r with | .core => 0 | .hbmVdd => 2 | .hbmVddq => 3 } }).supplyTrip r mv)
/-- MAIN_POWER_LOSS: a cold reset; the Shepherd runs on where another supply is present (15). -/
def execMainPowerLoss (t : Nat) (s : State) : Out :=
  let s := s.tick t
  if !s.power.main then .next s else
    let sup := (false, s.shep.supplies.2.1, s.shep.supplies.2.2)
    let s := s.coldReset
    if sup.2.1 || sup.2.2 then .next { s with shep := { s.shep with supplies := sup, source := preferred sup } } else .next s.shepOff
/-- PLL_LOCK: the GTC starts at zero; no lock is a tick-generator fault, which halts the card (15, R422, Table 15.1). -/
def execPllLock (t : Nat) (ok : Bool) (s : State) : Out :=
  let s := s.tick t
  if !s.power.main || s.clock.running || s.power.halted then .next s
  else if ok then .next { s with clock := { s.clock with running := true, gtc := 0, osc := 0, slewAt := 0 } }
  else .next s.tripCard

/-! ## Boot (15, R423 to R425; 16, R446; 18, R498) -/

/-- Firmware measurement (15, R424). -/
def fwMeasureOf (x : FwSet) : Bytes := digest (ascii [0x49, 0x5A, 0x46, 0x57] ++ x.manifest ++ x.shepherd ++ x.root ++ x.quadrant)
/-- CDI_1 = MAC(UDS, "IZ-CDI1" ‖ firmware measurement) (09, Table 9.2). -/
def cdi1Of (uds meas : Bytes) : Bytes := mac uds (ascii [0x49, 0x5A, 0x2D, 0x43, 0x44, 0x49, 0x31] ++ meas)
/-- DeviceID and alias scalars (09, Table 9.2). -/
def devIdOf (uds : Bytes) : Nat := keypair uds (ascii [0x49, 0x5A, 0x2D, 0x44, 0x45, 0x56, 0x49, 0x44])
def aliasOf (cdi1 : Bytes) : Nat := keypair cdi1 (ascii [0x49, 0x5A, 0x2D, 0x41, 0x4C, 0x49, 0x41, 0x53])
/-- Boot from a verified set: measurement, DICE chain, alias certificate, UDS locked; the pages staged for an inserted evidence card resume (16, R455). -/
def State.bootSet (s : State) (x : FwSet) (src : Nat) : State :=
  let m := fwMeasureOf x
  let c := cdi1Of s.sec.uds m
  State.resumeStaged { s with
    sec := { s.sec with udsLocked := true, fwMeas := m, devId := devIdOf s.sec.uds, cdi1 := c, aliasKey := aliasOf c,
                        aliasCert := Config.certificate (devIdOf s.sec.uds) (Config.publicKey (aliasOf c)) m, bootFrom := src }
    power := { s.power with booted := true, recovery := false } }
/-- The inserted card carries a recovery set. -/
def State.sdRecovery (s : State) : Bool := match s.sd.card with
  | some c => c.label.recovery
  | none => false
/-- SECURE_BOOT: device A, else B with BOOT_MIRROR_FALLBACK 0x01, else the evidence card's set with 0x03, else the recovery
state. The Root firmware runs under PERST# as well: it is the release of a warm reset that matters (15). -/
def execSecureBoot (t : Nat) (a b : FwSet) (sd : Option FwSet) (s : State) : Out :=
  let s := s.tick t
  if !s.power.main || !s.clock.running || s.power.booted || s.power.halted then .next s else
    let bad := (!s.setVerifies a, !s.setVerifies b)
    let s := { s with shep := { s.shep with norBad := bad } }
    if !bad.1 then .next (s.bootSet a 1)
    else if !bad.2 then .next ((s.bootSet b 2).emit 0 0x0A02 [1])
    else match sd with
      | some x => if s.sdRecovery && s.setVerifies x then .next ((s.bootSet x 3).emit 0 0x0A02 [3])
        else .next { s with power := { s.power with recovery := true } }
      | none => .next { s with power := { s.power with recovery := true } }
/-- RECOVERY_BOOT: on the PF in the recovery state, the set that the chunks carried boots when it verifies (18, R498). -/
def execRecoveryBoot (t : Nat) (m : MbReq) (set : FwSet) (s : State) : Out :=
  let s := s.tick t
  let fn := m.fn
  if s.barDead fn then .next s.unsupported
  else if m.rsvd ≠ 0 then .next (s.mbAnswer fn 0x06090030 0)
  else if fn ≠ 0 || !s.power.recovery then .next (s.mbAnswer fn 0x08000022 0)
  else if s.setVerifies set then .next (((s.bootSet set 3).emit 0 0x0A02 [3]).mbAnswer fn 0 0x0A02)
  else .next (s.mbAnswer fn 0x08000020 0)

/-! ## Training, self-test, READY (15) -/

/-- One link's training (15, R429; 17). A cable above 300 cm, or one whose EEPROM cannot be read, is never trained. -/
def State.trainLink (s : State) (r : LinkTraining) : State :=
  let p := cablePartner s.topology s.card r.link.val
  match cableLength r.cable, p with
  | some cm, some (c, _) =>
    if r.trained then
      (s.modLink r.link fun k => { k with state := 2, partner := c, outOfUse := false, cable := some cm, timeInterval := some (s.now / 65536) }).startHello r.link
    else (s.modLink r.link fun k => { k with state := 0, outOfUse := true, cable := some cm }).emit (unitLink r.link) 0x0702 [1]
  | _, _ => s
/-- STILE_TRAINING_DONE: only where the topology is not standalone. -/
def execStileTrainingDone (t : Nat) (r : List LinkTraining) (s : State) : Out :=
  let s := s.tick t
  if !s.power.booted || s.power.stileTrained || s.power.halted || s.topology = 1 then .next s
  else
    let s := r.foldl State.trainLink s
    .next { s with power := { s.power with stileTrained := true } }
/-- A stack fails: HBM_TRAIN_FAIL, STACK_LOST cause 3; no Fold has been mapped onto it yet. -/
def State.hbmFail (s : State) (k : StackId) : State :=
  let s := ((s.modHbm k fun x => { x with lost := true }).emit (unitStack k) 0x0A04 []).emit (unitStack k) 0x0505 [3]
  { s with heath := { s.heath with lostStacks := s.heath.lostStacks ++ [k.val] } }
/-- HBM_TRAINING_DONE (15, R428). -/
def execHbmTrainingDone (t : Nat) (failed : List StackId) (s : State) : Out :=
  let s := s.tick t
  if !s.power.booted || s.power.hbmTrained || s.power.halted then .next s
  else
    let s := failed.dedup.foldl State.hbmFail s
    .next { s with power := { s.power with hbmTrained := true } }
/-- A tile's report differs from the ROM-held values. -/
def reportBad (r : TileReport) : Bool := r.finish != Config.romFinish r.tile || r.digest != Config.romDigest r.tile
/-- SELF_TEST_FAIL of a quadrant: state 2, out of every mapping (15, R430). -/
def State.quadFail (s : State) (q : QuadId) : State :=
  ((s.modQuad q fun x => { x with state := 2 }).emit 0 0x0A01 (le 1 4 ++ le 2 q.val)).outOfMappings q
/-- SELF_TEST_DONE: a quadrant with a failing tile fails; a failing Root engine holds the card at level 1 (15, R430, R431). -/
def execSelfTestDone (t : Nat) (tiles : List TileReport) (engines : List (Nat × Nat)) (s : State) : Out :=
  let s := s.tick t
  if !s.power.booted || s.power.selfTested || s.power.halted then .next s
  else
    let bad := (List.finRange 4).filter fun q => tiles.any fun r => quadOfTile r.tile == q && reportBad r
    let s := bad.foldl State.quadFail s
    let s := engines.foldl (fun s e => s.emit 0 0x0A01 (le 1 e.1 ++ le 2 e.2)) s
    .next { s with power := { s.power with selfTested := true, engineFailed := s.power.engineFailed || !engines.isEmpty } }
/-- The discovery window has closed: 9.5 s after M, or once discovery has ended on every link, by attestation or as faulty or out of use (15,
Discovery and READY). -/
def State.windowClosed (s : State) (ms : Nat) : Bool :=
  decide (9500 ≤ ms) || (List.finRange 16).all fun (k : LinkId) => (s.link k).state == 0 || (s.link k).outOfUse || (s.link k).attested
/-- READY: self-test has ended and the discovery window has closed; CARD_READY and SERVICE_LEVEL (15, R432). -/
def execReady (t : Nat) (ms : Nat) (s : State) : Out :=
  let s := s.tick t
  let p := s.power
  if !p.booted || p.ready || p.halted || !p.selfTested || !p.hbmTrained || (s.topology != 1 && !(p.stileTrained && s.windowClosed ms)) then .next s
  else
    let s := ({ s with power := { p with ready := true } }).emit 0 0x0A03 (le 4 ms)
    if s.computeLevel = s.power.level then .next (s.emit 0 0x0908 [BitVec.ofNat 8 s.power.level, BitVec.ofNat 8 s.power.level])
    else .next s.updateLevel

/-! ## PCIe reset and link (10, R278; 15, R426, R435) -/

/-- PERST_ASSERT: a warm reset that cannot be refused. -/
def execPerstAssert (t : Nat) (s : State) : Out :=
  let s := s.tick t
  let s := if s.power.perst || !s.power.main then s else s.perstReset
  .next { s with power := { s.power with perst := true }, pcie := { s.pcie with gen := 0, width := 0, cfgReady := false } }
/-- PERST_DEASSERT: link training starts; the release from which Table 15.1 runs again. -/
def execPerstDeassert (t : Nat) (s : State) : Out :=
  let s := s.tick t
  .next { s with power := { s.power with perst := false, perstAt := s.now, releasedAt := s.now } }
/-- PCIE_RATE_CHANGE: the link trains to a generation and width; a change of a link that was up is reported, and the completions that
waited for Gen3 follow (18, R480). -/
def execPcieRateChange (t : Nat) (gen width : Nat) (s : State) : Out :=
  let s := s.tick t
  if s.power.perst || !s.power.main || gen < 1 || 6 < gen || !([1, 4, 8, 16].contains width) then .next s
  else
    let up := s.pcie.gen != 0
    let changed := s.pcie.gen != gen || s.pcie.width != width
    let s := { s with pcie := { s.pcie with gen := gen, width := width, cfgReady := true,
                                            rateChanges := if up && changed then s.pcie.rateChanges + 1 else s.pcie.rateChanges } }
    let s := if up && changed then s.emit 0x040 0x0204 (le 1 gen ++ le 1 width) else s
    .next ((List.finRange 17).foldl State.flush s.updateLevel)

/-! ## Supply, temperature, power (14) -/

/-- SUPPLY_WARN: a rail stayed below its warning threshold for 16 samples (14, R402). -/
def execSupplyWarn (t : Nat) (rail : Rail) (mv : Nat) (s : State) : Out :=
  let s := s.tick t
  if !s.power.main || warnMv rail s.cfg.op ≤ mv then .next s else .next (s.emit 0 0x0901 (le 1 (railCode rail) ++ le 2 mv))
/-- SUPPLY_TRIP: confirmed at this count (14, R402, R403). -/
def execSupplyTrip (t : Nat) (rail : Rail) (mv : Nat) (s : State) : Out :=
  let s := s.tick t
  if !s.power.main || s.power.halted || tripMv rail s.cfg.op ≤ mv then .next s else .next (s.supplyTrip rail mv)
/-- Die of a sensor: quadrants 0 to 3, the Root die 4, stacks 5 to 12 (14). -/
def dieOf (n : Nat) : Nat := if n < 16 then n / 4 else if n < 18 then 4 else n - 13
/-- A reading, 0.1 °C, is valid: within −40 to 150 °C and within 15 °C of some other sensor of its die, where it has one. -/
def sensorOk (r : List (Nat × Int)) (x : Nat × Int) : Bool :=
  let peers := r.filter fun y => dieOf y.1 == dieOf x.1 && y.1 != x.1
  decide (-400 ≤ x.2 ∧ x.2 ≤ 1500) && (peers.isEmpty || peers.any fun y => decide (|x.2 - y.2| ≤ 150))
/-- Hottest of some readings. -/
def hottestOf (l : List (Nat × Int)) : Option (Nat × Int) := l.foldl (fun a x => match a with
  | none => some x
  | some y => if y.2 < x.2 then some x else some y) none
/-- Hottest value of some readings, `d` where there is none. -/
def hottestVal (l : List (Nat × Int)) (d : Int) : Int := match hottestOf l with
  | some x => x.2
  | none => d
/-- A thermal trip waits for the next card tick; it is never withdrawn (14, R406). -/
def State.armTrip (s : State) (x : Nat × Int) : State :=
  if s.power.tripAt.isSome then s else { s with power := { s.power with tripAt := some (s.cardTick s.now), tripSensor := x } }
/-- TEMPERATURE_SAMPLE: invalid sensors, telemetry, THERMAL_WARN, and what trips at the next card tick (14, R406, R407). -/
def execTemperatureSample (t : Nat) (r : List (Nat × Int)) (s : State) : Out :=
  let s := s.tick t
  if !s.power.main || s.power.halted then .next s else
    let good := r.filter (sensorOk r)
    let bad := (r.filter fun x => !sensorOk r x).map (·.1)
    let s := (bad.filter fun n => !s.power.badSensors.contains n).foldl (fun s n => s.emit 0 0x0905 (le 2 n)) s
    let hot := hottestOf good
    let h := hottestVal good s.power.hottest
    let s := { s with
      quads := Vector.ofFn fun q => { s.quad q with junction := hottestVal (good.filter fun x => dieOf x.1 == q.val) (s.quad q).junction }
      hbms := Vector.ofFn fun k => { s.hbm k with temp := hottestVal (good.filter fun x => dieOf x.1 == k.val + 5) (s.hbm k).temp } }
    let warn := s.power.warnArmed && decide (950 ≤ h)
    let s := { s with power := { s.power with hottest := h, badSensors := bad, warnArmed := if warn then false else s.power.warnArmed || decide (h < 900) } }
    let s := if warn then s.emit 0 0x0903 (le 2 ((hot.map (·.1)).getD 0) ++ le 2 (wrap 16 h)) else s
    let dead := bad.find? fun n => !good.any fun x => dieOf x.1 == dieOf n
    match hot, dead with
    | some x, d => if 1050 ≤ x.2 then .next (s.armTrip x) else match d with
      | some n => .next (s.armTrip (n, 1050))
      | none => .next s
    | none, some n => .next (s.armTrip (n, 1050))
    | none, none => .next s
/-- THERMAL_TRIP: the card tick after a reading of 105 °C or more (14, R406). -/
def execThermalTrip (t : Nat) (s : State) : Out :=
  let s := s.tick t
  match s.power.tripAt with
  | none => .next s
  | some k => if s.now < k || s.power.halted then .next s
    else .next ((s.emit 0 0x0904 (le 2 s.power.tripSensor.1 ++ le 2 (wrap 16 s.power.tripSensor.2))).tripCard)
/-- POWER_OVERRUN: BoardPower stayed above the operating point's cap for 1,000,000 counts (14, R408). -/
def execPowerOverrun (t : Nat) (mw : Nat) (s : State) : Out :=
  let s := s.tick t
  if !s.power.main || s.power.halted || mw ≤ opCapW s.cfg.op * 1000 then .next s
  else .next (({ s with power := { s.power with boardMw := mw } }).emit 0 0x0906 (le 4 mw ++ le 2 (opCapW s.cfg.op))).tripCard
/-- SECURITY_ENGINE_OR_TICK_GENERATOR_FAULT: a card-level fault (14, Table 14.6); Table 14.9 lists no code for it. -/
def execSecurityEngineOrTickGeneratorFault (t : Nat) (tickGenerator : Bool) (s : State) : Out :=
  let s := s.tick t
  if !s.power.main || s.power.halted then .next s
  else if tickGenerator then .next { s.tripCard with clock := { s.clock with running := false } } else .next s.tripCard

/-! ## Modules and field bracket (17) -/

/-- QSFP_DD_MODULE_INSERT: above 20 W it stays in low-power mode and its ports stay down (17, R464; DEDUCED, log entry 32). -/
def execQsfpDdModuleInsert (t : Nat) (cage : Fin 2) (watts : Nat) (s : State) : Out :=
  let s := s.tick t
  let low := decide (20 < watts)
  let s := { s with
    power := { s.power with lowPower := if cage = 0 then (low, s.power.lowPower.2) else (s.power.lowPower.1, low) }
    ports := Vector.ofFn fun p =>
      if p.val < portCount s.cfg.portLayout ∧ cageOf s.cfg.portLayout p.val = cage.val then { s.port p with up := s.power.main && !low } else s.port p }
  .next s.updateLevel
/-- FB_PRES_CHANGE: without the bracket the EtherCAT slave is in INIT and the CAN controller off the bus, which it joins again once the
bracket is fitted (17, R467). -/
def execFbPresChange (t : Nat) (high : Bool) (s : State) : Out :=
  let s := s.tick t
  let fitted := s.shep.fbPresHigh && !high
  let s := { s with shep := { s.shep with fbPresHigh := high } }
  if high then .next { s with shep := { s.shep with alState := 1, nmt := 0, fieldBefore := (1, 0) } }
  else .next (if fitted && s.fieldUp then s.canBoot else s)
/-- PRODUCER_HEARTBEAT: the node's state every ProducerHeartbeatTime, CAN FD only, 0 off (13, Table 13.7). -/
def execProducerHeartbeat (t : Nat) (s : State) : Out :=
  let s := s.tick t
  if !s.shep.up || s.shep.restarting || s.shep.fbPresHigh || s.shep.nmt = 0 || s.num 0x2060 4 0 != 0 || s.num 0x1017 0 1000 == 0 then .next s
  else .next (s.send (.canNmt s.shep.nmt))

end Sys2Proof.Machine
end

