-- ==== Sys2Proof/Machine/Evidence.lean ====
section
/-! DEFINITION. The evidence card: insertion, removal, the commit of a journal page, batches (16; DEDUCED, log entry 49). -/

namespace Sys2Proof.Machine

/-- The label in a block that passes its CRC and begins with "IZEV"; none elsewhere (16, Table 16.2, R441). -/
def decodeLabel (b : Bytes) : Option SdLabel :=
  if b.length ≠ 512 || b.take 4 != ascii [0x49, 0x5A, 0x45, 0x56] || fld b 508 4 != crc32c (b.take 508) then none
  else
    let fl := fld b 6 2
    some { version := fld b 4 2, journal := bit fl 0, hasImport := bit fl 1, recovery := bit fl 2, owner := fld b 8 8, journalBase := fld b 16 8,
           journalBlocks := fld b 24 8, importBase := fld b 32 8, importBlocks := fld b 40 8, recoveryBase := fld b 48 8,
           recoveryBlocks := fld b 56 8, ratedWriteBytes := fld b 64 8, rsvd := fl / 8 + leNat (slice b 72 436) }
/-- Label of a card: block 0, or block 2,047 where block 0 fails its CRC; no label of another version or with a reserved bit is used. -/
def sdLabelOf (m : SdMedium) : Option SdLabel := ((decodeLabel m.block0).or (decodeLabel m.block2047)).filter fun l => l.version == 1 && l.rsvd == 0
/-- The card as the IZ9 uses it: a capacity of Table 16.1 and a label that holds (16, R440, R441). -/
def sdCardOf (m : SdMedium) : Option SdCard :=
  if m.capacity = .sdsc then none else (sdLabelOf m).map fun l => ⟨m.express, l, m.writeProtect, m.firstUncommitted, m.smartUsed⟩
/-- The journal may be written: flagged, unprotected, unbound or bound to this card (16, R442, R443). -/
def State.journalOk (s : State) (c : SdCard) : Bool :=
  c.label.journal && !c.writeProtect && (c.label.owner == 0 || c.label.owner == s.sec.serial)
/-- SD_CARD_INSERT: only on main power; the page in flight is rewritten at the first uncommitted position (16, R454). -/
def execSdCardInsert (t : Nat) (m : SdMedium) (s : State) : Out :=
  let s := s.tick t
  if !s.power.main || s.power.halted then .next s
  else match sdCardOf m with
  | none => .next { s with sd := { s.sd with card := none, journal := false, phase := 0, rewriting := false } }
  | some c =>
    let e := { s.sd with card := some c, journal := s.journalOk c, nextJ := c.firstUncommitted, phase := 0, wear := 0,
                         written := 33 * 512 * c.firstUncommitted, rewriting := false }
    .next { s with sd := e }.resumeJournal
/-- EVIDENCE_REMOVED: card detect opens; reported where a page or commit record is outstanding (16, R453). -/
def execEvidenceRemoved (t : Nat) (s : State) : Out :=
  let s := s.tick t
  if s.sd.card.isNone then .next s else
    let s := if s.sd.phase = 0 then s else s.emit unitSd 0x0A05 (le 8 s.sd.nextJ)
    .next { s with sd := { s.sd with card := none, journal := false, phase := 0, rewriting := false } }
/-- JOURNAL_PAGE_BUSY_END: only now the commit record is written (16, R449). -/
def execJournalPageBusyEnd (t : Nat) (s : State) : Out :=
  let s := s.tick t
  match s.sd.flight with
  | none => .next s
  | some p =>
    if s.sd.phase ≠ 1 || s.power.halted then .next s else
      let j := s.sd.nextJ
      let b := s.sd.block j
      .next (({ s with sd := { s.sd with phase := 2, written := s.sd.written + 512 } }).send (.sdWrite (b + 32) (commitBytes p j b s.now)))
/-- What a committed page acknowledges: a ledger page at its last annex's last chunk (16, R450). -/
def State.ackCommitted (s : State) (p : JPage) : State := match p.fold with
  | some n => if h : n < 16 then (if p.last then s.ackPage ⟨n, h⟩ 2 p.object else s) else s
  | none => s
/-- JOURNAL_COMMIT_BUSY_END: the page is committed, its FRAM copy freed, a rewrite reported, the next page chosen (16, R448, R454). -/
def execJournalCommitBusyEnd (t : Nat) (s : State) : Out :=
  let s := s.tick t
  match s.sd.flight with
  | none => .next s
  | some p =>
    if s.sd.phase ≠ 2 || s.power.halted then .next s else
      let j := s.sd.nextJ
      let again := s.sd.rewriting
      let s := { s with sd := { s.sd with nextJ := j + 1, flight := none, phase := 0, rewriting := false } }
      let s := s.ackCommitted p
      let s := if again then s.emit unitSd 0x0A06 (le 8 j) else s
      .next s.wearCheck.advanceJournal
/-- SEALED_EVENT_BATCH_DUE: a batch is due where its condition holds (16, The journal). -/
def execSealedEventBatchDue (t : Nat) (s : State) : Out :=
  let s := s.tick t
  .next (if s.batchReady then ({ s with sd := { s.sd with batchDue := true } }).advanceJournal else s)

end Sys2Proof.Machine
end

