-- ==== Sys2Proof/Machine/Hbm.lean ====
section
/-! DEFINITION. HBM slots and streams, the loss of model-store members, stripes and stacks (08; 14, ECC and poison). -/

namespace Sys2Proof.Machine

/-! ## Losses (08, Table 8.8) -/

/-- Count from which a rebuild may run: the opening tick of the frame after detection; at once where the Fold runs no frame (08, R217). -/
def State.rebuildDue (s : State) (f : FoldId) : Nat :=
  let x := s.fold f
  if x.live && x.run.started then x.tickOf (x.frame + 1) else s.now
/-- Queue the rebuild of a member, once. -/
def State.queueRebuild (s : State) (f : FoldId) (key : Nat) : State := match s.memberStack key with
  | none => s
  | some k => s.modHbm k fun x =>
      if x.rebuilds.any fun e => e.fold == f.val && e.key == key then x
      else { x with rebuilds := x.rebuilds ++ [⟨f.val, key, s.rebuildDue f, false⟩] }
/-- Members of the Fold that a stack keeps remapped, or will once the queued rebuilds are done (08, R218). -/
def State.remapsOn (s : State) (f : FoldId) (k : StackId) : Nat :=
  mget 0 (s.fold f).store.remapped k.val + ((s.hbm k).rebuilds.filter fun e => e.fold == f.val && e.key % 8 == k.val).length
/-- MODEL_LOST for stripes with two unreadable members: their rebuilds end, a RUNNING Fold closes admission at the next frame and stops
(08, R220; 09, Table 9.1). -/
def State.modelLost (s : State) (f : FoldId) (stripes : List Nat) : State :=
  match stripes with
  | [] => s
  | k :: _ =>
    let s := s.emit (unitFold f) 0x0506 (le 8 k ++ le 4 stripes.length)
    let s := s.modFold f fun x => { x with store := { x.store with lost := x.store.lost ++ stripes } }
    let s : State := { s with hbms := s.hbms.map fun h => { h with rebuilds := h.rebuilds.filter fun e => !(e.fold == f.val && stripes.contains (e.key / 8)) } }
    if (s.fold f).st = .running then s.startDraining f else s
/-- A Fold loses its members on a stack: those alone in their stripe are rebuilt onto the survivors, the others' stripes are lost. -/
def State.loseMembers (s : State) (k : StackId) (f : FoldId) : State :=
  let m := (s.fold f).store
  let ks := (List.range m.stripes).filter fun i => !m.lost.contains i
  let twice := ks.filter fun i => m.bad.any fun e => e / 8 == i && e != 8 * i + k.val
  let once := ks.filter fun i => !twice.contains i
  let new := (ks.map fun i => 8 * i + k.val).filter fun e => !m.bad.contains e
  let s := s.modFold f fun x => { x with store := { x.store with bad := x.store.bad ++ new } }
  (once.foldl (fun s i => s.queueRebuild f (8 * i + k.val)) s).modelLost f twice
/-- Below service level 2 every live Fold stops with NO_MAPPING (14, Corners). -/
def State.levelStop (s : State) : State :=
  if 2 ≤ s.power.level then s else allFolds.foldl (fun s f => if (s.fold f).live then s.noMapping f else s) s
/-- STACK_LOST: Folds with units there lose their members, a Growing Fold its rows; an epoch is asked for (08, R218, R219; 14,
R412). Causes: 1 remap limit, 2 controller, 3 training, 4 quadrant failed. -/
def State.loseStack (s : State) (k : StackId) (cause : Nat) : State :=
  if (s.hbm k).lost then s else
    let s := (s.modHbm k fun x => { x with lost := true, rebuilds := [], restages := [], restores := [] }).emit (unitStack k) 0x0505 (le 1 cause)
    let s := allFolds.foldl (fun s f =>
      if (s.foldCfg f).unitsOn k.val = 0 || (s.fold f).load.isNone then s
      else if (s.fold f).live && (s.fold f).growingNow then s.faultFold f (if cause = 4 then 0x0308 else 0x0505) (s.fold f).frame
      else s.loseMembers k f) s
    ((s.requestEpoch (unitStack k)).updateLevel).levelStop
/-- A member reads as uncorrectable: one rebuild follows; a second in its stripe loses the stripe; one beyond 1,024 remapped members
of the stack loses the stack (08, R217, R218, R220). One whose new copy stands already fails no second time. -/
def State.badMember (s : State) (f : FoldId) (key : Nat) : State :=
  let m := (s.fold f).store
  if m.bad.contains key || m.lost.contains (key / 8) || m.rebuilding.contains key then s
  else if 1024 ≤ s.remapsOn f ⟨key % 8, by omega⟩ then s.loseStack ⟨key % 8, by omega⟩ 1
  else
    let s := s.modFold f fun x => { x with store := { x.store with bad := x.store.bad ++ [key] } }
    if m.bad.any fun e => e / 8 == key / 8 then s.modelLost f [key / 8] else s.queueRebuild f key

/-! ## The slot (08, R190 to R195) -/

/-- Raw slots of a frame: N = floor(P × 149,925 / 256,000). -/
def rawSlots (p : Nat) : Nat := p * 149925 / 256000
/-- Core cycles from the opening tick to `n` seventy-fifths of a nanosecond after it, rounded down. -/
def cycleOf75 (op : OpPoint) (n : Nat) : Nat := n * (opRatio op).1 / (75 * (opRatio op).2)
/-- Wheel position of a raw slot; none for a refresh slot. -/
def slotPosition (j : Nat) : Option Nat := if j % 32 = 31 then none else some ((j - j / 32) % 64)
/-- Kind of a position that the Fold owns for foreground work: 0 read, 1 write, 2 remote. -/
def Loaded.hbmKind (l : Loaded) (k pos : Nat) : Option Nat :=
  (l.slots.find? fun e => e.resource == 0 && e.inst == k && e.pos == pos && decide (e.kind ≤ 2)).map (·.kind)
/-- The slot falls in the open frame of a Fold that runs and has come. -/
def State.slotRuns (s : State) (f : FoldId) (j : Nat) : Bool :=
  let x := s.fold f
  x.live && x.run.started && !x.run.closed && !x.run.idle && !s.power.halted && decide (j < rawSlots x.period) &&
    decide (75 * x.tickOf x.frame + 128 * j ≤ 75 * s.now)
/-- Free credits of a stream in a cycle: those free and those that have come back (08, R201). -/
def Stream.credit (k : Stream) (cyc : Nat) : Nat := k.free + (k.back.filter (· < cyc)).length
/-- Spend a credit. -/
def Stream.spend (k : Stream) (cyc : Nat) (back : List Nat) : Stream :=
  { k with free := k.credit cyc - 1, back := k.back.filter (fun c => !(c < cyc)) ++ back, moved := k.moved + 1 }
/-- The stream that owns the slot and holds a credit: tile and place (08, R200). -/
def State.slotStream (s : State) (f : FoldId) (k : StackId) (pos kind j cyc : Nat) : Option (Nat × Nat) :=
  (s.foldCfg f).tiles.findSome? fun t =>
    ((s.tile t).streams.findIdx? fun y => y.desc.kind == kind && y.desc.unit == k.val && y.desc.mask.getLsbD pos &&
      decide (y.desc.firstFill ≤ j) && decide (y.moved < streamSlots y.desc) && decide (0 < y.credit cyc)).map fun i => (t, i)
/-- HBM bytes that the next slot of a stream moves: address and count. -/
def Stream.part (k : Stream) : Nat × Nat :=
  let a := hbmBase k.desc
  let lo := max a (2048 * (a / 2048 + k.moved))
  (lo, min (a + k.desc.length) (2048 * (a / 2048 + k.moved + 1)) - lo)
/-- Tile-store pieces of the ring that hold the slot's bytes: address, offset within the slot, count. -/
def Stream.pieces (k : Stream) : List (Nat × Nat × Nat) :=
  let ring := 2048 * k.desc.credits
  let base := if k.desc.kind = 0 then k.desc.dest else k.desc.source
  let off := if ring = 0 then 0 else (k.part.1 - hbmBase k.desc) % ring
  let n := min k.part.2 (ring - off)
  [(base + off, 0, n), (base, n, k.part.2 - n)]

/-! ## HBM words (14, Tables 14.2 and 14.3) -/

/-- 32-byte code words that a range touches. -/
def codeWords (a n : Nat) : List Nat := if n = 0 then [] else (List.range ((a + n - 1) / 32 + 1 - a / 32)).map (a / 32 + ·)
/-- Poisoned words of a stack in a range. -/
def Stack.poisonIn (h : Stack) (a n : Nat) : List Nat := (codeWords a n).filter h.poison.contains
/-- Count the correctable words that a read meets (14, R394). -/
def Stack.countSoft (h : Stack) (a n : Nat) : Stack :=
  let k := ((codeWords a n).filter h.soft.contains).length
  { h with corrected := h.corrected + k, ceWindow := h.ceWindow + k }
/-- Write bytes; `bad` bytes of the range come from poison. Full clean words clear poison, a partial write corrects a correctable word
and leaves a poisoned one poisoned (14, R395, R396). -/
def Stack.write (h : Stack) (a : Nat) (b : Bytes) (bad : List Nat) : Stack :=
  let ws := codeWords a b.length
  let full := fun (w : Nat) => decide (a ≤ 32 * w ∧ 32 * w + 32 ≤ a + b.length)
  let fixed := (ws.filter fun w => !full w && h.soft.contains w).length
  let keep := h.poison.filter fun w => !(ws.contains w && full w)
  { h with mem := mwrite h.mem a b, soft := h.soft.filter (fun w => !ws.contains w),
           poison := keep ++ bad.filter (fun w => !keep.contains w), corrected := h.corrected + fixed, ceWindow := h.ceWindow + fixed }
/-- A poisoned word that the range writes in part. -/
def Stack.poisonedPart (h : Stack) (a n : Nat) : Option Nat :=
  (codeWords a n).find? fun w => h.poison.contains w && !decide (a ≤ 32 * w ∧ 32 * w + 32 ≤ a + n)
/-- Tile-store words that read as poison after a copy of HBM bytes from `a` on, poisoned in words `ws`, to the pieces of a ring. -/
def landedPoison (a : Nat) (ws : List Nat) (ps : List (Nat × Nat × Nat)) : List Nat :=
  ps.flatMap fun p => ws.flatMap fun w =>
    let lo := max (32 * w) (a + p.2.1)
    let hi := min (32 * w + 32) (a + p.2.1 + p.2.2)
    if lo < hi then wordsOf (p.1 + (lo - (a + p.2.1)), hi - lo) else []
/-- Code words that poisoned tile-store words `ws` reach through the pieces of a ring. -/
def sentPoison (a : Nat) (ws : List Nat) (ps : List (Nat × Nat × Nat)) : List Nat :=
  ps.flatMap fun p => ws.flatMap fun w =>
    let lo := max (8 * w) p.1
    let hi := min (8 * w + 8) (p.1 + p.2.2)
    if lo < hi then codeWords (a + p.2.1 + (lo - p.1)) (hi - lo) else []

/-! ## Transfers -/

/-- The landing or the read of a slot's bytes takes 4 cycles of 512 bytes at the tile store, the last of them `e` (05, R126, R129). -/
def slotPorts (e : Nat) (rs : List (Nat × Nat)) : List PortUse := rs.map fun r => ⟨e - 3, e, r.1, r.2⟩
/-- Put a stream back after it has spent a credit. -/
def Tile.putStream (x : Tile) (i : Nat) (k : Stream) : Tile := { x with streams := x.streams.set i k }
/-- The unreadable state of what a slot reads: the stack lost, or its member bad or under rebuild (08, R217). -/
def State.unreadable (s : State) (f : FoldId) (k : StackId) (m : Option Nat) : Bool :=
  (s.hbm k).lost || (match m with
    | some e => (s.fold f).store.bad.contains e || (s.fold f).store.rebuilding.contains e
    | none => false)
/-- A read has returned poison: reported, the member rebuilt; a Scoring frame is withheld, a Growing step replays where the poison lies
in its scratch, else the Fold is FAULTED (14, R399, R401). -/
def State.poisonRead (s : State) (f : FoldId) (k : StackId) (a : Nat) (m : Option Nat) (scratch : Bool) : State :=
  let x := s.fold f
  let s := s.emit (unitStack k) 0x0304 (le 1 f.val ++ le 8 x.frame ++ le 7 a)
  let s := match m with
    | some e => s.badMember f e
    | none => s
  if !x.growingNow then s.causeFrame f (if (s.hbm k).lost then 0x0505 else 0x0304)
  else if scratch then s.stepFault f 0x0304 else s.faultFold f 0x0304 x.frame
/-- Write bytes of landing SRAM; the words get fresh ECC (14, R390, R394). -/
def State.writeLanding (s : State) (a : Nat) (b : Bytes) : State :=
  let hit := fun (w : Nat) => meets (8 * w, 8) (a, b.length)
  { s with power := { s.power with landing := mwrite s.power.landing a b, landingSoft := s.power.landingSoft.filter (fun w => !hit w),
                                   landingBack := s.power.landingBack.filter (fun w => !hit w) } }
/-- A read slot: 2 KiB from HBM or from the model store to the ring in tile store or landing SRAM (log entry 63), landing 400 ns after the slot start, 80 ns later in another
quadrant (08, R194). `a` is the byte of the stack, `lo` the Fold's own address. -/
def State.readSlot (s : State) (f : FoldId) (l : Loaded) (k : StackId) (j tile i lo a : Nat) (y : Stream) : State :=
  let x := s.tile tile
  let n := y.part.2
  let m := Config.modelMember f.val k.val lo
  let data := match m with
    | some e => slice (padTo 2048 (mget [] (s.fold f).store.members e)) (lo % 2048) n
    | none => mread (s.hbm k).mem a n
  let lostAll := (s.hbm k).lost
  let bad := if lostAll then codeWords a n else (s.hbm k).poisonIn a n
  let far := if quadOfTile tile = ⟨k.val / 2, by omega⟩ then 0 else 75 * 80
  let e := ceilDiv ((128 * j + 75 * 400 + far) * (opRatio l.op).1) (75 * (opRatio l.op).2) - 1
  let ps := y.pieces
  let rs := ps.map fun p => (p.1, p.2.2)
  let now75 := 75 * (s.fold f).tickOf (s.fold f).frame + 128 * j
  let y := y.spend (cycleOf75 l.op (128 * j)) []
  let s := if ringInLanding y.desc then
      (ps.foldl (fun s (p : Nat × Nat × Nat) => s.writeLanding (p.1 - 2 ^ 20) (slice data p.2.1 p.2.2)) s).setTile tile (x.putStream i y)
    else
      let mem := ps.foldl (fun w p => mwrite w p.1 (slice data p.2.1 p.2.2)) x.mem
      s.setTile tile ((({ x with mem := mem, inflight := x.inflight ++ (rs.map fun (r : Nat × Nat) => (r.1, r.2, e)),
                                 ports := x.ports ++ slotPorts e rs }).settleWords rs (landedPoison a bad ps)).putStream i y)
  let s := s.modHbm k fun h => { h.countSoft a n with
    outstanding := h.outstanding.filter (now75 < ·) ++ [now75 + 75 * 400], uncorrectable := h.uncorrectable + (if lostAll then 0 else bad.length) }
  if bad.isEmpty && !s.unreadable f k m then s
  else s.poisonRead f k (32 * bad.headD (a / 32)) (if lostAll then none else m) (Config.scratchAt f.val k.val lo)
/-- A write of bytes to HBM: POISON_WRITE where a poisoned word is written in part (14, R396). -/
def State.writeHbm (s : State) (f : FoldId) (k : StackId) (tile a : Nat) (b : Bytes) (bad : List Nat) : State :=
  let part := (s.hbm k).poisonedPart a b.length
  let s := s.modHbm k fun h => h.write a b bad
  match part with
  | none => s
  | some w =>
    let s := s.modFold f fun x => { x with run := { x.run with precise := vset x.run.precise (quadOfTile tile) true } }
    (s.emit (unitStack k) 0x0305 (le 1 f.val ++ le 8 (s.fold f).frame ++ le 7 (32 * w))).frameFault f 0x0305
/-- A write slot: the ring's bytes to HBM; the credit comes back when the slot completes (08, R201). -/
def State.writeSlot (s : State) (f : FoldId) (l : Loaded) (k : StackId) (j tile i a : Nat) (y : Stream) : State :=
  let x := s.tile tile
  let ps := y.pieces
  let rs := ps.map fun p => (p.1, p.2.2)
  let far := ringInLanding y.desc
  let data := ps.flatMap fun p => if far then mread s.power.landing (p.1 - 2 ^ 20) p.2.2 else mread x.mem p.1 p.2.2
  let ws := if far then [] else touched x.poison rs
  let c := cycleOf75 l.op (128 * j)
  let z := ({ x with ports := x.ports ++ if far then [] else slotPorts (c + 3) rs }).putStream i (y.spend c [cycleOf75 l.op (128 * (j + 1))])
  let s := s.setTile tile z
  let s := match ws with
    | [] => s
    | w :: _ => s.tileFault f tile 0x0304 (le 7 (8 * w))
  if (s.hbm k).lost then s.frameFault f 0x0505 else s.writeHbm f k tile a data (sentPoison a ws ps)
/-- The payload that landed last under a StreamTag. -/
def State.payloadOf (s : State) (tag : Nat) : Option Bytes :=
  (List.finRange 16).findSome? fun (k : LinkId) => match mget [] (s.link k).landed tag with
    | [] => none
    | b => some b
/-- A remote slot: payload that arrived on Stile under the stream's tag, into HBM (11; DESIGN CHOICE, log entry 40). -/
def State.remoteSlot (s : State) (f : FoldId) (l : Loaded) (k : StackId) (j tile i a : Nat) (y : Stream) : State :=
  match s.payloadOf (y.desc.source % 2 ^ 32) with
  | none => s
  | some b =>
    let z := (s.tile tile).putStream i (y.spend (cycleOf75 l.op (128 * j)) [cycleOf75 l.op (128 * (j + 1))])
    let s := s.setTile tile z
    if (s.hbm k).lost then s.frameFault f 0x0505 else s.writeHbm f k tile a (padTo y.part.2 b) []
/-- Transactions still in the stack's controller at a slot. -/
def State.inController (s : State) (f : FoldId) (k : StackId) (j : Nat) : Nat :=
  ((s.hbm k).outstanding.filter (75 * (s.fold f).tickOf (s.fold f).frame + 128 * j < ·)).length
/-- HBM_SLOT: raw slot j of a stack in the Fold's open frame: refresh, a transfer of the stream that owns the position, or idle. -/
def execHbmSlot (t : Nat) (k : StackId) (f : FoldId) (j : Nat) (s : State) : Out :=
  let s := s.tick t
  match (s.fold f).load, slotPosition j with
  | some l, some pos =>
    if !s.slotRuns f j || decide (256 ≤ s.inController f k j) then .next s else
      match l.hbmKind k.val pos with
      | none => .next s
      | some kind => match s.slotStream f k pos kind j (cycleOf75 l.op (128 * j)) with
        | none => .next s
        | some (tile, i) => match (s.tile tile).streams[i]? with
          | none => .next s
          | some y => match (s.foldCfg f).hbmAddr k.val y.part.1 with
            | none => .fault (.hbmAddress k.val y.part.1)
            | some a =>
              if kind = 0 then .next (s.readSlot f l k j tile i y.part.1 a y)
              else if kind = 1 then .next (s.writeSlot f l k j tile i a y)
              else .next (s.remoteSlot f l k j tile i a y)
  | _, _ => .next s

end Sys2Proof.Machine
end

