-- ==== Sys2Proof/Machine/Grazing.lean ====
section
/-! DEFINITION. Grazing work by resource, member rebuild, quadrant failure, the rate of corrected words (14; 08; 11, R319). -/

namespace Sys2Proof.Machine

/-! ## HBM stack (14, Table 14.1) -/

/-- Clean words of a slot leave nothing; correctable ones are counted. Model-store words are never written back; sixteen of them in one
member rebuild it, while the stack has room for a remapped member (14, R390, R391; 08, R218; log entry 45). -/
def State.scrubSlot (s : State) (k : StackId) : State :=
  let h := s.hbm k
  let a := 2048 * h.scrub
  let soft := (codeWords a 2048).filter h.soft.contains
  let bad := h.poisonIn a 2048
  let owner := allFolds.find? fun f => (s.foldCfg f).units.getLsbD (24 * k.val + a / 2 ^ 30)
  let m := owner.bind fun f => ((List.range 24).findSome? fun u =>
    if (s.foldCfg f).hbmAddr k.val (u * 2 ^ 30 + a % 2 ^ 30) = some a then Config.modelMember f.val k.val (u * 2 ^ 30 + a % 2 ^ 30) else none).map
      fun e => (f, e)
  let s := s.modHbm k fun x => { x with
    scrub := (h.scrub + 1) % (24 * 2 ^ 19), corrected := x.corrected + soft.length, ceWindow := x.ceWindow + soft.length,
    uncorrectable := x.uncorrectable + bad.length,
    writeBack := if soft.isEmpty || m.isSome then x.writeBack else some h.scrub }
  match m with
  | none => s
  | some (f, e) =>
    if !bad.isEmpty then
      (s.emit (unitStack k) 0x0304 (le 1 f.val ++ le 8 (s.fold f).frame ++ le 7 (32 * bad.headD 0))).badMember f e
    else if 16 ≤ soft.length && decide (s.remapsOn f ⟨e % 8, by omega⟩ < 1024) then s.queueRebuild f e else s
/-- Rewrite one member of a lost stripe from the accepted image; a stripe whose members are all rewritten is lost no more (08, R221). -/
def State.rewriteMember (s : State) (f : FoldId) (key : Nat) : State :=
  let m := (s.fold f).store
  let staged := mdel m.staged key
  let whole := !(staged.any fun e => e.1 / 8 == key / 8)
  s.modFold f fun x => { x with store := { x.store with
    members := mset [] m.members key (mget [] m.staged key), staged := staged, bad := m.bad.filter (· ≠ key),
    lost := if whole then m.lost.filter (· ≠ key / 8) else m.lost } }
/-- Bytes of a resident word from its model-store copy. -/
def State.residentWord (s : State) (f : FoldId) (a : Nat) : Bytes :=
  let key := 8 * (a / 14336) + (a / 14336 + 1 + a % 14336 / 2048) % 8
  slice (padTo 2048 (mget [] (s.fold f).store.members key)) (a % 2048) 8
/-- Read a word for a tile-store restore; it waits at its tile. -/
def State.readRestore (s : State) (tile w : Nat) : State :=
  match s.ownerOfTile tile with
  | none => s
  | some f =>
    let rel := ((s.foldCfg f).tiles.findIdx? (· == tile)).getD 0
    match Config.residentSource ((s.fold f).run.mapping.getD 0) rel w with
    | none => s
    | some a => s.setTile tile { s.tile tile with restore := (s.tile tile).restore ++ [(w, s.residentWord f a)] }
/-- The last slot of a returning quadrant's self-test: it asks for its epoch, or has failed (11, R319; 15, R430). -/
def State.testQuad (s : State) (q : QuadId) (ok : Bool) : State :=
  if ok then (s.modQuad q fun x => { x with tested := true }).requestEpoch (unitQuad q)
  else (s.quadFail q).modQuad q fun x => { x with returning := false }
/-- A grazing slot of a stack: a corrected word's write-back, then the list of Table 14.1 (DEDUCED, log entry 46). -/
def State.grazeHbm (s : State) (k : StackId) (testOk : Bool) : State :=
  let h := s.hbm k
  let q : QuadId := ⟨k.val / 2, by omega⟩
  if h.lost then s else
  match h.writeBack, h.rebuilds.find? (fun e => decide (e.due ≤ s.now)) with
  | some n, _ => s.modHbm k fun x => { x with writeBack := none, soft := x.soft.filter fun w => w / 64 != n }
  | none, some e => s.modHbm k fun x => { x with rebuilds := x.rebuilds.map fun y => if y = e then { y with begun := true } else y }
  | none, none => match h.restages, h.restores with
    | (f, e) :: r, _ =>
      let s := s.modHbm k fun x => { x with restages := r }
      if hf : f < 16 then s.rewriteMember ⟨f, hf⟩ e else s
    | [], (tile, w) :: r => (s.modHbm k fun x => { x with restores := r }).readRestore tile w
    | [], [] => if (s.quad q).returning && !(s.quad q).tested then s.testQuad q testOk else s.scrubSlot k
/-- An HBM position carries grazing work: no Fold owns it, or the plan of the Fold that does gives it that kind (08, R195, R198; 14, The
grazing window). -/
def State.hbmGrazes (s : State) (k : StackId) (pos : Nat) : Bool :=
  decide (pos < 64) && allFolds.all fun f => match (s.fold f).load with
    | some l => l.slots.all fun e => !(e.resource == 0 && e.inst == k.val && e.pos == pos) || e.kind % 16 == 3
    | none => true

/-! ## Tile store (05, R127; 14, R390) -/

/-- A reserved cycle of the tile begins in this count: a cycle n of its Fold's open frame with n mod 256 = 255; where no Fold runs frames on
the tile nothing else uses its banks (05, R127). -/
def State.reservedNow (s : State) (n : Nat) : Bool := match s.ownerOfTile n with
  | none => true
  | some f => match (s.fold f).load with
    | none => true
    | some l =>
      let x := s.fold f
      if !x.live || !x.run.started || x.run.closed then true else
        let d := s.now - x.tickOf x.frame
        decide (d * (opRatio l.op).1 / (opRatio l.op).2 / 256 < ceilDiv ((d + 1) * (opRatio l.op).1) (opRatio l.op).2 / 256)
/-- A reserved cycle of a tile: write-back, restore write, or a scrub read of one 512-byte run. -/
def State.grazeTile (s : State) (n : Nat) : State :=
  if 640 ≤ n || !s.quadHealthy (quadOfTile n) || !s.reservedNow n then s else
  let x := s.tile n
  match x.scrub.2, x.restore with
  | some r, _ => s.setTile n { x with scrub := (x.scrub.1, none), soft := x.soft.filter fun w => w / 64 != r }
  | none, (w, b) :: r => s.setTile n (({ x with mem := mwrite x.mem (8 * w) b, restore := r }).settleWords [(8 * w, 8)] [])
  | none, [] =>
    let run := x.scrub.1
    let soft := (x.soft.filter fun w => w / 64 == run).length
    let bad := x.poison.filter fun w => w / 64 == run
    let s := s.setTile n { x with scrub := ((run + 1) % 2048, if soft = 0 then none else some run) }
    let s := s.modQuad (quadOfTile n) fun y => { y with corrected := y.corrected + soft, ceWindow := y.ceWindow + soft }
    match s.ownerOfTile n with
    | none => s
    | some f => bad.foldl (fun s w => s.askRestore f n w) s

/-! ## Root die, links, ports, Shepherd -/

/-- Landing SRAM: write-back of a corrected word, or a scrub read of the next word. -/
def State.grazeLanding (s : State) : State :=
  let p := s.power
  match p.landingBack with
  | some w => { s with power := { p with landingBack := none, landingSoft := p.landingSoft.filter (· ≠ w) } }
  | none => { s with power := { p with landingScrub := (p.landingScrub + 1) % 2 ^ 24,
                                       landingBack := if p.landingSoft.contains p.landingScrub then some p.landingScrub else none } }
/-- No Fold owns the position of a Root wheel: kind 1 binning, 2 AES, 3 SHA3, as in the slot plan (14, Table 14.8; 19). -/
def State.engineFree (s : State) (kind pos : Nat) : Bool :=
  decide (pos < 64) && allFolds.all fun f => match (s.fold f).load with
    | some l => l.slots.all fun e => !(e.resource == kind && e.pos == pos)
    | none => true
/-- Known-answer test of one engine, in rotation; a failing engine holds the card at level 1 (14, Table 14.1; 15, R431). -/
def State.grazeEngine (s : State) (kind index : Nat) (pass : Bool) : State :=
  let s := { s with power := { s.power with engineTest := s.power.engineTest + 1 } }
  if pass then s else
    (({ s with power := { s.power with engineFailed := true } }).emit 0 0x0A01 (le 1 kind ++ le 2 index)).updateLevel.levelStop
/-- A link may be retrained: spare, out of use, or no Fold's slot plan owns a payload position on it (14, R392). -/
def State.mayRetrain (s : State) (k : LinkId) : Bool :=
  (s.link k).state == 4 || (s.link k).outOfUse || (List.range 64).all fun p => (s.linkOwner k.val p).isNone
/-- A payload position that no Fold owns, or a link out of service: a bit-error test that is running goes first, then retraining. -/
def State.grazeLink (s : State) (k : LinkId) (lanes : Nat) : State :=
  let x := s.link k
  if (x.carries && !x.tested) || lanes = 0 || !s.mayRetrain k then s
  else (s.modLink k fun y => { y with retrain := y.retrain + lanes }).emit (unitLink k) 0x0709 (le 1 lanes)
/-- An Ethernet port may be retrained (14, R392). -/
def State.portFree (s : State) (p : PortId) : Bool :=
  allFolds.all fun f => ((s.chansOf f).all fun c => (s.chanCfg c).egressPort != p.val) && (match (s.fold f).load with
    | some l => l.slots.all fun e => !(e.resource == 6 && e.inst == p.val)
    | none => true)
/-- The Shepherd's image check: a failing SPI NOR copy is rewritten from the good one, one device in a power cycle (14, R393). -/
def State.grazeShepherd (s : State) : State :=
  let (a, b) := s.shep.norBad
  if a != b && !s.shep.norRepaired && s.shep.up then { s with shep := { s.shep with norBad := (false, false), norRepaired := true } } else s
/-- GRAZING_SLOT: the first task of Table 14.1 that has work pending, else a scrub step (14, R389). -/
def execGrazingSlot (t : Nat) (r : GrazeRes) (s : State) : Out :=
  let s := s.tick t
  match r with
  | .shepherd => .next s.grazeShepherd
  | r =>
    if !s.power.booted || s.power.halted then .next s else
      match r with
      | .hbm k pos ok => .next (if s.hbmGrazes k pos then s.grazeHbm k ok else s)
      | .tile n => .next (s.grazeTile n)
      | .landing => .next s.grazeLanding
      | .engine kind i pos pass => .next (if s.engineFree kind pos then s.grazeEngine kind i pass else s)
      | .link k lanes => .next (s.grazeLink k lanes)
      | .port p => .next (if s.portFree p then s.modPort p fun x => { x with retrain := x.retrain + 1 } else s)
      | .shepherd => .next s

/-! ## Member rebuild (08, R217 to R219) -/

/-- Number of a member in its stripe: data 0 to 6, parity 7 (DESIGN CHOICE, log entry 45). -/
def memberNo (key : Nat) : Nat := (key % 8 + 7 - key / 8 % 8) % 8
/-- A member from the other seven of its stripe. -/
def ModelStore.rebuilt (m : ModelStore) (key : Nat) : Bytes :=
  (((List.range 8).map fun i => 8 * (key / 8) + i).filter (· ≠ key)).foldl (fun a e => xorBytes a (padTo 2048 (mget [] m.members e)))
    (List.replicate 2048 0)
/-- Words of a stack that a member holds keep no old error: the spare copy answers at its address. -/
def Stack.forgetMember (h : Stack) (c : FoldCfg) (f k key : Nat) : Stack :=
  let mine := fun (w : Nat) => (List.range 24).any fun u =>
    let lo := u * 2 ^ 30 + 32 * w % 2 ^ 30
    decide (c.hbmAddr k lo = some (32 * w)) && decide (Config.modelMember f k lo = some key)
  { h with poison := h.poison.filter (fun w => !mine w), soft := h.soft.filter (fun w => !mine w) }
/-- MODEL_REBUILT once the last member of a lost stack stands on the survivors. -/
def State.rebuiltAll (s : State) (f : FoldId) (st : Nat) : State :=
  let m := (s.fold f).store
  let lost := if h : st < 8 then (s.hbm ⟨st, h⟩).lost else false
  if lost && !(m.bad.any fun e => e % 8 == st && !m.lost.contains (e / 8)) then
    s.emit (unitFold f) 0x0504 (le 1 st ++ le 4 (m.stripes - m.lost.length))
  else s
/-- MEMBER_REBUILD_DONE: the oldest member of the Fold whose rebuild grazing slots of the stack have carried is whole again; reads use it
from the next opening tick. A copy on the member's own stack is a remapped member (08, R217, R218). -/
def execMemberRebuildDone (t : Nat) (f : FoldId) (k : StackId) (s : State) : Out :=
  let s := s.tick t
  match (s.hbm k).rebuilds.find? fun e => e.fold == f.val && e.begun with
  | none => .next s
  | some r =>
    if s.power.halted || !s.power.booted || (s.hbm k).lost then .next s else
      let key := r.key
      let own : StackId := ⟨key % 8, by omega⟩
      let n := b2n (own == k)
      let s := s.modHbm k fun x => { x with rebuilds := x.rebuilds.erase r, remapped := x.remapped + n }
      let s := s.modHbm own fun x => x.forgetMember (s.foldCfg f) f.val own.val key
      let s := s.modFold f fun x => { x with store := { x.store with
        members := mset [] x.store.members key (x.store.rebuilt key), bad := x.store.bad.filter (· ≠ key),
        rebuilding := x.store.rebuilding ++ [key], remapped := mset 0 x.store.remapped k.val (mget 0 x.store.remapped k.val + n) } }
      .next ((s.emit (unitStack k) 0x0503 (le 1 f.val ++ le 8 (key / 8) ++ le 1 (memberNo key))).rebuiltAll f (key % 8))

/-! ## Quadrant failure and correction rates (14, R412, R413) -/

/-- QUADRANT_FAILURE: 1 die-to-die port, 2 HBM controller: both stacks and all four links go, Growing Folds there are FAULTED; 3
self-test: the tiles alone. -/
def execQuadrantFailure (t : Nat) (q : QuadId) (cause : Nat) (s : State) : Out :=
  let s := s.tick t
  if !s.power.booted || s.power.halted || (s.quad q).failed || cause < 1 || 3 < cause then .next s
  else
    let s := s.emit (unitQuad q) 0x0308 (le 1 cause)
    if cause = 3 then .next ((((s.modQuad q fun x => { x with state := 2 }).requestEpoch (unitQuad q)).dropQuad q).updateLevel)
    else
      let s := s.modQuad q fun x => { x with failed := true }
      let s := (s.loseStack ⟨2 * q.val, by omega⟩ 4).loseStack ⟨2 * q.val + 1, by omega⟩ 4
      let s := (List.range 4).foldl (fun s i => if h : 4 * q.val + i < 16 then s.dropLink ⟨4 * q.val + i, h⟩ 1 else s) s
      .next ((((s.requestEpoch (unitQuad q)).dropQuad q).updateLevel).levelStop)
/-- Unit of a quadrant or stack: its count of corrected words in the running interval. -/
def State.ceCount (s : State) (unit : Nat) : Nat :=
  if h : 0x60 ≤ unit ∧ unit - 0x60 < 8 then (s.hbm ⟨unit - 0x60, h.2⟩).ceWindow
  else if h : 0x80 ≤ unit ∧ unit - 0x80 < 4 then (s.quad ⟨unit - 0x80, h.2⟩).ceWindow else 0
/-- A new interval starts for the unit. -/
def State.ceRestart (s : State) (unit : Nat) : State :=
  let s := if h : 0x60 ≤ unit ∧ unit - 0x60 < 8 then s.modHbm ⟨unit - 0x60, h.2⟩ fun x => { x with ceWindow := 0 }
    else if h : 0x80 ≤ unit ∧ unit - 0x80 < 4 then s.modQuad ⟨unit - 0x80, h.2⟩ fun x => { x with ceWindow := 0 } else s
  { s with events := { s.events with ceLast := (unit, s.now) :: s.events.ceLast.filter fun e => e.1 != unit } }
/-- ECC_CE_RATE: at the end of a 10^9-count interval a unit that has corrected more than 1,000 words is reported. -/
def execEccCeRate (t : Nat) (unit : Nat) (s : State) : Out :=
  let s := s.tick t
  let due := match s.events.ceLast.find? fun e => e.1 == unit with
    | some (_, t0) => decide (t0 + 1000000000 ≤ s.now)
    | none => decide (1000000000 ≤ s.now)
  if !due || s.power.halted then .next s else
    let n := s.ceCount unit
    .next (if 1000 < n then (s.emit unit 0x0502 (le 4 n)).ceRestart unit else s.ceRestart unit)

end Sys2Proof.Machine
end

