-- ==== Sys2Proof/Machine/Exchange.lean ====
section
/-! DEFINITION. The exchanges of a Growing job in hypercube dimension order, with the fold step and the copy step of a job whose card
count is no power of two (04, R98; 07, R168, R179; 11, R299; 19). -/

namespace Sys2Proof.Machine

/-- One step of an exchange: a tail rank hands its contribution over, a rank takes a tail's, two ranks exchange theirs, a rank returns
the result to its tail, a tail takes the result. -/
inductive ExStep
  | hand (head : Nat)
  | take (tail : Nat)
  | swap (partner : Nat)
  | copyTo (tail : Nat)
  | copyOf (rank : Nat)
  deriving DecidableEq, Repr

/-- The steps of a rank in an exchange over `n` cards: fold step, dimensions in ascending order, copy step (11, R299). -/
def exSteps (n rank : Nat) : List ExStep :=
  let k := Nat.log2 n
  if 2 ^ k ≤ rank then [.hand (rank - 2 ^ k), .copyOf (rank - 2 ^ k)] else
    let tail := decide (rank + 2 ^ k < n)
    (if tail then [.take (rank + 2 ^ k)] else []) ++
      ((List.range k).map fun j => .swap (if bit rank j then rank - 2 ^ j else rank + 2 ^ j)) ++
      (if tail then [.copyTo (rank + 2 ^ k)] else [])

/-- Run the steps on a card's own contribution and what it receives, in order, each with its sender's rank: the result and what it sends,
each with the rank it goes to; none where what came does not fit the steps. -/
def exRun {α : Type} (merge : α → α → α) : List ExStep → α → List (Nat × α) → Option (α × List (Nat × α))
  | [], a, [] => some (a, [])
  | .hand r :: s, a, l => (exRun merge s a l).map fun e => (e.1, (r, a) :: e.2)
  | .take r :: s, a, (c, x) :: l => if c = r then exRun merge s (merge a x) l else none
  | .swap r :: s, a, (c, x) :: l => if c = r then (exRun merge s (merge a x) l).map fun e => (e.1, (r, a) :: e.2) else none
  | .copyTo r :: s, a, l => (exRun merge s a l).map fun e => (e.1, (r, a) :: e.2)
  | .copyOf r :: s, _, (c, x) :: l => if c = r then exRun merge s x l else none
  | _, _, _ => none

/-- Rank of this card in a Fold's job (11, R298). -/
def State.rankIn (s : State) (f : FoldId) : Nat := s.card - (s.fold f).run.job.1
/-- The exchange of a Fold's job on this card. -/
def State.exchange {α : Type} (s : State) (f : FoldId) (merge : α → α → α) (cardOf : α → Nat) (own : α) (recv : List α) :
    Option (α × List (Nat × α)) :=
  let (b, n) := (s.fold f).run.job
  exRun merge (exSteps n (s.rankIn f)) own (recv.map fun r => (cardOf r - b, r))
/-- Send what an exchange sends, to the cards of the ranks. -/
def State.sendAll {α : Type} (s : State) (f : FoldId) (wrap : α → Exchanged) (l : List (Nat × α)) : State :=
  l.foldl (fun s e => s.send (.exchange f.val ((s.fold f).run.job.1 + e.1) (wrap e.2))) s

end Sys2Proof.Machine
end

