-- ==== Sys2Proof/Machine/Image.lean ====
section
/-! DEFINITION. The image of a grown ensemble (07, R186; 06, Grafting deep trees; 19, ModelImage). -/

namespace Sys2Proof.Machine

/-- Bytes of a cut table record (19, ModelImage). -/
def cutBytes (c : CutTable) : Bytes :=
  let b := le 2 c.feature ++ le 1 c.typ ++ le 1 c.scale ++ le 2 c.cuts.length ++ le 1 c.use ++ le 9 0 ++
    (c.cuts.flatMap fun e => le (thrWidth c.typ c.use) e.1) ++
    le (ceilDiv c.cuts.length 8) (((c.cuts.zipIdx).map fun e => b2n e.1.2 * 2 ^ e.2).sum)
  padTo (roundUp b.length 8) b

/-! ## Trees as lanes -/

/-- A lane: feature, split code, sense GE, default bit, first bit and width of its segment, exclusion mask within the segment. -/
abbrev GrownLane := Nat × Nat × Bool × Bool × Nat × Nat × Nat
/-- A segment of the Scoring shape: tree number, heap index of its root, depth, first bit and width in the leaf bank. -/
abbrev GrownSeg := Nat × Nat × Nat × Nat × Nat
/-- Test of a node of a full tree: feature, split code, sense GE, D. An unsplit node is always true: GE, split code 0, D = 1 (07, R186). -/
def nodeTest (t : GrownTree) (heap : Nat) : Nat × Nat × Bool × Bool := match t.recs.find? fun r => r.heap == heap && r.valid with
  | some r => (r.feature, r.code, false, r.d)
  | none => (0, 0, true, true)
/-- Value of the leaf at a heap index of depth d; a graft leaf, above that depth, is zero (06, Grafting deep trees). -/
def leafAt (d : Nat) (t : GrownTree) (heap : Nat) : Int := if heap < 2 ^ d then 0 else t.leaves.getD (heap - 2 ^ d) 0
/-- Lanes of the subtree of depth e under a root: a node excludes the leaves of its true subtree (06, Bitvector exit-leaf evaluation). -/
def treeLanes (t : GrownTree) (g : GrownSeg) : List GrownLane :=
  let (_, root, e, start, width) := g
  (List.range (2 ^ e - 1)).map fun i =>
    let k := Nat.log2 (i + 1)
    let n := 2 ^ (e - k - 1)
    let (f, c, ge, dir) := nodeTest t (root * 2 ^ k + (i + 1 - 2 ^ k))
    (f, c, ge, dir, start, width, 2 ^ width - 1 - (2 ^ n - 1) * 2 ^ (2 * n * (i + 1 - 2 ^ k)))
/-- Chain lanes of a grafted subtree: one for each ancestor of its root, which tests the ancestor's condition in the direction of the path
and clears the subtree's leaves where it fails (06, Grafting deep trees). -/
def chainLanes (t : GrownTree) (g : GrownSeg) : List GrownLane :=
  let (_, root, e, start, width) := g
  (List.range (Nat.log2 root)).map fun j =>
    let child := root / 2 ^ (Nat.log2 root - 1 - j)
    let (f, c, ge, dir) := nodeTest t (child / 2)
    let down := child % 2 == 0
    (f, c, ge == down, dir == down, start, width, 2 ^ width - 2 ^ 2 ^ e)
/-- Lanes of a segment. -/
def segLanes (ts : List GrownTree) (g : GrownSeg) : List GrownLane := match ts[g.1]? with
  | some t => chainLanes t g ++ treeLanes t g
  | none => []
/-- Leaf value at a bit of the leaf bank: the segment's leaf there, zero at a null leaf and at padding (06, Grafting deep trees). -/
def bankValue (d : Nat) (ts : List GrownTree) (gs : List GrownSeg) (p : Nat) : Int :=
  match gs.find? fun g => decide (g.2.2.2.1 ≤ p ∧ p < g.2.2.2.1 + 2 ^ g.2.2.1) with
  | some g => (ts[g.1]?).elim 0 fun t => leafAt d t (g.2.1 * 2 ^ g.2.2.1 + (p - g.2.2.2.1))
  | none => 0

/-! ## The image (19, ModelImage) -/

/-- A pass-group image: header, node plane and mask plane of each pass, leaf table of 256 plain leaves (05, The leaf latch). -/
def passGroupBytes (d : Nat) (ts : List GrownTree) (gs : List GrownSeg) : Bytes :=
  let ps := Config.passPlanes (gs.flatMap (segLanes ts))
  le 2 ps.length ++ le 2 0 ++ le 4 1024 ++ le 8 0 ++ le 32 ((gs.map fun g => 2 ^ g.2.2.2.1).sum) ++
    (ps.flatMap fun p => padTo 1024 p.1 ++ le 2 p.2.length ++ le 14 0 ++ padTo (roundUp p.2.length 16) p.2) ++
    (List.range 256).flatMap fun i => le 4 (wrap 32 (bankValue d ts gs i))
/-- Group images, each on a 2 KiB boundary from an offset on: offset and bytes of each. -/
def groupsFrom : Nat → List Bytes → List (Nat × Bytes)
  | _, [] => []
  | o, b :: r => (o, b) :: groupsFrom (roundUp (o + b.length) 2048) r
/-- An image of one stage: header, cut tables, group directory, group images (the order of the regions: DESIGN CHOICE, log entry 12). -/
def imageBytes (cuts : Bytes) (groups : List Bytes) : Bytes :=
  let dirAt := 64 + cuts.length
  let dirLen := 16 * groups.length
  let first := roundUp (dirAt + dirLen) 2048
  let gs := groupsFrom first groups
  let body := gs.foldl (fun b g => padTo g.1 b ++ g.2) (padTo first (padTo 64 (ascii [0x49, 0x5A, 0x4D, 0x47] ++
    Config.imageHeader 1 1 groups.length (64, cuts.length) (dirAt, dirLen) (first, ((gs.getLast?).elim 0 fun g => g.1 + g.2.length) - first)) ++
    cuts ++ gs.flatMap fun g => le 8 g.1 ++ le 4 g.2.length ++ le 1 0 ++ le 3 0))
  body
/-- Image of the grown ensemble, from the cut tables, the completed trees and the shape of the bundle alone (07, R186; 03, R51). -/
def grownImageOf (l : Loaded) (g : Grow) : Bytes :=
  imageBytes (l.cuts.flatMap cutBytes)
    ((Config.grownShape l.modelMeas).map fun ps => ps.flatMap (passGroupBytes l.jobOr.depth g.trees))

end Sys2Proof.Machine
end

