-- ==== Sys2Proof/Machine/Growing.lean ====
section
/-! DEFINITION. The loop of a Growing job: row input, pre-phase, gradient barrier, split exchange, level-steps, rounds, re-shard
(04, 07, 18; 19, Table 19.9). -/

namespace Sys2Proof.Machine

/-- The job of a Fold. -/
def Fold.job (x : Fold) : Job := match x.load with
  | some l => l.jobOr
  | none => Job.zero
/-- A Growing Fold stands at a frame boundary that has come. -/
def State.growBoundary (s : State) (f : FoldId) : Bool := s.atBoundary f && (s.fold f).growingNow
/-- Tick of the boundary at which the next frame opens. -/
def Fold.boundaryTick (x : Fold) : Nat := x.tickOf x.run.opened

/-! ## ROWS (18, R495, R496) -/

/-- First global row that a pass expects; none before its first entry, which then starts the card's block range. -/
def Grow.expected (g : Grow) (pass : Nat) : Option Nat :=
  let n := if pass = 0 then g.nextRow.1 else g.nextRow.2
  if n ≠ 0 then some n else if g.blocks = (0, 0) then none else some (g.blocks.1 * 4096)
/-- The entry's first row is the one the pass expects; a card's first row starts a block (04, R95). -/
def Grow.inOrder (g : Grow) (pass first : Nat) : Bool := match g.expected pass with
  | some n => first == n
  | none => first % 4096 == 0
/-- Row of pass 0: in the sample when its stream-0 value is below SampleRate (07, R163). -/
def sampleRow (j : Job) (row : Nat) (b : Bytes) (g : Grow) : Grow :=
  if genU j.genKey 0 0 row < j.sampleRate then { g with sample := g.sample ++ [(row, b)] } else g
/-- Initial margins of a row; a restored card keeps the margins it read (07, Table 7.1; 12, R351). -/
def baseMargins (j : Job) (row : Nat) (g : Grow) : Grow :=
  if g.restored.any (fun r => !r.2.1) then g
  else (List.range j.outputs).foldl (fun g c => g.setMargin row c g.marginBank (bv48 (j.base.getD c 0))) g
/-- Binned codes of a row; its label and its row weight are never binned (07, R531). -/
def rowCodes (l : Loaded) (b : Bytes) : List (Nat × Bool) :=
  (l.features.zipIdx).map fun e => if l.binned e.2 then binFeature l e.2 e.1 b false else (0, false)
/-- Write the packed codes of a quad of a row where the card keeps them (04, R83; 07, R160). -/
def State.putQuad (s : State) (f : FoldId) (row quad : Nat) (b : Bytes) : State :=
  let p := Config.rowPlace 0 (row / 4096) quad
  (b.zipIdx).foldl (fun s e => match (s.foldCfg f).hbmAddr (p.1 % 8) (p.2 + b.length * (row % 4096) + e.2) with
    | none => s
    | some a => s.modHbm ⟨p.1 % 8, by omega⟩ fun k => { k with mem := mset 0 k.mem a e.1 }) s
/-- Take one row of a pass. -/
def State.takeRow (s : State) (f : FoldId) (l : Loaded) (pass row : Nat) (b : Bytes) : State :=
  let j := l.jobOr
  if pass = 0 then s.modFold f fun x => { x with grow := sampleRow j row b x.grow }
  else
    let cs := rowCodes l b
    let s := (List.range l.quads).foldl (fun s q => s.putQuad f row q (l.quadBytes q (cs.map (·.1)))) s
    s.modFold f fun x => { x with
      grow := (baseMargins j row x.grow).keepLabel l row b
      tel := { x.tel with invalidValue := x.tel.invalidValue + (cs.filter (·.2)).length } }
/-- Progress of a pass after `k` more rows from row `n` on. -/
def Grow.advanceRows (g : Grow) (pass n k : Nat) (part : Option Nat) : Grow :=
  let first := if g.blocks = (0, 0) then n / 4096 else g.blocks.1
  { g with nextRow := if pass = 0 then (n + k, g.nextRow.2) else (g.nextRow.1, n + k), rowsThisFrame := g.rowsThisFrame + k, rowsCid := part,
           pass := some pass, blocks := (first, max g.blocks.2 (ceilDiv (n + k - first * 4096) 4096)), rowTotal := max g.rowTotal (n + k) }
/-- Take rows of an entry up to IngestRows of the frame; the entry completes once all its rows are taken, and goes on in the
next frame otherwise (18, R495). -/
def State.takeRows (s : State) (f : FoldId) (l : Loaded) (q : QHdr) (pass first : Nat) (data : List Bytes) (done : Nat) : State :=
  let x := s.fold f
  let k := min (data.length - done) (l.res.ingestRows - x.grow.rowsThisFrame)
  let s := (((data.drop done).take k).zipIdx).foldl (fun s e => s.takeRow f l pass (first + done + e.2) e.1) s
  let all := done + k = data.length
  let s := s.modFold f fun y => { y with grow := y.grow.advanceRows pass (first + done) k (if all then none else some q.cid) }
  if all then s.complete1 q 0 0 x.frame 0 0 else s
/-- Ingest role of a pass (19, Table 19.9). -/
def ingestRole (pass : Nat) : Nat := if pass = 0 then 2 else 3
/-- Rows back to back in a buffer, each after its two-byte length; none where they do not fill it (18, ROWS). -/
def rowsIn : Nat → Bytes → Option (List Bytes)
  | 0, b => if b.isEmpty then some [] else none
  | k + 1, b =>
    let n := fld b 0 2
    if b.length < n + 2 then none else (rowsIn k (b.drop (n + 2))).map fun l => slice b 2 n :: l
/-- ROWS: rows of pass 0 are sampled, rows of pass 1 binned; an entry out of order is not read (18, ROWS;
an entry taken in part and the first block: DEDUCED, log entry 41). -/
def execRows (t : Nat) (q : QHdr) (addr len first count pass : Nat) (buf : Bytes) (s : State) : Out :=
  let s := s.tick t
  let f := foldOf q.fn
  let x := s.fold f
  let rows := rowsIn count buf
  let data := rows.getD []
  match x.load with
  | none => .next s
  | some l =>
    let room := decide (x.grow.rowsThisFrame < l.res.ingestRows) && x.live && !x.run.closed && !s.power.halted
    let early := pass = 1 && (x.run.role == 2 || x.run.role == 4)
    if x.grow.rowsCid = some q.cid then
      let next := if pass = 0 then x.grow.nextRow.1 else x.grow.nextRow.2
      .next (if room then s.takeRows f l q pass first data (next - first) else s)
    else if !s.canFetch1 q.fn || (s.power.ready && x.growingNow && (!room || early || x.grow.rowsCid.isSome)) then .next s
    else .next (s.entry q fun s =>
      if !x.growingNow then s.complete1 q 1 0 0 0 0
      else if 1 < pass || rows.isNone || buf.length ≠ len then s.complete1 q 2 0 0 0 0
      else if x.run.role ≠ ingestRole pass || !x.grow.inOrder pass first then s.complete1 q 0x26 0 0 0 0
      else (s.send (.hostRead q.fn.val addr len)).takeRows f l q pass first data 0)

/-! ## Starting a level-step (07, R159) -/

/-- Pass form of the first gradient step after the ingest: two-pass for round 0 of every job but ISOLATION; a restored round keeps the form
that its record names (04, R91; 12, R532). -/
def Fold.firstTwoPass (x : Fold) : Bool := match x.grow.restored with
  | none => x.job.kind != 2
  | some _ => (x.grow.recordOf 0).any (·.twoPass)
/-- Wait for LEVEL_STEP_START: WAIT frames stand ready, and the step to come has not started. -/
def Fold.awaitStep (x : Fold) : Fold := { x with run := { x.run with role := 22, pos := 0 }, grow := { x.grow with between := true } }
/-- After the bin ingest: recompute phases of a restored job, then the level-steps (12, R351; DEDUCED, log entry 28). -/
def Fold.afterIngest (x : Fold) : Fold :=
  let g := { x.grow with pass := none, twoPass := x.firstTwoPass }
  match x.grow.restored with
  | some (true, _, _) => { x with grow := g, run := { x.run with role := 23, pos := 0 } }
  | some (false, true, _) => { x with grow := g, run := { x.run with role := 24, pos := 0 } }
  | _ => ({ x with grow := g }).awaitStep
/-- The boundary closes a level-step's completed attempt: not the first start of a job or of a restored one, no round re-run, no
held frame (12, R329). -/
def Fold.closesStep (x : Fold) : Bool :=
  x.run.role == 22 && x.grow.between && decide (x.grow.cls < x.job.outputs) && x.grow.restored.isNone && x.pre.waited == 0 &&
    !(x.grow.cls == 0 && x.grow.step == 0 && (x.grow.rerun || x.grow.round == 0))
/-- The notice whose cut falls on this boundary: the STOP notice, else the latest CONTINUE notice (12, R329, R347; DEDUCED, log
entry 23). -/
def Fold.dueNotice (x : Fold) : Option Notice :=
  if x.closesStep then
    match x.pre.notice.filter fun n => decide (n.cutAt ≤ x.boundaryTick) with
    | some n => some n
    | none => (x.pre.conts.filter fun n => decide (n.cutAt ≤ x.boundaryTick)).getLast?
  else none
/-- The cut of a notice falls on this boundary: no level-step starts before it is taken (12, R329). -/
def Fold.cutDue (x : Fold) : Bool := x.dueNotice.isSome
/-- The step to start would write a bank that a CONTINUE drain still reads: PART writes the other node-id bank, GEN of step 0 the bank
that it reads, MARGIN of a last step the other margin bank (12, R345; 07, The loop). -/
def Fold.mustWait (x : Fold) : Bool := match x.pre.drain with
  | none => false
  | some d =>
    let last := x.grow.step + 1 == x.job.depth && x.job.kind == 0
    !d.stop && ((decide (d.written ≤ 4) && (otherBank x.grow.nodeBank == d.nodeBank || x.grow.step == 0)) ||
      (last && decide (d.written ≤ 5) && (otherBank x.grow.marginBank == d.marginBank || d.cls != 0)))
/-- Lost-frame marks of the links belong to the step that has ended (11, R292). -/
def State.clearLost (s : State) : State := { s with links := s.links.map fun k => { k with lostInStep := false } }
/-- Start the step in wait: its segments from its GRAD head or its own; step 0 of a class starts a new tree; this card owns its range of
feature quads (07, R172). A replay cause that frames outside level-steps left stands, so the step replays at its close (02, R49; DEDUCED,
log entry 69). -/
def Fold.startStep (x : Fold) (rank : Nat) : Fold :=
  let n := x.job.outputs
  let g := { x.grow with
    between := false, exchanged := false,
    quads := (x.load.map fun l => quadRange x.run.job.2 rank l.quads).getD (0, 0),
    partialTree := if x.grow.step = 0 then [] else x.grow.partialTree,
    leaves := if x.grow.step = 0 then [] else x.grow.leaves,
    scales := (List.range n).map fun c => x.grow.scaleOfOut c,
    attemptFirst := if x.stepRole = 5 ∨ x.stepRole = 6 then x.run.opened else x.grow.attemptFirst }
  let y := { x with grow := g, pre := { x.pre with waited := 0 } }
  y.toRole x.stepRole
/-- LEVEL_STEP_START: the step's segments start, or the Fold waits one whole frame (07, R159; 12, R345); a recompute segment
that has run to its end passes on (12, R351). -/
def execLevelStepStart (t : Nat) (f : FoldId) (s : State) : Out :=
  let s := s.tick t
  let x := s.fold f
  if !s.growBoundary f || x.stoppedAt x.run.opened then .next s
  else if x.run.role = 23 || x.run.role = 24 then
    if !x.segmentOver then .next s
    else if x.run.role = 23 && x.grow.restored.any (·.2.1) then .next (s.modFold f fun y => { y with run := { y.run with role := 24, pos := 0 } })
    else .next (s.modFold f Fold.awaitStep)
  else if x.run.role ≠ 22 || !x.grow.between || decide (x.job.outputs ≤ x.grow.cls) || x.cutDue then .next s
  else if x.job.rounds ≤ x.grow.round then .next (s.modFold f fun y => ({ y with grow := { y.grow with between := false } }).toRole 21)
  else if x.mustWait then
    .next (s.modFold f fun y => { y with grow := { y.grow with between := false }, pre := { y.pre with waited := y.pre.waited + 1 },
                                         tel := { y.tel with waits := y.tel.waits + 1 } })
  else
    let s := if x.pre.waited = 0 then s else s.emitAt x.boundaryTick (unitFold f) 0x0804 false (le 4 x.pre.waited)
    .next (s.clearLost.modFold f fun y => y.startStep (s.rankIn f))

/-! ## The barrier after the gradient step (04, R97, R98; 07, R168) -/

/-- This card's contribution to a gradient barrier; the totals enter at the closing barrier alone. -/
def Grow.report (g : Grow) (card : Nat) (totals : Bool) : GradReport :=
  let tot := fun (n : Nat) => if totals then n else 0
  ⟨card, g.scales.map (·.maxG), g.scales.map (·.maxH), g.scales.map fun o => tot o.totG, g.scales.map fun o => tot o.totH,
    totals && g.miss.isSome, g.miss.getD 0⟩
/-- Two lists entry by entry, the shorter one continued with zeros. -/
def zipNat (k : Nat → Nat → Nat) (a b : List Nat) : List Nat := (List.range (max a.length b.length)).map fun i => k (a.getD i 0) (b.getD i 0)
/-- Two contributions: the larger maxima, the sums of the totals, SCALE_MISS of either with its lowest block (04, R98; the block: DEDUCED,
log entry 43). -/
def mergeGrad (a b : GradReport) : GradReport :=
  ⟨a.card, zipNat max a.maxG b.maxG, zipNat max a.maxH b.maxH, zipNat (· + ·) a.totG b.totG, zipNat (· + ·) a.totH b.totH, a.miss || b.miss,
    if a.miss && b.miss then min a.missBlock b.missBlock else if a.miss then a.missBlock else b.missBlock⟩
/-- The job's figures after the exchange. -/
def Grow.absorb (g : Grow) (totals : Bool) (r : GradReport) : Grow :=
  let g := { g with scales := (g.scales.zipIdx).map fun e => { e.1 with
    maxG := r.maxG.getD e.2 0, maxH := r.maxH.getD e.2 0,
    totG := if totals then r.totG.getD e.2 0 else e.1.totG, totH := if totals then r.totH.getD e.2 0 else e.1.totH } }
  if totals then { g with miss := if r.miss then some r.missBlock else none } else g
/-- Figures of an ISOLATION round: maxima 0 and 2^24, both scale words 0x118 (07, R185). -/
def isoScale : OutScale := ⟨0, 2 ^ 24, 0, 0, 0x118, 0x118, 0, 0⟩
/-- Record of an output's tensors for the running round: a restored round keeps the record it came with; what an earlier attempt of the round
raised stays in it; a gradient step that runs again is not coarse (04, R101, R102; 12, R532). -/
def newRecord (g : Grow) (kept : Bool) (c : Nat) (o : OutScale) : ScaleRec := match g.recordOf c with
  | some e => e
  | none =>
    let old := g.history.find? fun h => h.round == g.round && h.output == c
    ⟨g.round, c, o.maxG, o.maxH, o.stepG, o.stepH, g.twoPass, g.miss.isSome || old.any (·.miss),
      (kept && coarse o.maxG o.srcG) || old.any (·.coarseG), (kept && coarse o.maxH o.srcH) || old.any (·.coarseH)⟩
/-- Scale history with the round's figures in front; a re-run of the round replaces its own (04, R101). -/
def Grow.record (g : Grow) (kept : Bool) : Grow :=
  { g with history := ((g.scales.zipIdx).map fun e => newRecord g kept e.2 e.1) ++
      g.history.filter (fun h => h.round != g.round && decide (g.round ≤ h.round + 4)) }
/-- Exact values leave the gradient units of the Fold's tiles: none is stored between the passes of a two-pass round (07, R169). -/
def State.clearExact (s : State) (f : FoldId) : State :=
  (s.foldCfg f).tiles.foldl (fun s t => s.setTile t { s.tile t with grad := { (s.tile t).grad with gh := [] } }) s
/-- The gradient step runs again two-pass: the attempt's entries are written, and the next attempt starts at GRAD_TWO_PASS (04, R97, R102). -/
def State.rerunGradient (s : State) (f : FoldId) (cause : Nat) : State :=
  let x := s.fold f
  let s := s.emitAt x.boundaryTick (unitFold f) 0x0406 false (le 4 x.grow.round ++ le 2 cause)
  (s.endAttempt f (x.run.opened - 1)).modFold f fun y =>
    ({ y with grow := { y.grow.record false with twoPass := true, rerun := true, attemptFirst := y.run.opened } }).toRole 6
/-- SCALE_MISS and HIST_OVERFLOW of the barrier, and what follows (04, R97). -/
def State.judgeGradient (s : State) (f : FoldId) : State :=
  let x := s.fold f
  let tick := x.boundaryTick
  let s := match x.grow.miss with
    | some b => s.emitAt tick (unitFold f) 0x0401 false (le 4 x.grow.round ++ le 8 b)
    | none => s
  let s := if x.grow.overflow then s.emitAt tick (unitFold f) 0x0403 false (le 4 x.grow.round ++ le 1 0) else s
  if x.grow.miss.isSome || x.grow.overflow then s.rerunGradient f (if x.grow.miss.isSome then 0x0401 else 0x0403)
  else s.modFold f fun y => { y with grow := ({ y.grow with barrierDone := true } : Grow).record true }
/-- The closing barrier's figures: those of ISOLATION are fixed; a two-pass step neither misses nor overflows (04, R97; 07, R185). -/
def Grow.closeHead (g : Grow) (iso : Bool) : Grow :=
  let g := if iso then { g with scales := g.scales.map fun _ => isoScale } else g
  let spill := g.scales.any fun o => decide (2 ^ 47 ≤ o.totG) || decide (2 ^ 47 ≤ o.totH)
  { g with miss := if iso || g.twoPass then none else g.miss, overflow := !iso && !g.twoPass && spill }
/-- GRADIENT_BARRIER: between the passes of a two-pass step the maxima are exchanged; at its end maxima, totals and SCALE_MISS
are, and the re-run is decided. `peers` is what this card receives, step by step (04, R97, R98; 07, R168, R169; 11, R299; what each barrier
merges: DEDUCED, log entry 43). -/
def execGradientBarrier (t : Nat) (f : FoldId) (peers : List GradReport) (s : State) : Out :=
  let s := s.tick t
  let x := s.fold f
  if s.power.halted || !x.live || !x.growingNow || x.run.idle then .next s
  else
    let closing := s.growBoundary f && x.run.role == 7 && x.run.pos == 0 && x.grow.step == 0 && x.grow.cls == 0 && !x.grow.barrierDone
    let between := x.run.role == 6 && !x.grow.passDone
    if !closing && !between then .next s
    else match s.exchange f mergeGrad (·.card) (x.grow.report s.card closing) peers with
      | none => .next s
      | some (r, sent) =>
        let s := (s.sendAll f Exchanged.grad sent).clearExact f
        let g := x.grow.absorb closing r
        if closing then .next ((s.modFold f fun y => { y with grow := g.closeHead (x.job.kind == 2) }).judgeGradient f)
        else .next (s.modFold f fun y => { y with grow := { g with passDone := true } })

/-! ## Split exchange (07, R179; 12, R342, R343) -/

/-- Every card of the job has completed this card's newest generation: the other slot is free for the next one (12, R342). -/
def Preempt.learn (p : Preempt) (gens : List Nat) : Preempt := match p.generation with
  | some n => if gens.all (fun k => decide (n ≤ k ∧ k < 2 ^ 32 - 1)) then { p with newestSlot := p.doneSlot } else p
  | none => p
/-- This card's contribution to a split exchange: its records of the running level and its completed generation; none reads all ones. -/
def Fold.splitReport (x : Fold) (card : Nat) : SplitReport :=
  ⟨card, x.grow.partialTree.filter fun r => Nat.log2 r.heap == x.grow.step, [(card, x.pre.generation.getD (2 ^ 32 - 1))]⟩
/-- Two contributions: the better record of every node, and every card's generation (07, R178, R179). -/
def mergeSplit (j : Job) (round : Nat) (a b : SplitReport) : SplitReport :=
  ⟨a.card, b.recs.foldl (offerRec j round) a.recs, a.generations ++ b.generations.filter fun g => !(a.generations.any fun h => h.1 == g.1)⟩
/-- SPLIT_EXCHANGE_BARRIER: each card keeps the better record of every node; each learns every card's completed generation. `peers` is what
this card receives, step by step (11, R299). -/
def execSplitExchangeBarrier (t : Nat) (f : FoldId) (peers : List SplitReport) (s : State) : Out :=
  let s := s.tick t
  let x := s.fold f
  if s.power.halted || !x.live || !x.growingNow || x.run.idle || x.grow.exchanged || !(decide (7 ≤ x.run.role ∧ x.run.role ≤ 20)) then .next s
  else match s.exchange f (mergeSplit x.job x.grow.round) (·.card) (x.splitReport s.card) peers with
    | none => .next s
    | some (r, sent) => .next ((s.sendAll f Exchanged.split sent).modFold f fun y => { y with
        grow := { r.recs.foldl (fun g e => g.putRec e) y.grow with exchanged := true }
        pre := y.pre.learn (r.generations.map (·.2)) })

/-! ## The close of a level-step (02, R49; 07, R161; 11, R317) -/

/-- Leaf value under a heap index: an unsplit ancestor's value fills every leaf beneath it (07, R186). -/
def Grow.leafValueAt (g : Grow) (heap : Nat) : Int :=
  match ((List.range 16).map fun k => heap / 2 ^ (15 - k)).find? fun h => decide (0 < h) && (match g.recAt h with
    | some r => !r.valid
    | none => false) with
  | some h => mget 0 g.leaves h
  | none => mget 0 g.leaves heap
/-- The tree of the class that has ended (12, Table 12.2). -/
def Grow.finishTree (g : Grow) (d : Nat) : Grow :=
  { g with trees := g.trees ++ [⟨g.cls, g.partialTree, (List.range (2 ^ d)).map fun i => g.leafValueAt (2 ^ d + i)⟩] }
/-- A completed step: the bank it wrote is read next; the last step of a class ends its tree (07, R161). -/
def Fold.completeStep (x : Fold) : Fold :=
  let d := x.job.depth
  let g := { x.grow with nodeBank := otherBank x.grow.nodeBank, inReplay := false, replayCause := none, restored := none }
  let g := if g.step + 1 < d then { g with step := g.step + 1 } else { g.finishTree d with cls := g.cls + 1, step := 0 }
  ({ x with grow := g }).awaitStep
/-- A replay: the step's segments run again from the bank it read (02, R49; 19). -/
def Fold.replayStep (x : Fold) : Fold :=
  ({ x with grow := { x.grow with replayCause := none, inReplay := true } }).restart
/-- LEVEL_STEP_BOUNDARY: at the step's closing tick the replay is decided, or the step is complete (11, R317); lost frames of a replay count
with those of the step's first run (11, R292). -/
def execLevelStepBoundary (t : Nat) (f : FoldId) (s : State) : Out :=
  let s := s.tick t
  let x := s.fold f
  if !s.growBoundary f || !(decide (7 ≤ x.run.role ∧ x.run.role ≤ 20)) || decide (x.run.pos < x.segLen x.run.role) then .next s
  else match x.grow.replayCause with
    | some c =>
      let s := s.emitAt x.boundaryTick (unitFold f) 0x0405 false (le 4 x.grow.round ++ le 2 x.grow.cls ++ le 1 x.grow.step ++ le 2 c)
      .next (s.modFold f Fold.replayStep)
    | none => .next (s.clearLost.modFold f Fold.completeStep)

/-! ## The end of a round (04, R99 to R101; 07, R162) -/

/-- The round runs again two-pass from its start: its trees are dropped, its margins are read again (07, R162). -/
def Fold.rerunRound (x : Fold) : Fold :=
  ({ x with grow := { x.grow with cls := 0, step := 0, twoPass := true, rerun := true, coarse := false,
                                  trees := x.grow.trees.take (x.grow.trees.length - x.job.outputs) } }).awaitStep
/-- The round is kept: the next one reads the margins it wrote; after the last one the job re-shards (07, R158, R161). -/
def Fold.nextRound (x : Fold) : Fold :=
  let g := { x.grow with
    round := x.grow.round + 1, cls := 0, step := 0, twoPass := false, rerun := false, coarse := false, overflow := false, miss := none, badRows := [],
    marginBank := if x.job.kind = 0 then otherBank x.grow.marginBank else x.grow.marginBank }
  ({ x with grow := g }).awaitStep
/-- ROUND_END: SCALE_COARSE of each tensor, the policy, the attempt's entries (04, R99, R100; 09, R244). The event carries the output of R99
in two bytes after the three fields that Table 14.9 lists (DESIGN CHOICE, log entry 74). -/
def execRoundEnd (t : Nat) (f : FoldId) (s : State) : Out :=
  let s := s.tick t
  let x := s.fold f
  if !s.growBoundary f || !x.grow.between || x.run.role ≠ 22 || x.grow.cls < x.job.outputs then .next s
  else
    let tick := x.boundaryTick
    let cs := coarseTensors x.job x.grow
    let s := cs.foldl (fun s c => s.emitAt tick (unitFold f) 0x0402 false (le 4 x.grow.round ++ le 1 c.2 ++ le 1 (b2n x.job.rerun) ++ le 2 c.1)) s
    let s := s.modFold f fun y => { y with grow := { y.grow with coarse := !cs.isEmpty } }
    let s := s.appendAll f (x.run.opened - 1) ((s.fold f).roundEntries (x.run.opened - 1))
    if x.job.rerun && !cs.isEmpty then
      .next ((s.emitAt tick (unitFold f) 0x0406 false (le 4 x.grow.round ++ le 2 0x0402)).modFold f Fold.rerunRound)
    else .next (s.modFold f Fold.nextRound)

/-! ## Ingest and pre-phase (07, R163, R164; 18; 19, R517) -/

/-- Two statuses: both hold their last rows; the row after the last one of either. -/
def mergeIngest (a b : IngestReport) : IngestReport := ⟨a.card, a.last && b.last, max a.rows b.rows⟩
/-- INGEST_END: at the boundary after the frame whose exchange shows every card holding its last row; the job's row total is known with it.
`r.last` says whether this card holds its own: how it knows is not in the spec. Where a row is still to come the statuses are exchanged and
the ingest goes on (19, R517; DEDUCED, log entry 41). -/
def execIngestEnd (t : Nat) (f : FoldId) (r : IngestSeen) (s : State) : Out :=
  let s := s.tick t
  let x := s.fold f
  if !s.growBoundary f || !(x.run.role == 2 || x.run.role == 3) || x.run.opened = 0 then .next s
  else match s.exchange f mergeIngest (·.card) ⟨s.card, r.last, x.grow.rowTotal⟩ r.peers with
    | none => .next s
    | some (r, sent) =>
      let s := s.sendAll f Exchanged.ingest sent
      if !r.last then .next s else
        let pass := x.run.role - 2
        let s := s.emitAt x.boundaryTick (unitFold f) 0x0407 false (le 1 pass ++ le 8 x.frame)
        let s := s.modFold f fun y => { y with grow := { y.grow with rowTotal := r.rows } }
        .next (s.modFold f fun y => if pass = 0 then { y with run := { y.run with role := 4, pos := 0 } } else y.afterIngest)
/-- A sampled value on its type's order, with the threshold it stores; DEC64S values stand on the 10^−18 grid. -/
def sampleVal (typ : Nat) (b : Bytes) : Xv × Nat :=
  let (v, sc) := srcVal typ b
  match typ, v with
  | 0x32, .fin n => (.fin (n * 10 ^ (18 - sc)), leNat (b.take 8))
  | _, v => (v, leNat b)
/-- Insert a value into an ascending list. -/
def insVal (v : Xv × Nat) : List (Xv × Nat) → List (Xv × Nat)
  | [] => [v]
  | x :: r => if x.1.lt v.1 then x :: insVal v r else v :: x :: r
/-- Values in ascending order. -/
def sortVals (l : List (Xv × Nat)) : List (Xv × Nat) := l.foldr insVal []
/-- One of each run of equal values of an ascending list. -/
def distinctVals : List (Xv × Nat) → List (Xv × Nat)
  | [] => []
  | [a] => [a]
  | a :: b :: r => if a.1.lt b.1 then a :: distinctVals (b :: r) else distinctVals (b :: r)
/-- Cut values of a feature's non-missing sample for a width (07, R164). -/
def phaseCuts (w : Nat) (v : List (Xv × Nat)) : List (Xv × Nat) :=
  let u := distinctVals v
  if u.length ≤ 2 ^ w - 1 then u.drop 1
  else distinctVals ((List.range (2 ^ w - 2)).filterMap fun j => v[(j + 1) * v.length / (2 ^ w - 1)]?)
/-- Smallest scale from 0 to 18 at which every threshold of the 10^−18 grid is exact (04, R80). -/
def gridScale (v : List (Xv × Nat)) : Nat :=
  ((List.range 19).find? fun sc => v.all fun e => match e.1 with
    | .fin n => n % (10 ^ (18 - sc) : Int) == 0
    | _ => true).getD 18
/-- Cut table of a pre-phase feature: GE entries, held at one scale for DEC64S (07, R163, R164). -/
def phaseTable (i : Nat) (ft : Feature) (vals : List Bytes) : CutTable :=
  let v := phaseCuts ft.width (sortVals ((vals.map (sampleVal ft.typ)).filter fun e => e.1 != .missing))
  let sc := if ft.typ = 0x32 then gridScale v else ft.scale
  let thr := fun (e : Xv × Nat) => match ft.typ, e.1 with
    | 0x32, .fin n => wrap 128 (n / 10 ^ (18 - sc))
    | _, _ => e.2
  ⟨i, ft.typ, sc, 0, v.map fun e => (thr e, false)⟩
/-- Tables of the features that are binned without a supplied table, categorical ones excepted, from the bodies of the sampled rows (07,
R163; 04, R527). -/
def phaseTables (l : Loaded) (rows : List Bytes) : List CutTable :=
  (l.features.zipIdx).filterMap fun e =>
    if e.1.categorical || !l.binned e.2 || (findCut l.cuts e.2 0).isSome then none
    else some (phaseTable e.2 e.1 (rows.filterMap (featBytes l.presence l.features.length e.2 e.1)))
/-- Insert a row into an ascending list. -/
def insRow (r : Nat × Bytes) : List (Nat × Bytes) → List (Nat × Bytes)
  | [] => [r]
  | x :: l => if r.1 < x.1 then r :: x :: l else x :: insRow r l
/-- Two contributions to the sample: the rows of both in ascending global row number. -/
def mergeSample (a b : SampleReport) : SampleReport := ⟨a.card, b.rows.foldl (fun l r => insRow r l) a.rows⟩
/-- PREPHASE_END: the samples of all cards are gathered, truncated to the SampleMax rows of lowest number, and the tables are built from
them on every card alike. This card receives `tails` in a fold or copy step, `peers` dimension by dimension (07, R163; 11, R299). -/
def execPrephaseEnd (t : Nat) (f : FoldId) (tails peers : List SampleReport) (s : State) : Out :=
  let s := s.tick t
  let x := s.fold f
  match x.load with
  | none => .next s
  | some l =>
    if !s.growBoundary f || x.run.role ≠ 4 || !x.segmentOver then .next s
    else match s.exchange f mergeSample (·.card) ⟨s.card, x.grow.sample⟩ (tails ++ peers) with
      | none => .next s
      | some (r, sent) =>
        let s := s.sendAll f Exchanged.sample sent
        let total := r.rows.length
        let max := l.jobOr.sampleMax
        let s := if max < total then s.emitAt x.boundaryTick (unitFold f) 0x0404 false (le 8 total ++ le 8 max) else s
        .next (s.modFold f fun y => { y with
          load := some { l with cuts := l.cuts ++ phaseTables l ((r.rows.take max).map (·.2)) }
          grow := { y.grow with sampledTotal := total, sample := [] }
          run := { y.run with role := 3, pos := 0 } })

/-! ## Re-shard (07, R186 to R188) -/

/-- The Fold after the re-shard: the grown image in the model store, its measurement, Scoring from the next frame on. -/
def Fold.reshard (x : Fold) (l : Loaded) : Fold :=
  let image := grownImageOf l x.grow
  { x with
    store := storeImage image
    grow := { x.grow with phase := 2, grownMeas := modelMeasOf l.graphDigest l.resultDigest (digest image), resharded := true,
                          between := false, scoringFrom := some x.run.opened }
    run := { x.run with role := 0, pos := 0 } }
/-- Job neighbours and result credits with which Scoring starts. -/
def State.startScoring (s : State) (f : FoldId) : State :=
  let x := s.fold f
  s.modFold f fun y => { y with run := { y.run with neighbours := s.jobNeighbours x, peers := [] } }
/-- RESHARD: at the close of the re-shard segment the grown image is written, the page closes with the Phase entry, and
PHASE_SCORING opens admission (07, R186 to R188; 09, R246). -/
def execReshard (t : Nat) (f : FoldId) (s : State) : Out :=
  let s := s.tick t
  let x := s.fold f
  match x.load with
  | none => .next s
  | some l =>
    if !s.growBoundary f || x.run.role ≠ 21 || decide (x.run.pos < x.segLen 21) || x.stoppedAt x.run.opened then .next s
    else
      let n := x.run.opened
      let y := x.reshard l
      let s := (s.appendAll f (n - 1) [phaseEntry n y.grow.grownMeas]).endPage f n false
      let s := s.modFold f fun z => { z with store := y.store, grow := y.grow, run := y.run }
      .next ((s.startScoring f).emitAt x.boundaryTick (unitFold f) 0x030C false (le 8 n))

end Sys2Proof.Machine
end

