-- ==== Sys2Proof/Machine/Preempt.lean ====
section
/-! DEFINITION. The cut of a notice, the checkpoint drain section by section, the Deadline, and file-store errors (12). -/

namespace Sys2Proof.Machine

/-! ## Sections (12, Table 12.2; the order of fields inside a section is not in the spec, DESIGN CHOICE, log entry 12) -/

/-- One completed tree: split records of heap indices 1 to 2^d − 1, then 2^d leaf values of 4 bytes. -/
def treeBytes (d : Nat) (t : GrownTree) : Bytes :=
  ((List.range (2 ^ d - 1)).flatMap fun i => match t.recs.find? fun r => r.heap == i + 1 with
    | some r => recBytes r
    | none => le 64 0) ++ ((List.range (2 ^ d)).flatMap fun i => le 4 (wrap 32 (t.leaves.getD i 0)))
/-- Section 1: completed trees, records of the partial tree's completed steps, pre-phase cut tables. -/
def ensembleBytes (l : Loaded) (g : Grow) : Bytes :=
  (g.trees.flatMap (treeBytes l.jobOr.depth)) ++ ((g.partialTree.filter fun r => decide (Nat.log2 r.heap < g.step)).flatMap recBytes) ++
    ((l.cuts.drop l.bundleCuts).flatMap cutBytes)
/-- Section 2: GenKey, round, class, next step, block range, row total, indices of the two banks. -/
def positionBytes (l : Loaded) (g : Grow) : Bytes :=
  le 8 l.jobOr.genKey ++ le 4 g.round ++ le 2 g.cls ++ le 1 g.step ++ le 8 g.blocks.1 ++ le 8 g.blocks.2 ++ le 8 g.rowTotal ++
    le 1 g.nodeBank ++ le 1 g.marginBank
/-- Section 3: the scale history of the last four rounds whose gradient step has completed: exact maxima, scale words, the pass form and the
flags of R101 (12, Table 12.2; 04, R101; log entry 12). -/
def scaleBytes (l : Loaded) (g : Grow) : Bytes :=
  (g.history.take (4 * l.jobOr.outputs)).flatMap fun h =>
    le 4 h.round ++ le 2 h.output ++ le 8 h.maxG ++ le 8 h.maxH ++ le 4 h.stepG ++ le 4 h.stepH ++
      le 1 (b2n h.twoPass + 2 * b2n h.miss + 4 * b2n h.coarseG + 8 * b2n h.coarseH)
/-- Rows of the card's blocks. -/
def Grow.cardRows (g : Grow) : List Nat := (List.range (4096 * g.blocks.2)).map fun i => 4096 * g.blocks.1 + i
/-- Section 4: node ids at the cut, 8,192 bytes per block. -/
def nodeBytes (g : Grow) (bank : Nat) : Bytes := g.cardRows.flatMap fun r => le 2 (g.node r bank)
/-- Margins of some classes in a bank, 6 bytes per row each, in block order. -/
def marginPart (g : Grow) (bank k : Nat) : Bytes :=
  (List.range g.blocks.2).flatMap fun b => (List.range k).flatMap fun c => (List.range 4096).flatMap fun i =>
    fix48 (g.margin (4096 * (g.blocks.1 + b) + i) c bank)
/-- Section 5: read-bank margins of every output, then write-bank margins of the classes the cut has passed. -/
def marginBytes (outputs : Nat) (g : Grow) (bank cls : Nat) : Bytes := marginPart g bank outputs ++ marginPart g (otherBank bank) cls
/-- Payload of section 1 to 5 of a drain. -/
def sectionBytes (x : Fold) (d : Drain) (n : Nat) : Bytes :=
  if n ≤ 3 then d.staged.getD (n - 1) [] else if n = 4 then nodeBytes x.grow d.nodeBank else marginBytes x.job.outputs x.grow d.marginBank d.cls

/-! ## The Rick format (12, Table 12.4) -/

/-- 64 KiB blocks of a payload. -/
def blockCount (len : Nat) : Nat := ceilDiv len 65536
/-- LBAs of a section: its blocks, then a tag table of 16 bytes per block padded to an LBA. -/
def sectionLbas (len : Nat) : Nat := 16 * blockCount len + ceilDiv (16 * blockCount len) 4096
/-- Nonce: generation, rank, section, block index, most-significant byte first. -/
def rickNonce (gen rank sec blk : Nat) : Bytes := be 4 gen ++ be 1 rank ++ be 1 sec ++ be 6 blk
/-- Lengths of sections 1 to 5. -/
def sectionLens (x : Fold) (staged : List Bytes) : List Nat :=
  staged.map (·.length) ++ [8192 * x.grow.blocks.2, 6 * 4096 * x.grow.blocks.2 * (x.job.outputs + x.grow.cls)]
/-- First LBA of section n within the area. -/
def sectionLba (lens : List Nat) (n : Nat) : Nat := 1 + ((lens.take (n - 1)).map sectionLbas).sum
/-- Manifest bytes 0 to 4,079. -/
def manifestBody (s : State) (f : FoldId) (stop : Bool) (gen tick : Nat) (lens : List Nat) : Bytes :=
  let x := s.fold f
  let g := x.grow
  let meas := match x.load with
    | some l => padTo 32 l.modelMeas ++ padTo 32 l.bundleDigest
    | none => le 64 0
  let kek := x.keys.kek.getD []
  padTo 4080 (ascii [0x52, 0x49, 0x43, 0x4B] ++ le 2 1 ++ le 2 (b2n (!stop)) ++ le 4 gen ++ le 1 (s.card - x.run.job.1) ++ le 1 x.run.job.2 ++
    le 1 f.val ++ le 1 x.run.job.2 ++ meas ++ le 8 tick ++ le 4 g.round ++ le 2 g.cls ++ le 1 g.step ++ le 1 0 ++ le 8 g.blocks.1 ++
    le 8 g.blocks.2 ++ le 8 g.rowTotal ++ (digest kek).take 8 ++ padTo 40 (Config.keyWrap kek x.keys.ckpt) ++
    padTo 192 ((List.range 5).flatMap fun i => le 8 (sectionLba lens (i + 1)) ++ le 8 (lens.getD i 0) ++ le 4 (blockCount (lens.getD i 0)) ++ le 12 0) ++
    le 8 (s.latestSeq f) ++ padTo 32 (s.latestOut f))
/-- The manifest with its tag over an empty plaintext. -/
def manifestOf (s : State) (f : FoldId) (stop : Bool) (gen tick : Nat) (lens : List Nat) : Bytes :=
  let b := manifestBody s f stop gen tick lens
  b ++ padTo 16 (Config.gcm (s.fold f).keys.ckpt (rickNonce gen (s.card - (s.fold f).run.job.1) 0 0) b [])
/-- Sealed block i of a payload, ciphertext and tag. -/
def sealedBlock (key aad : Bytes) (gen rank sec : Nat) (p : Bytes) (i : Nat) : Bytes × Bytes :=
  let c := Config.gcm key (rickNonce gen rank sec i) aad (padTo 65536 (slice p (65536 * i) 65536))
  (padTo 65536 c, padTo 16 (c.drop 65536))
/-- Writes of one section at its LBA: at most 64 KiB each, the tag table last. The tag of the tag table stands behind it in its last LBA, where
there is room: the format gives it no place (12, R335, R339; DESIGN CHOICE, log entry 42). -/
def sectionWrites (key aad : Bytes) (gen rank sec lba : Nat) (p : Bytes) : List FileCmd :=
  let bs := (List.range (blockCount p.length)).map (sealedBlock key aad gen rank sec p)
  let tags := padTo (roundUp (16 * bs.length) 4096) (Config.gcm key (rickNonce gen rank sec (2 ^ 48 - 1)) aad (bs.flatMap (·.2)))
  (bs.zipIdx).map (fun e => ⟨true, lba + 16 * e.2, e.1.1⟩) ++
    (List.range (blockCount tags.length)).map fun i => ⟨true, lba + 16 * bs.length + 16 * i, slice tags (65536 * i) 65536⟩
/-- First LBA of the card's slot area (12, R338). -/
def areaLba (t : CkptTarget) (rank slot : Nat) : Nat := t.base + (2 * rank + slot) * t.areaLbas
/-- Queue the writes of the next section of the drain, then its Flush (12, R332, R334). -/
def State.drainNext (s : State) (f : FoldId) : State :=
  let x := s.fold f
  match x.pre.drain with
  | none => s
  | some d =>
    let rank := s.card - x.run.job.1
    let area := areaLba (s.foldCfg f).target rank d.slot
    let lens := sectionLens { x with grow := { x.grow with cls := d.cls } } d.staged
    let ws := if d.written = 0 then [⟨true, area, d.manifest⟩] else
      sectionWrites x.keys.ckpt (d.manifest.take 128) d.generation rank d.written (area + sectionLba lens d.written) (sectionBytes x d d.written)
    let n := (ws.map fun w => w.data.length).sum
    (s.modFold f fun y => { y with pre := { y.pre with drain := y.pre.drain.map fun e => { e with bytes := e.bytes + n } } }).fileQueue f
      (ws ++ [⟨true, 0, []⟩])

/-! ## PREEMPT_CUT (12, R329 to R331, R341, R344, R347) -/

/-- A drain ends: none of its commands is issued any more, CheckpointStatus shows how (13, Table 13.13). -/
def State.endDrain (s : State) (f : FoldId) (status : Nat) : State :=
  (s.fileDropCkpt f).modFold f fun x => { x with pre := { x.pre with drain := none, status := status } }
/-- Abandon a CONTINUE drain: CHECKPOINT_ABANDONED, the bank is free (12, R347). -/
def State.abandonDrain (s : State) (f : FoldId) (stamp : Nat) : State :=
  match (s.fold f).pre.drain with
  | none => s
  | some d => (s.emitAt stamp (unitFold f) 0x0808 false (le 4 d.generation)).endDrain f 5
/-- Nothing of a generation is written: CHECKPOINT_INCOMPLETE with no section (12, R348; DEDUCED, log entry 42). -/
def State.nothingWritten (s : State) (f : FoldId) (stamp gen : Nat) : State :=
  ((s.emitAt stamp (unitFold f) 0x0807 false (le 4 gen ++ le 1 0)).endDrain f 4).tryStopped f
/-- Start a drain: sections 1 to 3 as they stand, the manifest first (12, R332, R342, R344). -/
def State.startDrain (s : State) (f : FoldId) (n : Notice) (tick gen : Nat) : State :=
  let x := s.fold f
  let staged := match x.load with
    | some l => [ensembleBytes l x.grow, positionBytes l x.grow, scaleBytes l x.grow]
    | none => []
  let m := manifestOf s f n.stop gen tick (sectionLens x staged)
  let d : Drain := ⟨n.stop, gen, 1 - x.pre.newestSlot, tick, x.grow.round, x.grow.cls, x.grow.step, 0, 0, x.grow.nodeBank, x.grow.marginBank,
    n.deadline, m, staged⟩
  (s.modFold f fun y => { y with pre := { y.pre with drain := some d, status := 1, sections := 0, cutTick := tick, nextGen := gen + 1 } }).drainNext f
/-- What the cut writes: nothing without a KEK, without a target, on a bad namespace or past the Deadline (12, R335, R341, Corners). -/
def State.writeCut (s : State) (f : FoldId) (n : Notice) (tick lbaSize : Nat) : State :=
  let x := s.fold f
  let gen := x.pre.nextGen
  if x.keys.kek.isNone then (((s.emitAt tick (unitFold f) 0x0809 false []).endDrain f 6)).tryStopped f
  else if (s.foldCfg f).target.nsid = 0 || decide (n.deadline ≤ tick) then s.nothingWritten f tick gen
  else if lbaSize ≠ 4096 then
    let status := Config.freeNat s.free
    (({ s with free := s.free + 1 }).emitAt tick (unitFold f) 0x080A false (le 2 status)).nothingWritten f tick gen
  else s.startDrain f n tick gen
/-- The cut of a Growing Fold: PREEMPT_CUT; a stop closes the job's page with FINAL; a STOP cut overtakes a running drain. -/
def State.takeCut (s : State) (f : FoldId) (n : Notice) (lbaSize : Nat) : State :=
  let x := s.fold f
  let tick := x.boundaryTick
  let stop := n.stop || x.keys.kek.isNone
  let s := s.emitAt tick (unitFold f) 0x0803 false (le 4 x.grow.round ++ le 2 x.grow.cls ++ le 1 x.grow.step ++ le 1 (b2n (!n.stop)))
  let s := s.abandonDrain f tick
  let s := s.modFold f fun y => { y with pre := { y.pre with conts := if n.stop then [] else y.pre.conts.filter fun c => decide (tick < c.cutAt), cutTick := tick } }
  let s := if stop then (s.startDraining f).endGrowing f x.run.opened else s
  s.writeCut f n tick lbaSize
/-- PREEMPT_CUT: a Growing Fold at the first boundary that closes a completed attempt, a Scoring Fold at the first frame boundary,
at or after IssueAt + 1,000,000. -/
def execPreemptCut (t : Nat) (f : FoldId) (lbaSize : Nat) (s : State) : Out :=
  let s := s.tick t
  let x := s.fold f
  if !s.atBoundary f || x.st ≠ .running then .next s
  else if !x.growingNow then .next ((s.takeScoringCut f x.boundaryTick).settle f)
  else match x.dueNotice with
    | some n => .next (s.takeCut f n lbaSize)
    | none => .next s

/-! ## The drain's Flushes, its Deadline, its errors -/

/-- The sixth section is written: CHECKPOINT_DONE, the generation is complete on this card (12, R348). -/
def State.drainDone (s : State) (f : FoldId) (d : Drain) : State :=
  let s := s.emit (unitFold f) 0x0805 (le 4 d.generation ++ le 8 d.bytes)
  let s := (s.endDrain f 2).modFold f fun x => { x with pre := { x.pre with
    generation := some d.generation, doneSlot := d.slot, newestSlot := if x.run.job.2 = 1 then d.slot else x.pre.newestSlot } }
  if d.stop then (s.fileEnd f).tryStopped f else s
/-- CHECKPOINT_SECTION_FLUSH: the section counts as written, the next one starts (12, R332, R333). -/
def execCheckpointSectionFlush (t : Nat) (f : FoldId) (s : State) : Out :=
  let s := s.tick t
  match (s.fold f).pre.drain with
  | none => .next s
  | some d =>
    if s.power.halted || decide (d.deadline ≤ s.now) then .next s else
      let s := (s.fileDone f true).modFold f fun x =>
        { x with pre := { x.pre with drain := some { d with written := d.written + 1 }, sections := d.written + 1 } }
      .next (if 6 ≤ d.written + 1 then s.drainDone f d else s.drainNext f)
/-- NOTICE_DEADLINE: a STOP drain ends SHORT or INCOMPLETE and the Fold is STOPPED, a CONTINUE drain is abandoned, a Scoring Fold
that still holds results is force-stopped (12, R331, R347, R348). -/
def execNoticeDeadline (t : Nat) (f : FoldId) (s : State) : Out :=
  let s := s.tick t
  let x := s.fold f
  if s.power.halted then .next s else
  match x.pre.drain, x.pre.notice with
  | some d, _ =>
    if s.now < d.deadline then .next s
    else if !d.stop then .next (s.abandonDrain f s.now)
    else
      let short := decide (4 ≤ d.written)
      let s := s.emit (unitFold f) (if short then 0x0806 else 0x0807) (le 4 d.generation ++ le 1 d.written)
      .next (((s.endDrain f (if short then 3 else 4)).fileEnd f).forceStopNow f)
  | none, some n =>
    if n.stop && decide (n.deadline ≤ s.now) && x.st == .draining && !x.growingNow then .next (s.forceStopNow f) else .next s
  | none, none => .next s

/-- The issued command that failed: the Write that holds the LBA, else the oldest Flush. -/
def FileQ.failed (q : FileQ) (lba : Nat) : Option FileCmd :=
  match q.issued.find? fun c => !c.data.isEmpty && decide (c.lba ≤ lba ∧ lba < c.lba + ceilDiv c.data.length 4096) with
  | some c => some c
  | none => q.issued.find? fun c => c.data.isEmpty
/-- A failed command may be issued again: a checkpoint command until the Deadline of its notice (12, R337, R348). -/
def State.mayReissue (s : State) (f : FoldId) (c : FileCmd) : Bool :=
  !c.ckpt || (s.fold f).pre.drain.any fun d => decide (s.now < d.deadline)
/-- FILESTORE_ERROR: reported; the failed write or Flush is issued again until the Deadline, over a new connection where the connection has
dropped (12, R337). -/
def execFilestoreError (t : Nat) (f : FoldId) (e : FileErr) (lba : Nat) (s : State) : Out :=
  let s := s.tick t
  match (s.fold f).file.failed lba with
  | none => .next s
  | some c =>
    if s.power.halted then .next s else
      let s := s.emit (unitFold f) 0x080B (le 2 e.status ++ le 8 lba)
      let s := if e.dropped then s.modFold f fun x => { x with file := { x.file with up := false } } else s
      .next (if s.mayReissue f c then s.fileSend f c else s)

end Sys2Proof.Machine
end

