-- ==== Sys2Proof/Machine/RootWheel.lean ====
section
/-! DEFINITION. ROOT_WHEEL_POSITION: what the Root die's wheels do for the records of a Scoring Fold in the frames after their arrival
(02, R38, Table 2.2; 04; 06; 08, R204; 09, R224, R241). -/

namespace Sys2Proof.Machine

/-- Resource code of a wheel in the slot plan. -/
def wheelCode : Wheel → Nat
  | .binning => 1
  | .aes => 2
  | .sha3 => 3
  | .dieToDie => 4
  | .pcieFetch => 7
/-- The Fold that owns a position; on the PCIe fetch wheel Fold f owns 4f to 4f + 3 (19, R510). -/
def State.wheelOwner (s : State) (w : Wheel) (inst pos : Nat) : Option FoldId := match w with
  | .pcieFetch => if h : pos / 4 < 16 then some ⟨pos / 4, h⟩ else none
  | w => allFolds.find? fun f => match (s.fold f).load with
    | some l => l.slots.any fun e => e.resource == wheelCode w && e.inst == inst && e.pos == pos
    | none => false
/-- Wheel on which a job runs. -/
def wheelOf : WheelJob → Wheel
  | .bin _ => .binning
  | .hashIn _ => .sha3
  | .codesOut _ _ _ _ => .dieToDie
  | .scoresIn _ _ => .dieToDie
  | .tag _ => .sha3
  | .encrypt _ => .aes
  | .fetch => .pcieFetch
/-- Binning wheel: one record's codes and activations; DEC64S scales above 18 are counted (04, R79). -/
def Fold.binLeaf (x : Fold) (l : Loaded) (leaf : Nat) : Fold :=
  let n := match (x.cohort 1).bind fun c => (c.recs[leaf]?).map (c.invalidOne l) with
    | some k => k
    | none => 0
  { x.modCohort 1 (fun c => c.modRec leaf (c.binOne l)) with tel := { x.tel with invalidValue := x.tel.invalidValue + n } }

/-! ## Tags, encryption, delivery (06, R157; 09, R241) -/

/-- A record is ready for its queue: tagged, and encrypted where its result leaves by IZR. -/
def Rec.done (r : Rec) : Bool := !r.tag.isEmpty && (match r.route with
  | .izr _ _ _ _ => r.sealedOut
  | _ => true)
/-- Place finished results in arrival order; a field result waits for the closing tick (06, R157; 08, R211; 10, R282). -/
def deliverRecs (f : FoldId) : Nat → State → State
  | 0, s => s
  | k + 1, s => match (s.fold f).cohort 3 with
    | none => s
    | some c => match c.recs[c.placed]? with
      | none => s
      | some r =>
        if !r.done || c.withheld.isSome then s else
          deliverRecs f k ((s.placeResult f c c.placed r).modFold f fun x => x.modCohort 3 fun c => { c with placed := c.placed + 1 })
/-- Deliver what is ready of the cohort three frames back. -/
def State.deliverReady (s : State) (f : FoldId) : State := match (s.fold f).cohort 3 with
  | some c => deliverRecs f c.recs.length s
  | none => s
/-- SHA3 wheel, three frames after arrival: result body and record tag. -/
def State.tagLeaf (s : State) (f : FoldId) (l : Loaded) (leaf : Nat) : State :=
  (s.modFold f fun x => x.modCohort 3 fun c => if c.withheld.isSome then c else c.modRec leaf (Rec.finish l x.tagMeas c.openTick)).deliverReady f
/-- AES wheel: the result of a tagged record is encrypted. -/
def State.sealLeaf (s : State) (f : FoldId) (leaf : Nat) : State :=
  (s.modFold f fun x => x.modCohort 3 fun c => c.modRec leaf fun r => { r with sealedOut := r.sealedOut || !r.tag.isEmpty }).deliverReady f
/-- The Fold's pipeline runs in an open frame. -/
def State.wheelsRun (s : State) (f : FoldId) : Bool :=
  let x := s.fold f
  x.live && x.run.started && !x.run.closed && !x.growingNow && !s.power.halted
/-- ROOT_WHEEL_POSITION: the owning Fold's engine works for its records; a position that no Fold owns belongs to grazing. A position of
the PCIe fetch wheel carries the record-buffer reads that RECORD issues (DEDUCED, log entry 14). -/
def execRootWheelPosition (t : Nat) (w : Wheel) (inst pos : Nat) (job : WheelJob) (s : State) : Out :=
  let s := s.tick t
  match s.wheelOwner w inst pos with
  | none => .next s
  | some f => match (s.fold f).load with
    | none => .next s
    | some l =>
      if wheelOf job ≠ w || !s.wheelsRun f then .next s else
        match job with
        | .bin leaf => .next (s.modFold f fun x => x.binLeaf l leaf)
        | .hashIn leaf => .next (s.modFold f fun x => x.modCohort 1 fun c => c.modRec leaf fun r => { r with hashIn := true })
        | .codesOut b tile part acts => .next (s.codesOut f l inst pos b tile part acts)
        | .scoresIn b o => .next (s.scoresIn f l inst pos b o)
        | .tag leaf => .next (s.tagLeaf f l leaf)
        | .encrypt leaf => .next (s.sealLeaf f leaf)
        | .fetch => .next s

end Sys2Proof.Machine
end

