-- ==== Sys2Proof/Machine/Security.lean ====
section
/-! DEFINITION. SPDM, IDE_KM and TDISP (09, Table 9.6). Message bytes stand as opaque encodings of what they carry (DESIGN CHOICE, log entry 7). -/

namespace Sys2Proof.Machine

/-- The responder of a function answers: the DICE chain stands and the card is not halted. -/
def State.answers (s : State) : Bool := s.power.booted && !s.power.halted
/-- The Fold of a virtual function. -/
def foldOfFn (fn : FnId) : Option FoldId := if h : 0 < fn.val then some ⟨fn.val - 1, by omega⟩ else none
/-- The Fold of a function that is loaded: a virtual function whose Fold is not EMPTY. -/
def State.attested (s : State) (fn : FnId) : Option FoldId := match foldOfFn fn with
  | some f => if (s.fold f).load.isSome && (s.fold f).st != .empty then some f else none
  | none => none
/-- Leaf key of a function: the alias key on the physical function, the Fold attestation key on a virtual one; none while its Fold is EMPTY. -/
def State.leafKey (s : State) (fn : FnId) : Option Nat :=
  if fn = 0 then some s.sec.aliasKey else (s.attested fn).map fun f => (s.fold f).keys.attest
/-- Certificate chain of slot 0: DeviceID and alias, on a virtual function down to the Fold certificate. -/
def State.chainOf (s : State) (fn : FnId) : Option Bytes :=
  if fn = 0 then some s.cardChain else (s.attested fn).map s.foldChain
/-- Send an SPDM or TDISP message from a function. -/
def State.spdmSend (s : State) (fn : FnId) (kind : Nat) (parts : List Bytes) : State := s.send (.spdm fn.val (Config.message kind parts))
/-- Send a message signed by a key. -/
def State.spdmSigned (s : State) (fn : FnId) (kind key : Nat) (parts : List Bytes) : State :=
  let b := Config.message kind parts
  s.send (.spdm fn.val (b ++ Config.sign key b))
/-- An ERROR response: 1 unexpected request, 2 invalid request, 3 session limit, 4 no session, 5 TDISP state or nonce. -/
def State.spdmError (s : State) (fn : FnId) (code : Nat) : State := s.spdmSend fn 0x7F [le 1 code]
def State.modSpdm (s : State) (fn : FnId) (g : Spdm → Spdm) : State := s.modFn fn fun v => { v with spdm := g v.spdm }

/-! ## The connection (09, R233) -/

/-- SPDM_GET_VERSION: 1.2 only; the connection starts again. -/
def execSpdmGetVersion (t : Nat) (fn : FnId) (s : State) : Out :=
  let s := s.tick t
  .next (if !s.answers then s else (s.modSpdm fn fun x => { x with state := 1 }).spdmSend fn 0x04 [le 1 0x12])
/-- SPDM_GET_CAPABILITIES: CERT, CHAL, MEAS with signature, KEY_EX, ENCRYPT, MAC, KEY_UPD. -/
def execSpdmGetCapabilities (t : Nat) (fn : FnId) (s : State) : Out :=
  let s := s.tick t
  .next (if !s.answers then s
    else if (s.fn fn).spdm.state = 0 then s.spdmError fn 1
    else (s.modSpdm fn fun x => { x with state := max x.state 2 }).spdmSend fn 0x61 [le 1 1, le 1 2, le 1 3, le 1 4, le 1 5, le 1 6, le 1 7])
/-- SPDM_NEGOTIATE_ALGORITHMS: the fixed set and nothing else. -/
def execSpdmNegotiateAlgorithms (t : Nat) (fn : FnId) (a : SpdmAlgs) (s : State) : Out :=
  let s := s.tick t
  .next (if !s.answers then s
    else if (s.fn fn).spdm.state < 2 then s.spdmError fn 1
    else if a.asymP384 && a.hashSha384 && a.measSha3 && a.dheP384 && a.aeadAes256 then
      (s.modSpdm fn fun x => { x with state := 3 }).spdmSend fn 0x63 [le 1 1, le 1 2, le 1 3, le 1 4, le 1 5]
    else s.spdmError fn 2)
/-- SPDM_GET_CERTIFICATE: slot 0 only. -/
def execSpdmGetCertificate (t : Nat) (fn : FnId) (slot : Nat) (s : State) : Out :=
  let s := s.tick t
  .next (if !s.answers then s
    else if (s.fn fn).spdm.state < 3 then s.spdmError fn 1
    else match (if slot = 0 then s.chainOf fn else none) with
      | some c => s.send (.spdm fn.val c)
      | none => s.spdmError fn 2)
/-- SPDM_CHALLENGE: CHALLENGE_AUTH signed by the function's leaf key. -/
def execSpdmChallenge (t : Nat) (fn : FnId) (slot : Nat) (nonce : Bytes) (s : State) : Out :=
  let s := s.tick t
  .next (if !s.answers then s
    else if (s.fn fn).spdm.state < 3 then s.spdmError fn 1
    else match (if slot = 0 then s.leafKey fn else none) with
      | some k => s.spdmSigned fn 0x03 k [nonce]
      | none => s.spdmError fn 2)
/-- Content of a measurement block: 1 firmware; 2 to 5 only on the virtual function of a Fold that is not EMPTY. -/
def State.measurement (s : State) (fn : FnId) (block : Nat) (nonce : Bytes) : Option Bytes :=
  if block = 1 then some s.sec.fwMeas else
    (s.attested fn).bind fun f => (s.fold f).load.bind fun l => match block with
      | 2 => some (s.fold f).tagMeas
      | 3 => some l.bundleDigest
      | 4 => some l.foldMeas
      | 5 => some (s.eatOf f nonce)
      | _ => none
/-- SPDM_GET_MEASUREMENTS: one block, signed by the function's leaf key. -/
def execSpdmGetMeasurements (t : Nat) (fn : FnId) (block : Nat) (nonce : Bytes) (s : State) : Out :=
  let s := s.tick t
  .next (if !s.answers then s
    else if (s.fn fn).spdm.state < 3 then s.spdmError fn 1
    else match s.measurement fn block nonce with
      | some m => s.spdmSigned fn 0x60 ((s.leafKey fn).getD s.sec.aliasKey) [le 1 block, m, nonce]
      | none => s.spdmError fn 2)

/-! ## Sessions -/

/-- SPDM_KEY_EXCHANGE and FINISH: one session per function. -/
def execSpdmKeyExchange (t : Nat) (fn : FnId) (secret : Bytes) (finishOk : Bool) (s : State) : Out :=
  let s := s.tick t
  .next (if !s.answers then s
    else if (s.fn fn).spdm.state < 3 then s.spdmError fn 1
    else if !(s.fn fn).spdm.session.isEmpty then s.spdmError fn 3
    else match s.leafKey fn with
      | none => s.spdmError fn 2
      | some k =>
        let s := s.spdmSigned fn 0x64 k []
        if finishOk then (s.modSpdm fn fun x => { x with session := padTo 32 secret }).spdmSend fn 0x65 [] else s.spdmError fn 2)
/-- Install a new key in a link's other slot, which sending uses from the next frame on (11, The Stile link, R293). -/
def Link.update (k : Link) (key : Bytes) : Link :=
  if k.keySlot then { k with keys := vset k.keys 0 key, salts := vset k.salts 0 (vget k.salts 1), keySlot := false }
  else { k with keys := vset k.keys 1 key, salts := vset k.salts 1 (vget k.salts 0), keySlot := true }
/-- SPDM_KEY_UPDATE on an attested link, or on the session of a function. -/
def execSpdmKeyUpdate (t : Nat) (onLink : Option LinkId) (fn : FnId) (key : Bytes) (s : State) : Out :=
  let s := s.tick t
  .next (if !s.answers then s else match onLink with
    | some k => if (s.link k).attested then s.modLink k fun x => x.update (padTo 32 key) else s
    | none => if (s.fn fn).spdm.session.isEmpty then s.spdmError fn 4
        else (s.modSpdm fn fun x => { x with session := padTo 32 key }).spdmSend fn 0x69 [])
/-- SPDM_END_SESSION: the session's keys and the IDE keys programmed in it are zeroised (09, Table 9.2, R229). -/
def execSpdmEndSession (t : Nat) (fn : FnId) (s : State) : Out :=
  let s := s.tick t
  .next (if !s.answers then s
    else if (s.fn fn).spdm.session.isEmpty then s.spdmError fn 4
    else (s.zeroSession fn).spdmSend fn 0x6C [])
/-- IDE_KM_KEY_PROG: QUERY, KEY_PROG, K_SET_GO and K_SET_STOP, only inside a session, one stream per function (09, R234). -/
def execIdeKmKeyProg (t : Nat) (fn : FnId) (m : IdeKm) (s : State) : Out :=
  let s := s.tick t
  .next (if !s.answers then s
    else if (s.fn fn).spdm.session.isEmpty then s.spdmError fn 4
    else match m with
      | .query => s.spdmSend fn 0x81 [le 1 (s.fn fn).ide]
      | .keyProg k => (s.modFn fn fun v => { v with ideKey := padTo 32 k, ide := 1 }).spdmSend fn 0x83 []
      | .setGo => if (s.fn fn).ideKey.isEmpty then s.spdmError fn 2 else (s.modFn fn fun v => { v with ide := 2 }).spdmSend fn 0x85 []
      | .setStop => (s.modFn fn fun v => { v with ide := if v.ide = 0 then 0 else 3 }).spdmSend fn 0x86 [])

/-! ## TDISP (09, SPDM, IDE and TDISP) -/

/-- The TDI of a virtual function may be locked: its Fold is LOADED, STOPPED or ARMED. -/
def lockable (st : FoldState) : Bool := st == .loaded || st == .stopped || st == .armed
/-- LOCK_INTERFACE_REQUEST: CONFIG_UNLOCKED to CONFIG_LOCKED under a fresh nonce. -/
def execLockInterfaceRequest (t : Nat) (fn : FnId) (s : State) : Out :=
  let s := s.tick t
  .next (if !s.answers then s else match foldOfFn fn with
    | none => s.spdmError fn 5
    | some f =>
      if (s.fn fn).tdi == .unlocked && lockable (s.fold f).st then
        let d := s.draw
        let n := padTo 32 d.1
        (d.2.modFn fn fun v => { v with tdi := .locked, tdiNonce := n }).spdmSend fn 0x93 [n]
      else s.spdmError fn 5)
/-- GET_DEVICE_INTERFACE_REPORT: the MMIO ranges, and in the vendor area Fold number and Fold measurement. -/
def execGetDeviceInterfaceReport (t : Nat) (fn : FnId) (s : State) : Out :=
  let s := s.tick t
  .next (if !s.answers then s else match foldOfFn fn with
    | none => s.spdmError fn 5
    | some f =>
      if (s.fn fn).tdi == .locked || (s.fn fn).tdi == .run then
        let meas := match (s.fold f).load with
          | some l => l.foldMeas
          | none => []
        s.spdmSend fn 0x94 [le 1 0, le 4 0x10000, le 1 2, le 4 0x1000, le 1 f.val, meas]
      else s.spdmError fn 5)
/-- START_INTERFACE_REQUEST with the nonce of the lock: CONFIG_LOCKED to RUN (DEDUCED, log entry 44). -/
def execStartInterfaceRequest (t : Nat) (fn : FnId) (nonce : Bytes) (s : State) : Out :=
  let s := s.tick t
  .next (if !s.answers then s
    else if fn ≠ 0 && (s.fn fn).tdi == .locked && nonce == (s.fn fn).tdiNonce then
      (s.modFn fn fun v => { v with tdi := .run, tdiNonce := [] }).spdmSend fn 0x95 []
    else s.spdmError fn 5)

end Sys2Proof.Machine
end

