-- ==== Sys2Proof/Machine/Dispatch.lean ====
section
/-! DEFINITION. The meaning of every command: one arm per constructor of `Instr`. -/

namespace Sys2Proof.Machine

/-- What a command does to everything but the queue. -/
def exec (i : Instr) (s : State) : Host.Outcome State Fault Refusal :=
  match i with
  | .identify t q addr => Sys2Proof.Machine.execIdentify t q addr s
  | .createFold t q plots units => Sys2Proof.Machine.execCreateFold t q plots units s
  | .loadBundle t q src => Sys2Proof.Machine.execLoadBundle t q src s
  | .loadBundleDone t f data => Sys2Proof.Machine.execLoadBundleDone t f data s
  | .restageModel t q src => Sys2Proof.Machine.execRestageModel t q src s
  | .restageModelDone t f data => Sys2Proof.Machine.execRestageModelDone t f data s
  | .restore t q target generation => Sys2Proof.Machine.execRestore t q target generation s
  | .restoreDone t f data => Sys2Proof.Machine.execRestoreDone t f data s
  | .launch t replay src => Sys2Proof.Machine.execLaunch t replay src s
  | .stop t src => Sys2Proof.Machine.execStop t src s
  | .forceStop t src => Sys2Proof.Machine.execForceStop t src s
  | .unload t src => Sys2Proof.Machine.execUnload t src s
  | .foldReset t src => Sys2Proof.Machine.execFoldReset t src s
  | .preemptNotice t src => Sys2Proof.Machine.execPreemptNotice t src s
  | .ledgerRead t q addr len offset => Sys2Proof.Machine.execLedgerRead t q addr len offset s
  | .ledgerAck t q pageSeq => Sys2Proof.Machine.execLedgerAck t q pageSeq s
  | .record t q addr len resAddr resLen => Sys2Proof.Machine.execRecord t q addr len resAddr resLen s
  | .recordReadComplete t f cid r => Sys2Proof.Machine.execRecordReadComplete t f cid r s
  | .completionTimeout t w => Sys2Proof.Machine.execCompletionTimeout t w s
  | .replayHeader t q h => Sys2Proof.Machine.execReplayHeader t q h s
  | .rows t q addr len first count pass buf => Sys2Proof.Machine.execRows t q addr len first count pass buf s
  | .sqTailDoorbell t fn qn v => Sys2Proof.Machine.execSqTailDoorbell t fn qn v s
  | .cqHeadDoorbell t fn qn v => Sys2Proof.Machine.execCqHeadDoorbell t fn qn v s
  | .queueEnable t fn qn w => Sys2Proof.Machine.execQueueEnable t fn qn w s
  | .msixCoalesceExpiry t fn vec => Sys2Proof.Machine.execMsixCoalesceExpiry t fn vec s
  | .functionLevelReset t fn => Sys2Proof.Machine.execFunctionLevelReset t fn s
  | .recoveryChunk t m offset data => Sys2Proof.Machine.execRecoveryChunk t m offset data s
  | .recoveryBoot t m set => Sys2Proof.Machine.execRecoveryBoot t m set s
  | .dictionaryWrite t index sub r => Sys2Proof.Machine.execDictionaryWrite t index sub r s
  | .tickPeriodWrite t r => Sys2Proof.Machine.execTickPeriodWrite t r s
  | .operatingPointWrite t r => Sys2Proof.Machine.execOperatingPointWrite t r s
  | .portLayoutWrite t r => Sys2Proof.Machine.execPortLayoutWrite t r s
  | .storeParameters t r => Sys2Proof.Machine.execStoreParameters t r s
  | .restoreDefaults t r => Sys2Proof.Machine.execRestoreDefaults t r s
  | .warmReset t r => Sys2Proof.Machine.execWarmReset t r s
  | .shepherdReset t r => Sys2Proof.Machine.execShepherdReset t r s
  | .quadrantReset t q r => Sys2Proof.Machine.execQuadrantReset t q r s
  | .ownerKeyWrite t r => Sys2Proof.Machine.execOwnerKeyWrite t r s
  | .ownershipRelease t r => Sys2Proof.Machine.execOwnershipRelease t r s
  | .channelTableWrite t c sub r => Sys2Proof.Machine.execChannelTableWrite t c sub r s
  | .ledgerRingPagesWrite t f r => Sys2Proof.Machine.execLedgerRingPagesWrite t f r s
  | .plotMaskWrite t f sub r => Sys2Proof.Machine.execPlotMaskWrite t f sub r s
  | .ownerKekWrite t f r kek => Sys2Proof.Machine.execOwnerKekWrite t f r kek s
  | .inputBindingWrite t f n sub r => Sys2Proof.Machine.execInputBindingWrite t f n sub r s
  | .resultBindingWrite t f sub r => Sys2Proof.Machine.execResultBindingWrite t f sub r s
  | .eatRead t a f => Sys2Proof.Machine.execEatRead t a f s
  | .segmentedTransferTimeout t a index sub => Sys2Proof.Machine.execSegmentedTransferTimeout t a index sub s
  | .snapshotRefresh t m => Sys2Proof.Machine.execSnapshotRefresh t m s
  | .eventLogPosition t => Sys2Proof.Machine.execEventLogPosition t s
  | .shepherdSupplyUp t src a b => Sys2Proof.Machine.execShepherdSupplyUp t src a b s
  | .supplySourceChange t main poe aux => Sys2Proof.Machine.execSupplySourceChange t main poe aux s
  | .mainPowerGood t cblPresLow sense0Gnd sense1Gnd fail => Sys2Proof.Machine.execMainPowerGood t cblPresLow sense0Gnd sense1Gnd fail s
  | .mainPowerLoss t => Sys2Proof.Machine.execMainPowerLoss t s
  | .pllLock t ok => Sys2Proof.Machine.execPllLock t ok s
  | .secureBoot t a b sd => Sys2Proof.Machine.execSecureBoot t a b sd s
  | .stileTrainingDone t r => Sys2Proof.Machine.execStileTrainingDone t r s
  | .hbmTrainingDone t failed => Sys2Proof.Machine.execHbmTrainingDone t failed s
  | .selfTestDone t tiles engines => Sys2Proof.Machine.execSelfTestDone t tiles engines s
  | .ready t ms => Sys2Proof.Machine.execReady t ms s
  | .perstAssert t => Sys2Proof.Machine.execPerstAssert t s
  | .perstDeassert t => Sys2Proof.Machine.execPerstDeassert t s
  | .pcieRateChange t gen width => Sys2Proof.Machine.execPcieRateChange t gen width s
  | .supplyWarn t rail mv => Sys2Proof.Machine.execSupplyWarn t rail mv s
  | .supplyTrip t rail mv => Sys2Proof.Machine.execSupplyTrip t rail mv s
  | .temperatureSample t r => Sys2Proof.Machine.execTemperatureSample t r s
  | .thermalTrip t => Sys2Proof.Machine.execThermalTrip t s
  | .powerOverrun t mw => Sys2Proof.Machine.execPowerOverrun t mw s
  | .ptpEventMessage t port offset => Sys2Proof.Machine.execPtpEventMessage t port offset s
  | .sync0 t cycle offset => Sys2Proof.Machine.execSync0 t cycle offset s
  | .timeWord t link sender reference depth => Sys2Proof.Machine.execTimeWord t link sender reference depth s
  | .armWord t h w => Sys2Proof.Machine.execArmWord t h w s
  | .armCutoff t f => Sys2Proof.Machine.execArmCutoff t f s
  | .foldStart t f => Sys2Proof.Machine.execFoldStart t f s
  | .frameOpen t f => Sys2Proof.Machine.execFrameOpen t f s
  | .scheduledOperation t tile cycle feed => Sys2Proof.Machine.execScheduledOperation t tile cycle feed s
  | .cycleBudgetExpiry t f q => Sys2Proof.Machine.execCycleBudgetExpiry t f q s
  | .frameClose t f => Sys2Proof.Machine.execFrameClose t f s
  | .admission t f => Sys2Proof.Machine.execAdmission t f s
  | .izrData t rx => Sys2Proof.Machine.execIzrData t rx s
  | .keyOffer t rx offer => Sys2Proof.Machine.execKeyOffer t rx offer s
  | .pauseFrame t port kind prio len => Sys2Proof.Machine.execPauseFrame t port kind prio len s
  | .resultDrain t f => Sys2Proof.Machine.execResultDrain t f s
  | .ethercatProcessData t fcsOk image => Sys2Proof.Machine.execEthercatProcessData t fcsOk image s
  | .canPdo t pdo cobId data => Sys2Proof.Machine.execCanPdo t pdo cobId data s
  | .nmtCommand t c => Sys2Proof.Machine.execNmtCommand t c s
  | .canBootupMessage t node => Sys2Proof.Machine.execCanBootupMessage t node s
  | .lldpTimer t => Sys2Proof.Machine.execLldpTimer t s
  | .lldpduReceived t port chassis portName system ttl => Sys2Proof.Machine.execLldpduReceived t port chassis portName system ttl s
  | .stileFrame t link rx peer => Sys2Proof.Machine.execStileFrame t link rx peer s
  | .linkDown t link cause => Sys2Proof.Machine.execLinkDown t link cause s
  | .linkUp t link cable => Sys2Proof.Machine.execLinkUp t link cable s
  | .hello t link h => Sys2Proof.Machine.execHello t link h s
  | .peerAttestationDone t link r => Sys2Proof.Machine.execPeerAttestationDone t link r s
  | .linkTestDone t link ok => Sys2Proof.Machine.execLinkTestDone t link ok s
  | .epochReq t h unitCard unitNo kind => Sys2Proof.Machine.execEpochReq t h unitCard unitNo kind s
  | .memberPropose t h b => Sys2Proof.Machine.execMemberPropose t h b s
  | .memberAck t h b => Sys2Proof.Machine.execMemberAck t h b s
  | .memberAbort t h b => Sys2Proof.Machine.execMemberAbort t h b s
  | .epochAckCutoff t => Sys2Proof.Machine.execEpochAckCutoff t s
  | .epochCommit t => Sys2Proof.Machine.execEpochCommit t s
  | .epochApply t => Sys2Proof.Machine.execEpochApply t s
  | .leave t h card cause ref => Sys2Proof.Machine.execLeave t h card cause ref s
  | .replayWord t h f round step => Sys2Proof.Machine.execReplayWord t h f round step s
  | .levelStepStart t f => Sys2Proof.Machine.execLevelStepStart t f s
  | .gradientBarrier t f peers => Sys2Proof.Machine.execGradientBarrier t f peers s
  | .splitExchangeBarrier t f peers => Sys2Proof.Machine.execSplitExchangeBarrier t f peers s
  | .levelStepBoundary t f => Sys2Proof.Machine.execLevelStepBoundary t f s
  | .roundEnd t f => Sys2Proof.Machine.execRoundEnd t f s
  | .prephaseEnd t f tails peers => Sys2Proof.Machine.execPrephaseEnd t f tails peers s
  | .ingestEnd t f r => Sys2Proof.Machine.execIngestEnd t f r s
  | .reshard t f => Sys2Proof.Machine.execReshard t f s
  | .preemptCut t f lbaSize => Sys2Proof.Machine.execPreemptCut t f lbaSize s
  | .checkpointSectionFlush t f => Sys2Proof.Machine.execCheckpointSectionFlush t f s
  | .noticeDeadline t f => Sys2Proof.Machine.execNoticeDeadline t f s
  | .filestoreError t f e lba => Sys2Proof.Machine.execFilestoreError t f e lba s
  | .pageOpen t f => Sys2Proof.Machine.execPageOpen t f s
  | .pageClose t f => Sys2Proof.Machine.execPageClose t f s
  | .pageSeal t f => Sys2Proof.Machine.execPageSeal t f s
  | .sdCardInsert t m => Sys2Proof.Machine.execSdCardInsert t m s
  | .evidenceRemoved t => Sys2Proof.Machine.execEvidenceRemoved t s
  | .journalPageBusyEnd t => Sys2Proof.Machine.execJournalPageBusyEnd t s
  | .journalCommitBusyEnd t => Sys2Proof.Machine.execJournalCommitBusyEnd t s
  | .sealedEventBatchDue t => Sys2Proof.Machine.execSealedEventBatchDue t s
  | .grazingSlot t r => Sys2Proof.Machine.execGrazingSlot t r s
  | .memberRebuildDone t f k => Sys2Proof.Machine.execMemberRebuildDone t f k s
  | .quadrantFailure t q cause => Sys2Proof.Machine.execQuadrantFailure t q cause s
  | .eccCeRate t unit => Sys2Proof.Machine.execEccCeRate t unit s
  | .spdmGetVersion t fn => Sys2Proof.Machine.execSpdmGetVersion t fn s
  | .spdmGetCapabilities t fn => Sys2Proof.Machine.execSpdmGetCapabilities t fn s
  | .spdmNegotiateAlgorithms t fn a => Sys2Proof.Machine.execSpdmNegotiateAlgorithms t fn a s
  | .spdmGetCertificate t fn slot => Sys2Proof.Machine.execSpdmGetCertificate t fn slot s
  | .spdmChallenge t fn slot nonce => Sys2Proof.Machine.execSpdmChallenge t fn slot nonce s
  | .spdmGetMeasurements t fn block nonce => Sys2Proof.Machine.execSpdmGetMeasurements t fn block nonce s
  | .spdmKeyExchange t fn secret finishOk => Sys2Proof.Machine.execSpdmKeyExchange t fn secret finishOk s
  | .spdmKeyUpdate t onLink fn key => Sys2Proof.Machine.execSpdmKeyUpdate t onLink fn key s
  | .spdmEndSession t fn => Sys2Proof.Machine.execSpdmEndSession t fn s
  | .ideKmKeyProg t fn m => Sys2Proof.Machine.execIdeKmKeyProg t fn m s
  | .lockInterfaceRequest t fn => Sys2Proof.Machine.execLockInterfaceRequest t fn s
  | .getDeviceInterfaceReport t fn => Sys2Proof.Machine.execGetDeviceInterfaceReport t fn s
  | .startInterfaceRequest t fn nonce => Sys2Proof.Machine.execStartInterfaceRequest t fn nonce s
  | .stileSlot t link payload => Sys2Proof.Machine.execStileSlot t link payload s
  | .hbmSlot t k f j => Sys2Proof.Machine.execHbmSlot t k f j s
  | .rootWheelPosition t w inst pos job => Sys2Proof.Machine.execRootWheelPosition t w inst pos job s
  | .pageFlushComplete t f => Sys2Proof.Machine.execPageFlushComplete t f s
  | .qsfpDdModuleInsert t cage watts => Sys2Proof.Machine.execQsfpDdModuleInsert t cage watts s
  | .fbPresChange t high => Sys2Proof.Machine.execFbPresChange t high s
  | .producerHeartbeat t => Sys2Proof.Machine.execProducerHeartbeat t s
  | .securityEngineOrTickGeneratorFault t tickGenerator => Sys2Proof.Machine.execSecurityEngineOrTickGeneratorFault t tickGenerator s
  | .shepherdRestartDone t => Sys2Proof.Machine.execShepherdRestartDone t s
  | .shepherdSupplyLoss t => Sys2Proof.Machine.execShepherdSupplyLoss t s
  | .ideCheckFailed t fn => Sys2Proof.Machine.execIdeCheckFailed t fn s

end Sys2Proof.Machine
end

