-- ==== Sys2Proof/Safety.lean ====
section
/-! DEFINITION. What counts as a safe step and when a command is taken, in the terms the statements use. -/

namespace Sys2Proof.Machine

/-- The step answers a next state: neither a fault nor a refusal. -/
def Completes (o : Out) : Prop := ∃ t, o = .next t
/-- The two commands that can end in a fault: those that reach a tile store or a stack at an address that a program names. -/
def mayFault : Instr → Bool
  | .scheduledOperation _ _ _ _ => true
  | .hbmSlot _ _ _ _ => true
  | _ => false
/-- The event logs hold no more than their capacity (13, R385). -/
def logsBounded (s : State) : Prop := s.events.log.length ≤ 65536 ∧ s.events.sealedLog.length ≤ 4096
/-- Without a field bracket the EtherCAT slave is in INIT and the CAN controller off the bus, now and after a Shepherd restart (17, R467). -/
def offBus (s : State) : Prop :=
  s.shep.fbPresHigh = true → s.shep.alState = 1 ∧ s.shep.nmt = 0 ∧ s.shep.fieldBefore = (1, 0)
/-- A queue 0 entry that the card fetches and that passes the checks of every command (18, R478, R480, R483). -/
def takesCommand (u : State) (q : QHdr) : Prop :=
  u.canFetch q.fn 0 = true ∧ q.rsvd = 0 ∧ (q.fn = 0 ∨ q.fn = vfOf q.fold) ∧ u.power.ready = true
/-- A queue 1 entry that the card fetches and that passes the checks of every entry (18). -/
def takesEntry (u : State) (q : QHdr) : Prop :=
  u.canFetch1 q.fn = true ∧ q.rsvd = 0 ∧ q.fn = vfOf q.fold ∧ u.power.ready = true
/-- The function whose mailbox carries an access answers: its TDI is not in ERROR (18, R501). -/
def boxAnswers (u : State) (a : Access) : Prop := (a.path == 0 && u.barDead a.fn) = false
/-- A dictionary write that every check admits, its reserved bytes zero, with the main supply in use (13; 18, R501). -/
def admits (u : State) (idx sub : Nat) (r : WReq) : Prop :=
  u.writeService r.acc = 2 ∧ (u.admitWrite r.acc idx sub r.data false).abort = 0 ∧ r.rsvd = 0 ∧ boxAnswers u r.acc
/-- Payload of a write. -/
def payloadOf : WData → Bytes
  | .plain v => v
  | .signed o => o.payload
/-- Fold of a Fold command. -/
def ctlFold : CtlSrc → FoldId
  | .dict f _ => f
  | .queue q _ => q.fold
/-- Value that a Fold command carries. -/
def ctlValue : CtlSrc → Bytes
  | .dict _ r => payloadOf r.data
  | .queue _ o => o.payload
/-- A Fold command on the entry at offset `o` of the Fold area passes every check on its way, by dictionary or by queue (18, R484). -/
def ctlPasses (u : State) (o : Nat) : CtlSrc → Prop
  | .dict f r => admits u (foldIdx f o) 0 r
  | .queue q x => takesCommand u q ∧
      ((u.fetch q.fn 0).admitWrite (accOf q) (foldIdx q.fold o) 0 (.signed x) true).abort = 0
/-- The answer of a Fold command on the entry at offset `o` that passed those checks and that the entry refuses: by dictionary the abort
code, by queue the status (18, Table 18.6). -/
def ctlRefused (u : State) (o abort status : Nat) : CtlSrc → State
  | .dict f r => ((u.admitWrite r.acc (foldIdx f o) 0 r.data false).st).answer r.acc (foldIdx f o) 0 abort 0 []
  | .queue q x => (((u.fetch q.fn 0).admitWrite (accOf q) (foldIdx q.fold o) 0 (.signed x) true).st).complete q status 0 0 0 0
/-- What a Fold held in its plots and HBM units reads as zero, everywhere else the stores are as before (05, R130; 09, R225). -/
def unitsZeroed (s t : State) (plots : BitVec 80) (units : BitVec 192) : Prop :=
  (∀ n, t.tile n = if plots.getLsbD (n / 8) = true then Tile.dflt else s.tile n) ∧
  ∀ (k : StackId) (a : Nat), mget 0 (t.hbm k).mem a = if units.getLsbD (24 * k.val + a / 2 ^ 30) = true then 0 else mget 0 (s.hbm k).mem a
/-- An entry that is only stored: written, it holds the value, and the rules of other chapters read it from there (13). -/
def plainEntry (idx sub : Nat) : Bool :=
  idx == 0x1017 || (decide (0x1400 ≤ idx ∧ idx ≤ 0x1C33) || idx == 0x2021 || idx == 0x2031 || idx == 0x2033 ||
    decide (0x2040 ≤ idx ∧ idx ≤ 0x2060) || (idx == 0x2100 && sub == 2))
/-- Of the state outside the dictionary a write left everything as it was: Folds, stores, channels, quadrants, links, ports, Heath. -/
def cardSame (s t : State) : Prop :=
  t.folds = s.folds ∧ t.tiles = s.tiles ∧ t.hbms = s.hbms ∧ t.quads = s.quads ∧ t.links = s.links ∧ t.ports = s.ports ∧
  t.heath = s.heath ∧ t.sec = s.sec ∧ t.chans = s.chans
/-- The card after the sequence of Table 14.5: halted at level 0 with the egress gate closed and the clocks stopped, every session, channel
and link key zeroised, also those that records and results hold, FOLD_HALTED sealed for every Fold that was active; the rest of the Folds,
the stores and the configuration stay (14, R403 to R405; 09, R229). -/
def haltedFrom (s t : State) : Prop :=
  t.power.halted = true ∧ t.power.gated = true ∧ t.power.clocksStopped = true ∧ t.power.tripAt = none ∧ t.power.level = 0 ∧
  (∀ v, (t.fn v).spdm = ⟨0, []⟩ ∧ (t.fn v).ideKey = []) ∧
  (∀ c, (t.chan c).inKey = Vector.replicate 2 [] ∧ (t.chan c).outKey = Vector.replicate 2 [] ∧ (t.chan c).salt = Vector.replicate 2 []) ∧
  (∀ k, (t.link k).keys = Vector.replicate 2 [] ∧ (t.link k).salts = Vector.replicate 2 []) ∧
  (∀ f, isActive (s.fold f).st = true →
    ∃ e ∈ t.events.waiting, e.code = 0x0907 ∧ e.isSealed = true ∧ e.source = s.card * 0x800 + unitFold f) ∧
  (∀ f, t.fold f = (s.fold f).wipeKeys) ∧ t.tiles = s.tiles ∧ t.hbms = s.hbms ∧ t.cfg = s.cfg ∧ t.kept = s.kept
/-- The card after a warm reset: every Fold EMPTY without a bundle, every store, channel, function and the Heath at its default, the
boot to run again; the clock, the kept entries and the Shepherd's storage go on (15, Table 15.3). -/
def warmFrom (s t : State) : Prop :=
  (∀ f, (t.fold f).st = .empty ∧ (t.fold f).load = none ∧ (t.fold f).keys = FoldKeys.dflt ∧ (t.fold f).tel = (s.fold f).tel) ∧
  t.tiles = [] ∧ (∀ k, (t.hbm k).mem = []) ∧ t.chans = [] ∧ t.heath = Heath.dflt ∧
  t.power.ready = false ∧ t.power.booted = false ∧ t.power.selfTested = false ∧ t.kept = s.kept ∧ t.sec.uds = s.sec.uds ∧
  t.sec.devId = 0 ∧ t.cfg = (if s.shep.restore then Settings.dflt else s.cfg)
/-- A notice that passes R323 and does not meet a draining checkpoint (12, R323, R327). -/
def noticeGood (u : State) (f : FoldId) (b : Bytes) : Prop :=
  u.noticeOk f b = true ∧ ¬ ((decodeNotice b).mode = 1 ∧ (u.fold f).pre.drain.isSome = true)
/-- A notice was taken: its Sequence is the Fold's last; an ARMED Fold is LOADED, any other keeps its state; at a running Fold a STOP
notice is held, or moves the Deadline of the one held, and a CONTINUE notice to a Growing Fold joins those whose cut has not come; no
other Fold changes (12, R326 to R331; log entry 23). -/
def noticeTaken (s t : State) (f : FoldId) (n : NoticePayload) : Prop :=
  (t.fold f).pre.lastSeq = some n.seq ∧ (t.fold f).load = (s.fold f).load ∧ (t.fold f).run = (s.fold f).run ∧
  ((s.fold f).st = .armed → (t.fold f).st = .loaded) ∧ ((s.fold f).st ≠ .armed → (t.fold f).st = (s.fold f).st) ∧
  (((s.fold f).st = .running ∨ (s.fold f).st = .draining) →
    (n.mode = 0 → (s.fold f).pre.notice = none → (t.fold f).pre.notice = some ⟨true, n.seq, n.issueAt, n.deadline⟩) ∧
    (∀ o, n.mode = 0 → (s.fold f).pre.notice = some o → (t.fold f).pre.notice = some { o with deadline := n.deadline }) ∧
    (n.mode = 1 → (t.fold f).pre.notice = (s.fold f).pre.notice ∧ (t.fold f).pre.conts =
      (s.fold f).pre.conts ++ if (s.fold f).growingNow = true then [⟨false, n.seq, n.issueAt, n.deadline⟩] else [])) ∧
  ((s.fold f).st ≠ .running → (s.fold f).st ≠ .draining →
    (t.fold f).pre.notice = (s.fold f).pre.notice ∧ (t.fold f).pre.conts = (s.fold f).pre.conts) ∧
  (∀ g, g ≠ f → t.fold g = s.fold g)
/-- Every Fold but `f` is as before. -/
def othersSame (f : FoldId) (s t : State) : Prop := ∀ g, g ≠ f → t.fold g = s.fold g
/-- Tile stores, stacks and channel keys are as before. -/
def storesSame (s t : State) : Prop := t.tiles = s.tiles ∧ t.hbms = s.hbms ∧ t.chans = s.chans
/-- Bytes of a tile's store from an address on. -/
def tileBytes (s : State) (tile a n : Nat) : Bytes := mread (s.tile tile).mem a n
/-- The Growing Fold stands at a boundary that has come, powered and running. -/
def atGrowBoundary (u : State) (f : FoldId) : Prop := u.growBoundary f = true
/-- An address lies outside every range. -/
def outsideAll (rs : List (Nat × Nat)) (a : Nat) : Prop := ∀ r ∈ rs, a < r.1 ∨ r.1 + r.2 ≤ a
/-- Every register file of a tile that an operation does not write is as before: windows, latches, planes, bank, leaf table, activations,
the accumulators of every other lane, the bins of every other unit, the gradient unit's registers (05, Tables 5.4 and 5.6). -/
def tileRegsSame (o : TileOp) (x y : Tile) : Prop :=
  (0 ∉ o.regsOut ∧ 1 ∉ o.regsOut → y.win = x.win) ∧ (4 ∉ o.regsOut ∧ 5 ∉ o.regsOut → y.node = x.node) ∧
  (6 ∉ o.regsOut ∧ 7 ∉ o.regsOut → y.mask = x.mask) ∧ (2 ∉ o.regsOut → y.bank = x.bank ∧ y.segs = x.segs) ∧
  (8 ∉ o.regsOut → y.leaf = x.leaf ∧ y.leafLen = x.leafLen) ∧ (3 ∉ o.regsOut → y.act = x.act) ∧
  (∀ lane r, lane < 16 → 16 + lane ∉ o.regsOut → y.accOf r lane = x.accOf r lane) ∧
  (∀ u i, u < 4 → i < 256 → 9 + u ∉ o.regsOut → mget 0 y.binsG (u * 256 + i) = mget 0 x.binsG (u * 256 + i) ∧
    mget 0 y.binsH (u * 256 + i) = mget 0 x.binsH (u * 256 + i)) ∧
  (13 ∉ o.regsOut → y.grad = { x.grad with sorted := y.grad.sorted }) ∧ ((∀ u t, o ≠ .stgt u t) → y.target = x.target)
/-- The slot of a cycle on a tile issues the word `w` for the Fold `f`, loaded as `l`, and no range of it leaves the tile store (05, R132). -/
def opIssues (u : State) (tile cycle : Nat) (feed : Feed) (f : FoldId) (l : Loaded) (w : OpWord) : Prop :=
  u.issues tile cycle feed = some (f, w) ∧ (u.fold f).load = some l ∧ badAddress l w.op feed = none
/-- Slot `j` of a stack moves the next part of stream `i` of a tile to or from address `a` of the stack (08, R202). -/
def slotMoves (u : State) (f : FoldId) (k : StackId) (j tile i a : Nat) (l : Loaded) (kind : Nat) (y : Stream) : Prop :=
  (u.fold f).load = some l ∧ u.slotRuns f j = true ∧ u.inController f k j < 256 ∧ (∃ pos, slotPosition j = some pos ∧
    l.hbmKind k.val pos = some kind ∧ u.slotStream f k pos kind j (cycleOf75 l.op (128 * j)) = some (tile, i)) ∧
  (u.tile tile).streams[i]? = some y ∧ (u.foldCfg f).hbmAddr k.val y.part.1 = some a
/-- A position of a Root wheel belongs to the Fold and the job is that wheel's, in a frame that runs (06, Table 6.4). -/
def positionRuns (u : State) (f : FoldId) (l : Loaded) (w : Wheel) (inst pos : Nat) (job : WheelJob) : Prop :=
  u.wheelOwner w inst pos = some f ∧ (u.fold f).load = some l ∧ wheelOf job = w ∧ u.wheelsRun f = true
/-- The card said one SPDM or TDISP message on the function's channel; nothing changed but the function and the output (09, Table 9.6). -/
def saidOnly (s t : State) (fn : FnId) (b : Bytes) : Prop :=
  t.out = s.out ++ [.spdm fn.val b] ∧ cardSame s t ∧ t.cfg = s.cfg ∧ t.kept = s.kept ∧ t.events.waiting = s.events.waiting ∧
  ∀ g, g ≠ fn → t.fn g = s.fn g
/-- A response that refuses: an ERROR message, and the function as it was. -/
def saidError (s t : State) (fn : FnId) (code : Nat) : Prop :=
  saidOnly s t fn (Config.message 0x7F [le 1 code]) ∧ t.fn fn = s.fn fn

end Sys2Proof.Machine
end

