-- ==== Sys2Proof/WellFormed.lean ====
section
/-! DEFINITION. Well-formed commands: every operand within the width that the spec gives it. An ill-formed command spells
no word, frame or event of the card; `exec` gives it the meaning of its fields' values all the same. -/

namespace Sys2Proof

/-- A number that fits in `w` bits. -/
def fits (w n : Nat) : Bool := decide (n < 2 ^ w)
/-- A submission entry's header: 16-bit command ID, reserved bits within the entry (18, Table 18.3). -/
def QHdr.wf (q : QHdr) : Bool := fits 16 q.cid && fits 68 q.rsvd
/-- A dictionary place: 16-bit index, 8-bit subindex (13). -/
def placeOk (index sub : Nat) : Bool := fits 16 index && fits 8 sub
/-- A signed object's protected header (13, Table 13.2). -/
def Signed.wf (o : Signed) : Bool := placeOk o.index o.sub && fits 64 o.seq && fits 8 o.role && fits 32 o.size
/-- A written value: at most 4,096 bytes, or a signed object; four reserved bytes (13, Signed writes; 18, Table 18.7). -/
def WReq.wf (r : WReq) : Bool := fits 32 r.rsvd && match r.data with
  | .plain v => decide (v.length ≤ 4096)
  | .signed o => o.wf
/-- A Fold command on either path. -/
def CtlSrc.wf : CtlSrc → Bool
  | .dict _ r => r.wf
  | .queue q o => q.wf && o.wf
/-- A host buffer: 64-bit address, 32-bit length (18). -/
def bufferOk (addr len : Nat) : Bool := fits 64 addr && fits 32 len
/-- The read source of a load (18, Table 18.4). -/
def LoadSource.wf (k : LoadSource) : Bool :=
  fits 8 k.source && fits 64 k.listAddr && fits 64 k.total && k.extents.all fun e => bufferOk e.addr e.len && fits 32 e.rsvd
/-- Fields of an IZR header (10, Table 10.2). -/
def IzrHdr.wf (h : IzrHdr) : Bool :=
  fits 16 h.magic && fits 4 h.version && fits 4 h.typ && fits 4 h.fold && fits 16 h.channel && fits 16 h.count && fits 64 h.seq && fits 32 h.length &&
    fits 35 h.rsvd
/-- A notice on each of its paths (12, The notice). -/
def NoticeSrc.wf : NoticeSrc → Bool
  | .dict r => r.wf
  | .queue q o => q.wf && o.wf
  | .izr rx o => rx.hdr.wf && o.wf
/-- A relayed word's envelope: a byte of hops left, a byte of origin, a 32-bit sequence (11, Table 11.3). -/
def RelayHdr.wf (h : RelayHdr) : Bool := fits 8 h.hops && fits 8 h.origin && fits 32 h.seq
/-- A member word's body (11, Table 11.3). -/
def MemberBody.wf (b : MemberBody) : Bool := fits 32 b.epoch && fits 64 b.e && fits 8 b.unitCard && fits 16 b.unitNo
/-- A queue-block field's value (18, Table 18.2). -/
def QField.wf : QField → Bool
  | .sqBase v | .cqBase v => fits 64 v
  | .sqLog v | .cqLog v => fits 8 v
  | .vector v => fits 16 v
  | .enable _ => true
/-- A tile of the card (01, R14). -/
def tileOk (n : Nat) : Bool := decide (n < 640)
/-- A position of a 64-position Root wheel (06). -/
def positionOk (n : Nat) : Bool := decide (n < 64)
/-- A Root wheel job's tile. -/
def WheelJob.wf : WheelJob → Bool
  | .codesOut _ tile _ _ => tileOk tile
  | _ => true
/-- A grazing resource of the card. -/
def GrazeRes.wf : GrazeRes → Bool
  | .tile n => tileOk n
  | _ => true
/-- A unit number (13, Table 13.6). -/
def unitOk (n : Nat) : Bool := fits 11 n

/-- The GTC count of a command. -/
def Instr.time : Instr → Nat
  | .identify t _ _ => t
  | .createFold t _ _ _ => t
  | .loadBundle t _ _ => t
  | .loadBundleDone t _ _ => t
  | .restageModel t _ _ => t
  | .restageModelDone t _ _ => t
  | .restore t _ _ _ => t
  | .restoreDone t _ _ => t
  | .launch t _ _ => t
  | .stop t _ => t
  | .forceStop t _ => t
  | .unload t _ => t
  | .foldReset t _ => t
  | .preemptNotice t _ => t
  | .ledgerRead t _ _ _ _ => t
  | .ledgerAck t _ _ => t
  | .record t _ _ _ _ _ => t
  | .recordReadComplete t _ _ _ => t
  | .completionTimeout t _ => t
  | .replayHeader t _ _ => t
  | .rows t _ _ _ _ _ _ _ => t
  | .sqTailDoorbell t _ _ _ => t
  | .cqHeadDoorbell t _ _ _ => t
  | .queueEnable t _ _ _ => t
  | .msixCoalesceExpiry t _ _ => t
  | .functionLevelReset t _ => t
  | .recoveryChunk t _ _ _ => t
  | .recoveryBoot t _ _ => t
  | .dictionaryWrite t _ _ _ => t
  | .tickPeriodWrite t _ => t
  | .operatingPointWrite t _ => t
  | .portLayoutWrite t _ => t
  | .storeParameters t _ => t
  | .restoreDefaults t _ => t
  | .warmReset t _ => t
  | .shepherdReset t _ => t
  | .quadrantReset t _ _ => t
  | .ownerKeyWrite t _ => t
  | .ownershipRelease t _ => t
  | .channelTableWrite t _ _ _ => t
  | .ledgerRingPagesWrite t _ _ => t
  | .plotMaskWrite t _ _ _ => t
  | .ownerKekWrite t _ _ _ => t
  | .inputBindingWrite t _ _ _ _ => t
  | .resultBindingWrite t _ _ _ => t
  | .eatRead t _ _ => t
  | .segmentedTransferTimeout t _ _ _ => t
  | .snapshotRefresh t _ => t
  | .eventLogPosition t => t
  | .shepherdSupplyUp t _ _ _ => t
  | .supplySourceChange t _ _ _ => t
  | .mainPowerGood t _ _ _ _ => t
  | .mainPowerLoss t => t
  | .pllLock t _ => t
  | .secureBoot t _ _ _ => t
  | .stileTrainingDone t _ => t
  | .hbmTrainingDone t _ => t
  | .selfTestDone t _ _ => t
  | .ready t _ => t
  | .perstAssert t => t
  | .perstDeassert t => t
  | .pcieRateChange t _ _ => t
  | .supplyWarn t _ _ => t
  | .supplyTrip t _ _ => t
  | .temperatureSample t _ => t
  | .thermalTrip t => t
  | .powerOverrun t _ => t
  | .ptpEventMessage t _ _ => t
  | .sync0 t _ _ => t
  | .timeWord t _ _ _ _ => t
  | .armWord t _ _ => t
  | .armCutoff t _ => t
  | .foldStart t _ => t
  | .frameOpen t _ => t
  | .scheduledOperation t _ _ _ => t
  | .cycleBudgetExpiry t _ _ => t
  | .frameClose t _ => t
  | .admission t _ => t
  | .izrData t _ => t
  | .keyOffer t _ _ => t
  | .pauseFrame t _ _ _ _ => t
  | .resultDrain t _ => t
  | .ethercatProcessData t _ _ => t
  | .canPdo t _ _ _ => t
  | .nmtCommand t _ => t
  | .canBootupMessage t _ => t
  | .lldpTimer t => t
  | .lldpduReceived t _ _ _ _ _ => t
  | .stileFrame t _ _ _ => t
  | .linkDown t _ _ => t
  | .linkUp t _ _ => t
  | .hello t _ _ => t
  | .peerAttestationDone t _ _ => t
  | .linkTestDone t _ _ => t
  | .epochReq t _ _ _ _ => t
  | .memberPropose t _ _ => t
  | .memberAck t _ _ => t
  | .memberAbort t _ _ => t
  | .epochAckCutoff t => t
  | .epochCommit t => t
  | .epochApply t => t
  | .leave t _ _ _ _ => t
  | .replayWord t _ _ _ _ => t
  | .levelStepStart t _ => t
  | .gradientBarrier t _ _ => t
  | .splitExchangeBarrier t _ _ => t
  | .levelStepBoundary t _ => t
  | .roundEnd t _ => t
  | .prephaseEnd t _ _ _ => t
  | .ingestEnd t _ _ => t
  | .reshard t _ => t
  | .preemptCut t _ _ => t
  | .checkpointSectionFlush t _ => t
  | .noticeDeadline t _ => t
  | .filestoreError t _ _ _ => t
  | .pageOpen t _ => t
  | .pageClose t _ => t
  | .pageSeal t _ => t
  | .sdCardInsert t _ => t
  | .evidenceRemoved t => t
  | .journalPageBusyEnd t => t
  | .journalCommitBusyEnd t => t
  | .sealedEventBatchDue t => t
  | .grazingSlot t _ => t
  | .memberRebuildDone t _ _ => t
  | .quadrantFailure t _ _ => t
  | .eccCeRate t _ => t
  | .spdmGetVersion t _ => t
  | .spdmGetCapabilities t _ => t
  | .spdmNegotiateAlgorithms t _ _ => t
  | .spdmGetCertificate t _ _ => t
  | .spdmChallenge t _ _ _ => t
  | .spdmGetMeasurements t _ _ _ => t
  | .spdmKeyExchange t _ _ _ => t
  | .spdmKeyUpdate t _ _ _ => t
  | .spdmEndSession t _ => t
  | .ideKmKeyProg t _ _ => t
  | .lockInterfaceRequest t _ => t
  | .getDeviceInterfaceReport t _ => t
  | .startInterfaceRequest t _ _ => t
  | .stileSlot t _ _ => t
  | .hbmSlot t _ _ _ => t
  | .rootWheelPosition t _ _ _ _ => t
  | .pageFlushComplete t _ => t
  | .qsfpDdModuleInsert t _ _ => t
  | .fbPresChange t _ => t
  | .producerHeartbeat t => t
  | .securityEngineOrTickGeneratorFault t _ => t
  | .shepherdRestartDone t => t
  | .shepherdSupplyLoss t => t
  | .ideCheckFailed t _ => t

/-- Every operand but the count is within its width. -/
def Instr.operandsOk : Instr → Bool
  | .identify _ q addr => q.wf && fits 64 addr
  | .createFold _ q plots units => q.wf && plots.wf && units.wf
  | .loadBundle _ q src => q.wf && src.wf
  | .loadBundleDone _ _ _ => true
  | .restageModel _ q src => q.wf && src.wf
  | .restageModelDone _ _ _ => true
  | .restore _ q _ _ => q.wf
  | .restoreDone _ _ _ => true
  | .launch _ _ src => src.wf
  | .stop _ src => src.wf
  | .forceStop _ src => src.wf
  | .unload _ src => src.wf
  | .foldReset _ src => src.wf
  | .preemptNotice _ src => src.wf
  | .ledgerRead _ q addr len _ => q.wf && bufferOk addr len
  | .ledgerAck _ q _ => q.wf
  | .record _ q addr len resAddr resLen => q.wf && bufferOk addr len && bufferOk resAddr resLen
  | .recordReadComplete _ _ cid _ => fits 16 cid
  | .completionTimeout _ _ => true
  | .replayHeader _ q h => q.wf && decide (h.length = 64)
  | .rows _ q addr len first count _ _ => q.wf && bufferOk addr len && fits 64 first && fits 32 count
  | .sqTailDoorbell _ _ _ v => fits 32 v
  | .cqHeadDoorbell _ _ _ v => fits 32 v
  | .queueEnable _ _ _ w => w.wf
  | .msixCoalesceExpiry _ _ _ => true
  | .functionLevelReset _ _ => true
  | .recoveryChunk _ m offset data => fits 32 m.rsvd && fits 32 offset && decide (data.length ≤ 8176)
  | .recoveryBoot _ m _ => fits 32 m.rsvd
  | .dictionaryWrite _ index sub r => r.wf && placeOk index sub
  | .tickPeriodWrite _ r => r.wf
  | .operatingPointWrite _ r => r.wf
  | .portLayoutWrite _ r => r.wf
  | .storeParameters _ r => r.wf
  | .restoreDefaults _ r => r.wf
  | .warmReset _ r => r.wf
  | .shepherdReset _ r => r.wf
  | .quadrantReset _ _ r => r.wf
  | .ownerKeyWrite _ r => r.wf
  | .ownershipRelease _ r => r.wf
  | .channelTableWrite _ c sub r => r.wf && fits 8 c && fits 8 sub
  | .ledgerRingPagesWrite _ _ r => r.wf
  | .plotMaskWrite _ _ sub r => r.wf && fits 8 sub
  | .ownerKekWrite _ _ r _ => r.wf
  | .inputBindingWrite _ _ i sub r => r.wf && fits 8 i && fits 8 sub
  | .resultBindingWrite _ _ sub r => r.wf && fits 8 sub
  | .eatRead _ _ _ => true
  | .segmentedTransferTimeout _ _ index sub => placeOk index sub
  | .snapshotRefresh _ _ => true
  | .eventLogPosition _ => true
  | .shepherdSupplyUp _ _ _ _ => true
  | .supplySourceChange _ _ _ _ => true
  | .mainPowerGood _ _ _ _ _ => true
  | .mainPowerLoss _ => true
  | .pllLock _ _ => true
  | .secureBoot _ _ _ _ => true
  | .stileTrainingDone _ _ => true
  | .hbmTrainingDone _ _ => true
  | .selfTestDone _ _ _ => true
  | .ready _ _ => true
  | .perstAssert _ => true
  | .perstDeassert _ => true
  | .pcieRateChange _ _ _ => true
  | .supplyWarn _ _ mv => fits 16 mv
  | .supplyTrip _ _ mv => fits 16 mv
  | .temperatureSample _ _ => true
  | .thermalTrip _ => true
  | .powerOverrun _ _ => true
  | .ptpEventMessage _ _ _ => true
  | .sync0 _ _ _ => true
  | .timeWord _ _ sender reference depth => fits 64 sender && fits 8 reference && fits 8 depth
  | .armWord _ h _ => h.wf
  | .armCutoff _ _ => true
  | .foldStart _ _ => true
  | .frameOpen _ _ => true
  | .scheduledOperation _ tile _ _ => tileOk tile
  | .cycleBudgetExpiry _ _ _ => true
  | .frameClose _ _ => true
  | .admission _ _ => true
  | .izrData _ rx => rx.hdr.wf
  | .keyOffer _ rx _ => rx.hdr.wf
  | .pauseFrame _ _ _ _ _ => true
  | .resultDrain _ _ => true
  | .ethercatProcessData _ _ _ => true
  | .canPdo _ _ _ _ => true
  | .nmtCommand _ _ => true
  | .canBootupMessage _ _ => true
  | .lldpTimer _ => true
  | .lldpduReceived _ _ _ _ _ _ => true
  | .stileFrame _ _ _ _ => true
  | .linkDown _ _ _ => true
  | .linkUp _ _ _ => true
  | .hello _ _ _ => true
  | .peerAttestationDone _ _ _ => true
  | .linkTestDone _ _ _ => true
  | .epochReq _ h unitCard unitNo kind => h.wf && fits 8 unitCard && fits 16 unitNo && fits 8 kind
  | .memberPropose _ h b => h.wf && b.wf
  | .memberAck _ h b => h.wf && b.wf
  | .memberAbort _ h b => h.wf && b.wf
  | .epochAckCutoff _ => true
  | .epochCommit _ => true
  | .epochApply _ => true
  | .leave _ h card cause ref => h.wf && fits 8 card && fits 8 cause && fits 64 ref
  | .replayWord _ h _ round step => h.wf && fits 32 round && fits 8 step
  | .levelStepStart _ _ => true
  | .gradientBarrier _ _ _ => true
  | .splitExchangeBarrier _ _ _ => true
  | .levelStepBoundary _ _ => true
  | .roundEnd _ _ => true
  | .prephaseEnd _ _ _ _ => true
  | .ingestEnd _ _ _ => true
  | .reshard _ _ => true
  | .preemptCut _ _ _ => true
  | .checkpointSectionFlush _ _ => true
  | .noticeDeadline _ _ => true
  | .filestoreError _ _ e lba => fits 16 e.status && fits 64 lba
  | .pageOpen _ _ => true
  | .pageClose _ _ => true
  | .pageSeal _ _ => true
  | .sdCardInsert _ _ => true
  | .evidenceRemoved _ => true
  | .journalPageBusyEnd _ => true
  | .journalCommitBusyEnd _ => true
  | .sealedEventBatchDue _ => true
  | .grazingSlot _ r => r.wf
  | .memberRebuildDone _ _ _ => true
  | .quadrantFailure _ _ cause => fits 8 cause
  | .eccCeRate _ unit => unitOk unit
  | .spdmGetVersion _ _ => true
  | .spdmGetCapabilities _ _ => true
  | .spdmNegotiateAlgorithms _ _ _ => true
  | .spdmGetCertificate _ _ _ => true
  | .spdmChallenge _ _ _ _ => true
  | .spdmGetMeasurements _ _ _ _ => true
  | .spdmKeyExchange _ _ _ _ => true
  | .spdmKeyUpdate _ _ _ _ => true
  | .spdmEndSession _ _ => true
  | .ideKmKeyProg _ _ _ => true
  | .lockInterfaceRequest _ _ => true
  | .getDeviceInterfaceReport _ _ => true
  | .startInterfaceRequest _ _ _ => true
  | .stileSlot _ _ _ => true
  | .hbmSlot _ _ _ _ => true
  | .rootWheelPosition _ _ _ pos job => job.wf && positionOk pos
  | .pageFlushComplete _ _ => true
  | .qsfpDdModuleInsert _ _ _ => true
  | .fbPresChange _ _ => true
  | .producerHeartbeat _ => true
  | .securityEngineOrTickGeneratorFault _ _ => true
  | .shepherdRestartDone _ => true
  | .shepherdSupplyLoss _ => true
  | .ideCheckFailed _ _ => true

/-- A well-formed command: the count has 64 bits (00, R4), every operand is within its width. -/
def Instr.wf (i : Instr) : Bool := fits 64 i.time && i.operandsOk

end Sys2Proof
end

