-- ==== Sys2Proof/Certificates/Slice0/Obligations.lean ====
section
/-! DEFINITION. The statements about the card: one definition each, over every state unless a premise says otherwise. -/

open Sys2Proof Sys2Proof.Machine

/-- One step takes the front command; on an empty queue the block idles (log entry 4, the model's choice). -/
def Obligations.StepRunsFrontCommand : Prop :=
  (∀ (c : Instr) (rest : List Instr) (s : State), s.pending = c :: rest → step s = exec c { s with pending := rest }) ∧
  (∀ s : State, s.pending = [] → step s = .next s)

/-- The queue is the step's; no meaning adds to it or takes from it (log entry 5, the model's choice). -/
def Obligations.ExecLeavesTheQueueAlone : Prop :=
  ∀ (c : Instr) (s t : State), exec c s = .next t → t.pending = s.pending

/-- The capacity of both logs (13, R385) holds after every step from every state in which it holds. -/
def Obligations.EventLogsStayBounded : Prop :=
  ∀ s t : State, logsBounded s → step s = .next t → logsBounded t

/-- While FB_PRES# is high the EtherCAT slave stays in INIT and the CAN controller off the bus, whatever is commanded (17, R467). -/
def Obligations.FieldControllersStayOffTheBus : Prop :=
  ∀ s t : State, offBus s → step s = .next t → offBus t

/-- What State.reset holds, the defaults of Table 13.8 among it; the values the spec does not give are log entry 9's and not stated here. -/
def Obligations.ResetLeavesTheCardEmpty : Prop :=
  State.reset.pending = [] ∧ (∀ f, (State.reset.fold f).st = .empty ∧ (State.reset.fold f).load = none) ∧
  State.reset.power.main = false ∧ State.reset.shep.up = false ∧ State.reset.clock.running = false ∧
  State.reset.cfg.tickPeriod = 10000 ∧ State.reset.cfg.portLayout = 3 ∧
  State.reset.events.log = [] ∧ State.reset.events.sealedLog = [] ∧ logsBounded State.reset ∧ offBus State.reset

/-- There is no refusal; a fault is only an address that does not exist, and names it. -/
def Obligations.OnlyTwoCommandsCanFault : Prop :=
  (∀ (c : Instr) (s : State) (r : Refusal), exec c s ≠ .refused r) ∧
  (∀ (c : Instr) (s : State), mayFault c = false → Completes (exec c s)) ∧
  (∀ (c : Instr) (s : State) (e : Fault), exec c s = .fault e →
    (∃ t tile cycle feed a, c = .scheduledOperation t tile cycle feed ∧ e = .tileStoreAddress tile a) ∨
    (∃ t k f j a, c = .hbmSlot t k f j ∧ e = .hbmAddress k.val a))

/-- Encoding and decoding of the 128-bit operation words agree on every well-formed word; a reserved bit is refused (19, Tables 19.10 and 19.11). -/
def Obligations.TileWordsRoundTrip : Prop :=
  (∀ w : OpWord, w.op.wf → decodeOp (encodeOp w) = some w) ∧
  (∀ w : BitVec 128, w.toNat / 2 ^ 9 % 2 ^ 7 ≠ 0 → decodeOp w = none)

/-- What the time operand of a command does (log entry 2, the model's choice): it moves the clock alone, and only while that runs. -/
def Obligations.TimeOfACommand : Prop :=
  (∀ (s : State) (t : Nat), s.clock.running = true →
    (s.tick t).now = max s.now t ∧ s.tick t = { s with clock := (s.tick t).clock } ∧ (s.tick t).clock.running = true ∧
    (s.tick t).clock.slew.natAbs ≤ s.clock.slew.natAbs) ∧
  (∀ (s : State) (t : Nat), s.clock.running = false → s.tick t = s)

/-- The completion ring (18, R475, R479; Table 18.3). That a disabled queue loses the completion, and that a completion waits while the link
runs below Gen3, is log entry 14's. -/
def Obligations.CompletionEntriesInRingOrder : Prop :=
  (∀ (v : FnId) (c : Cqe) (s : State), ((s.fn v).queue c.q).enabled = true → ((s.fn v).queue c.q).full = false → 3 ≤ s.pcie.gen →
    (s.fn v).firstWaiting c.q = none → s.power.gated = false →
    ∃ l, (s.post v c).out = s.out ++
        .completion v.val c.q ((s.fn v).queue c.q).cqTail (c.bytes ((s.fn v).queue c.q).phase ((s.fn v).queue c.q).sqHead) :: l ∧
      (l = [] ∨ l = [.msix v.val ((s.fn v).queue c.q).vec.val]) ∧
      (((s.post v c).fn v).queue c.q).cqTail =
        (if ((s.fn v).queue c.q).cqTail + 1 = 2 ^ ((s.fn v).queue c.q).cqLog then 0 else ((s.fn v).queue c.q).cqTail + 1) ∧
      (((s.post v c).fn v).queue c.q).phase =
        (if ((s.fn v).queue c.q).cqTail + 1 = 2 ^ ((s.fn v).queue c.q).cqLog then !((s.fn v).queue c.q).phase else ((s.fn v).queue c.q).phase) ∧
      (s.post v c) = { s with fns := (s.post v c).fns, out := (s.post v c).out }) ∧
  (∀ (c : Cqe) (p : Bool) (h : Nat), (c.bytes p h).length = 32 ∧ leNat (slice (c.bytes p h) 0 2) = c.cid % 65536 ∧
    leNat (slice (c.bytes p h) 2 2) = c.status % 65536 ∧ leNat (slice (c.bytes p h) 4 2) = c.event % 65536 ∧
    leNat (slice (c.bytes p h) 31 1) = if p then 1 else 0) ∧
  (∀ (v : FnId) (c : Cqe) (s : State), ((s.fn v).queue c.q).enabled = false → c.q = 0 → s.post v c = s) ∧
  (∀ (v : FnId) (c : Cqe) (s : State), ((s.fn v).queue c.q).enabled = false → c.q ≠ 0 →
    s.post v c = s.modFn v fun x => { x with waitingCqes := x.waitingCqes ++ [c] }) ∧
  (∀ (v : FnId) (c : Cqe) (s : State), ((s.fn v).queue c.q).enabled = true →
    (((s.fn v).queue c.q).full = true ∨ s.pcie.gen < 3 ∨ (s.fn v).firstWaiting c.q ≠ none) →
    s.post v c = s.modFn v fun x => { x with waitingCqes := x.waitingCqes ++ [c] })

/-- SQ_TAIL_DOORBELL, CQ_HEAD_DOORBELL, QUEUE_ENABLE and MSIX_COALESCE_EXPIRY (18, Table 18.2, R475 to R479). -/
def Obligations.DoorbellsAndQueueFields : Prop :=
  (∀ (t v : Nat) (fn : FnId) (qn : Fin 2) (s u : State), s.tick t = u → u.barDead fn = false → hasQueue fn qn = true →
    ((u.fn fn).queue qn.val).enabled = true →
    (v < 2 ^ ((u.fn fn).queue qn.val).sqLog → exec (.sqTailDoorbell t fn qn v) s =
      .next (u.modFn fn fun x => x.setQueue qn.val { (u.fn fn).queue qn.val with sqTail := v })) ∧
    (2 ^ ((u.fn fn).queue qn.val).sqLog ≤ v → exec (.sqTailDoorbell t fn qn v) s =
      .next (u.modFn fn fun x => x.setQueue qn.val { (u.fn fn).queue qn.val with error := true })) ∧
    (v < 2 ^ ((u.fn fn).queue qn.val).cqLog → exec (.cqHeadDoorbell t fn qn v) s =
      .next ((u.modFn fn fun x => x.setQueue qn.val { (u.fn fn).queue qn.val with cqHead := v }).flush fn)) ∧
    (2 ^ ((u.fn fn).queue qn.val).cqLog ≤ v → exec (.cqHeadDoorbell t fn qn v) s =
      .next (u.modFn fn fun x => x.setQueue qn.val { (u.fn fn).queue qn.val with error := true }))) ∧
  (∀ (t : Nat) (fn : FnId) (qn : Fin 2) (w : QField) (s u : State), s.tick t = u → u.barDead fn = false → hasQueue fn qn = true →
    ∃ y, exec (.queueEnable t fn qn w) s = .next ((u.modFn fn fun x => x.setQueue qn.val y).flush fn) ∧
      ((∀ b, w ≠ .enable b) → ((u.fn fn).queue qn.val).enabled = true → y = (u.fn fn).queue qn.val) ∧
      (((u.fn fn).queue qn.val).enabled = false →
        (∀ a, w = .sqBase a → a % 4096 = 0 → y = { (u.fn fn).queue qn.val with sqBase := a }) ∧
        (∀ a, w = .cqBase a → a % 4096 = 0 → y = { (u.fn fn).queue qn.val with cqBase := a }) ∧
        (∀ n, w = .sqLog n → 4 ≤ n → n ≤ 16 → y = { (u.fn fn).queue qn.val with sqLog := n }) ∧
        (∀ n, w = .cqLog n → 4 ≤ n → n ≤ 16 → y = { (u.fn fn).queue qn.val with cqLog := n }) ∧
        (∀ n, w = .vector n → n ≤ 3 → y = { (u.fn fn).queue qn.val with vector := n }) ∧
        (w = .enable true → y = { (u.fn fn).queue qn.val with
          enabled := true, error := false, sqTail := 0, sqHead := 0, cqHead := 0, cqTail := 0, phase := true })) ∧
      (((u.fn fn).queue qn.val).enabled = true → w = .enable true → y = (u.fn fn).queue qn.val) ∧
      (w = .enable false → y = { (u.fn fn).queue qn.val with enabled := false, error := false })) ∧
  (∀ (t : Nat) (fn : FnId) (vec : Fin 4) (s u : State), s.tick t = u → vget (u.fn fn).msixDue vec = true →
    (∀ n, vget (u.fn fn).lastMsix vec = some n → n + 2000 ≤ u.now) → exec (.msixCoalesceExpiry t fn vec) s = .next (u.sendVec fn vec))

/-- IDENTIFY, LEDGER_READ and LEDGER_ACK (18, Table 18.4, R480, R487; 09, R250). -/
def Obligations.HostCommandsCompleteInTheirQueue : Prop :=
  (∀ (t : Nat) (q : QHdr) (a : Nat) (s u v : State), s.tick t = u → u.fetch q.fn 0 = v → u.canFetch q.fn 0 = true → q.rsvd = 0 →
    (q.fn = 0 ∨ q.fn = vfOf q.fold) → a % 4096 = 0 →
    exec (.identify t q a) s = .next ((v.send (.hostWrite a (v.identifyPage q.fn))).complete q 0 0 0 0 4096)) ∧
  (∀ (t : Nat) (q : QHdr) (a n o kind sq : Nat) (b : Bytes) (s u v : State), s.tick t = u → u.fetch q.fn 0 = v → takesCommand u q →
    n ≤ 16777216 → v.hostObject q.fold = some (kind, sq, b) →
    exec (.ledgerRead t q a n o) s = .next
      ((if o + (slice b o n).length = b.length then (v.send (.hostWrite a (slice b o n))).hostAdvance q.fold
        else v.send (.hostWrite a (slice b o n))).complete q 0 0 sq b.length (kind + 256 * (slice b o n).length))) ∧
  (∀ (t : Nat) (q : QHdr) (n : Nat) (s u v : State), s.tick t = u → u.fetch q.fn 0 = v → takesCommand u q → v.ackOk q.fold 0 n = true →
    exec (.ledgerAck t q n) s = .next ((v.ackPage q.fold 0 n).complete q 0 0 0 0 0))

/-- CREATE_FOLD (18, R485; 13, R382; 05, R130; 09, R225). -/
def Obligations.CreateFoldCommitsBothMasksOrNeither : Prop :=
  ∀ (t : Nat) (q : QHdr) (plots units : Signed) (s u v : State), s.tick t = u → u.fetch q.fn 0 = v → takesCommand u q → q.fn = 0 →
    ∃ w, exec (.createFold t q plots units) s = .next w ∧ w.folds = s.folds ∧ w.chans = s.chans ∧
      (∀ a b p m, v.admitWrite (accOf q) (foldIdx q.fold 1) 1 (.signed plots) true = a →
        a.st.admitWrite (accOf q) (foldIdx q.fold 1) 2 (.signed units) true = b →
        p = BitVec.ofNat 80 (leNat plots.payload) → m = BitVec.ofNat 192 (leNat units.payload) →
        ((a.abort = 0 ∧ b.abort = 0 ∧ (s.fold q.fold).st = .empty ∧ s.plotsConflict q.fold p = false ∧ s.unitsConflict q.fold m = false) →
          w.cfg = { s.cfg with folds := vset s.cfg.folds q.fold { s.foldCfg q.fold with plots := p, units := m } } ∧
          unitsZeroed s w ((s.foldCfg q.fold).plots ^^^ p) ((s.foldCfg q.fold).units ^^^ m)) ∧
        (¬ (a.abort = 0 ∧ b.abort = 0 ∧ (s.fold q.fold).st = .empty ∧ s.plotsConflict q.fold p = false ∧ s.unitsConflict q.fold m = false) →
          w.cfg = s.cfg ∧ w.tiles = s.tiles ∧ w.hbms = s.hbms))

/-- LOAD_BUNDLE, RESTAGE_MODEL and RESTORE as they start (18, R482). The order of the checks is log entry 13's. -/
def Obligations.BackgroundCommandsStartOncePerFold : Prop :=
  (∀ (t : Nat) (q : QHdr) (l : LoadSource) (s u v : State), s.tick t = u → u.fetch q.fn 0 = v → takesCommand u q → sourceOk l = true →
    2 ≤ u.power.level → v.tdiLocked (accOf q) (foldIdx q.fold 6) [] = false → (l.source = 0 ∨ v.importReady = true) →
    ((u.fold q.fold).st = .empty →
      ((u.fold q.fold).bg = none → exec (.loadBundle t q l) s = .next
        ((v.modFold q.fold fun x => { x with bg := some ⟨3, q.fn.val, q.cid, l, 0, 0, false⟩ }).readSource q.fn l)) ∧
      ((u.fold q.fold).bg ≠ none → exec (.loadBundle t q l) s = .next (v.complete q 0xD 0 0 0 0))) ∧
    ((u.fold q.fold).st = .loaded ∨ (u.fold q.fold).st = .stopped →
      ((u.fold q.fold).bg = none → exec (.restageModel t q l) s = .next
        ((v.modFold q.fold fun x => { x with bg := some ⟨4, q.fn.val, q.cid, l, 0, 0, false⟩ }).readSource q.fn l)) ∧
      ((u.fold q.fold).bg ≠ none → exec (.restageModel t q l) s = .next (v.complete q 0xD 0 0 0 0)))) ∧
  (∀ (t : Nat) (q : QHdr) (target gen : Nat) (s u v : State), s.tick t = u → u.fetch q.fn 0 = v → takesCommand u q → target ≤ 15 →
    2 ≤ u.power.level → v.tdiLocked (accOf q) (foldIdx q.fold 6) [] = false → (u.fold q.fold).st = .loaded →
    (u.fold q.fold).isGrowing = true →
      ((u.fold q.fold).bg = none → exec (.restore t q target gen) s = .next
        (v.modFold q.fold fun x => { x with bg := some ⟨0x0A, q.fn.val, q.cid, ⟨2, 0, 0, [], 0⟩, target, gen, false⟩ })) ∧
      ((u.fold q.fold).bg ≠ none → exec (.restore t q target gen) s = .next (v.complete q 0xD 0 0 0 0)))

/-- LOAD_BUNDLE_DONE, RESTAGE_MODEL_DONE and RESTORE_DONE where their checks pass (19, R523; 08, R221; 12, R350 to R353). -/
def Obligations.BackgroundCommandsEndInTheFold : Prop :=
  (∀ (t : Nat) (f : FoldId) (b : Bundle) (l : Loaded) (s u : State), s.tick t = u → u.bgIs f 3 = true → loadCheck u f b = .ok l →
    ∃ w, exec (.loadBundleDone t f (some b)) s = .next w ∧ (w.fold f).st = .loaded ∧ (w.fold f).load = some l ∧ (w.fold f).bg = none ∧
      (w.fold f).store = storeImage b.image ∧ w.cfg = s.cfg ∧ w.hbms = s.hbms ∧ othersSame f s w) ∧
  (∀ (t : Nat) (f : FoldId) (r : RestageImage) (l : Loaded) (s u : State), s.tick t = u → u.bgIs f 4 = true → (u.fold f).load = some l →
    restageOk u l r = true →
    ∃ w, exec (.restageModelDone t f (some r)) s = .next w ∧ (w.fold f).bg = none ∧ (w.fold f).st = (s.fold f).st ∧
      (w.fold f).store.staged = ((u.fold f).store.lost.flatMap (stripeMembers r.image)).foldl (fun a e => mset [] a e.1 e.2) (u.fold f).store.staged ∧
      w.cfg = s.cfg ∧ w.tiles = s.tiles ∧ (∀ k, (w.hbm k).mem = (s.hbm k).mem) ∧ othersSame f s w) ∧
  (∀ (t : Nat) (f : FoldId) (d : Shard) (h : ShardHead) (l : Loaded) (b : Background) (s u : State), s.tick t = u → (u.fold f).bg = some b →
    b.kind = 0x0A → (u.fold f).load = some l → restoreCheck u f l b.generation d = 0 →
    ownHead d (u.card - (shapeOf (u.jobSet f)).1) = some h →
    ∃ w, exec (.restoreDone t f (some d)) s = .next w ∧ (w.fold f).bg = none ∧ (w.fold f).st = (s.fold f).st ∧
      (w.fold f).grow.round = fld h.manifest 88 4 ∧ (w.fold f).grow.cls = fld h.manifest 92 2 ∧ (w.fold f).grow.step = fld h.manifest 94 1 ∧
      (w.fold f).grow.trees = d.trees ∧ (w.fold f).grow.partialTree = d.partialTree ∧ (w.fold f).grow.history = d.scales ∧
      (w.fold f).grow.nodeBank = d.nodeBank ∧ (w.fold f).grow.marginBank = d.marginBank ∧
      (w.fold f).load = some { l with cuts := l.cuts ++ shardCuts d } ∧ (w.fold f).pre.nextGen = manifestGen h.manifest + 1 ∧
      w.cfg = s.cfg ∧ storesSame s w ∧ othersSame f s w)

/-- LAUNCH on both of its paths (02, R40; 13, R379, R380; 18, R486). -/
def Obligations.LaunchArmsTheFold : Prop :=
  ∀ (t : Nat) (rep : Bool) (src : CtlSrc) (l : Loaded) (s u : State) (f : FoldId), ctlFold src = f → s.tick t = u → ctlPasses u 5 src →
    (∀ q o, src = .queue q o → 2 ≤ u.power.level) → (∀ f r, src = .dict f r → rep = false) →
    (u.fold f).load = some l → u.launchRefusal f rep (leNat (ctlValue src)) = none →
    ((u.fold f).st = .loaded ∨ (u.fold f).st = .stopped) ∧ u.now + 1000000 ≤ leNat (ctlValue src) ∧
    ∃ w, exec (.launch t rep src) s = .next w ∧ (w.fold f).st = .armed ∧
      (w.fold f).run.launchAt = leNat (ctlValue src) ∧ (w.fold f).run.replay = rep ∧ (w.fold f).run.started = false ∧
      (w.fold f).run.cutoffOk = false ∧ (w.fold f).load = some l ∧
      (w.fold f).led.chain = genesisOf l.foldMeas (u.foldSource f) (leNat (ctlValue src)) rep ∧
      (w.fold f).led.nextSeq = 0 ∧ (w.fold f).led.page = none ∧ (w.fold f).led.closing = [] ∧ (w.fold f).pipe = [] ∧
      (w.fold f).adm = Admit.dflt ∧ (w.fold f).res = { (s.fold f).res with lastSent := none } ∧
      w.cfg = (if u.otherActive f then s.cfg else { s.cfg with op := l.op }) ∧
      othersSame f s w ∧ storesSame s w

/-- The four values of FoldCommand on both paths (13, R381; 09, R223). A halted card ignores a Fold reset (14, R405). -/
def Obligations.FoldCommandsKeepToTheirStates : Prop :=
  ∀ (t : Nat) (src : CtlSrc) (s u : State) (f : FoldId), ctlFold src = f → s.tick t = u → ctlPasses u 6 src →
    (leNat (ctlValue src) = 1 →
      ((u.fold f).st = .running → ∃ w, exec (.stop t src) s = .next w ∧ (w.fold f).st = .draining ∧ (w.fold f).load = (s.fold f).load ∧
        (w.fold f).pipe = (s.fold f).pipe ∧ (w.fold f).res = (s.fold f).res ∧
        (∃ n, (w.fold f).adm.closeFrom = some n ∧ n ≤ (u.fold f).run.opened) ∧ w.cfg = s.cfg ∧ storesSame s w ∧ othersSame f s w) ∧
      ((u.fold f).st ≠ .running → exec (.stop t src) s = .next (ctlRefused u 6 0x08000022 4 src))) ∧
    (leNat (ctlValue src) = 2 →
      ((u.fold f).st = .running ∨ (u.fold f).st = .draining → ∃ w, exec (.forceStop t src) s = .next w ∧ (w.fold f).st = .stopped ∧
        (w.fold f).load = (s.fold f).load ∧ (w.fold f).pipe = [] ∧ (w.fold f).res.all = [] ∧ (w.fold f).adm.reads = [] ∧
        w.cfg = s.cfg ∧ w.tiles = s.tiles ∧ w.hbms = s.hbms ∧ othersSame f s w) ∧
      ((u.fold f).st ≠ .running → (u.fold f).st ≠ .draining → exec (.forceStop t src) s = .next (ctlRefused u 6 0x08000022 4 src))) ∧
    (leNat (ctlValue src) = 3 →
      ((u.fold f).st = .loaded ∨ (u.fold f).st = .stopped → ∃ w, exec (.unload t src) s = .next w ∧ (w.fold f).st = .empty ∧
        (w.fold f).load = none ∧ (w.fold f).keys = FoldKeys.dflt ∧ (w.fold f).tel = (s.fold f).tel ∧ w.cfg = s.cfg ∧
        unitsZeroed s w (s.foldCfg f).plots (s.foldCfg f).units ∧ othersSame f s w) ∧
      ((u.fold f).st ≠ .loaded → (u.fold f).st ≠ .stopped → exec (.unload t src) s = .next (ctlRefused u 6 0x08000022 4 src))) ∧
    (leNat (ctlValue src) = 4 →
      (u.power.halted = false → ∃ w, exec (.foldReset t src) s = .next w ∧ (w.fold f).st = .empty ∧ (w.fold f).load = none ∧
        (w.fold f).bg = none ∧ (w.fold f).keys = FoldKeys.dflt ∧ (w.fn (vfOf f)).spdm = ⟨0, []⟩ ∧ w.cfg = s.cfg ∧
        unitsZeroed s w (s.foldCfg f).plots (s.foldCfg f).units ∧ othersSame f s w) ∧
      (u.power.halted = true → exec (.foldReset t src) s = .next (ctlRefused u 6 0x08000022 4 src)))

/-- The stored entries of chapter 13 as they are written: what the entry holds after it, and the frame. -/
def Obligations.StoredEntriesHoldWhatIsWritten : Prop :=
  ∀ (t : Nat) (r : WReq) (s u : State), s.tick t = u →
    (∀ i sub, admits u i sub r → plainEntry i sub = true → ∃ w, exec (.dictionaryWrite t i sub r) s = .next w ∧
      w.cfg = { s.cfg with vals := mset [] s.cfg.vals (i * 256 + sub) (payloadOf r.data) } ∧ w.shep = s.shep ∧ cardSame s w) ∧
    (admits u 0x2100 1 r → ∃ w, exec (.dictionaryWrite t 0x2100 1 r) s = .next w ∧
      w.cfg = { s.cfg with vals := mset [] s.cfg.vals (0x2100 * 256 + 1) (payloadOf r.data) } ∧ w.shep = s.shep ∧
      w.heath = { s.heath with lostQuads := s.heath.lostQuads.map fun e => if e.1 = s.card then (leNat (payloadOf r.data), e.2) else e } ∧
      cardSame s { w with heath := s.heath }) ∧
    (admits u 0x2010 0 r → ∃ w, exec (.tickPeriodWrite t r) s = .next w ∧
      w.cfg = { s.cfg with tickPeriod := leNat (payloadOf r.data) } ∧ w.shep = s.shep ∧ cardSame s w) ∧
    (∀ p, admits u 0x2011 0 r → opOfCode (leNat (payloadOf r.data)) = some p → opCode s.cfg.opCap ≤ leNat (payloadOf r.data) →
      ∃ w, exec (.operatingPointWrite t r) s = .next w ∧ w.cfg = { s.cfg with op := p } ∧ w.shep = s.shep ∧ cardSame s w) ∧
    (admits u 0x2011 0 r → leNat (payloadOf r.data) < opCode s.cfg.opCap → exec (.operatingPointWrite t r) s =
      .next ((u.admitWrite r.acc 0x2011 0 r.data false).st.answer r.acc 0x2011 0 0x06040043 0 [])) ∧
    (∀ n, admits u 0x2030 0 r → leNat (payloadOf r.data) = n → ∃ w, exec (.portLayoutWrite t r) s = .next w ∧
      w.cfg = { s.cfg with portLayout := n } ∧ w.shep = s.shep ∧ cardSame s { w with ports := s.ports } ∧
      (∀ p : PortId, w.port p = { s.port p with
        pausedUntil := 0, up := decide (p.val < portCount n) && s.cageUp (cageOf n p.val) })) ∧
    (admits u 0x1010 1 r → ∃ w, exec (.storeParameters t r) s = .next w ∧
      w.cfg = s.cfg ∧ w.shep = { s.shep with stored := s.cfg } ∧ cardSame s w) ∧
    (admits u 0x1011 1 r → ∃ w, exec (.restoreDefaults t r) s = .next w ∧
      w.cfg = s.cfg ∧ w.shep = { s.shep with restore := true } ∧ cardSame s w)

/-- What a refused write leaves, and the deferral on PoE (13, Table 13.4). -/
def Obligations.RefusedWritesChangeNoEntry : Prop :=
  ∀ (t : Nat) (i sub : Nat) (r : WReq) (s u : State), s.tick t = u →
    (∀ a e, (u.admitWrite r.acc i sub r.data false).abort = a → (u.admitWrite r.acc i sub r.data false).event = e → a ≠ 0 → boxAnswers u r.acc →
      ∃ w, exec (.dictionaryWrite t i sub r) s = .next w ∧
        w = (u.admitWrite r.acc i sub r.data false).st.answer r.acc i sub a e [] ∧
        w.cfg = s.cfg ∧ cardSame s w ∧ w.shep.stored = s.shep.stored ∧
        mget ⟨0, 0, 0, 0⟩ w.shep.refusals r.acc.path.val = ⟨i, sub, a, u.now⟩ ∧
        (i = 0x2010 → sub = 0 → exec (.tickPeriodWrite t r) s = .next w) ∧
        (i = 0x2030 → sub = 0 → exec (.portLayoutWrite t r) s = .next w) ∧
        (∀ c, c < 256 → i = 0x2200 + c → exec (.channelTableWrite t c sub r) s = .next w)) ∧
    (u.writeService r.acc = 1 → (u.admitWrite r.acc i sub r.data false).abort = 0 → r.rsvd = 0 → plainEntry i sub = true →
      ∃ w, exec (.dictionaryWrite t i sub r) s = .next w ∧ w.cfg = s.cfg ∧ cardSame s w ∧
        w.shep = { s.shep with deferred := s.shep.deferred ++ [(i, sub, payloadOf r.data)] })

/-- OWNER_KEY_WRITE, OWNERSHIP_RELEASE and OWNER_KEK_WRITE (13, R366, R367; 12, R340). -/
def Obligations.OwnershipOfTheCard : Prop :=
  ∀ (t : Nat) (r : WReq) (s u : State), s.tick t = u →
    (admits u 0x2110 0 r → allZero (payloadOf r.data) = false →
      ∃ w, exec (.ownerKeyWrite t r) s = .next w ∧ w.cfg = s.cfg ∧ w.shep = s.shep ∧ cardSame s w ∧
        w.kept = { (u.admitWrite r.acc 0x2110 0 r.data false).st.kept with ownerKey := payloadOf r.data }) ∧
    (admits u 0x2110 0 r → allZero (payloadOf r.data) = true → s.kept.ownerKey.isEmpty = false → (∀ f, (s.fold f).st = .empty) →
      ∃ w, exec (.ownershipRelease t r) s = .next w ∧ exec (.ownerKeyWrite t r) s = .next w ∧ w.kept = Kept.dflt ∧ w.chans = [] ∧
        (∀ c, c < 256 → w.chanCfg c = ChanCfg.zero) ∧ (∀ f, w.foldCfg f = { s.foldCfg f with target := CkptTarget.zero }) ∧
        w.shep.stored = s.shep.stored.zeroised ∧ w.heath.members = 0 ∧ w.heath.proposal = none ∧ w.heath.lostStacks = s.heath.lostStacks ∧
        w.folds = s.folds ∧ w.tiles = s.tiles ∧ w.hbms = s.hbms) ∧
    (∀ f, admits u 0x2110 0 r → allZero (payloadOf r.data) = true → s.kept.ownerKey.isEmpty = false → (s.fold f).st ≠ .empty →
      exec (.ownershipRelease t r) s = .next
        ((u.admitWrite r.acc 0x2110 0 r.data false).st.answer r.acc 0x2110 0 0x08000022 0 [])) ∧
    (∀ (f : FoldId) (k : KekSeal) (l : Loaded), admits u (0x5830 + f.val) 0 r → (s.fold f).load = some l →
      (s.fold f).keys.hpke.isEmpty = false → k.recipient = (s.fold f).keys.hpke →
      k.info = ascii [0x49, 0x5A, 0x43, 0x4B] ++ l.foldMeas →
      ∃ w, exec (.ownerKekWrite t f r k) s = .next w ∧
        (w.fold f) = { s.fold f with keys := { (s.fold f).keys with kek := some k.kek } } ∧ othersSame f s w ∧ w.cfg = s.cfg ∧
        storesSame s w)

/-- Writes of the channel table and of the Fold configuration (10, R263; 09, R255; 13, R382, R386, R387). -/
def Obligations.FoldConfigurationWrites : Prop :=
  ∀ (t : Nat) (r : WReq) (s u : State), s.tick t = u →
    (∀ c sub, c < 256 → admits u (0x2200 + c) sub r → ∃ w, exec (.channelTableWrite t c sub r) s = .next w ∧
      w.cfg = { s.cfg with channels := mset ChanCfg.dflt s.cfg.channels c ((s.chanCfg c).write sub (payloadOf r.data)) } ∧
      w.chans = mset Chan.dflt s.chans c Chan.dflt ∧ w.tiles = s.tiles ∧ w.hbms = s.hbms ∧ w.links = s.links ∧ w.heath = s.heath ∧
      (s.chanFold c = none → w.folds = s.folds) ∧
      (∀ g, s.chanFold c = some g → othersSame g s w ∧ (w.fold g).st = (s.fold g).st ∧ ∀ x ∈ (w.fold g).res.all, x.onChan c = false)) ∧
    (∀ (f : FoldId), admits u (0x300A + 0x20 * f.val) 0 r →
      ((∀ l, (s.fold f).load = some l → leNat (payloadOf r.data) ≤ l.res.ringMax) →
        ∃ w, exec (.ledgerRingPagesWrite t f r) s = .next w ∧ cardSame s w ∧
          w.cfg = { s.cfg with folds := vset s.cfg.folds f { s.foldCfg f with ringPages := leNat (payloadOf r.data) } }) ∧
      (∀ l, (s.fold f).load = some l → l.res.ringMax < leNat (payloadOf r.data) → exec (.ledgerRingPagesWrite t f r) s = .next
        ((u.admitWrite r.acc (0x300A + 0x20 * f.val) 0 r.data false).st.answer r.acc (0x300A + 0x20 * f.val) 0 0x06040043 0 []))) ∧
    (∀ (f : FoldId) (m : BitVec 80), admits u (0x3001 + 0x20 * f.val) 1 r → BitVec.ofNat 80 (leNat (payloadOf r.data)) = m →
      exec (.dictionaryWrite t (0x3001 + 0x20 * f.val) 1 r) s = exec (.plotMaskWrite t f 1 r) s ∧
      ((∀ g, g ≠ f → (s.foldCfg g).plots &&& m = 0) →
        ∃ w, exec (.plotMaskWrite t f 1 r) s = .next w ∧ w.folds = s.folds ∧ w.chans = s.chans ∧
          w.cfg = { s.cfg with folds := vset s.cfg.folds f { s.foldCfg f with plots := m } } ∧
          unitsZeroed s w ((s.foldCfg f).plots ^^^ m) 0#192) ∧
      (∀ g, g ≠ f → (s.foldCfg g).plots &&& m ≠ 0 →
        exec (.plotMaskWrite t f 1 r) s = .next
          ((u.admitWrite r.acc (0x3001 + 0x20 * f.val) 1 r.data false).st.answer r.acc (0x3001 + 0x20 * f.val) 1 0x06040043 0 []))) ∧
    (∀ (f : FoldId) (m : BitVec 192), admits u (0x3001 + 0x20 * f.val) 2 r → BitVec.ofNat 192 (leNat (payloadOf r.data)) = m →
      exec (.dictionaryWrite t (0x3001 + 0x20 * f.val) 2 r) s = exec (.plotMaskWrite t f 2 r) s ∧
      ((∀ g, g ≠ f → (s.foldCfg g).units &&& m = 0) →
        ∃ w, exec (.plotMaskWrite t f 2 r) s = .next w ∧ w.folds = s.folds ∧ w.chans = s.chans ∧
          w.cfg = { s.cfg with folds := vset s.cfg.folds f { s.foldCfg f with units := m } } ∧
          unitsZeroed s w 0#80 ((s.foldCfg f).units ^^^ m)) ∧
      (∀ g, g ≠ f → (s.foldCfg g).units &&& m ≠ 0 →
        exec (.plotMaskWrite t f 2 r) s = .next
          ((u.admitWrite r.acc (0x3001 + 0x20 * f.val) 2 r.data false).st.answer r.acc (0x3001 + 0x20 * f.val) 2 0x06040043 0 []))) ∧
    (∀ (f : FoldId) (i sub : Nat) (b : InBind), i < 64 → admits u (0x6200 + 0x40 * f.val + i) sub r →
      (mget ⟨0, 0, 0, 0, 0⟩ s.cfg.inBinds (64 * f.val + i)).write sub (payloadOf r.data) = b → b.source = 0 →
      ∃ w, exec (.inputBindingWrite t f i sub r) s = .next w ∧ cardSame s w ∧
        w.cfg = { s.cfg with inBinds := mset ⟨0, 0, 0, 0, 0⟩ s.cfg.inBinds (64 * f.val + i) b }) ∧
    (∀ (f : FoldId) (sub : Nat) (b : OutBind), admits u (0x6600 + f.val) sub r →
      (s.foldCfg f).outBind.write sub (payloadOf r.data) = b → b.dest = 0 →
      ∃ w, exec (.resultBindingWrite t f sub r) s = .next w ∧ cardSame s w ∧
        w.cfg = { s.cfg with folds := vset s.cfg.folds f { s.foldCfg f with outBind := b } })

/-- The conditions on bindings (13, R386, R387). The length of an unloaded Fold's result is log entry 34's. -/
def Obligations.BindingRanges : Prop :=
  (∀ (t : Nat) (f : FoldId) (i sub : Nat) (r : WReq) (s u : State) (b : InBind) (l : Loaded), s.tick t = u → i < 64 →
    admits u (0x6200 + 0x40 * f.val + i) sub r →
    (mget ⟨0, 0, 0, 0, 0⟩ s.cfg.inBinds (64 * f.val + i)).write sub (payloadOf r.data) = b → b.source ≠ 0 → (s.fold f).load = some l →
    ((∃ d ∈ l.res.inputs, d.number = i) → b.pdoOk = true → b.offset + b.length ≤ (if b.source = 1 then 1024 else 64) →
      ((∀ e ∈ s.cfg.inBinds, e.1 / 64 ≠ f.val → e.2.source = b.source → e.2.pdo = b.pdo →
          overlaps b.offset b.length e.2.offset e.2.length = false) →
        ∃ w, exec (.inputBindingWrite t f i sub r) s = .next w ∧ cardSame s w ∧
          w.cfg = { s.cfg with inBinds := mset ⟨0, 0, 0, 0, 0⟩ s.cfg.inBinds (64 * f.val + i) b }) ∧
      (∀ e ∈ s.cfg.inBinds, e.1 / 64 ≠ f.val → e.2.source = b.source → e.2.pdo = b.pdo →
          overlaps b.offset b.length e.2.offset e.2.length = true →
        exec (.inputBindingWrite t f i sub r) s = .next
          ((u.admitWrite r.acc (0x6200 + 0x40 * f.val + i) sub r.data false).st.answer r.acc (0x6200 + 0x40 * f.val + i) sub 0x06040043 0 []))) ∧
    (((∀ d ∈ l.res.inputs, d.number ≠ i) ∨ (if b.source = 1 then 1024 else 64) < b.offset + b.length) →
      exec (.inputBindingWrite t f i sub r) s = .next
        ((u.admitWrite r.acc (0x6200 + 0x40 * f.val + i) sub r.data false).st.answer r.acc (0x6200 + 0x40 * f.val + i) sub 0x06090030 0 []))) ∧
  (∀ (t : Nat) (f : FoldId) (sub : Nat) (r : WReq) (s u : State) (b : OutBind), s.tick t = u →
    admits u (0x6600 + f.val) sub r → (s.foldCfg f).outBind.write sub (payloadOf r.data) = b → b.dest ≠ 0 →
    (b.offset + (s.fold f).fieldLen ≤ (if b.dest = 1 then 512 else 64) →
      ((∀ g, g ≠ f → (s.foldCfg g).outBind.dest = b.dest → (b.dest = 1 ∨ (s.foldCfg g).outBind.pdo = b.pdo) →
          overlaps b.offset (s.fold f).fieldLen (s.foldCfg g).outBind.offset (s.fold g).fieldLen = false) →
        ∃ w, exec (.resultBindingWrite t f sub r) s = .next w ∧ cardSame s w ∧
          w.cfg = { s.cfg with folds := vset s.cfg.folds f { s.foldCfg f with outBind := b } }) ∧
      (∀ g, g ≠ f → (s.foldCfg g).outBind.dest = b.dest → (b.dest = 1 ∨ (s.foldCfg g).outBind.pdo = b.pdo) →
          overlaps b.offset (s.fold f).fieldLen (s.foldCfg g).outBind.offset (s.fold g).fieldLen = true →
        exec (.resultBindingWrite t f sub r) s = .next
          ((u.admitWrite r.acc (0x6600 + f.val) sub r.data false).st.answer r.acc (0x6600 + f.val) sub 0x06040043 0 []))) ∧
    ((if b.dest = 1 then 512 else 64) < b.offset + (s.fold f).fieldLen → exec (.resultBindingWrite t f sub r) s = .next
      ((u.admitWrite r.acc (0x6600 + f.val) sub r.data false).st.answer r.acc (0x6600 + f.val) sub 0x06090030 0 [])))

/-- The three resets that a dictionary write asks for (15, Table 15.3, R434, R437, R439). -/
def Obligations.ResetsByDictionary : Prop :=
  ∀ (t : Nat) (r : WReq) (s u : State), s.tick t = u → admits u 0x2002 0 r →
    (leNat (payloadOf r.data) = 1 → u.anyActive = false → u.power.halted = false →
      ∃ w, exec (.warmReset t r) s = .next w ∧ warmFrom (u.admitWrite r.acc 0x2002 0 r.data false).st w ∧
        w.clock = u.clock ∧ w.shep.stored = (if s.shep.restore then Settings.dflt else s.shep.stored)) ∧
    (leNat (payloadOf r.data) = 1 → u.anyActive = true → exec (.warmReset t r) s =
      .next ((u.admitWrite r.acc 0x2002 0 r.data false).st.answer r.acc 0x2002 0 0x08000022 0 [])) ∧
    (leNat (payloadOf r.data) = 2 → ∃ w, exec (.shepherdReset t r) s = .next w ∧ w.shep.restarting = true ∧ w.shep.alState = 1 ∧
      w.shep.nmt = 0 ∧ w.shep.fieldBefore = (s.shep.alState, s.shep.nmt) ∧ w.shep.segs = [] ∧ w.events.log = [] ∧ w.events.waiting = [] ∧
      w.cfg = s.cfg ∧ cardSame s w) ∧
    (∀ q : QuadId, leNat (payloadOf r.data) = 0x10 + q.val → u.power.halted = false →
      ((∀ f ∈ u.foldsIn q, isActive (s.fold f).st = false) →
        ∃ w, exec (.quadrantReset t q r) s = .next w ∧
          (∀ n, quadOfTile n = q → w.tile n = Tile.dflt) ∧ (∀ n, quadOfTile n ≠ q → w.tile n = s.tile n) ∧
          (w.quad q).returning = true ∧ (w.quad q).tested = false ∧ (w.quad q).faults = [] ∧ (w.quad q).state ≠ 0 ∧
          (∀ p, p ≠ q → w.quad p = s.quad p) ∧ w.quadServes q = false ∧ w.folds = s.folds ∧ w.hbms = s.hbms ∧ w.chans = s.chans ∧ w.cfg = s.cfg) ∧
      (∀ f ∈ u.foldsIn q, isActive (s.fold f).st = true → exec (.quadrantReset t q r) s =
        .next ((u.admitWrite r.acc 0x2002 0 r.data false).st.answer r.acc 0x2002 0 0x08000022 0 [])))

/-- The milestones of Table 15.1, each where its conditions hold. -/
def Obligations.PowerUpToReady : Prop :=
  (∀ (t : Nat) (src : Supply) (a b : FwSet) (s u : State), s.tick t = u → u.shep.up = false →
    ∃ w, exec (.shepherdSupplyUp t src a b) s = .next w ∧ w.shep.up = true ∧ w.shep.restarting = false ∧ w.shep.alState = 1 ∧
      w.cfg = (if s.power.main then s.cfg else s.shep.stored) ∧ w.shep.norBad = (!u.setVerifies a, !u.setVerifies b) ∧ cardSame s w) ∧
  (∀ (t : Nat) (c g0 g1 : Bool) (s u : State), s.tick t = u → u.shep.up = true → u.power.main = false → u.shep.deferred = [] →
    ∃ w, exec (.mainPowerGood t c g0 g1 none) s = .next w ∧ w.power.main = true ∧ w.power.railsUp = 4 ∧ w.shep.source = .main ∧
      w.power.usableW = (if c then (if g0 then (if g1 then 600 else 375) else (if g1 then 525 else 225)) else 75) ∧
      w.cfg = s.cfg ∧ cardSame s w) ∧
  (∀ (t : Nat) (c g0 g1 : Bool) (r : Rail) (mv : Nat) (s u : State), s.tick t = u → u.shep.up = true → u.power.main = false →
    u.shep.deferred = [] → ∃ w, exec (.mainPowerGood t c g0 g1 (some (r, mv))) s = .next w ∧ w.power.main = true ∧ w.power.railsUp ≠ 4 ∧
      haltedFrom s w) ∧
  (∀ (t : Nat) (s u : State), s.tick t = u → u.power.main = true → u.clock.running = false → u.power.halted = false →
    exec (.pllLock t true) s = .next { u with clock := { u.clock with running := true, gtc := 0, osc := 0, slewAt := 0 } } ∧
    ∃ w, exec (.pllLock t false) s = .next w ∧ haltedFrom s w ∧ w.clock = s.clock) ∧
  (∀ (t : Nat) (r : List LinkTraining) (s u : State), s.tick t = u → u.power.booted = true → u.power.stileTrained = false →
    u.power.halted = false → u.topology ≠ 1 →
    ∃ w, exec (.stileTrainingDone t r) s = .next w ∧ w.power.stileTrained = true ∧ (∀ k, (∀ x ∈ r, x.link ≠ k) → w.link k = s.link k) ∧
      w.folds = s.folds ∧ w.cfg = s.cfg ∧ storesSame s w ∧
      (∀ x c p, r = [x] → cableLength x.cable = some c → cablePartner u.topology u.card x.link.val = some p →
        (x.trained = true → (w.link x.link).state = 2 ∧ (w.link x.link).outOfUse = false ∧ (w.link x.link).partner = p.1) ∧
        (x.trained = false → (w.link x.link).state = 0 ∧ (w.link x.link).outOfUse = true)) ∧
      (∀ x, r = [x] → cableLength x.cable = none → w.links = s.links)) ∧
  (∀ (t : Nat) (l : List StackId) (s u : State), s.tick t = u → u.power.booted = true → u.power.hbmTrained = false → u.power.halted = false →
    ∃ w, exec (.hbmTrainingDone t l) s = .next w ∧ w.power.hbmTrained = true ∧
      (∀ k, w.hbm k = if k ∈ l then { s.hbm k with lost := true } else s.hbm k) ∧ w.folds = s.folds ∧ w.tiles = s.tiles ∧ w.cfg = s.cfg) ∧
  (∀ (t : Nat) (l : List TileReport) (e : List (Nat × Nat)) (s u : State), s.tick t = u → u.power.booted = true →
    u.power.selfTested = false → u.power.halted = false →
    ∃ w, exec (.selfTestDone t l e) s = .next w ∧ w.power.selfTested = true ∧
      w.power.engineFailed = (s.power.engineFailed || !e.isEmpty) ∧
      (∀ q, (∃ r ∈ l, quadOfTile r.tile = q ∧ (r.finish ≠ Config.romFinish r.tile ∨ r.digest ≠ Config.romDigest r.tile)) →
        w.quad q = { s.quad q with state := 2 } ∧ w.quadServes q = false) ∧
      (∀ q, (∀ r ∈ l, quadOfTile r.tile = q → r.finish = Config.romFinish r.tile ∧ r.digest = Config.romDigest r.tile) →
        w.quad q = s.quad q ∧ w.quadServes q = s.quadServes q) ∧
      w.folds = s.folds ∧ w.cfg = s.cfg ∧ storesSame s w) ∧
  (∀ (t ms : Nat) (s u : State), s.tick t = u → u.power.booted = true → u.power.ready = false → u.power.halted = false →
    u.power.selfTested = true → u.power.hbmTrained = true →
    (u.topology = 1 ∨ u.power.stileTrained = true ∧ u.windowClosed ms = true) →
    ∃ w, exec (.ready t ms) s = .next w ∧ w.power.ready = true ∧ w.power.level = w.computeLevel ∧
      (∃ e ∈ w.events.waiting, e.code = 0x0A03) ∧ (∃ e ∈ w.events.waiting, e.code = 0x0908) ∧ w.clock = u.clock ∧
      w.folds = s.folds ∧ w.cfg = s.cfg ∧ storesSame s w)

/-- SECURE_BOOT, RECOVERY_CHUNK and RECOVERY_BOOT (15, R423, R424; 16, R446; 18, R498). -/
def Obligations.BootFromAVerifiedSet : Prop :=
  (∀ (t : Nat) (a b : FwSet) (sd : Option FwSet) (s u : State), s.tick t = u → u.power.main = true → u.clock.running = true →
    u.power.booted = false → u.power.halted = false →
    ∃ w, exec (.secureBoot t a b sd) s = .next w ∧ w.folds = s.folds ∧ w.cfg = s.cfg ∧ storesSame s w ∧
      w.shep.norBad = (!u.setVerifies a, !u.setVerifies b) ∧
      (∀ x n, (u.setVerifies a = true ∧ x = a ∧ n = 1 ∨ u.setVerifies a = false ∧ u.setVerifies b = true ∧ x = b ∧ n = 2 ∨
          u.setVerifies a = false ∧ u.setVerifies b = false ∧ sd = some x ∧ u.sdRecovery = true ∧ u.setVerifies x = true ∧ n = 3) →
        w.power.booted = true ∧ w.power.recovery = false ∧ w.sec.bootFrom = n ∧ w.sec.udsLocked = true ∧
        w.sec.fwMeas = digest (ascii [0x49, 0x5A, 0x46, 0x57] ++ x.manifest ++ x.shepherd ++ x.root ++ x.quadrant) ∧
        w.sec.cdi1 = cdi1Of s.sec.uds w.sec.fwMeas ∧
        (n ≠ 1 → ∃ e ∈ w.events.waiting, e.code = 0x0A02)) ∧
      (u.setVerifies a = false → u.setVerifies b = false → (∀ x, sd = some x → u.sdRecovery = false ∨ u.setVerifies x = false) →
        w.power.booted = false ∧ w.power.recovery = true ∧ w.sec = s.sec)) ∧
  (∀ (t o : Nat) (d : Bytes) (s u : State), s.tick t = u → u.power.recovery = true →
    (d.length ≤ 8176 → o + d.length ≤ 134217728 →
      ∃ w, exec (.recoveryChunk t ⟨0, 0⟩ o d) s = .next w ∧ w.power = { s.power with chunks := mwrite s.power.chunks o d } ∧ w.sec = s.sec ∧
        w.folds = s.folds ∧ w.cfg = s.cfg ∧ storesSame s w) ∧
    (8176 < d.length ∨ 134217728 < o + d.length → exec (.recoveryChunk t ⟨0, 0⟩ o d) s = .next (u.mbAnswer 0 0x06090030 0))) ∧
  (∀ (t : Nat) (x : FwSet) (s u : State), s.tick t = u → u.power.recovery = true →
    ∃ w, exec (.recoveryBoot t ⟨0, 0⟩ x) s = .next w ∧ w.folds = s.folds ∧ w.cfg = s.cfg ∧ storesSame s w ∧
      (u.setVerifies x = true → w.power.booted = true ∧ w.power.recovery = false ∧ w.sec.bootFrom = 3 ∧
        w.sec.fwMeas = digest (ascii [0x49, 0x5A, 0x46, 0x57] ++ x.manifest ++ x.shepherd ++ x.root ++ x.quadrant)) ∧
      (u.setVerifies x = false → w = u.mbAnswer 0 0x08000020 0 ∧ w.power = s.power ∧ w.sec = s.sec)) ∧
  (∀ (t o : Nat) (fn : FnId) (d : Bytes) (x : FwSet) (s u : State), s.tick t = u → u.barDead fn = false → fn ≠ 0 ∨ u.power.recovery = false →
    exec (.recoveryChunk t ⟨fn, 0⟩ o d) s = .next (u.mbAnswer fn 0x08000022 0) ∧
    exec (.recoveryBoot t ⟨fn, 0⟩ x) s = .next (u.mbAnswer fn 0x08000022 0)) ∧
  (∀ (t o n : Nat) (fn : FnId) (d : Bytes) (x : FwSet) (s u : State), s.tick t = u → u.barDead fn = false → n ≠ 0 →
    exec (.recoveryChunk t ⟨fn, n⟩ o d) s = .next (u.mbAnswer fn 0x06090030 0) ∧
    exec (.recoveryBoot t ⟨fn, n⟩ x) s = .next (u.mbAnswer fn 0x06090030 0))

/-- SUPPLY_SOURCE_CHANGE, MAIN_POWER_LOSS, SHEPHERD_SUPPLY_LOSS and SHEPHERD_RESTART_DONE (15, R418, Table 15.3, R439; 17, R467). -/
def Obligations.SuppliesOfTheShepherd : Prop :=
  (∀ (t : Nat) (m p a : Bool) (s u : State), s.tick t = u → u.shep.up = true → (m || p || a) = true →
    exec (.supplySourceChange t m p a) s = .next { u with shep := { u.shep with
      supplies := (m, p, a), source := if m then .main else if p then .poe else .aux } }) ∧
  (∀ (t : Nat) (s u : State), s.tick t = u → u.power.main = true →
    ∃ w, exec (.mainPowerLoss t) s = .next w ∧ (∀ f, w.fold f = Fold.dflt) ∧ w.tiles = [] ∧ (∀ k, (w.hbm k).mem = []) ∧ w.chans = [] ∧
      w.clock.running = false ∧ w.power.main = false ∧ w.power.ready = false ∧ w.kept = s.kept ∧
      w.cfg = (if s.shep.restore then Settings.dflt else s.shep.stored) ∧
      (s.shep.supplies.2.1 = true → w.shep.source = .poe ∧ w.shep.up = s.shep.up) ∧
      (s.shep.supplies.2.1 = false → s.shep.supplies.2.2 = true → w.shep.source = .aux ∧ w.shep.up = s.shep.up) ∧
      (s.shep.supplies.2.1 = false → s.shep.supplies.2.2 = false → w.shep.up = false)) ∧
  (∀ (t : Nat) (s u : State), s.tick t = u →
    ∃ w, exec (.shepherdSupplyLoss t) s = .next w ∧ w.shep.up = false ∧ w.shep.alState = 1 ∧ w.shep.nmt = 0 ∧ w.shep.segs = [] ∧
      w.kept = s.kept ∧ w.events.log = [] ∧ w.events.waiting = [] ∧ w.power.main = false ∧
      (s.power.main = false → w.shep.stored = s.shep.stored ∧ w.cfg = s.cfg)) ∧
  (∀ (t : Nat) (s u v : State), s.tick t = u → u.shep.restarting = true →
    { u with shep := { u.shep with restarting := false, alState := s.shep.fieldBefore.1, nmt := s.shep.fieldBefore.2 } } = v →
    (s.shep.fieldBefore.2 ≠ 0 ∨ u.shep.fbPresHigh = true → exec (.shepherdRestartDone t) s = .next v) ∧
    (s.shep.fieldBefore.2 = 0 → u.shep.fbPresHigh = false → exec (.shepherdRestartDone t) s = .next v.canBoot))

/-- PERST_ASSERT, PERST_DEASSERT, PCIE_RATE_CHANGE, FUNCTION_LEVEL_RESET and IDE_CHECK_FAILED (15, R435, R426; 10, R278; 18, R500, Table 18.8). -/
def Obligations.PciePinsAndFunctionResets : Prop :=
  (∀ (t : Nat) (s u : State), s.tick t = u → u.power.perst = false → u.power.main = true → u.power.halted = false →
    ∃ w, exec (.perstAssert t) s = .next w ∧ warmFrom s w ∧ w.power.perst = true ∧ w.pcie.gen = 0 ∧ w.pcie.width = 0 ∧ w.clock = u.clock ∧
      (∀ f, isActive (s.fold f).st = true → ∃ e ∈ w.events.waiting, e.code = 0x0907 ∧ e.isSealed = true)) ∧
  (∀ (t : Nat) (s u : State), s.tick t = u → u.power.perst = true ∨ u.power.main = false →
    exec (.perstAssert t) s = .next { u with power := { u.power with perst := true }, pcie := { u.pcie with gen := 0, width := 0, cfgReady := false } }) ∧
  (∀ (t : Nat) (s u : State), s.tick t = u → exec (.perstDeassert t) s =
    .next { u with power := { u.power with perst := false, perstAt := u.now, releasedAt := u.now } }) ∧
  (∀ (t g n : Nat) (s u : State), s.tick t = u → u.power.perst = false → u.power.main = true → 1 ≤ g → g ≤ 6 → n ∈ [1, 4, 8, 16] →
    ∃ w, exec (.pcieRateChange t g n) s = .next w ∧ w.pcie.gen = g ∧ w.pcie.width = n ∧
      (u.pcie.gen ≠ 0 → (u.pcie.gen ≠ g ∨ u.pcie.width ≠ n) → w.pcie.rateChanges = s.pcie.rateChanges + 1 ∧
        ∃ e ∈ w.events.waiting, e.code = 0x0204) ∧
      w.power.level = w.computeLevel ∧ w.folds = s.folds ∧ w.cfg = s.cfg ∧ storesSame s w) ∧
  (∀ (t : Nat) (fn : FnId) (s u : State), s.tick t = u →
    ∃ w, exec (.functionLevelReset t fn) s = .next w ∧ (w.fn fn).q0 = Queue.dflt ∧ (w.fn fn).q1 = Queue.dflt ∧ (w.fn fn).mbStatus = 0 ∧
      (w.fn fn).mbResp = [] ∧ (w.fn fn).waitingCqes = (s.fn fn).waitingCqes.filter (fun c => c.q != 0) ∧ (∀ v, v ≠ fn → w.fn v = s.fn v) ∧
      (∀ f, { w.fold f with bg := (s.fold f).bg } = s.fold f) ∧
      (∀ f, (s.fold f).bg = none → (w.fold f).bg = none) ∧
      (∀ f b, (s.fold f).bg = some b → (w.fold f).bg = some (if b.fn = fn.val then { b with orphan := true } else b)) ∧
      w.cfg = s.cfg ∧ storesSame s w) ∧
  (∀ (t : Nat) (fn : FnId) (s u : State), s.tick t = u → exec (.ideCheckFailed t fn) s =
    .next { u.modFn fn fun x => { x with ide := 3 } with pcie := { u.pcie with aerIde := true } })

/-- The trips of chapter 14 (Table 14.5, R402 to R408), each where its condition holds. That the sequence is one step is log entry 33's. -/
def Obligations.TripsHaltTheCard : Prop :=
  (∀ (t mv : Nat) (r : Rail) (s u : State), s.tick t = u → u.power.main = true →
    (u.power.halted = false → mv < tripMv r u.cfg.op → ∃ w, exec (.supplyTrip t r mv) s = .next w ∧ haltedFrom s w ∧
      ∃ e ∈ w.events.waiting, e.code = 0x0902) ∧
    (mv < warnMv r u.cfg.op → exec (.supplyWarn t r mv) s = .next (u.emit 0 0x0901 (le 1 (railCode r) ++ le 2 mv)))) ∧
  (∀ (t mw : Nat) (s u : State), s.tick t = u → u.power.main = true → u.power.halted = false → opCapW u.cfg.op * 1000 < mw →
    ∃ w, exec (.powerOverrun t mw) s = .next w ∧ haltedFrom s w ∧ w.power.boardMw = mw ∧ ∃ e ∈ w.events.waiting, e.code = 0x0906) ∧
  (∀ (t k : Nat) (s u : State), s.tick t = u → u.power.tripAt = some k → k ≤ u.now → u.power.halted = false →
    ∃ w, exec (.thermalTrip t) s = .next w ∧ haltedFrom s w ∧ ∃ e ∈ w.events.waiting, e.code = 0x0904) ∧
  (∀ (t : Nat) (g : Bool) (s u : State), s.tick t = u → u.power.main = true → u.power.halted = false →
    ∃ w, exec (.securityEngineOrTickGeneratorFault t g) s = .next w ∧ haltedFrom s w ∧
      w.clock.running = (if g then false else s.clock.running)) ∧
  (∀ (t : Nat) (r : List (Nat × Int)) (s u : State), s.tick t = u → u.power.main = true → u.power.halted = false →
    ∃ w, exec (.temperatureSample t r) s = .next w ∧ w.folds = s.folds ∧ w.tiles = s.tiles ∧ w.cfg = s.cfg ∧
      (∀ k, (w.hbm k).mem = (s.hbm k).mem ∧ (w.hbm k).lost = (s.hbm k).lost) ∧
      ((∃ x ∈ r, sensorOk r x = true ∧ 1050 ≤ x.2) → u.power.tripAt = none → w.power.tripAt = some (u.cardTick u.now)) ∧
      (∀ k, u.power.tripAt = some k → w.power.tripAt = some k) ∧
      ((∀ x ∈ r, sensorOk r x = true ∧ x.2 < 1050) → u.power.tripAt = none → w.power.tripAt = none))

/-- QSFP_DD_MODULE_INSERT, FB_PRES_CHANGE and PRODUCER_HEARTBEAT (17, R464, R467; 13, Table 13.7). When a module is inserted its ports come up at once (log entry 32). -/
def Obligations.ModulesAndTheFieldBracket : Prop :=
  (∀ (t watts : Nat) (c : Fin 2) (s u : State), s.tick t = u →
    ∃ w, exec (.qsfpDdModuleInsert t c watts) s = .next w ∧
      (∀ p : PortId, p.val < portCount s.cfg.portLayout → cageOf s.cfg.portLayout p.val = c.val →
        w.port p = { s.port p with up := s.power.main && decide (watts ≤ 20) }) ∧
      (∀ p : PortId, ¬ (p.val < portCount s.cfg.portLayout ∧ cageOf s.cfg.portLayout p.val = c.val) → w.port p = s.port p) ∧
      (if c = 0 then w.power.lowPower.1 else w.power.lowPower.2) = decide (20 < watts) ∧ w.folds = s.folds ∧ w.cfg = s.cfg ∧ storesSame s w) ∧
  (∀ (t : Nat) (s u v : State), s.tick t = u → { u with shep := { u.shep with fbPresHigh := false } } = v →
    exec (.fbPresChange t true) s = .next { u with shep := { u.shep with fbPresHigh := true, alState := 1, nmt := 0, fieldBefore := (1, 0) } } ∧
    (u.shep.fbPresHigh = true → u.shep.up = true → u.shep.restarting = false → exec (.fbPresChange t false) s = .next v.canBoot ∧
      (1 ≤ u.canNode → u.canNode ≤ 127 → v.canBoot = ({ v with shep := { v.shep with nmt := 0x7F } }).send (.canNmt u.canNode)) ∧
      (u.canNode = 0 ∨ 127 < u.canNode → v.canBoot = { v with shep := { v.shep with nmt := 0 } })) ∧
    (u.shep.fbPresHigh = false ∨ u.shep.up = false ∨ u.shep.restarting = true → exec (.fbPresChange t false) s = .next v)) ∧
  (∀ (t : Nat) (s u : State), s.tick t = u → u.shep.up = true → u.shep.restarting = false → u.shep.fbPresHigh = false → u.shep.nmt ≠ 0 →
    u.num 0x2060 4 0 = 0 → u.num 0x1017 0 1000 ≠ 0 → exec (.producerHeartbeat t) s = .next (u.send (.canNmt u.shep.nmt)))

/-- EAT_READ, SEGMENTED_TRANSFER_TIMEOUT, SNAPSHOT_REFRESH and EVENT_LOG_POSITION (13, R373, R374, R383 to R385). -/
def Obligations.TokensSnapshotsAndLogPositions : Prop :=
  (∀ (t : Nat) (a : Access) (f : FoldId) (s u : State) (n : Bytes), s.tick t = u → u.writeService a = 2 → boxAnswers u a →
    (a.path = 3 → inPrefix (u.val 0x2050 4 (List.replicate 17 0)) a.source = true) → (a.path = 0 → a.fn = 0 ∨ a.fn = vfOf f) →
    mget [] u.shep.eatNonces (16 * a.path.val + f.val) = n →
    (n.isEmpty = false → (u.fold f).load.isSome = true → ∃ w, exec (.eatRead t a f) s = .next w ∧
      w = (({ u with shep := { u.shep with eats := mset [] u.shep.eats (16 * a.path.val + f.val) (u.eatOf f n) } }).answer
        a (0x300D + 0x20 * f.val) 2 0 0 (u.eatOf f n)) ∧ w.cfg = s.cfg ∧ cardSame s w) ∧
    (n.isEmpty = true → exec (.eatRead t a f) s = .next (u.answer a (0x300D + 0x20 * f.val) 2 0x08000024 0 []))) ∧
  (∀ (t : Nat) (a : Access) (i sub : Nat) (s u : State), s.tick t = u → u.shep.up = true → u.shep.restarting = false →
    ∃ w, exec (.segmentedTransferTimeout t a i sub) s = .next w ∧ w.cfg = s.cfg ∧ cardSame s w ∧
      (∀ x, x ∈ w.shep.segs ↔ x ∈ s.shep.segs ∧ ¬ (x.path = a.path.val ∧ x.fn = a.fn.val ∧ x.index = i ∧ x.sub = sub)) ∧
      (u.power.gated = false → .sdo a.path.val a.fn.val 0x05040000 0 [] ∈ w.out)) ∧
  (∀ (t : Nat) (m : Readings) (s u : State), s.tick t = u → u.shep.up = true → u.shep.restarting = false → u.clock.running = true →
    u.snapDue = true →
    ∃ w, exec (.snapshotRefresh t m) s = .next w ∧ w = (u.takeReadings m).takeSnapshot ∧ w.shep.snap = ⟨u.lastTick, (u.takeReadings m).telAll⟩ ∧
      w.power.boardMw = m.boardPower ∧ w.power.coreMv = m.coreRail ∧
      w.power.hottest = m.hottest ∧ w.shep.powerMw = m.shepherdPower ∧ w.folds = s.folds ∧ w.cfg = s.cfg ∧ w.tiles = s.tiles ∧
      w.events = s.events) ∧
  (∀ (t : Nat) (s u : State), s.tick t = u →
    ∃ w o, exec (.eventLogPosition t) s = .next w ∧
      o.Perm (s.events.waiting.filter fun e => decide (e.stamp + 1000000 ≤ u.now)) ∧ o.Pairwise (fun a b => a.before b = true) ∧
      w.events.log = (s.events.log ++ o).drop ((s.events.log ++ o).length - 65536) ∧
      w.events.waiting = s.events.waiting.filter (fun e => decide (u.now < e.stamp + 1000000)) ∧
      w.events.next = s.events.next + o.length ∧ w.folds = s.folds ∧ w.cfg = s.cfg ∧ storesSame s w)


/-- PREEMPT_NOTICE on its three paths (12, R322 to R327): what an accepted notice leaves, and each refusal with its answer. -/
def Obligations.NoticesAreTakenOnEveryPath : Prop :=
  (∀ (s : State) (f : FoldId) (n : NoticePayload), noticeTaken s (s.takeNotice f n) f n ∧ (s.takeNotice f n).cfg = s.cfg ∧ storesSame s (s.takeNotice f n)) ∧
  (∀ (t : Nat) (r : WReq) (s u v : State) (f : FoldId) (b : Bytes) (n : NoticePayload), s.tick t = u → admits u 0x5800 0 r →
    payloadOf r.data = b → decodeNotice b = n → n.foldId = some f → (u.admitWrite r.acc 0x5800 0 r.data false).st = v →
    (noticeGood u f b → exec (.preemptNotice t (.dict r)) s = .next ((v.takeNotice f n).answer r.acc 0x5800 0 0 0 [])) ∧
    (u.noticeOk f b = false → exec (.preemptNotice t (.dict r)) s =
      .next ((v.noticeReject f r.acc.path.val n.seq).answer r.acc 0x5800 0 0x06090030 0x0801 [])) ∧
    (u.noticeOk f b = true → n.mode = 1 → (u.fold f).pre.drain.isSome = true → exec (.preemptNotice t (.dict r)) s =
      .next ((v.emit (unitFold f) 0x0802 (le 4 n.seq)).answer r.acc 0x5800 0 0x08000022 0x0802 []))) ∧
  (∀ (t : Nat) (q : QHdr) (o : Signed) (s u v w : State) (n : NoticePayload), s.tick t = u → u.fetch q.fn 0 = v → takesCommand u q →
    (v.admitWrite (accOf q) 0x5800 0 (.signed o) true).abort = 0 → (v.admitWrite (accOf q) 0x5800 0 (.signed o) true).st = w →
    decodeNotice o.payload = n →
    (noticeGood u q.fold o.payload → exec (.preemptNotice t (.queue q o)) s =
      .next ((w.takeNotice q.fold n).complete q 0 0 (w.cutKnown o.payload) 0 0)) ∧
    (u.noticeOk q.fold o.payload = false → exec (.preemptNotice t (.queue q o)) s =
      .next ((w.noticeReject q.fold 0 n.seq).complete q 0xA 0x0801 0 0 0)) ∧
    (u.noticeOk q.fold o.payload = true → n.mode = 1 → (u.fold q.fold).pre.drain.isSome = true → exec (.preemptNotice t (.queue q o)) s =
      .next ((w.emit (unitFold q.fold) 0x0802 (le 4 n.seq)).complete q 0xA 0x0802 0 0 0))) ∧
  (∀ (t : Nat) (rx : IzrRx) (o : Signed) (s u v : State) (f : FoldId) (b : Bytes) (n : NoticePayload), (s.tick t).rxFrame rx = u → u.izrLive rx = true →
    u.izrCause rx = none → rx.hdr.typ = 4 → u.izrOpen rx = .ok b → u.chanFold rx.hdr.channel = some f → decodeNotice o.payload = n →
    (u.izrAccept rx f).setSeq o.role o.seq = v →
    (o.size ≤ 4096 → u.sigOk 0x5800 0 1 o = true → noticeGood u f o.payload →
      ∃ w, exec (.preemptNotice t (.izr rx o)) s = .next w ∧ noticeTaken s w f n ∧ (w.chan rx.hdr.channel).inSeq = rx.hdr.seq ∧
        (w.chan rx.hdr.channel).outSeq = (s.chan rx.hdr.channel).outSeq + 1 ∧
        w = (v.takeNotice f n).sendIzr rx.hdr.channel 5 rx.hdr.epoch (vget (s.chan rx.hdr.channel).outKey (slotOf rx.hdr.epoch))
          (vget (s.chan rx.hdr.channel).salt (slotOf rx.hdr.epoch)) 0 (be 8 rx.hdr.seq) false) ∧
    (o.size ≤ 4096 → u.sigOk 0x5800 0 1 o = true → u.noticeOk f o.payload = false → exec (.preemptNotice t (.izr rx o)) s =
      .next (v.noticeReject f 4 n.seq)) ∧
    (4096 < o.size ∨ u.sigOk 0x5800 0 1 o = false → exec (.preemptNotice t (.izr rx o)) s = .next ((u.izrAccept rx f).noticeReject f 4 n.seq)))

/-- RECORD (10, R280; 18, R489, R494; 08, R210). -/
def Obligations.RecordsWaitForTheirFramesShare : Prop :=
  ∀ (t : Nat) (q : QHdr) (addr len res n : Nat) (s u v : State) (l : Loaded) (x : Fold), s.tick t = u → u.fetch q.fn 1 = v → takesEntry u q →
    u.fold q.fold = x → x.load = some l →
    (x.live = false → exec (.record t q addr len res n) s = .next u) ∧
    (x.live = true → x.growingNow = true → exec (.record t q addr len res n) s = .next (v.complete1 q 1 0 0 0 0)) ∧
    (x.live = true → x.growingNow = false → x.recordPlace = false → exec (.record t q addr len res n) s = .next (v.complete1 q 0x24 0 0 0 0)) ∧
    (x.live = true → x.growingNow = false → x.recordPlace = true →
      (x.adm.qp ≤ x.adm.reads.length + x.adm.stamped → exec (.record t q addr len res n) s = .next u) ∧
      (x.adm.reads.length + x.adm.stamped < x.adm.qp →
        (len = 0 ∨ 8192 < len ∨ res % 8 ≠ 0 → exec (.record t q addr len res n) s = .next (v.complete1 q 2 0 0 0 0)) ∧
        (1 ≤ len → len ≤ 8192 → res % 8 = 0 → n < bodyLen l + 32 →
          exec (.record t q addr len res n) s = .next (v.complete1 q 0x22 0 0 0 0)) ∧
        (1 ≤ len → len ≤ 8192 → res % 8 = 0 → bodyLen l + 32 ≤ n → ∃ w, exec (.record t q addr len res n) s = .next w ∧
          w = (v.setFold q.fold (w.fold q.fold)).send (.hostRead q.fn.val addr len) ∧
          w.fold q.fold = { x with
            adm := { x.adm with reads := x.adm.reads ++ [⟨q.cid, res, x.adm.fetched, x.repTag⟩], fetched := x.adm.fetched + 1 },
            res := { x.res with taken := x.res.taken + 1 },
            rep := if x.run.replay = true then { x.rep with cur := x.rep.cur.map fun c => (c.1, c.2.1, c.2.2 + 1) } else x.rep })))

/-- RECORD_READ_COMPLETE and COMPLETION_TIMEOUT (18, R490, Table 18.8). That a read of a replay Fold gives its place back is log entry 25's;
the status of a ROWS entry whose buffer read fails is log entry 41's. -/
def Obligations.ReadsEndInAStampOrAnError : Prop :=
  (∀ (t : Nat) (f : FoldId) (cid : Nat) (d : Read) (s u : State) (x : Fold), s.tick t = u → u.fold f = x → u.findRead f cid = some d →
    (∀ b, ∃ w, exec (.recordReadComplete t f cid (.data b)) s = .next w ∧ w = u.setFold f (w.fold f) ∧
      w.fold f = { x with adm := { x.adm with
        reads := x.adm.reads.filter (fun y => y.n != d.n),
        stamped := if x.frameAt u.now = x.frame then x.adm.stamped + 1 else x.adm.stamped,
        arrivals := x.adm.arrivals ++ [⟨x.frameAt u.now, u.now, 0x040, (0, d.n), [], none, b, .pcie d.cid d.resAddr, none, false, d.orig⟩] } }) ∧
    (∀ r, r ∈ [ReadResult.poisoned, .unsupported, .completerAbort] → ∃ w, exec (.recordReadComplete t f cid r) s = .next w ∧
      w = { u.readError f d with pcie := { u.pcie with aerAdvisory := u.pcie.aerAdvisory || r == .poisoned } }) ∧
    exec (.completionTimeout t (.record f cid)) s = .next { u.readError f d with pcie := { u.pcie with aerAdvisory := true } }) ∧
  (∀ (s : State) (f : FoldId) (d : Read),
    ((s.readError f d).fold f).res.taken = (s.fold f).res.taken - 1 ∧ othersSame f s (s.readError f d) ∧ storesSame s (s.readError f d) ∧
    (d.orig = none → (s.readError f d).fold f = { s.fold f with
      adm := { (s.fold f).adm with reads := (s.fold f).adm.reads.filter (fun y => y.n != d.n) },
      res := { (s.fold f).res with taken := (s.fold f).res.taken - 1 } }) ∧
    (∀ o, d.orig = some o → ((s.readError f d).fold f).rep.cur =
      (s.fold f).rep.cur.map fun c => if c.2.1 = o.hid then (c.1, c.2.1, c.2.2 - 1) else c) ∧
    s.readError f d = ((s.setFold f ((s.readError f d).fold f)).postRecord f d.cid 0x21 0 0 0)) ∧
  (∀ (t : Nat) (v : FnId) (n : Fin 2) (s u : State), s.tick t = u → exec (.completionTimeout t (.ring v n)) s =
    .next { u.modFn v fun x => x.setQueue n.val { x.queue n.val with error := true } with pcie := { u.pcie with aerTimeout := true } }) ∧
  (∀ (t : Nat) (f : FoldId) (b : Background) (s u : State), s.tick t = u → (u.fold f).bg = some b → b.orphan = false → b.fn < 17 →
    ∃ w v, v.val = b.fn ∧ exec (.completionTimeout t (.extent f)) s = .next w ∧
      w = { (u.setFold f { u.fold f with bg := none }).post v ⟨0, b.cid, 0xC, 0, 0, 0, 0⟩ with pcie := { u.pcie with aerTimeout := true } } ∧
      w.fold f = { s.fold f with bg := none }) ∧
  (∀ (t : Nat) (q : QHdr) (s u : State), s.tick t = u → u.canFetch q.fn 0 = true → exec (.completionTimeout t (.object q)) s =
    .next { (u.fetch q.fn 0).complete q 0xC 0 0 0 0 with pcie := { u.pcie with aerTimeout := true } }) ∧
  (∀ (t : Nat) (q : QHdr) (s u : State), s.tick t = u → u.canFetch1 q.fn = true → exec (.completionTimeout t (.rows q)) s =
    .next { (u.fetch q.fn 1).complete1 q 0x21 0 0 0 0 with pcie := { u.pcie with aerAdvisory := true } })

/-- REPLAY_HEADER, read from its entry's bytes (03, Table 3.3, R63, R68; 18, R494). -/
def Obligations.ReplayHeadersComeInOrder : Prop :=
  (∀ b : Bytes, b.length = 64 → (decodeReplayHdr b).origFrame = leNat (slice b 0 8) ∧ (decodeReplayHdr b).origStamp = leNat (slice b 8 8) ∧
    (decodeReplayHdr b).recordCount = leNat (slice b 16 4) ∧ (decodeReplayHdr b).lateSet.toNat = leNat (slice b 20 8) ∧
    (decodeReplayHdr b).expectedRoot = slice b 28 32 ∧ (decodeReplayHdr b).rsvd = leNat (slice b 60 4)) ∧
  (∀ (t : Nat) (q : QHdr) (b : Bytes) (h : ReplayHdr) (s u v : State) (x : Fold), s.tick t = u → u.fetch q.fn 1 = v → takesEntry u q →
    u.fold q.fold = x → decodeReplayHdr b = h →
    (x.st ≠ .running → exec (.replayHeader t q b) s = .next u) ∧
    (x.st = .running → x.run.replay = false → exec (.replayHeader t q b) s = .next (v.complete1 q 1 0 0 0 0)) ∧
    (x.st = .running → x.run.replay = true → h.rsvd ≠ 0 → exec (.replayHeader t q b) s = .next (v.complete1 q 2 0 0 0 0)) ∧
    (x.st = .running → x.run.replay = true → h.rsvd = 0 → x.headerBusy = true →
      exec (.replayHeader t q b) s = .next (v.complete1 q 0x24 0 0 0 0)) ∧
    (x.st = .running → x.run.replay = true → h.rsvd = 0 → x.headerBusy = false →
      (∀ p i k, x.rep.prev = some (p, i, k) → (h.origFrame < p ∨ h.origFrame = p ∧ k = false) → exec (.replayHeader t q b) s =
        .next ((v.emit (unitFold q.fold) 0x030E (le 8 h.origFrame ++ le 8 p)).complete1 q 0x24 0x030E 0 0 0)) ∧
      ((∀ p i k, x.rep.prev = some (p, i, k) → (p < h.origFrame ∨ p = h.origFrame ∧ k = true)) →
        exec (.replayHeader t q b) s = .next (v.setFold q.fold { x with rep :=
          { cur := some (h, x.rep.nextId, 0), hdrs := x.rep.hdrs ++ [⟨x.rep.nextId, h, q.cid, [], x.frame⟩], nextId := x.rep.nextId + 1,
            prev := some (h.origFrame, x.rep.nextId, false) } }))))

/-- ROWS (18, R495). Log entry 41 says how a split entry goes on and that the buffer's rows fill it. -/
def Obligations.RowsComeInRowOrder : Prop :=
  ∀ (t : Nat) (q : QHdr) (addr len first count pass : Nat) (b : Bytes) (d : List Bytes) (s u v : State) (l : Loaded) (x : Fold), s.tick t = u →
    u.fetch q.fn 1 = v → takesEntry u q → u.fold q.fold = x → x.load = some l → u.power.halted = false →
    (x.growingNow = false → x.grow.rowsCid = none → exec (.rows t q addr len first count pass b) s = .next (v.complete1 q 1 0 0 0 0)) ∧
    (x.live = true → x.growingNow = true → x.run.closed = false → x.grow.rowsThisFrame < l.res.ingestRows → x.grow.rowsCid = none →
      (pass = 1 → x.run.role ≠ 2 ∧ x.run.role ≠ 4) →
      (1 < pass ∨ rowsIn count b = none ∨ b.length ≠ len → exec (.rows t q addr len first count pass b) s = .next (v.complete1 q 2 0 0 0 0)) ∧
      (pass ≤ 1 → rowsIn count b = some d → b.length = len →
        (x.run.role = ingestRole pass → x.grow.inOrder pass first = true →
          ∃ w, exec (.rows t q addr len first count pass b) s = .next w ∧
            w = (v.send (.hostRead q.fn.val addr len)).takeRows q.fold l q pass first d 0 ∧ d.length = count ∧
            (w.fold q.fold).grow.rowsThisFrame = x.grow.rowsThisFrame + min count (l.res.ingestRows - x.grow.rowsThisFrame) ∧
            (w.fold q.fold).grow.rowsCid = (if count ≤ l.res.ingestRows - x.grow.rowsThisFrame then none else some q.cid) ∧
            (w.fold q.fold).st = x.st ∧ w.cfg = s.cfg) ∧
        (x.run.role ≠ ingestRole pass ∨ x.grow.inOrder pass first = false → exec (.rows t q addr len first count pass b) s =
          .next (v.complete1 q 0x26 0 0 0 0))))

/-- IZR_DATA and KEY_OFFER (10, R261 to R269; 09, R237, R238). The order of the causes is log entry 23's. -/
def Obligations.IzrMessagesOpenUnderTheChannelsKeys : Prop :=
  (∀ (t : Nat) (rx : IzrRx) (s u v : State) (f : FoldId) (b : Bytes) (es : List Bytes), (s.tick t).rxFrame rx = u → u.izrLive rx = true →
    u.izrCause rx = none → rx.hdr.typ = 0 → u.izrOpen rx = .ok b → u.chanFold rx.hdr.channel = some f →
    izrEntries (b.length + 1) b = some es → es.length = rx.hdr.count → b.length = rx.hdr.length → u.izrAccept rx f = v →
    ((u.chanCfg rx.hdr.channel).role ≠ 1 → ∃ w, exec (.izrData t rx) s = .next w ∧ w = v.landAll f rx (u.izrRoute rx) es ∧
      (w.chan rx.hdr.channel).inSeq = rx.hdr.seq ∧ (∀ c, c ≠ rx.hdr.channel → w.chan c = s.chan c) ∧ othersSame f s w ∧ w.cfg = s.cfg ∧
      w.tiles = s.tiles ∧
      ((u.fold f).takesAt u.now = true → ∃ as, (w.fold f).adm.arrivals = (s.fold f).adm.arrivals ++ as ∧ as.map (·.input) = es ∧
        ∀ a ∈ as, a.stamp = u.now ∧ a.frame = (s.fold f).frameAt u.now ∧ a.channel = some rx.hdr.channel ∧ a.route = u.izrRoute rx) ∧
      ((u.fold f).takesAt u.now = false → (w.fold f).adm.arrivals = (s.fold f).adm.arrivals ∧
        (w.fold f).tel.drops = (s.fold f).tel.drops + es.length)) ∧
    ((u.chanCfg rx.hdr.channel).role = 1 → ∀ e, es = [e] → exec (.izrData t rx) s = .next (v.deliverInput f (u.chanCfg rx.hdr.channel).input
      (unitPort rx.port) (rx.msgIndex, 0) (izrRecId rx.hdr.channel rx.hdr.seq 0) e (u.izrRoute rx)))) ∧
  (∀ (t : Nat) (rx : IzrRx) (o : HpkeOffer) (s u : State) (f : FoldId), (s.tick t).rxFrame rx = u → u.izrLive rx = true →
    u.izrCause rx = none → rx.hdr.typ = 2 → u.chanFold rx.hdr.channel = some f → rx.hdr.length = 97 → o.enc.length = 97 →
    u.offerOpens f rx o = true → offerTagOk rx o = true → (u.chan rx.hdr.channel).inSeq < rx.hdr.seq →
    ∃ w, exec (.keyOffer t rx o) s = .next w ∧ (w.chan rx.hdr.channel).inSeq = rx.hdr.seq ∧
      (w.chan rx.hdr.channel).outSeq = (s.chan rx.hdr.channel).outSeq + 1 ∧
      (w.chan rx.hdr.channel).inKey = vset (s.chan rx.hdr.channel).inKey (slotOf rx.hdr.epoch) o.ingress ∧
      (w.chan rx.hdr.channel).outKey = vset (s.chan rx.hdr.channel).outKey (slotOf rx.hdr.epoch) o.egress ∧
      (w.chan rx.hdr.channel).salt = vset (s.chan rx.hdr.channel).salt (slotOf rx.hdr.epoch) o.salt ∧
      (∀ c, c ≠ rx.hdr.channel → w.chan c = s.chan c) ∧ othersSame f s w ∧ w.cfg = s.cfg ∧ w.tiles = s.tiles) ∧
  (∀ (t k : Nat) (rx : IzrRx) (o : HpkeOffer) (s u : State), (s.tick t).rxFrame rx = u → u.izrLive rx = true → u.izrCause rx = some k →
    exec (.izrData t rx) s = .next (u.discardIzr rx.port k rx.hdr.channel) ∧ exec (.keyOffer t rx o) s = .next (u.discardIzr rx.port k rx.hdr.channel) ∧
    (u.discardIzr rx.port k rx.hdr.channel).folds = s.folds ∧ (u.discardIzr rx.port k rx.hdr.channel).chans = s.chans ∧
    (u.discardIzr rx.port k rx.hdr.channel).tiles = s.tiles ∧
    ((u.discardIzr rx.port k rx.hdr.channel).port rx.port).discard = (s.port rx.port).discard + 1) ∧
  (∀ (t : Nat) (rx : IzrRx) (s u : State), (s.tick t).rxFrame rx = u → u.izrLive rx = true → u.izrCause rx = none → rx.hdr.typ = 0 →
    ∀ k, u.izrOpen rx = .error k → exec (.izrData t rx) s = .next (u.discardIzr rx.port k rx.hdr.channel))

/-- NMT_COMMAND (13, R376). -/
def Obligations.FieldManagementMovesTheControllerOnly : Prop :=
  (∀ (t : Nat) (c : NmtCmd) (s u : State), s.tick t = u → (∀ n, c ≠ .lssNodeId n) →
    (u.fieldUp = false → exec (.nmtCommand t c) s = .next u) ∧
    (u.fieldUp = true → ∃ w, exec (.nmtCommand t c) s = .next w ∧
      w = { u with shep := { u.shep with nmt := w.shep.nmt, alState := w.shep.alState }, out := w.out } ∧
      (u.shep.nmt = 0 → w.shep.nmt = 0 ∧ w.out = s.out) ∧
      (u.shep.nmt ≠ 0 → (c = .start → w.shep.nmt = 5) ∧ (c = .stop → w.shep.nmt = 4) ∧ (c = .preOperational → w.shep.nmt = 0x7F) ∧
        (c = .resetNode ∨ c = .resetComm → w = u.canBoot)) ∧
      (∀ x, c = .alState x → w.shep.nmt = s.shep.nmt ∧ w.out = s.out ∧
        w.shep.alState = if u.ecatUp = true ∧ x ∈ [1, 2, 4, 8] then x else s.shep.alState) ∧
      ((∀ x, c ≠ .alState x) → w.shep.alState = s.shep.alState))) ∧
  (∀ (t n : Nat) (s u : State), s.tick t = u → u.fieldUp = true → 1 ≤ n → n ≤ 127 → u.shep.nmt ≠ 0 →
    exec (.nmtCommand t (.lssNodeId n)) s = .next { u with cfg := { u.cfg with vals := mset [] u.cfg.vals (0x2060 * 256 + 1) (le 1 n) } })

/-- ETHERCAT_PROCESS_DATA, CAN_PDO, CAN_BOOTUP_MESSAGE, PAUSE_FRAME, LLDP_TIMER and LLDPDU_RECEIVED (10, R258, R281 to R285). The AL states
in which images move are log entry 31's. -/
def Obligations.FieldImagesAndNeighbours : Prop :=
  (∀ (t : Nat) (b : Bytes) (s u : State), s.tick t = u → u.ecatUp = true →
    (u.shep.alState = 8 → ∃ v w, v = ({ u with shep := { u.shep with rxImage := mwrite u.shep.rxImage 0 (b.take 1024) } }).deliverImage 1 0
        (le 1 2 ++ le 8 u.now) (b.take 1024) ∧ exec (.ethercatProcessData t true b) s = .next w ∧
      w = v.send (.txPdo (mread s.shep.txImage 0 512)) ∧ w.shep.rxImage = mwrite s.shep.rxImage 0 (b.take 1024) ∧ w.cfg = s.cfg ∧ storesSame s w) ∧
    (u.shep.alState = 4 → exec (.ethercatProcessData t true b) s = .next (u.send (.txPdo (mread u.shep.txImage 0 512)))) ∧
    (u.shep.alState < 4 → exec (.ethercatProcessData t true b) s = .next u) ∧ exec (.ethercatProcessData t false b) s = .next u) ∧
  (∀ (t id : Nat) (p : Fin 4) (b : Bytes) (s u : State), s.tick t = u → u.fieldUp = true →
    (u.shep.nmt = 5 → ∃ w, exec (.canPdo t p id b) s = .next w ∧ w = u.deliverImage 2 (p.val + 1) (le 4 id ++ le 8 u.now) (b.take 64) ∧
      w.cfg = s.cfg ∧ storesSame s w ∧ w.shep = s.shep) ∧
    (u.shep.nmt ≠ 5 → exec (.canPdo t p id b) s = .next u)) ∧
  (∀ (t n : Nat) (s u : State), s.tick t = u → u.fieldUp = true → u.shep.nmt ≠ 0 → 1 ≤ n → n ≤ 127 →
    exec (.canBootupMessage t n) s = .next { u with shep := { u.shep with nodes := mset 0 u.shep.nodes n 1 } }) ∧
  (∀ (t prio n : Nat) (p : PortId) (k : PauseKind) (s u : State), s.tick t = u → p.val < portCount u.cfg.portLayout →
    ∃ w, exec (.pauseFrame t p k prio n) s = .next w ∧ (w.port p).pause = (s.port p).pause + 1 ∧
      (w.port p).pausedUntil = (if k = .clause31 ∨ prio = u.num 0x2033 0 0 then u.now + n else (s.port p).pausedUntil) ∧
      (∀ x, x ≠ p → w.port x = s.port x) ∧ w.folds = s.folds ∧ w.cfg = s.cfg ∧ storesSame s w) ∧
  (∀ (t : Nat) (s u : State), s.tick t = u →
    ∃ w, exec (.lldpTimer t) s = .next w ∧ w.folds = s.folds ∧ w.cfg = s.cfg ∧ storesSame s w ∧
      (∀ p : PortId, ((s.port p).up = true ∧ p.val < portCount s.cfg.portLayout ∧ (s.port p).lldpNext ≤ u.now →
          (w.port p).lldpNext = u.now + 30000000000) ∧
        (∀ n, (s.port p).neighbour = some n → (w.port p).neighbour = if n.expires ≤ u.now then none else some n)) ∧
      (u.power.gated = false → ∀ p : PortId, (s.port p).up = true → p.val < portCount s.cfg.portLayout → (s.port p).lldpNext ≤ u.now →
        Output.lldp p.val 120 s.sec.serial u.card ∈ w.out)) ∧
  (∀ (t ttl : Nat) (p : PortId) (a b c : Bytes) (s u : State), s.tick t = u →
    exec (.lldpduReceived t p a b c ttl) s = .next (u.modPort p fun x =>
      { x with rx := x.rx + 1, neighbour := if ttl = 0 then none else some ⟨a.take 64, b.take 64, c.take 64, u.now + ttl * 1000000000⟩ }))

/-- PTP_EVENT_MESSAGE, SYNC0 and TIME_WORD (02, R28 to R31; 11, R301). That a step happens where no Fold is active, and that picoseconds
are rounded downwards to counts, is log entry 37's. -/
def Obligations.TheGtcIsDisciplined : Prop :=
  (∀ (c : Clock) (t : Nat), (c.advance t).slew.natAbs + c.slewed (max c.gtc t) = c.slew.natAbs ∧
    10000 * c.slewed (max c.gtc t) ≤ max c.gtc t - c.slewAt) ∧
  (∀ (t : Nat) (p : PortId) (ps : Int) (s u : State), s.tick t = u → u.awake = true → u.clock.running = true →
    (u.card = 0 → u.num 0x2021 0 0 = 1 → u.num 0x2032 0 0 = p.val →
      (u.anyActive = true → exec (.ptpEventMessage t p ps) s = .next { u with clock := { u.clock.setSlew (ps / 1000) with offsetPs := ps } }) ∧
      (u.anyActive = false → ∃ w, exec (.ptpEventMessage t p ps) s = .next w ∧ w.now = ((u.now : Int) + ps / 1000).toNat ∧ w.clock.slew = 0 ∧
        w.clock.offsetPs = ps ∧ w.folds = s.folds ∧ w.cfg = s.cfg ∧ storesSame s w)) ∧
    (u.card ≠ 0 ∨ u.num 0x2021 0 0 ≠ 1 ∨ u.num 0x2032 0 0 ≠ p.val → exec (.ptpEventMessage t p ps) s = .next u)) ∧
  (∀ (t c : Nat) (ps : Int) (s u : State), s.tick t = u → u.awake = true → u.clock.running = true → u.ecatUp = true →
    (u.card = 0 → u.num 0x2021 0 0 = 2 →
      (c = s.cfg.tickPeriod → exec (.sync0 t c ps) s = .next { u with clock := ({ u.clock with
        sync0Locked := true, sync0Cycle := c, offsetPs := ps }).setSlew (tickDistance u.now c) }) ∧
      (c ≠ s.cfg.tickPeriod → exec (.sync0 t c ps) s = .next { u with clock := { u.clock with sync0Locked := false, sync0Cycle := c } })) ∧
    (u.card ≠ 0 ∨ u.num 0x2021 0 0 ≠ 2 → exec (.sync0 t c ps) s = .next u)) ∧
  (∀ (t sender r d : Nat) (k : LinkId) (s u v : State), s.tick t = u → u.awake = true →
    ((u.link k).carries = false → exec (.timeWord t k sender r d) s = .next u) ∧
    ((u.link k).carries = true → (u.modLink k fun x => { x with timeInterval := some (u.now / 65536), depth := some d }).reselect = v →
      ∃ w, exec (.timeWord t k sender r d) s = .next w ∧ (w.link k).depth = some d ∧ (w.link k).timeInterval = some (u.now / 65536) ∧
        w.now = u.now ∧ w.cfg = s.cfg ∧ storesSame s w ∧
        (v.heath.upstream = some k → w.clock.slew = (sender : Int) + 240 - u.now ∧ w.heath.reference = r ∧
          (4 < ((sender : Int) + 240 - u.now).natAbs → u.heath.members ≠ 0 → w.heath.alignLost = true ∧
            (u.heath.alignLost = false → ∃ e ∈ w.events.waiting, e.code = 0x0103))) ∧
        (v.heath.upstream ≠ some k → w.clock = u.clock)))

/-- ARM_CUTOFF and ARM_WORD (02, R42; 11, R295). -/
def Obligations.LaunchesAreAgreed : Prop :=
  (∀ (t : Nat) (f : FoldId) (s u : State), s.tick t = u → u.power.halted = false → (u.fold f).st = .armed → (u.fold f).run.cutoffOk = false →
    (u.now + 500000 < (u.fold f).run.launchAt → exec (.armCutoff t f) s = .next u) ∧
    ((u.fold f).run.launchAt ≤ u.now + 500000 →
      (u.missingWords f = [] → (u.findMapping f).isSome = true → exec (.armCutoff t f) s =
        .next (u.modFold f fun y => { y with run := { y.run with cutoffOk := true } })) ∧
      ((u.missingWords f ≠ [] ∨ u.findMapping f = none) → ∃ w, exec (.armCutoff t f) s = .next w ∧ (w.fold f).st = .loaded ∧
        (w.fold f).run.aborted = true ∧ (w.fold f).load = (s.fold f).load ∧ (∃ e ∈ w.events.waiting, e.code = 0x0102) ∧
        othersSame f s w ∧ storesSame s w ∧ w.cfg = s.cfg))) ∧
  (∀ (t : Nat) (h : RelayHdr) (a : ArmWord) (s u : State), s.tick t = u → u.awake = true →
    (u.freshWord { h with seq := a.armASeq } = false → u.freshWord { h with seq := a.bSeq } = false → exec (.armWord t h a) s = .next u) ∧
    (a.armASeq ≠ a.bNamesSeq → ∃ w, exec (.armWord t h a) s = .next w ∧ w.folds = s.folds ∧ storesSame s w ∧ w.cfg = s.cfg) ∧
    (u.freshWord { h with seq := a.armASeq } = true → a.armASeq = a.bNamesSeq →
      ∃ w, exec (.armWord t h a) s = .next w ∧
        (w.fold a.fold).run.armWords = (h.origin, a) :: (s.fold a.fold).run.armWords.filter (fun e => e.1 != h.origin) ∧
        othersSame a.fold s w ∧ storesSame s w ∧ w.cfg = s.cfg ∧
        (a.abort = false → (w.fold a.fold).st = (s.fold a.fold).st) ∧
        (a.abort = true → (s.fold a.fold).st = .armed → u.now < (s.fold a.fold).run.launchAt →
          a.launchAt = (s.fold a.fold).run.launchAt → (s.fold a.fold).inJob h.origin = true →
          (w.fold a.fold).st = .loaded ∧ (w.fold a.fold).run.aborted = true ∧ ∃ e ∈ w.events.waiting, e.code = 0x0102)))

/-- LINK_UP, HELLO, PEER_ATTESTATION_DONE, LINK_TEST_DONE and LINK_DOWN (11, R292, R293, R302, R305 to R307; 17, R465). -/
def Obligations.LinksRiseAndFall : Prop :=
  (∀ b : Bytes, cableLength (some b) = (if leNat (slice b 0 2) ≤ 300 then some (leNat (slice b 0 2)) else none) ∧ cableLength none = none) ∧
  (∀ (t c : Nat) (sp : Bool) (k : LinkId) (e : Option Bytes) (s u : State), s.tick t = u → u.awake = true →
    cablePartner u.topology u.card k.val = some (c, sp) →
    (∀ cm, cableLength e = some cm → (u.link k).state = 0 → ∃ w, exec (.linkUp t k e) s = .next w ∧
      w = (u.modLink k fun x =>
        { x with state := 2, partner := c, outOfUse := false, cable := some cm, timeInterval := some (u.now / 65536) }).startHello k ∧ (w.link k).state = 2 ∧ (w.link k).partner = c ∧
      (∀ j, j ≠ k → w.link j = s.link j) ∧ w.folds = s.folds ∧ w.cfg = s.cfg ∧ storesSame s w) ∧
    (cableLength e = none → exec (.linkUp t k e) s = .next u)) ∧
  (∀ (t : Nat) (h : Hello) (k : LinkId) (s u : State), s.tick t = u → u.awake = true → 2 ≤ (u.link k).state → (u.link k).outOfUse = false →
    (h.topology = u.topology → h.owner8 = padTo 8 u.kept.heathOwner → (∃ sp, cablePartner u.topology u.card k.val = some (h.card, sp)) →
      exec (.hello t k h) s = .next (u.modLink k fun x => { x with helloOk := true, partner := h.card })) ∧
    ((h.topology ≠ u.topology ∨ h.owner8 ≠ padTo 8 u.kept.heathOwner ∨ (∀ sp, cablePartner u.topology u.card k.val ≠ some (h.card, sp))) →
      exec (.hello t k h) s = .next (((u.modLink k fun x => { x with outOfUse := true, helloOk := false }).emit (unitLink k) 0x0703
        (le 1 h.card ++ le 1 h.topology)).reselect.checkUpstream))) ∧
  (∀ (t : Nat) (r : PeerAtt) (k : LinkId) (s u v : State), s.tick t = u → u.awake = true → 2 ≤ (u.link k).state → (u.link k).helloOk = true →
    (u.link k).attested = false → (u.link k).outOfUse = false →
    (u.modLink k fun y => { y with attested := true, keySlot := false, keys := vset y.keys 0 r.key, salts := vset y.salts 0 r.salt }) = v →
    (r.chainOk = true → r.spdmError = 0 → r.key.isEmpty = false → padTo 32 r.owner = padTo 32 u.kept.heathOwner →
      (r.peerGtc = none ∨ u.newcomer = false → exec (.peerAttestationDone t k r) s = .next v) ∧
      (∀ g, r.peerGtc = some g → u.newcomer = true → ∃ w, exec (.peerAttestationDone t k r) s = .next w ∧ w = v.stepGtc (g + 240) ∧
        w.now = g + 240)) ∧
    ((r.chainOk = false ∨ r.spdmError ≠ 0 ∨ r.key.isEmpty = true ∨ padTo 32 r.owner ≠ padTo 32 u.kept.heathOwner) →
      exec (.peerAttestationDone t k r) s = .next ((u.modLink k fun y => { y with outOfUse := true }).emit (unitLink k) 0x0704
        (le 1 (u.link k).partner ++ le 1 r.spdmError)))) ∧
  (∀ (t : Nat) (k : LinkId) (s u : State), s.tick t = u → u.awake = true → (u.link k).carries = true → (u.link k).tested = false →
    exec (.linkTestDone t k false) s = .next (((u.modLink k fun x => { x with outOfUse := true }).emit 0 0x0A01
      (le 1 6 ++ le 2 k.val)).reselect.checkUpstream) ∧
    ∃ w, exec (.linkTestDone t k true) s = .next w ∧ (w.link k).tested = true ∧ w.folds = s.folds ∧ w.cfg = s.cfg ∧ storesSame s w ∧
      (u.newcomer = true → (∀ j, (w.link j).carries = true → (w.link j).tested = true) → w.heath.joining = true)) ∧
  (∀ (t cause : Nat) (k : LinkId) (s u : State), s.tick t = u → u.power.booted = true → (u.link k).state ≠ 0 →
    (cause = 1 ∨ (cause = 3 ∧ ∃ i, (u.link k).timeInterval = some i ∧ i + 3 ≤ u.now / 65536) →
      ∃ w, exec (.linkDown t k cause) s = .next w ∧ (w.link k).state = 0 ∧ (w.link k).attested = false ∧
        (w.link k).keys = Vector.replicate 2 [] ∧ (w.link k).salts = Vector.replicate 2 [] ∧ (w.link k).tested = false ∧
        (∃ e ∈ w.events.waiting, e.code = 0x0702) ∧ w.cfg = s.cfg ∧ w.tiles = s.tiles) ∧
    (cause = 3 → (∀ i, (u.link k).timeInterval = some i → u.now / 65536 < i + 3) → exec (.linkDown t k cause) s = .next u))

/-- EPOCH_REQ, MEMBER_PROPOSE, MEMBER_ACK, MEMBER_ABORT, EPOCH_ACK_CUTOFF, EPOCH_COMMIT and EPOCH_APPLY (11, R308 to R311). -/
def Obligations.EpochsAreProposedAcknowledgedAndApplied : Prop :=
  (∀ (t : Nat) (h : RelayHdr) (b : MemberBody) (c n k : Nat) (s u : State), s.tick t = u → u.awake = true → u.freshWord h = false →
    exec (.epochReq t h c n k) s = .next u ∧ exec (.memberPropose t h b) s = .next u ∧ exec (.memberAck t h b) s = .next u ∧
    exec (.memberAbort t h b) s = .next u) ∧
  (∀ (t : Nat) (h : RelayHdr) (b : MemberBody) (c n k : Nat) (s u : State), s.tick t = u → u.awake = true → u.freshWord h = true →
    (∃ w, exec (.epochReq t h c n k) s = .next w ∧ w.folds = s.folds ∧ w.cfg = s.cfg ∧ storesSame s w ∧
      (u.coordinator ≠ u.card → w.heath.requests = s.heath.requests ∧ w.heath.proposal = s.heath.proposal) ∧
      (u.coordinator = u.card → u.heath.members ≠ 0 → u.heath.proposal.isSome = true → (c, n, k) ∉ s.heath.requests →
        w.heath.requests = s.heath.requests ++ [(c, n, k)] ∧ w.heath.proposal = s.heath.proposal) ∧
      (u.coordinator = u.card → u.heath.members ≠ 0 → u.heath.proposal = none → s.heath.requests = [] → c < u.topology →
        w.heath.requests = [] ∧ w.heath.proposal = some ⟨s.heath.epoch + 1, epochAt u.now, setAfter u.memberSet [(c, n)], [(c, n)],
          BitVec.ofNat 32 (2 ^ (u.card % 32)), false, false⟩)) ∧
    (∃ w, exec (.memberPropose t h b) s = .next w ∧ w.folds = s.folds ∧ w.cfg = s.cfg ∧ storesSame s w ∧
      (s.heath.proposal = none → (b.epoch, b.e) ∉ s.heath.abortLog → ∃ p, w.heath.proposal = some p ∧ p.epoch = b.epoch ∧ p.e = b.e ∧
        p.set = b.set ∧ p.units = [(b.unitCard, b.unitNo)] ∧ p.committed = false ∧ p.acks = BitVec.ofNat 32 (2 ^ (u.card % 32))) ∧
      (s.heath.proposal = none → (b.epoch, b.e) ∈ s.heath.abortLog → w.heath.proposal = none)) ∧
    (∃ w, exec (.memberAck t h b) s = .next w ∧ w.folds = s.folds ∧ w.cfg = s.cfg ∧ storesSame s w ∧
      (∀ p, s.heath.proposal = some p → p.names b = true → ∃ p', w.heath.proposal = some p' ∧ p'.epoch = p.epoch ∧ p'.e = p.e ∧
        p'.acks = p.acks ||| BitVec.ofNat 32 (2 ^ (h.origin % 32)))) ∧
    (∃ w, exec (.memberAbort t h b) s = .next w ∧ w.folds = s.folds ∧ w.cfg = s.cfg ∧ storesSame s w ∧
      (∀ p, s.heath.proposal = some p → p.names b = true → p.committed = false →
        w.heath.joining = false ∧ (b.epoch, b.e) ∈ w.heath.abortLog ∧ (∃ e ∈ w.events.waiting, e.code = 0x0708) ∧
        (u.coordinator ≠ u.card → w.heath.proposal = none)) ∧
      (s.heath.proposal = none → w.heath.proposal = none ∧ (b.epoch, b.e) ∈ w.heath.abortLog))) ∧
  (∀ (t : Nat) (p : Proposal) (s u : State), s.tick t = u → u.awake = true → u.heath.proposal = some p → p.committed = false →
    (u.now + 1000000 < p.e ∨ (u.memberSet ||| p.set) &&& ~~~p.acks = 0 → exec (.epochAckCutoff t) s = .next u) ∧
    (p.e ≤ u.now + 1000000 → (u.memberSet ||| p.set) &&& ~~~p.acks ≠ 0 →
      ∃ w, exec (.epochAckCutoff t) s = .next w ∧ (u.coordinator ≠ u.card → w.heath.proposal = none) ∧ (p.epoch, p.e) ∈ w.heath.abortLog ∧
        (∃ e ∈ w.events.waiting, e.code = 0x0708) ∧ w.folds = s.folds ∧ w.cfg = s.cfg ∧ storesSame s w) ∧
    (u.now + 750000 < p.e → exec (.epochCommit t) s = .next u) ∧
    (p.e ≤ u.now + 750000 → ∃ w, exec (.epochCommit t) s = .next w ∧ w.heath.proposal = some { p with committed := true } ∧
      w.heath.members = s.heath.members ∧ w.heath.epoch = s.heath.epoch ∧ w.cfg = s.cfg)) ∧
  (∀ (t : Nat) (p : Proposal) (s u : State), s.tick t = u → u.awake = true → u.heath.proposal = some p → p.committed = true →
    (u.now < p.e → exec (.epochApply t) s = .next u) ∧
    (p.e ≤ u.now → ∃ w, exec (.epochApply t) s = .next w ∧ w.heath.members = p.set ∧ w.heath.epoch = p.epoch ∧ w.heath.joining = false ∧
      (s.heath.requests = [] → w.heath.proposal = none) ∧ (∃ e ∈ w.events.waiting, e.code = 0x0707) ∧ w.cfg = s.cfg))

/-- LEAVE and REPLAY_WORD (11, R315, R317). -/
def Obligations.MembersLeaveAndStepsReplay : Prop :=
  (∀ (t c cause r : Nat) (h : RelayHdr) (s u : State), s.tick t = u → u.awake = true →
    (u.freshWord h = false → exec (.leave t h c cause r) s = .next u) ∧
    (u.freshWord h = true → c ≠ u.card → u.memberSet.getLsbD c = true →
      ∃ w, exec (.leave t h c cause r) s = .next w ∧ w.heath.members = s.heath.members &&& ~~~(BitVec.ofNat 32 (2 ^ (c % 32))) ∧
        (∃ e ∈ w.events.waiting, e.code = 0x0705) ∧ (∀ f, (w.fold f).load = (s.fold f).load ∧ ∀ e ∈ (w.fold f).run.armWords, e.1 ≠ c) ∧
        w.cfg = s.cfg ∧ storesSame s w) ∧
    (u.freshWord h = true → (c = u.card ∨ (u.memberSet.getLsbD c = false ∧ u.countsMember c = false)) →
      exec (.leave t h c cause r) s = .next (u.relay h 7 (be 1 c ++ be 1 cause ++ be 8 r)))) ∧
  (∀ (t round step : Nat) (f : FoldId) (h : RelayHdr) (s u : State), s.tick t = u → u.awake = true →
    (u.freshWord h = false → exec (.replayWord t h f round step) s = .next u) ∧
    (u.freshWord h = true → (u.fold f).inStep = true → (u.fold f).inJob h.origin = true → (u.fold f).grow.round = round →
      (u.fold f).grow.step = step →
      exec (.replayWord t h f round step) s = .next ((u.relay h 8 (be 1 f.val ++ be 4 round ++ be 1 step)).modFold f fun y =>
        { y with grow := { y.grow with replayCause := some (y.grow.replayCause.getD 0x0701) } })) ∧
    (u.freshWord h = true → ((u.fold f).inStep = false ∨ (u.fold f).inJob h.origin = false ∨ (u.fold f).grow.round ≠ round ∨ (u.fold f).grow.step ≠ step) →
      exec (.replayWord t h f round step) s = .next (u.relay h 8 (be 1 f.val ++ be 4 round ++ be 1 step)))) ∧
  (∀ (h : RelayHdr) (ty : Nat) (b : Bytes) (s : State), ∃ l, s.relay h ty b = { s with
      heath := { s.heath with seen := (h.origin, h.seq) :: s.heath.seen }, links := l } ∧ (h.hops = 0 → l = s.links) ∧
    (h.hops ≠ 0 → ∀ k, vget l k = if (s.link k).carries = true ∧ k ≠ h.link
      then { s.link k with sendq := (s.link k).sendq ++ [(⟨ty, h.hops - 1, h.origin, h.seq, b⟩, 1)] } else s.link k))

/-- STILE_FRAME and STILE_SLOT (11, R286 to R292). The order of a frame's words and the owner's stream tag are log entry 40's. -/
def Obligations.StileFramesAreTakenWholeOrLost : Prop :=
  (∀ (t : Nat) (k : LinkId) (x : StileRx) (p : Option PeerFrame) (s u v : State), s.tick t = u → u.awake = true → 2 ≤ (u.link k).state →
    (u.link k).outOfUse = false → 240 ≤ u.now →
    (u.modLink k fun y => { y with corrected := y.corrected + correctedSymbols x.errors, rxSlot := some (slotAt (u.now - 240)) }) = v →
    ((u.link k).rxSlot = some (slotAt (u.now - 240)) → exec (.stileFrame t k x p) s = .next u) ∧
    ((u.link k).rxSlot ≠ some (slotAt (u.now - 240)) →
      ((∃ n ∈ x.errors, 7 < n) → u.linkOwner k.val (slotAt (u.now - 240) % 64) = none →
        ((u.link k).lossInterval ≠ some (u.now / 65536) →
          ∃ w, exec (.stileFrame t k x p) s = .next w ∧ (w.link k).losses = (s.link k).losses + 1 ∧ (w.link k).landed = (s.link k).landed ∧
            (∃ e ∈ w.events.waiting, e.code = 0x0701) ∧ w.folds = s.folds ∧ w.heath = s.heath ∧ w.cfg = s.cfg ∧ storesSame s w) ∧
        ((u.link k).lossInterval = some (u.now / 65536) →
          ∃ w, exec (.stileFrame t k x p) s = .next w ∧ (w.link k).state = 0 ∧ (w.link k).keys = Vector.replicate 2 [])) ∧
      ((∀ n ∈ x.errors, n ≤ 7) → (u.link k).attested = true → ∀ o,
        openBox (vget (u.link k).keys (slotOf x.keySlot)) (stileNonce (vget (u.link k).salts (slotOf x.keySlot)) x.slot)
          (stileHeader x.owner x.payloadValid x.keySlot x.sender x.slot x.tag) x.box = o →
        (o = none → exec (.stileFrame t k x p) s = .next (v.loseFrame k 2 (slotAt (u.now - 240)))) ∧
        (∀ plain y, o = some plain → ((List.range 7).map fun i => decodeWord (slice plain (2304 + 32 * i) 32)).foldl (fun a z => a.takeWord k z) v = y →
          (x.payloadValid = false ∨ (u.link k).state = 2 → exec (.stileFrame t k x p) s = .next y) ∧
          (x.payloadValid = true → 3 ≤ (u.link k).state → ∃ w, exec (.stileFrame t k x p) s = .next w ∧
            (w.link k).landed = mset [] (y.link k).landed x.tag (plain.take 2304) ∧ (∀ j, j ≠ k → w.link j = y.link j) ∧
            w.heath = y.heath ∧ w.cfg = y.cfg))))) ∧
  (∀ (t : Nat) (k : LinkId) (b : Option Bytes) (s u : State), s.tick t = u → u.awake = true → u.power.gated = false → 2 ≤ (u.link k).state →
    (u.link k).outOfUse = false →
    ((u.link k).sentSlot = some (slotAt u.now) → exec (.stileSlot t k b) s = .next u) ∧
    ((u.link k).sentSlot ≠ some (slotAt u.now) →
      ∃ w own valid tag box words, exec (.stileSlot t k b) s = .next w ∧
        w.out = s.out ++ [.stile k.val own valid (u.link k).keySlot u.card (u.now * 5 / 128) tag box words] ∧ words.length ≤ 7 ∧
        ((u.link k).state ≠ 3 ∨ u.linkOwner k.val (u.now * 5 / 128 % 64) = none → own = 0x10 ∧ valid = false ∧ tag = 0) ∧
        (∀ f, (u.link k).state = 3 → u.linkOwner k.val (u.now * 5 / 128 % 64) = some f → own = f.val ∧
          ((u.link k).peerq = [] → valid = b.isSome)) ∧
        (w.link k).sentSlot = some (slotAt u.now) ∧ (∀ j, j ≠ k → w.link j = s.link j) ∧ w.folds = s.folds ∧ w.cfg = s.cfg ∧ storesSame s w))

/-- LEVEL_STEP_START, GRADIENT_BARRIER, SPLIT_EXCHANGE_BARRIER and LEVEL_STEP_BOUNDARY (07, R159, R161, R168, R179; 04, R97; 11, R299, R317).
What each barrier merges is log entry 43's. -/
def Obligations.LevelStepsStartAndClose : Prop :=
  (∀ (t : Nat) (f : FoldId) (s u : State) (x : Fold), s.tick t = u → u.fold f = x → atGrowBoundary u f → x.stoppedAt x.run.opened = false →
    (x.run.role = 22 → x.grow.between = true → x.grow.cls < x.job.outputs → x.cutDue = false →
      (x.job.rounds ≤ x.grow.round → exec (.levelStepStart t f) s =
        .next (u.modFold f fun y => ({ y with grow := { y.grow with between := false } }).toRole 21)) ∧
      (x.mustWait = false → x.grow.round < x.job.rounds → ∃ w, exec (.levelStepStart t f) s = .next w ∧ (w.fold f).run.role = x.stepRole ∧
        (w.fold f).run.pos = 0 ∧ (w.fold f).grow.between = false ∧ (w.fold f).grow.exchanged = false ∧ (w.fold f).pre.waited = 0 ∧
        (w.fold f).grow.partialTree = (if x.grow.step = 0 then [] else x.grow.partialTree) ∧ (w.fold f).grow.nodeBank = x.grow.nodeBank ∧
        (∀ l, x.load = some l → (w.fold f).grow.quads = quadRange x.run.job.2 (u.rankIn f) l.quads) ∧
        (x.pre.waited ≠ 0 → ∃ e ∈ w.events.waiting, e.code = 0x0804) ∧
        (∀ k, (w.link k).lostInStep = false) ∧ othersSame f s w ∧ storesSame s w ∧ w.cfg = s.cfg) ∧
      (x.mustWait = true → x.grow.round < x.job.rounds → exec (.levelStepStart t f) s = .next (u.modFold f fun y =>
        { y with grow := { y.grow with between := false }, pre := { y.pre with waited := y.pre.waited + 1 },
                 tel := { y.tel with waits := y.tel.waits + 1 } }))) ∧
    (x.run.role = 22 → x.cutDue = true → exec (.levelStepStart t f) s = .next u) ∧
    (x.run.role = 24 → x.segmentOver = true → exec (.levelStepStart t f) s = .next (u.modFold f Fold.awaitStep))) ∧
  (∀ (t : Nat) (f : FoldId) (p : List GradReport) (l : List (Nat × GradReport)) (r : GradReport) (c : Bool) (s u v : State) (x : Fold)
      (g : Grow), s.tick t = u → u.fold f = x → u.power.halted = false → x.live = true → x.growingNow = true → x.run.idle = false →
    u.exchange f mergeGrad (·.card) (x.grow.report u.card c) p = some (r, l) → (u.sendAll f Exchanged.grad l).clearExact f = v →
    (x.grow.absorb c r).closeHead (x.job.kind == 2) = g →
    (c = false → x.run.role = 6 → x.grow.passDone = false → exec (.gradientBarrier t f p) s =
      .next (v.modFold f fun y => { y with grow := { x.grow.absorb false r with passDone := true } })) ∧
    (c = true → atGrowBoundary u f → x.run.role = 7 → x.run.pos = 0 → x.grow.step = 0 → x.grow.cls = 0 → x.grow.barrierDone = false →
      (x.grow.twoPass = true ∨ x.job.kind = 2 → g.miss = none ∧ g.overflow = false) ∧
      (g.miss = none → g.overflow = false → exec (.gradientBarrier t f p) s =
        .next (v.modFold f fun y => { y with grow := ({ g with barrierDone := true } : Grow).record true })) ∧
      (g.miss ≠ none ∨ g.overflow = true → ∃ w, exec (.gradientBarrier t f p) s = .next w ∧ (w.fold f).run.role = 6 ∧
        (w.fold f).run.pos = 0 ∧ (w.fold f).grow.twoPass = true ∧ (w.fold f).grow.rerun = true ∧
        (∃ e ∈ w.events.waiting, e.code = 0x0406) ∧ (g.miss ≠ none → ∃ e ∈ w.events.waiting, e.code = 0x0401) ∧
        (g.overflow = true → ∃ e ∈ w.events.waiting, e.code = 0x0403) ∧ othersSame f s w ∧ w.hbms = s.hbms ∧ w.cfg = s.cfg))) ∧
  (∀ (t : Nat) (f : FoldId) (p : List SplitReport) (l : List (Nat × SplitReport)) (r : SplitReport) (s u : State) (x : Fold), s.tick t = u →
    u.fold f = x → u.power.halted = false → x.live = true → x.growingNow = true → x.run.idle = false → x.grow.exchanged = false →
    7 ≤ x.run.role → x.run.role ≤ 20 →
    (u.exchange f (mergeSplit x.job x.grow.round) (·.card) (x.splitReport u.card) p = some (r, l) → exec (.splitExchangeBarrier t f p) s =
      .next ((u.sendAll f Exchanged.split l).modFold f fun y => { y with
        grow := { r.recs.foldl (fun g e => g.putRec e) y.grow with exchanged := true }, pre := y.pre.learn (r.generations.map (·.2)) })) ∧
    (u.exchange f (mergeSplit x.job x.grow.round) (·.card) (x.splitReport u.card) p = none → exec (.splitExchangeBarrier t f p) s = .next u)) ∧
  (∀ n r p : Nat, r < n → (ExStep.swap p ∈ exSteps n r → p < n ∧ ExStep.swap r ∈ exSteps n p) ∧
    (ExStep.hand p ∈ exSteps n r → p < n ∧ ExStep.take r ∈ exSteps n p) ∧ (ExStep.copyOf p ∈ exSteps n r → ExStep.copyTo r ∈ exSteps n p)) ∧
  (∀ (t : Nat) (f : FoldId) (s u : State) (x : Fold), s.tick t = u → u.fold f = x → atGrowBoundary u f → 7 ≤ x.run.role → x.run.role ≤ 20 →
    (x.run.pos < x.segLen x.run.role → exec (.levelStepBoundary t f) s = .next u) ∧
    (x.segLen x.run.role ≤ x.run.pos →
      (x.grow.replayCause = none → ∃ w, exec (.levelStepBoundary t f) s = .next w ∧ (w.fold f).grow.nodeBank = otherBank x.grow.nodeBank ∧
        (w.fold f).run.role = 22 ∧ (w.fold f).run.pos = 0 ∧ (w.fold f).grow.between = true ∧ (∀ k, (w.link k).lostInStep = false) ∧
        (x.grow.step + 1 < x.job.depth → (w.fold f).grow.step = x.grow.step + 1 ∧ (w.fold f).grow.cls = x.grow.cls ∧
          (w.fold f).grow.trees = x.grow.trees) ∧
        (x.job.depth ≤ x.grow.step + 1 → (w.fold f).grow.step = 0 ∧ (w.fold f).grow.cls = x.grow.cls + 1 ∧
          (w.fold f).grow.trees.length = x.grow.trees.length + 1) ∧ othersSame f s w ∧ storesSame s w) ∧
      (∀ c, x.grow.replayCause = some c → ∃ w, exec (.levelStepBoundary t f) s = .next w ∧ (w.fold f).grow.nodeBank = x.grow.nodeBank ∧
        (w.fold f).grow.step = x.grow.step ∧ (w.fold f).grow.replayCause = none ∧ (w.fold f).grow.inReplay = true ∧ (w.fold f).run.pos = 0 ∧
        (w.fold f).run.role = x.stepRole ∧ (w.fold f).grow.exchanged = false ∧
        (w.fold f).grow.partialTree = x.grow.partialTree.filter (fun r => decide (Nat.log2 r.heap < x.grow.step)) ∧
        (∃ e ∈ w.events.waiting, e.code = 0x0405) ∧ othersSame f s w ∧ storesSame s w)))

/-- ROUND_END, INGEST_END, PREPHASE_END and RESHARD (07, R158 to R164, R186 to R188; 04, R99, R100; 19, R517). How a card knows its last row,
and what the ingest status holds, is log entry 41's; the shape of the grown image is log entry 12's. -/
def Obligations.RoundsIngestAndReshardEnd : Prop :=
  (∀ (t : Nat) (f : FoldId) (s u : State) (x : Fold), s.tick t = u → u.fold f = x → atGrowBoundary u f → x.grow.between = true →
    x.run.role = 22 →
    (x.grow.cls < x.job.outputs → exec (.roundEnd t f) s = .next u) ∧
    (x.job.outputs ≤ x.grow.cls → x.job.rerun = false ∨ coarseTensors x.job x.grow = [] → ∃ w, exec (.roundEnd t f) s = .next w ∧
      (w.fold f).grow.round = x.grow.round + 1 ∧ (w.fold f).grow.cls = 0 ∧ (w.fold f).grow.step = 0 ∧ (w.fold f).grow.twoPass = false ∧
      (w.fold f).grow.marginBank = (if x.job.kind = 0 then otherBank x.grow.marginBank else x.grow.marginBank) ∧
      (w.fold f).grow.trees = x.grow.trees ∧ (coarseTensors x.job x.grow ≠ [] → ∃ e ∈ w.events.waiting, e.code = 0x0402) ∧
      othersSame f s w ∧ storesSame s w) ∧
    (x.job.outputs ≤ x.grow.cls → x.job.rerun = true → coarseTensors x.job x.grow ≠ [] → ∃ w, exec (.roundEnd t f) s = .next w ∧
      (w.fold f).grow.round = x.grow.round ∧ (w.fold f).grow.cls = 0 ∧ (w.fold f).grow.step = 0 ∧ (w.fold f).grow.twoPass = true ∧
      (w.fold f).grow.rerun = true ∧ (w.fold f).grow.trees = x.grow.trees.take (x.grow.trees.length - x.job.outputs) ∧
      (w.fold f).grow.marginBank = x.grow.marginBank ∧ (∃ e ∈ w.events.waiting, e.code = 0x0402) ∧ (∃ e ∈ w.events.waiting, e.code = 0x0406) ∧
      othersSame f s w ∧ storesSame s w)) ∧
  (∀ (t : Nat) (f : FoldId) (last : Bool) (p : List IngestReport) (r : IngestReport) (l : List (Nat × IngestReport)) (s u : State) (x : Fold),
    s.tick t = u → u.fold f = x → atGrowBoundary u f → x.run.opened ≠ 0 → x.run.role = 2 ∨ x.run.role = 3 →
    (u.exchange f mergeIngest (·.card) ⟨u.card, last, x.grow.rowTotal⟩ p = none → exec (.ingestEnd t f ⟨last, p⟩) s = .next u) ∧
    (u.exchange f mergeIngest (·.card) ⟨u.card, last, x.grow.rowTotal⟩ p = some (r, l) →
      (r.last = false → exec (.ingestEnd t f ⟨last, p⟩) s = .next (u.sendAll f Exchanged.ingest l)) ∧
      (r.last = true → ∃ w, exec (.ingestEnd t f ⟨last, p⟩) s = .next w ∧
        (x.run.role = 2 → w.fold f = { x with run := { x.run with role := 4, pos := 0 }, grow := { x.grow with rowTotal := r.rows } }) ∧
        (x.run.role = 3 → w.fold f = ({ x with grow := { x.grow with rowTotal := r.rows } }).afterIngest) ∧
        (∃ e ∈ w.events.waiting, e.code = 0x0407) ∧ othersSame f s w ∧ storesSame s w))) ∧
  (∀ (t : Nat) (f : FoldId) (h p : List SampleReport) (r : SampleReport) (m : List (Nat × SampleReport)) (l : Loaded) (s u : State) (x : Fold),
    s.tick t = u → u.fold f = x → x.load = some l → atGrowBoundary u f → x.run.role = 4 → x.segmentOver = true →
    u.exchange f mergeSample (·.card) ⟨u.card, x.grow.sample⟩ (h ++ p) = some (r, m) →
    ∃ w, exec (.prephaseEnd t f h p) s = .next w ∧
      (w.fold f).load = some { l with cuts := l.cuts ++ phaseTables l ((r.rows.take l.jobOr.sampleMax).map (·.2)) } ∧
      (w.fold f).run = { x.run with role := 3, pos := 0 } ∧ (w.fold f).grow = { x.grow with sampledTotal := r.rows.length, sample := [] } ∧
      (l.jobOr.sampleMax < r.rows.length → ∃ e ∈ w.events.waiting, e.code = 0x0404) ∧ othersSame f s w ∧ storesSame s w) ∧
  (∀ (t : Nat) (f : FoldId) (l : Loaded) (s u : State) (x : Fold), s.tick t = u → u.fold f = x → x.load = some l → atGrowBoundary u f →
    x.run.role = 21 → x.segLen 21 ≤ x.run.pos → x.stoppedAt x.run.opened = false →
    ∃ w, exec (.reshard t f) s = .next w ∧ (w.fold f).grow.resharded = true ∧ (w.fold f).grow.phase = 2 ∧ (w.fold f).run.role = 0 ∧
      (w.fold f).run.pos = 0 ∧ (w.fold f).store = storeImage (grownImageOf l x.grow) ∧
      (w.fold f).grow.grownMeas = modelMeasOf l.graphDigest l.resultDigest (digest (grownImageOf l x.grow)) ∧
      (∃ e ∈ w.events.waiting, e.code = 0x030C) ∧ othersSame f s w ∧ storesSame s w)

/-- FOLD_START, FRAME_OPEN and FRAME_CLOSE (02, R42, R43; 10, R270; 08, R209). -/
def Obligations.FoldsStartAndOpenTheirFrames : Prop :=
  (∀ (t : Nat) (f : FoldId) (s u : State) (x : Fold), s.tick t = u → u.fold f = x →
    (u.power.halted = false → x.st = .armed → x.run.cutoffOk = true → x.run.aborted = false → x.run.launchAt ≤ u.now →
      (∀ m, u.findMapping f = some m → ∃ v : State, v = ((u.installMapping f m.id).setSt f .running).runFold f ∧
        (v.fold f).st = .running ∧ (v.fold f).run.mapping = some m.id ∧ (v.fold f).freeCredits = 4 * (v.fold f).capacity - x.res.taken ∧
        othersSame f s v ∧ exec (.foldStart t f) s = .next (v.openFrame f 0)) ∧
      (u.findMapping f = none → exec (.foldStart t f) s = .next ((u.setSt f .running).noMapping f))) ∧
    (u.power.halted = true ∨ x.st ≠ .armed ∨ x.run.cutoffOk = false ∨ x.run.aborted = true ∨ u.now < x.run.launchAt →
      exec (.foldStart t f) s = .next u) ∧
    (u.power.halted = false → x.live = true → x.run.started = true → x.run.closed = true → x.segmentOver = false →
      x.tickOf x.run.opened ≤ u.now → exec (.frameOpen t f) s = .next ((u.openFrame f x.run.opened).settle f)) ∧
    (u.power.halted = false → x.live = true → x.run.started = true → x.run.closed = false → x.tickOf x.run.opened ≤ u.now →
      exec (.frameClose t f) s = .next ((u.closeFrame f).settle f)) ∧
    (u.power.halted = true ∨ x.live = false ∨ u.now < x.tickOf x.run.opened →
      exec (.frameOpen t f) s = .next u ∧ exec (.frameClose t f) s = .next u)) ∧
  (∀ (f : FoldId) (n q qp : Nat) (s : State) (x : Fold), s.fold f = x → x.live = true → q = x.quotaAt (x.stoppedAt n) → qp = x.pcieShare n q →
    ((s.beginFrame f n).fold f).adm = (x.begin n q qp (q - qp)).adm ∧ ((s.beginFrame f n).fold f).run.opened = n + 1 ∧
    ((s.beginFrame f n).fold f).run.closed = false ∧ othersSame f s (s.beginFrame f n))

/-- The comparison of FRAME_CLOSE and CYCLE_BUDGET_EXPIRY (02, R47, R48). What the withheld frame and the quarantine do follows in other statements. -/
def Obligations.QuadrantsMustFinishInThePredictedCycle : Prop :=
  (∀ (f : FoldId) (q : QuadId) (s : State) (x : Fold), s.fold f = x →
    (s.quadIn f q = false ∨ s.quadHealthy q = false ∨ x.run.idle = true → s.compareQuad f q = s) ∧
    (s.quadIn f q = true → x.live = true → x.run.idle = false → vget x.run.precise q = false → vget x.run.overrun q = false →
      s.quadHealthy q = true →
      (vget x.run.finish q = x.predictedFor q → s.compareQuad f q = s) ∧
      (vget x.run.finish q ≠ x.predictedFor q → ((s.compareQuad f q).quad q).divergences = (s.quad q).divergences + 1 ∧
        ∃ e ∈ (s.compareQuad f q).events.waiting, e.code = 0x0301 ∧ e.source = s.card * 0x800 + unitQuad q ∧ e.stamp = x.tickOf (x.frame + 1) ∧
          e.detail = padTo 16 (le 1 f.val ++ le 8 x.frame ++ le 3 (x.predictedFor q) ++ le 3 (vget x.run.finish q))))) ∧
  (∀ (f : FoldId) (q : QuadId) (s : State) (m : Mapping), (s.fold f).mapEntry = some m →
    (s.quadIn f q = true ↔ bit m.quads q.val = true ∧ 0 < (s.foldCfg f).plotsIn q.val)) ∧
  (∀ (t : Nat) (f : FoldId) (q : QuadId) (s u : State) (x : Fold) (l : Loaded), s.tick t = u → u.fold f = x → x.load = some l →
    (u.power.halted = false → x.live = true → x.run.closed = false → x.run.started = true → x.run.idle = false →
      vget x.run.overrun q = false → vget x.run.precise q = false → u.quadIn f q = true → u.quadHealthy q = true → u.quadBusy f q = true →
      x.tickOf x.frame + ceilDiv (budget x.period l.op * (opRatio l.op).2) (opRatio l.op).1 ≤ u.now →
      ∃ w, exec (.cycleBudgetExpiry t f q) s = .next w ∧ (w.quad q).divergences = (u.quad q).divergences + 1 ∧
        ∃ e ∈ w.events.waiting, e.code = 0x0301 ∧ e.source = u.card * 0x800 + unitQuad q ∧
          e.detail = padTo 16 (le 1 f.val ++ le 8 x.frame ++ le 3 (x.predictedFor q) ++ le 3 (budget x.period l.op))) ∧
    (u.quadBusy f q = false ∨ u.quadIn f q = false ∨ u.quadHealthy q = false → exec (.cycleBudgetExpiry t f q) s = .next u))

/-- ADMISSION (10, R271, R273; 06, R153). A record made for a late tick source that has no place is not made: log entry 67. -/
def Obligations.AdmissionTakesEveryClosedFrame : Prop :=
  ∀ (t : Nat) (f : FoldId) (s u : State), s.tick t = u →
    (u.power.halted = true → exec (.admission t f) s = .next u) ∧
    (u.power.halted = false → ∃ w, exec (.admission t f) s = .next w ∧
      (∀ c ∈ (w.fold f).pipe, c.admitted = true) ∧ (w.fold f).pipe.length = (u.fold f).pipe.length ∧
      (∀ a, a ∈ (w.fold f).adm.arrivals ↔
        a ∈ (u.fold f).adm.arrivals ∧ ∀ c ∈ (u.fold f).pipe, c.admitted = false → a.frame ≠ c.frame) ∧
      (∃ n, n ≤ ((u.fold f).adm.arrivals.filter (·.created)).length ∧
        (w.fold f).tel.admitted + (w.fold f).tel.drops + (w.fold f).adm.arrivals.length + n =
          (u.fold f).tel.admitted + (u.fold f).tel.drops + (u.fold f).adm.arrivals.length) ∧
      (∀ (i : Nat) (c : Cohort), (u.fold f).pipe[i]? = some c → c.admitted = false → ∃ d, (w.fold f).pipe[i]? = some d ∧ d.frame = c.frame ∧
        (d.recs.filter fun r => match r.route with | .pcie _ _ => false | _ => true).length ≤ c.quota) ∧
      (w.fold f).st = (s.fold f).st ∧ (w.fold f).led = (s.fold f).led ∧ othersSame f s w ∧ storesSame s w ∧ w.cfg = s.cfg ∧ w.out = s.out)

/-- RESULT_DRAIN (08, R210 to R212; 10, R258, R276; 14, R400; 18, R492). -/
def Obligations.ResultsLeaveByTheHeadOfTheQueue : Prop :=
  (∀ (t : Nat) (f : FoldId) (s u v w : State), s.tick t = u → (u.chansOf f).foldl (fun s c => s.sendClosed c) u = v →
    drainLoop f (v.fold f).res.all.length v = w →
    exec (.resultDrain t f) s = .next ((((if (w.fold f).live then w else w.flushFold f)).noteSent f).settle f)) ∧
  (∀ (f : FoldId) (k : Nat) (u : State), (u.fold f).res.egress = [] → drainLoop f k u = u) ∧
  (∀ (f : FoldId) (k : Nat) (u : State) (r : Result) (rest : List Result), (u.fold f).res.egress = r :: rest →
    (u.sinkOpen f r = false → drainLoop f k u = u) ∧
    (u.sinkOpen f r = true → drainLoop f (k + 1) u =
      drainLoop f k ((u.modFold f fun y => { y with res := { y.res with egress := rest }.refill y.capacity }).sendResult f r))) ∧
  (∀ (f : FoldId) (u : State) (r : Result), (u.power.gated = true → u.sinkOpen f r = false) ∧
    (∀ cid a, r.route = .pcie cid a → (u.pcie.gen < 3 ∨ u.power.perst = true ∨ (u.fn (vfOf f)).tdi = Tdi.error ∨
      ((u.fn (vfOf f)).queue 1).full = true ∨ ((u.fn (vfOf f)).queue 1).enabled = false) → u.sinkOpen f r = false) ∧
    (∀ c e key salt, ∀ p : PortId, r.route = .izr c e key salt → (u.chanCfg c).egressPort = p.val →
      (portCount u.cfg.portLayout ≤ p.val ∨ (u.port p).up = false ∨ u.now < (u.port p).pausedUntil) → u.sinkOpen f r = false)) ∧
  (∀ (f : FoldId) (u : State) (r : Result) (cid a : Nat), r.route = .pcie cid a → r.status = 0 → u.power.gated = false →
    ((u.sendResult f r).fold f).res.taken = (u.fold f).res.taken - 1 ∧
    (r.poisoned = false → .hostWrite a r.bytes ∈ (u.sendResult f r).out) ∧
    (r.poisoned = true → (∃ e ∈ (u.sendResult f r).events.waiting, e.code = 0x0306 ∧ e.detail = padTo 16 (le 8 r.frame ++ le 4 r.leaf)) ∧
      ((u.sendResult f r).fold f).led = (u.fold f).led.discard r.frame))

/-- PAGE_OPEN, PAGE_CLOSE, PAGE_SEAL and PAGE_FLUSH_COMPLETE (09, R246 to R252). -/
def Obligations.PagesOpenCloseSealAndAreAcknowledged : Prop :=
  ∀ (t : Nat) (f : FoldId) (s u : State) (x : Fold), s.tick t = u → u.fold f = x →
    (u.atBoundary f = false → exec (.pageClose t f) s = .next u ∧ exec (.pageOpen t f) s = .next u) ∧
    (u.atBoundary f = true → ∃ v : State, v = (u.carryReads f x.run.opened).endGrowing f x.run.opened ∧ exec (.pageClose t f) s =
      .next ((if (v.fold f).pageDue x.run.opened then v.endPage f x.run.opened ((v.fold f).stoppedAt x.run.opened) else v).settle f)) ∧
    (∀ p n final, x.led.page = some p → p.growing = false → ((u.endPage f n final).fold f).led = { x.led with
      page := none, closing := x.led.closing ++ [{ p with last := some (n - 1), final := final }] } ∧ othersSame f u (u.endPage f n final)) ∧
    (u.atBoundary f = true → x.led.page = none → x.stoppedAt x.run.opened = false →
      (u.freeSlots f = 0 → exec (.pageOpen t f) s = .next ((u.emit (unitFold f) 0x0602 (le 8 x.led.nextSeq)).stopNow f)) ∧
      (u.freeSlots f ≠ 0 → ∃ w, exec (.pageOpen t f) s = .next w ∧
        (w.fold f).led = { x.led with
          page := some ⟨x.led.nextSeq, x.run.opened, x.tickOf x.run.opened, x.growingNow, x.tagMeas, [], [], [], none, false⟩,
          nextSeq := x.led.nextSeq + 1 } ∧
        (w.fold f).adm = { x.adm with backlog := decide (u.freeSlots f < 3) } ∧
        (u.freeSlots f < 3 → ∃ e ∈ w.events.waiting, e.code = 0x0601) ∧ (w.fold f).st = x.st ∧ othersSame f s w ∧ storesSame s w)) ∧
    (∀ p r l, x.led.closing = p :: r → x.load = some l → u.power.halted = false →
      (x.sealDue u.now = false → exec (.pageSeal t f) s = .next u) ∧
      (x.sealDue u.now = true → ∃ v : State, v = u.sealClosing f (sealTick x p) ∧ exec (.pageSeal t f) s = .next (v.tryStopped f) ∧
        (v.fold f).led.closing = r ∧ (v.fold f).led.chain = chainOver x.led.chain p.entries ∧
        (v.fold f).led.latest = some (p.seq, chainOver x.led.chain p.entries) ∧ (v.fold f).led.nextSeq = x.led.nextSeq)) ∧
    (x.led.closing = [] → exec (.pageSeal t f) s = .next u) ∧
    (x.led.ring = [] → exec (.pageFlushComplete t f) s = .next u) ∧
    (∀ p r, x.led.ring = p :: r → p.acked.getLsbD 1 = false → (u.foldCfg f).dests.getLsbD 1 = true →
      ∃ w, exec (.pageFlushComplete t f) s = .next w ∧ w = (u.fileDone f false).ackPage f 1 p.seq ∧ (w.fold f).led.chain = x.led.chain ∧
        (w.fold f).st = x.st ∧ othersSame f s w ∧
        (∀ y ∈ (w.fold f).led.ring, y.seq = p.seq → p.seq ∉ r.map (·.seq) → y.acked.getLsbD 1 = true))

/-- SCHEDULED_OPERATION, the store frame (05; 19, Table 19.11). That SEND to a tile that the Fold does not have goes nowhere is log entry 38's. -/
def Obligations.TileOperationsStoreOnlyWhereTheySay : Prop :=
  ∀ (t tile cycle : Nat) (feed : Feed) (s u : State), s.tick t = u →
    (u.issues tile cycle feed = none → exec (.scheduledOperation t tile cycle feed) s = .next u) ∧
    (∀ f l w a, u.issues tile cycle feed = some (f, w) → (u.fold f).load = some l → badAddress l w.op feed = some a →
      exec (.scheduledOperation t tile cycle feed) s = .fault (.tileStoreAddress tile a)) ∧
    (∀ f l w, opIssues u tile cycle feed f l w → ∃ v, exec (.scheduledOperation t tile cycle feed) s = .next v ∧
      (∀ k, (v.hbm k).mem = (s.hbm k).mem) ∧ v.cfg = s.cfg ∧
      ((∀ k b c n, w.op ≠ .send k b c n) →
        (∀ a, outsideAll (writesOf l w.op feed) a → mget 0 (v.tile tile).mem a = mget 0 (s.tile tile).mem a) ∧
        ∀ d, d ≠ tile → v.tile d = s.tile d) ∧
      (∀ k b c n, w.op = .send k b c n → (∀ d, (u.foldCfg f).tiles[k]? = some d →
          (∀ i, i < n → SMap.wf 0 (s.tile d).mem → mget 0 (v.tile d).mem (c + i) = mget 0 (s.tile tile).mem (b + i)) ∧
          (∀ a, a < c ∨ c + n ≤ a → mget 0 (v.tile d).mem a = mget 0 (s.tile d).mem a) ∧
          ∀ e, e ≠ d → (v.tile e).mem = (s.tile e).mem) ∧
        ((u.foldCfg f).tiles[k]? = none → ∀ e, (v.tile e).mem = (s.tile e).mem)))

/-- SCHEDULED_OPERATION, the register frame. -/
def Obligations.TileOperationsWriteOnlyTheirRegisters : Prop :=
  ∀ (t tile cycle : Nat) (feed : Feed) (s u : State) (f : FoldId) (l : Loaded) (w : OpWord), s.tick t = u → opIssues u tile cycle feed f l w →
    (∀ k b c n, w.op ≠ .send k b c n) →
    ∃ v, exec (.scheduledOperation t tile cycle feed) s = .next v ∧ tileRegsSame w.op (u.tile tile) (v.tile tile)

/-- SCHEDULED_OPERATION, results of the plain operations, on register files and stores in canonical form. -/
def Obligations.TileOperationsCompute : Prop :=
  ∀ (t tile cycle : Nat) (feed : Feed) (s u : State) (f : FoldId) (l : Loaded) (w : OpWord) (x : Tile), s.tick t = u →
    opIssues u tile cycle feed f l w → u.tile tile = x → SMap.wf 0 x.mem → SMap.wf 0 x.acc →
    ∃ v, exec (.scheduledOperation t tile cycle feed) s = .next v ∧
      (∀ a, w.op = .lclr a → ∀ r, r < 256 → (v.tile tile).accOf r a = 0) ∧
      (∀ a b, w.op = .ladd a b → ∀ r, r < 256 → (v.tile tile).accOf r a = x.accOf r a + x.accOf r b) ∧
      (∀ a b, w.op = .lload a b → ∀ r, r < 256 → (v.tile tile).accOf r a = x.scoreAt b r) ∧
      (∀ a b, w.op = .laddm a b → ∀ r, r < 256 → (v.tile tile).accOf r a = x.accOf r a + x.scoreAt b r) ∧
      (∀ a b, w.op = .lstore a b → ∀ r, r < 256 → (v.tile tile).scoreAt b r = x.accOf r a) ∧
      (∀ m, w.op = .clear m → ∀ k i, k < 4 → bit m k = true → i < 256 →
        mget 0 (v.tile tile).binsG (256 * k + i) = 0 ∧ mget 0 (v.tile tile).binsH (256 * k + i) = 0) ∧
      (∀ b c n, w.op = .copy b c n → tileBytes v tile c n = tileBytes s tile b n) ∧
      (∀ b n, w.op = .zero b n → tileBytes v tile b n = List.replicate n 0)

/-- HBM_SLOT (08, R194, R200 to R202). Which addresses hold members of the model store is a free value of Config; the addresses of rings in
landing SRAM are log entry 63's, the payload of a remote stream is log entry 40's. -/
def Obligations.SlotsMoveTheirStreamsParts : Prop :=
  ∀ (t : Nat) (k : StackId) (f : FoldId) (j : Nat) (s u : State), s.tick t = u →
    (u.slotRuns f j = false ∨ 256 ≤ u.inController f k j → exec (.hbmSlot t k f j) s = .next u) ∧
    (∀ l pos, (u.fold f).load = some l → slotPosition j = some pos → l.hbmKind k.val pos = none → exec (.hbmSlot t k f j) s = .next u) ∧
    (∀ l pos kind tile i y, (u.fold f).load = some l → u.slotRuns f j = true → u.inController f k j < 256 → slotPosition j = some pos →
      l.hbmKind k.val pos = some kind → u.slotStream f k pos kind j (cycleOf75 l.op (128 * j)) = some (tile, i) →
      (u.tile tile).streams[i]? = some y → (u.foldCfg f).hbmAddr k.val y.part.1 = none →
      exec (.hbmSlot t k f j) s = .fault (.hbmAddress k.val y.part.1)) ∧
    (∀ tile i a l y m b, slotMoves u f k j tile i a l 0 y → (u.hbm k).lost = false → Config.modelMember f.val k.val y.part.1 = m →
      u.unreadable f k m = false → (u.hbm k).poisonIn a y.part.2 = [] → (match m with
        | none => mread (s.hbm k).mem a y.part.2
        | some e => slice (padTo 2048 (mget [] (s.fold f).store.members e)) (y.part.1 % 2048) y.part.2) = b →
      ∃ w, exec (.hbmSlot t k f j) s = .next w ∧ (∀ d, d ≠ tile → w.tile d = s.tile d) ∧ (∀ h, (w.hbm h).mem = (s.hbm h).mem) ∧
        w.folds = s.folds ∧ w.cfg = s.cfg ∧ w.out = s.out ∧
        (ringInLanding y.desc = false → w.power = s.power ∧
          (w.tile tile).mem = y.pieces.foldl (fun z p => mwrite z p.1 (slice b p.2.1 p.2.2)) (s.tile tile).mem) ∧
        (ringInLanding y.desc = true → (w.tile tile).mem = (s.tile tile).mem ∧
          w.power.landing = y.pieces.foldl (fun z p => mwrite z (p.1 - 2 ^ 20) (slice b p.2.1 p.2.2)) s.power.landing)) ∧
    (∀ tile i a l y, slotMoves u f k j tile i a l 1 y → (u.hbm k).lost = false → ∃ w, exec (.hbmSlot t k f j) s = .next w ∧
      (w.hbm k).mem = mwrite (s.hbm k).mem a (y.pieces.flatMap fun p => if ringInLanding y.desc = true
        then mread s.power.landing (p.1 - 2 ^ 20) p.2.2 else mread (s.tile tile).mem p.1 p.2.2) ∧
      (∀ h, h ≠ k → (w.hbm h).mem = (s.hbm h).mem) ∧ (∀ d, (w.tile d).mem = (s.tile d).mem) ∧ w.cfg = s.cfg) ∧
    (∀ tile i a l y, slotMoves u f k j tile i a l 2 y →
      (u.payloadOf (y.desc.source % 2 ^ 32) = none → exec (.hbmSlot t k f j) s = .next u) ∧
      (∀ b, (u.hbm k).lost = false → u.payloadOf (y.desc.source % 2 ^ 32) = some b →
        ∃ w, exec (.hbmSlot t k f j) s = .next w ∧ (w.hbm k).mem = mwrite (s.hbm k).mem a (padTo y.part.2 b) ∧
          (∀ h, h ≠ k → (w.hbm h).mem = (s.hbm h).mem) ∧ (∀ d, (w.tile d).mem = (s.tile d).mem) ∧ w.cfg = s.cfg))

/-- ROOT_WHEEL_POSITION (06, R151, R152, R157; 08, R204). Where a batch's image and scores stand in a tile is a free value of Config (log
entry 12); how the slots of the die-to-die wheel are numbered is log entry 68's. -/
def Obligations.WheelPositionsWorkForTheirOwner : Prop :=
  ∀ (t : Nat) (w : Wheel) (inst pos : Nat) (job : WheelJob) (s u : State), s.tick t = u →
    ((u.wheelOwner w inst pos = none ∨ (∃ f, u.wheelOwner w inst pos = some f ∧ (wheelOf job ≠ w ∨ u.wheelsRun f = false))) →
      exec (.rootWheelPosition t w inst pos job) s = .next u) ∧
    (∀ f l, positionRuns u f l w inst pos job →
      (∀ leaf, job = .bin leaf → exec (.rootWheelPosition t w inst pos job) s = .next (u.modFold f fun x => x.binLeaf l leaf)) ∧
      (∀ leaf, job = .hashIn leaf → ∃ v, exec (.rootWheelPosition t w inst pos job) s = .next v ∧ storesSame s v ∧ othersSame f s v ∧
        ∀ c, (u.fold f).cohort 1 = some c → leaf < c.recs.length → ∀ r, ((v.fold f).cohort 1).bind (·.recs[leaf]?) = some r → r.hashIn = true) ∧
      (∀ b tile part acts c, job = .codesOut b tile part acts → (u.fold f).cohort 1 = some c →
        ((inst ≠ (quadOfTile tile).val ∨ u.dieFree f inst pos 0 = false ∨ c.binnedBatch b = false ∨ u.codesPlace f l tile c.frame b acts = none) →
          exec (.rootWheelPosition t w inst pos job) s = .next u) ∧
        (∀ a, inst = (quadOfTile tile).val → u.dieFree f inst pos 0 = true → c.binnedBatch b = true →
          u.codesPlace f l tile c.frame b acts = some a → ∃ v, exec (.rootWheelPosition t w inst pos job) s = .next v ∧
            (v.tile tile).mem = mwrite (s.tile tile).mem (a + 2048 * part) (slice (u.batchOf f l tile acts c b) (2048 * part) 2048) ∧
            (∀ d, d ≠ tile → v.tile d = s.tile d) ∧ v.hbms = s.hbms ∧ othersSame f s v ∧ v.cfg = s.cfg ∧
            (∀ d ∈ (v.fold f).pipe, d.frame = c.frame → (b, tile, part, acts) ∈ d.moved) ∧ v.dieFree f inst pos 0 = false)) ∧
      (∀ b o c rel a tile, job = .scoresIn b o → (u.fold f).cohort 2 = some c →
        Config.scoresAt l.bundleDigest (((u.fold f).mapEntry.map (·.id)).getD 0) c.frame b o = (rel, a) → (u.foldCfg f).tiles[rel]? = some tile →
        (u.dieFree f inst pos 1 = false ∨ l.outputCount ≤ o → exec (.rootWheelPosition t w inst pos job) s = .next u) ∧
        (u.dieFree f inst pos 1 = true → o < l.outputCount → touched (u.tile tile).poison [(a % (2 ^ 20 - 1536), 1536)] = [] →
          ∃ v, exec (.rootWheelPosition t w inst pos job) s = .next v ∧ storesSame s v ∧ othersSame f s v ∧ v.cfg = s.cfg ∧
            (v.fold f).pipe = (u.fold f).pipe.map fun d => if d.frame = c.frame then { d with
              recs := d.recs.zipIdx.map fun e => if e.2 / 256 = b
                then { e.1 with scores := mset 0 e.1.scores o ((u.tile tile).scoreAt (a % (2 ^ 20 - 1536)) (e.2 % 256)) } else e.1,
              read := (b, o) :: d.read } else d)) ∧
      (∀ leaf, job = .tag leaf → exec (.rootWheelPosition t w inst pos job) s = .next (u.tagLeaf f l leaf)) ∧
      (∀ leaf, job = .encrypt leaf → exec (.rootWheelPosition t w inst pos job) s = .next (u.sealLeaf f leaf)) ∧
      (job = .fetch → exec (.rootWheelPosition t w inst pos job) s = .next u))

/-- PREEMPT_CUT, CHECKPOINT_SECTION_FLUSH, NOTICE_DEADLINE and FILESTORE_ERROR (12, R328 to R337, R347, R348). How the ends of Writes and
Flushes show is log entry 42's. -/
def Obligations.CutsDrainsAndDeadlines : Prop :=
  ∀ (t : Nat) (f : FoldId) (lba status : Nat) (s u : State) (x : Fold), s.tick t = u → u.fold f = x →
    (u.atBoundary f = false ∨ x.st ≠ .running → exec (.preemptCut t f lba) s = .next u) ∧
    (u.atBoundary f = true → x.st = .running → x.growingNow = false →
      exec (.preemptCut t f lba) s = .next ((u.takeScoringCut f x.boundaryTick).settle f) ∧
      (∀ n, x.pre.notice = some n → n.stop = true → scoringCut x n ≤ x.boundaryTick → u.takeScoringCut f x.boundaryTick = u.startDraining f ∧
        ((u.startDraining f).fold f).st = .draining)) ∧
    (u.atBoundary f = true → x.st = .running → x.growingNow = true →
      (∀ n, x.dueNotice = some n → exec (.preemptCut t f lba) s = .next (u.takeCut f n lba) ∧ x.cutDue = true ∧ n.cutAt ≤ x.boundaryTick ∧
        ((∀ o, x.pre.notice = some o → x.boundaryTick < o.cutAt) → n ∈ x.pre.conts)) ∧
      (x.dueNotice = none → exec (.preemptCut t f lba) s = .next u ∧ x.cutDue = false)) ∧
    (∀ d, x.pre.drain = some d → u.power.halted = false →
      (u.now < d.deadline → d.written < 5 → ∃ w : State, exec (.checkpointSectionFlush t f) s = .next w ∧
        (∃ e, (w.fold f).pre.drain = some e ∧ e.written = d.written + 1 ∧ e.generation = d.generation ∧ e.deadline = d.deadline ∧ e.slot = d.slot) ∧
        (w.fold f).pre.sections = d.written + 1 ∧ (w.fold f).st = x.st ∧ (w.fold f).grow = x.grow ∧ othersSame f s w ∧ storesSame s w ∧
        w.cfg = s.cfg ∧ w.events.waiting = s.events.waiting) ∧
      (u.now < d.deadline → d.written = 5 → ∃ w : State, exec (.checkpointSectionFlush t f) s = .next w ∧
        (w.fold f).pre.drain = none ∧ (w.fold f).pre.status = 2 ∧ (w.fold f).pre.generation = some d.generation ∧
        (w.fold f).pre.doneSlot = d.slot ∧ (w.fold f).pre.newestSlot = (if x.run.job.2 = 1 then d.slot else x.pre.newestSlot) ∧
        (∃ e ∈ w.events.waiting, e.code = 0x0805) ∧ storesSame s w) ∧
      (d.deadline ≤ u.now → exec (.checkpointSectionFlush t f) s = .next u) ∧
      (u.now < d.deadline → exec (.noticeDeadline t f) s = .next u) ∧
      (d.deadline ≤ u.now → d.stop = false → ∃ w : State, exec (.noticeDeadline t f) s = .next w ∧ (w.fold f).pre.drain = none ∧
        (w.fold f).pre.status = 5 ∧ (w.fold f).st = x.st ∧ (∀ c ∈ (w.fold f).file.issued ++ (w.fold f).file.waiting, c.ckpt = false) ∧
        (∃ e ∈ w.events.waiting, e.code = 0x0808) ∧ othersSame f s w ∧ storesSame s w) ∧
      (d.deadline ≤ u.now → d.stop = true → ∃ w : State, exec (.noticeDeadline t f) s = .next w ∧ (w.fold f).st = .stopped ∧
        (w.fold f).pre.drain = none ∧ (w.fold f).pre.status = (if 4 ≤ d.written then 3 else 4) ∧
        (∃ e ∈ w.events.waiting, e.code = (if 4 ≤ d.written then 0x0806 else 0x0807)) ∧ storesSame s w)) ∧
    (∀ n, x.pre.drain = none → x.pre.notice = some n → n.stop = true → n.deadline ≤ u.now → x.st = .draining → x.growingNow = false →
      u.power.halted = false → exec (.noticeDeadline t f) s = .next (u.forceStopNow f) ∧ ((u.forceStopNow f).fold f).st = .stopped) ∧
    (x.pre.drain = none ∨ u.power.halted = true → exec (.checkpointSectionFlush t f) s = .next u) ∧
    (u.power.halted = true → exec (.noticeDeadline t f) s = .next u) ∧
    (∀ dropped, x.file.failed lba = none ∨ u.power.halted = true → exec (.filestoreError t f ⟨status, dropped⟩ lba) s = .next u) ∧
    (∀ dropped c, x.file.failed lba = some c → u.power.halted = false →
      c ∈ x.file.issued ∧ (c.data = [] ∨ c.lba ≤ lba) ∧
      ∃ w : State, exec (.filestoreError t f ⟨status, dropped⟩ lba) s = .next w ∧ (w.fold f).st = x.st ∧ (w.fold f).pre = x.pre ∧
        (w.fold f).file.issued = x.file.issued ∧ othersSame f s w ∧ storesSame s w ∧ w.cfg = s.cfg ∧
        (∃ e ∈ w.events.waiting, e.code = 0x080B ∧ e.detail = padTo 16 (le 2 status ++ le 8 lba)) ∧
        (u.mayReissue f c = false → w.out = s.out ∧ (w.fold f).file.up = (x.file.up && !dropped)) ∧
        (u.mayReissue f c = true → (w.fold f).file.up = true ∧ (u.power.gated = false → w.out = s.out ++
          ((if x.file.up = true ∧ dropped = false then [] else [.fileConnect f.val (u.foldCfg f).target (hostNqn s.sec.serial) true true false 128]) ++
            [if c.data = [] then .fileFlush f.val else .fileWrite f.val c.lba c.data])))) ∧
    (∀ c, u.mayReissue f c = true ↔ c.ckpt = false ∨ ∃ d, x.pre.drain = some d ∧ u.now < d.deadline)

/-- SD_CARD_INSERT, EVIDENCE_REMOVED, the two busy ends and SEALED_EVENT_BATCH_DUE (16, R440 to R454). -/
def Obligations.TheEvidenceCardTakesOnePageAtATime : Prop :=
  ∀ (t : Nat) (s u : State), s.tick t = u →
    (∀ p, u.sd.flight = some p → u.sd.phase = 1 → u.power.halted = false → ∃ w : State, exec (.journalPageBusyEnd t) s = .next w ∧
      w.sd = { u.sd with phase := 2, written := u.sd.written + 512 } ∧ w.folds = s.folds ∧ w.events = u.events ∧
      (u.power.gated = false → w.out = s.out ++ [.sdWrite (u.sd.block u.sd.nextJ + 32) (commitBytes p u.sd.nextJ (u.sd.block u.sd.nextJ) u.now)])) ∧
    (u.sd.flight = none ∨ u.sd.phase ≠ 1 ∨ u.power.halted = true → exec (.journalPageBusyEnd t) s = .next u) ∧
    (∀ p, u.sd.flight = some p → u.sd.phase = 2 → u.power.halted = false → ∃ w : State, exec (.journalCommitBusyEnd t) s = .next w ∧
      w.sd.nextJ = u.sd.nextJ + 1 ∧ w.sd.rewriting = false ∧ w.sd.journal = u.sd.journal ∧ w.sd.phase ≤ 1 ∧ storesSame s w ∧ w.cfg = s.cfg ∧
      (u.sd.rewriting = true → ∃ e ∈ w.events.waiting, e.code = 0x0A06 ∧ e.detail = padTo 16 (le 8 u.sd.nextJ))) ∧
    (u.sd.flight = none ∨ u.sd.phase ≠ 2 ∨ u.power.halted = true → exec (.journalCommitBusyEnd t) s = .next u) ∧
    (u.sd.card = none → exec (.evidenceRemoved t) s = .next u) ∧
    (u.sd.card ≠ none → ∃ w : State, exec (.evidenceRemoved t) s = .next w ∧
      w.sd = { u.sd with card := none, journal := false, phase := 0, rewriting := false } ∧ w.folds = s.folds ∧ w.out = s.out ∧
      (u.sd.phase = 0 → w.events = u.events) ∧
      (u.sd.phase ≠ 0 → ∃ e ∈ w.events.waiting, e.code = 0x0A05 ∧ e.detail = padTo 16 (le 8 u.sd.nextJ))) ∧
    (∀ m, (u.power.main = false ∨ u.power.halted = true → exec (.sdCardInsert t m) s = .next u) ∧
      (u.power.main = true → u.power.halted = false → sdCardOf m = none → ∃ w : State, exec (.sdCardInsert t m) s = .next w ∧
        w.sd = { u.sd with card := none, journal := false, phase := 0, rewriting := false } ∧ w.folds = s.folds ∧ w.out = s.out) ∧
      (m.capacity = .sdsc → sdCardOf m = none) ∧
      (∀ c, u.power.main = true → u.power.halted = false → sdCardOf m = some c → ∃ w : State, exec (.sdCardInsert t m) s = .next w ∧
        w.sd.nextJ = c.firstUncommitted ∧ w.sd.journal = (c.label.journal && !c.writeProtect && (c.label.owner == 0 || c.label.owner == s.sec.serial)) ∧
        c.firstUncommitted = m.firstUncommitted ∧ c.writeProtect = m.writeProtect ∧ c.label.version = 1 ∧ c.label.rsvd = 0 ∧
        w.sd.card.isSome = true ∧ storesSame s w ∧ w.cfg = s.cfg ∧
        (u.sd.flight.isSome = true → w.sd.flight = u.sd.flight ∧ w.folds = s.folds ∧
          ((w.sd.rewriting = true ↔ w.sd.journal = true ∧ 33 * (c.firstUncommitted + 1) ≤ c.label.journalBlocks ∧
            ({ u.sd with card := some c, nextJ := c.firstUncommitted, written := 33 * 512 * c.firstUncommitted } : Evidence).life < 100 ∧ u.power.booted = true) ∧
          (w.sd.phase = if w.sd.rewriting = true then 1 else 0))))) ∧
    (u.batchReady = false → exec (.sealedEventBatchDue t) s = .next u) ∧
    (u.batchReady = true → u.sd.phase ≠ 0 ∨ u.sd.flight.isSome = true →
      exec (.sealedEventBatchDue t) s = .next { u with sd := { u.sd with batchDue := true } })

/-- GRAZING_SLOT, MEMBER_REBUILD_DONE, QUADRANT_FAILURE and ECC_CE_RATE (14; 08, R195, R198, R217 to R219; 05, R127). -/
def Obligations.GrazingRepairsAndFailuresAreReported : Prop :=
  ∀ (t : Nat) (s u : State), s.tick t = u → u.power.halted = false →
    (u.power.booted = true →
      (∀ k pos ok, exec (.grazingSlot t (.hbm k pos ok)) s = .next (if u.hbmGrazes k pos = true then u.grazeHbm k ok else u)) ∧
      (∀ k pos, 64 ≤ pos → u.hbmGrazes k pos = false) ∧
      (∀ k pos f l e, (u.fold f).load = some l → e ∈ l.slots → e.resource = 0 → e.inst = k.val → e.pos = pos → e.kind % 16 ≠ 3 →
        u.hbmGrazes k pos = false) ∧
      (∀ k ok, (u.hbm k).lost = true → u.grazeHbm k ok = u) ∧
      (∀ k ok n, (u.hbm k).lost = false → (u.hbm k).writeBack = some n → ((u.grazeHbm k ok).hbm k).writeBack = none ∧
        ((u.grazeHbm k ok).hbm k).mem = (s.hbm k).mem ∧ (∀ w ∈ ((u.grazeHbm k ok).hbm k).soft, w / 64 ≠ n)) ∧
      (∀ k ok e, (u.hbm k).lost = false → (u.hbm k).writeBack = none → (u.hbm k).rebuilds.find? (fun r => decide (r.due ≤ u.now)) = some e →
        u.grazeHbm k ok = u.modHbm k fun x => { x with rebuilds := x.rebuilds.map fun y => if y = e then { y with begun := true } else y }) ∧
      (∀ n, 640 ≤ n ∨ u.quadHealthy (quadOfTile n) = false ∨ u.reservedNow n = false → exec (.grazingSlot t (.tile n)) s = .next u) ∧
      (∀ n w b r, n < 640 → u.reservedNow n = true → u.quadHealthy (quadOfTile n) = true → (u.tile n).scrub.2 = none → (u.tile n).restore = (w, b) :: r →
        ∃ v : State, exec (.grazingSlot t (.tile n)) s = .next v ∧ (v.tile n).mem = mwrite (s.tile n).mem (8 * w) b ∧ (v.tile n).restore = r ∧
          (∀ d, d ≠ n → v.tile d = s.tile d) ∧ v.folds = s.folds) ∧
      exec (.grazingSlot t .landing) s = .next u.grazeLanding ∧
      (∀ kind i pos pass, u.engineFree kind pos = false → exec (.grazingSlot t (.engine kind i pos pass)) s = .next u) ∧
      (∀ kind i pos, u.engineFree kind pos = true → ∃ v : State, exec (.grazingSlot t (.engine kind i pos false)) s = .next v ∧ v.power.engineFailed = true ∧
        ∃ e ∈ v.events.waiting, e.code = 0x0A01) ∧
      (∀ kind i pos, u.engineFree kind pos = true → ∃ v : State, exec (.grazingSlot t (.engine kind i pos true)) s = .next v ∧ v.power.engineFailed = u.power.engineFailed ∧
        v.folds = s.folds ∧ v.events = u.events) ∧
      (∀ k n, exec (.grazingSlot t (.link k n)) s = .next (u.grazeLink k n)) ∧
      (∀ k n, u.mayRetrain k = false → u.grazeLink k n = u) ∧
      (∀ p, exec (.grazingSlot t (.port p)) s =
        .next (if u.portFree p = true then u.modPort p fun x => { x with retrain := x.retrain + 1 } else u))) ∧
    (u.power.booted = false → ∀ r, r ≠ .shepherd → exec (.grazingSlot t r) s = .next u) ∧
    exec (.grazingSlot t .shepherd) s = .next u.grazeShepherd ∧
    (∀ f k, (u.hbm k).rebuilds.find? (fun e => e.fold == f.val && e.begun) = none → exec (.memberRebuildDone t f k) s = .next u) ∧
    (∀ f k r key, u.power.booted = true → (u.hbm k).lost = false →
      (u.hbm k).rebuilds.find? (fun e => e.fold == f.val && e.begun) = some r → r.key = key →
      ∃ w : State, exec (.memberRebuildDone t f k) s = .next w ∧ key ∉ (w.fold f).store.bad ∧ key ∈ (w.fold f).store.rebuilding ∧
        (w.fold f).store.members = mset [] (u.fold f).store.members key ((u.fold f).store.rebuilt key) ∧
        (∃ e ∈ w.events.waiting, e.code = 0x0503) ∧ othersSame f s w ∧ w.tiles = s.tiles ∧ w.cfg = s.cfg) ∧
    (∀ q cause, (u.power.booted = false ∨ (u.quad q).failed = true ∨ cause < 1 ∨ 3 < cause → exec (.quadrantFailure t q cause) s = .next u) ∧
      (u.power.booted = true → (u.quad q).failed = false → cause = 1 ∨ cause = 2 → ∃ w : State, exec (.quadrantFailure t q cause) s = .next w ∧
        (w.quad q).failed = true ∧ (∀ k : StackId, k.val / 2 = q.val → (w.hbm k).lost = true) ∧
        (∃ e ∈ w.events.waiting, e.code = 0x0308 ∧ e.detail = padTo 16 (le 1 cause)) ∧ w.cfg = s.cfg) ∧
      (u.power.booted = true → (u.quad q).failed = false → cause = 3 → ∃ w : State, exec (.quadrantFailure t q cause) s = .next w ∧
        (w.quad q).state = 2 ∧ (w.quad q).failed = false ∧ w.hbms = s.hbms ∧ (∃ e ∈ w.events.waiting, e.code = 0x0308) ∧ w.cfg = s.cfg)) ∧
    (∀ n, ((u.events.ceLast.find? fun e => e.1 == n).elim (u.now < 1000000000) fun e => u.now < e.2 + 1000000000) →
      exec (.eccCeRate t n) s = .next u) ∧
    (∀ n, ((u.events.ceLast.find? fun e => e.1 == n).elim (1000000000 ≤ u.now) fun e => e.2 + 1000000000 ≤ u.now) →
      (u.ceCount n ≤ 1000 → exec (.eccCeRate t n) s = .next (u.ceRestart n)) ∧
      (1000 < u.ceCount n → exec (.eccCeRate t n) s = .next ((u.emit n 0x0502 (le 4 (u.ceCount n))).ceRestart n)) ∧
      (u.ceRestart n).ceCount n = 0)

/-- The nine SPDM commands (09, R233, Table 9.6). Message bytes are symbolic (log entry 7). -/
def Obligations.SpdmAnswersInItsOrderAndOnItsKeys : Prop :=
  ∀ (t : Nat) (fn : FnId) (s u : State) (x : Spdm), s.tick t = u → (u.fn fn).spdm = x → u.answers = true → u.power.gated = false →
    (∃ w : State, exec (.spdmGetVersion t fn) s = .next w ∧ saidOnly s w fn (Config.message 0x04 [le 1 0x12]) ∧ (w.fn fn).spdm = { x with state := 1 }) ∧
    (1 ≤ x.state → ∃ w : State, exec (.spdmGetCapabilities t fn) s = .next w ∧
      saidOnly s w fn (Config.message 0x61 [le 1 1, le 1 2, le 1 3, le 1 4, le 1 5, le 1 6, le 1 7]) ∧ (w.fn fn).spdm = { x with state := max x.state 2 }) ∧
    (x.state = 0 → ∃ w : State, exec (.spdmGetCapabilities t fn) s = .next w ∧ saidError s w fn 1) ∧
    (∀ a, 2 ≤ x.state → a = ⟨true, true, true, true, true⟩ → ∃ w : State, exec (.spdmNegotiateAlgorithms t fn a) s = .next w ∧
      saidOnly s w fn (Config.message 0x63 [le 1 1, le 1 2, le 1 3, le 1 4, le 1 5]) ∧ (w.fn fn).spdm = { x with state := 3 }) ∧
    (∀ a, x.state < 2 ∨ a ≠ ⟨true, true, true, true, true⟩ → ∃ w : State, exec (.spdmNegotiateAlgorithms t fn a) s = .next w ∧
      saidError s w fn (if x.state < 2 then 1 else 2)) ∧
    (x.state < 3 → ∀ slot block nonce secret b,
      (∃ w : State, exec (.spdmGetCertificate t fn slot) s = .next w ∧ saidError s w fn 1) ∧
      (∃ w : State, exec (.spdmChallenge t fn slot nonce) s = .next w ∧ saidError s w fn 1) ∧
      (∃ w : State, exec (.spdmGetMeasurements t fn block nonce) s = .next w ∧ saidError s w fn 1) ∧
      (∃ w : State, exec (.spdmKeyExchange t fn secret b) s = .next w ∧ saidError s w fn 1)) ∧
    (3 ≤ x.state → ∀ key chain, u.leafKey fn = some key → u.chainOf fn = some chain → ∀ nonce secret,
      (∃ w : State, exec (.spdmGetCertificate t fn 0) s = .next w ∧ saidOnly s w fn chain ∧ (w.fn fn).spdm = x) ∧
      (∃ w : State, exec (.spdmChallenge t fn 0 nonce) s = .next w ∧
        saidOnly s w fn (Config.message 0x03 [nonce] ++ Config.sign key (Config.message 0x03 [nonce])) ∧ (w.fn fn).spdm = x) ∧
      (∀ slot, slot ≠ 0 → (∃ w : State, exec (.spdmGetCertificate t fn slot) s = .next w ∧ saidError s w fn 2) ∧
        (∃ w : State, exec (.spdmChallenge t fn slot nonce) s = .next w ∧ saidError s w fn 2)) ∧
      (∀ block m, u.measurement fn block nonce = some m → ∃ w : State, exec (.spdmGetMeasurements t fn block nonce) s = .next w ∧
        saidOnly s w fn (Config.message 0x60 [le 1 block, m, nonce] ++ Config.sign key (Config.message 0x60 [le 1 block, m, nonce]))) ∧
      (x.session = [] → ∃ w : State, exec (.spdmKeyExchange t fn secret true) s = .next w ∧ (w.fn fn).spdm = { x with session := padTo 32 secret } ∧
        w.out = s.out ++ [.spdm fn.val (Config.message 0x64 [] ++ Config.sign key (Config.message 0x64 [])), .spdm fn.val (Config.message 0x65 [])]) ∧
      (x.session ≠ [] → ∃ w : State, exec (.spdmKeyExchange t fn secret true) s = .next w ∧ saidError s w fn 3)) ∧
    (fn = 0 → ∀ nonce, u.measurement fn 1 nonce = some s.sec.fwMeas ∧ ∀ b, b ≠ 1 → u.measurement fn b nonce = none) ∧
    (x.session ≠ [] → (∀ key, ∃ w : State, exec (.spdmKeyUpdate t none fn key) s = .next w ∧ saidOnly s w fn (Config.message 0x69 []) ∧
        (w.fn fn).spdm = { x with session := padTo 32 key }) ∧
      (∃ w : State, exec (.spdmEndSession t fn) s = .next w ∧ (w.fn fn).spdm.session = [] ∧ (w.fn fn).ideKey = [] ∧ w.folds = s.folds ∧ storesSame s w)) ∧
    (x.session = [] → (∀ key, ∃ w : State, exec (.spdmKeyUpdate t none fn key) s = .next w ∧ saidError s w fn 4) ∧
      (∃ w : State, exec (.spdmEndSession t fn) s = .next w ∧ saidError s w fn 4))

/-- IDE_KM_KEY_PROG and the three TDISP commands (09, R234 to R237). -/
def Obligations.IdeKeysAndInterfacesFollowTheirStates : Prop :=
  ∀ (t : Nat) (fn : FnId) (s u : State) (x : Func), s.tick t = u → u.fn fn = x → u.answers = true → u.power.gated = false →
    (x.spdm.session = [] → ∀ m, ∃ w : State, exec (.ideKmKeyProg t fn m) s = .next w ∧ saidError s w fn 4) ∧
    (x.spdm.session ≠ [] →
      (∃ w : State, exec (.ideKmKeyProg t fn .query) s = .next w ∧ saidOnly s w fn (Config.message 0x81 [le 1 x.ide]) ∧ w.fn fn = x) ∧
      (∀ k, ∃ w : State, exec (.ideKmKeyProg t fn (.keyProg k)) s = .next w ∧ saidOnly s w fn (Config.message 0x83 []) ∧
        w.fn fn = { x with ideKey := padTo 32 k, ide := 1 }) ∧
      (x.ideKey ≠ [] → ∃ w : State, exec (.ideKmKeyProg t fn .setGo) s = .next w ∧ saidOnly s w fn (Config.message 0x85 []) ∧ w.fn fn = { x with ide := 2 }) ∧
      (x.ideKey = [] → ∃ w : State, exec (.ideKmKeyProg t fn .setGo) s = .next w ∧ saidError s w fn 2) ∧
      (∃ w : State, exec (.ideKmKeyProg t fn .setStop) s = .next w ∧ saidOnly s w fn (Config.message 0x86 []) ∧
        w.fn fn = { x with ide := if x.ide = 0 then 0 else 3 })) ∧
    (∀ f, foldOfFn fn = some f →
      (x.tdi = .unlocked → (u.fold f).st ∈ [FoldState.loaded, .stopped, .armed] → ∃ w : State, exec (.lockInterfaceRequest t fn) s = .next w ∧
        w.fn fn = { x with tdi := .locked, tdiNonce := padTo 32 (Config.fresh s.free) } ∧ w.free = s.free + 1 ∧
        saidOnly s w fn (Config.message 0x93 [padTo 32 (Config.fresh s.free)])) ∧
      (x.tdi ≠ .unlocked ∨ (u.fold f).st ∉ [FoldState.loaded, .stopped, .armed] → ∃ w : State, exec (.lockInterfaceRequest t fn) s = .next w ∧
        saidError s w fn 5) ∧
      (∀ l, (u.fold f).load = some l → x.tdi = .locked ∨ x.tdi = .run → ∃ w : State, exec (.getDeviceInterfaceReport t fn) s = .next w ∧ w.fn fn = x ∧
        saidOnly s w fn (Config.message 0x94 [le 1 0, le 4 0x10000, le 1 2, le 4 0x1000, le 1 f.val, l.foldMeas])) ∧
      (x.tdi = .unlocked ∨ x.tdi = .error → ∃ w : State, exec (.getDeviceInterfaceReport t fn) s = .next w ∧ saidError s w fn 5) ∧
      (x.tdi = .locked → ∃ w : State, exec (.startInterfaceRequest t fn x.tdiNonce) s = .next w ∧ w.fn fn = { x with tdi := .run, tdiNonce := [] } ∧
        saidOnly s w fn (Config.message 0x95 [])) ∧
      (∀ nonce, x.tdi ≠ .locked ∨ nonce ≠ x.tdiNonce → ∃ w : State, exec (.startInterfaceRequest t fn nonce) s = .next w ∧ saidError s w fn 5)) ∧
    (fn = 0 → (∃ w : State, exec (.lockInterfaceRequest t fn) s = .next w ∧ saidError s w fn 5) ∧
      (∃ w : State, exec (.getDeviceInterfaceReport t fn) s = .next w ∧ saidError s w fn 5) ∧
      ∀ nonce, ∃ w : State, exec (.startInterfaceRequest t fn nonce) s = .next w ∧ saidError s w fn 5)
end

