-- ==== Sys2Proof/Laws/State.lean ====
section
/-! SUPPORT. What each shared operation of Machine/Ops.lean leaves unchanged, field by field and part by part, and what a
part holds after it is written. The lemmas are simp rules, so that no later proof unfolds a record update. -/

namespace Sys2Proof.Machine

/-! ## Elements of vectors -/

@[simp] theorem vget_vset_same {α : Type} {n : Nat} (v : Vector α n) (i : Fin n) (x : α) : vget (vset v i x) i = x := by
  show (v.set i.val x i.isLt)[i.val] = x
  simp
@[simp] theorem vget_vset_other {α : Type} {n : Nat} (v : Vector α n) (i j : Fin n) (x : α) (h : j ≠ i) :
    vget (vset v i x) j = vget v j := by
  have h' : i.val ≠ j.val := fun e => h (Fin.ext e.symm)
  show (v.set i.val x i.isLt)[j.val] = v[j.val]
  exact Vector.getElem_set_ne i.isLt j.isLt h'

/-! ## A part after it is written -/

@[simp] theorem State.setFold_same (s : State) (f : FoldId) (x : Fold) : (s.setFold f x).fold f = x := by
  simp [State.fold, State.setFold]
@[simp] theorem State.setFold_other (s : State) (f g : FoldId) (x : Fold) (h : g ≠ f) : (s.setFold f x).fold g = s.fold g := by
  simp [State.fold, State.setFold, h]
@[simp] theorem State.modFold_same (s : State) (f : FoldId) (g : Fold → Fold) : (s.modFold f g).fold f = g (s.fold f) := by
  simp [State.modFold]
@[simp] theorem State.modFold_other (s : State) (f k : FoldId) (g : Fold → Fold) (h : k ≠ f) : (s.modFold f g).fold k = s.fold k := by
  simp [State.modFold, h]
@[simp] theorem State.modQuad_same (s : State) (q : QuadId) (g : Quad → Quad) : (s.modQuad q g).quad q = g (s.quad q) := by
  simp [State.quad, State.modQuad]
@[simp] theorem State.modQuad_other (s : State) (q k : QuadId) (g : Quad → Quad) (h : k ≠ q) : (s.modQuad q g).quad k = s.quad k := by
  simp [State.quad, State.modQuad, h]
@[simp] theorem State.modHbm_same (s : State) (k : StackId) (g : Stack → Stack) : (s.modHbm k g).hbm k = g (s.hbm k) := by
  simp [State.hbm, State.modHbm]
@[simp] theorem State.modHbm_other (s : State) (k j : StackId) (g : Stack → Stack) (h : j ≠ k) : (s.modHbm k g).hbm j = s.hbm j := by
  simp [State.hbm, State.modHbm, h]
@[simp] theorem State.modLink_same (s : State) (k : LinkId) (g : Link → Link) : (s.modLink k g).link k = g (s.link k) := by
  simp [State.link, State.modLink]
@[simp] theorem State.modLink_other (s : State) (k j : LinkId) (g : Link → Link) (h : j ≠ k) : (s.modLink k g).link j = s.link j := by
  simp [State.link, State.modLink, h]
@[simp] theorem State.modPort_same (s : State) (p : PortId) (g : Port → Port) : (s.modPort p g).port p = g (s.port p) := by
  simp [State.port, State.modPort]
@[simp] theorem State.modPort_other (s : State) (p j : PortId) (g : Port → Port) (h : j ≠ p) : (s.modPort p g).port j = s.port j := by
  simp [State.port, State.modPort, h]
@[simp] theorem State.modFn_same (s : State) (v : FnId) (g : Func → Func) : (s.modFn v g).fn v = g (s.fn v) := by
  simp [State.fn, State.modFn]
@[simp] theorem State.modFn_other (s : State) (v w : FnId) (g : Func → Func) (h : w ≠ v) : (s.modFn v g).fn w = s.fn w := by
  simp [State.fn, State.modFn, h]
@[simp] theorem State.modFoldCfg_same (s : State) (f : FoldId) (g : FoldCfg → FoldCfg) :
    (s.modFoldCfg f g).foldCfg f = g (s.foldCfg f) := by simp [State.foldCfg, State.modFoldCfg]
@[simp] theorem State.modFoldCfg_other (s : State) (f k : FoldId) (g : FoldCfg → FoldCfg) (h : k ≠ f) :
    (s.modFoldCfg f g).foldCfg k = s.foldCfg k := by simp [State.foldCfg, State.modFoldCfg, h]
@[simp] theorem Func.setQueue_same (x : Func) (q : Nat) (y : Queue) : (x.setQueue q y).queue q = y := by
  unfold Func.setQueue Func.queue; split <;> simp
@[simp] theorem Func.setQueue_frame (x : Func) (q : Nat) (y : Queue) :
    (x.setQueue q y).waitingCqes = x.waitingCqes ∧ (x.setQueue q y).lastMsix = x.lastMsix ∧ (x.setQueue q y).msixDue = x.msixDue ∧
    (x.setQueue q y).tdi = x.tdi ∧ (x.setQueue q y).spdm = x.spdm := by
  unfold Func.setQueue; split <;> exact ⟨rfl, rfl, rfl, rfl, rfl⟩

/-! ## Frames -/

@[simp] theorem State.setFold_frame (s : State) (f : FoldId) (x : Fold) :
    (s.setFold f x).pending = s.pending ∧
    (s.setFold f x).clock = s.clock ∧
    (s.setFold f x).power = s.power ∧
    (s.setFold f x).shep = s.shep ∧
    (s.setFold f x).kept = s.kept ∧
    (s.setFold f x).cfg = s.cfg ∧
    (s.setFold f x).quads = s.quads ∧
    (s.setFold f x).hbms = s.hbms ∧
    (s.setFold f x).links = s.links ∧
    (s.setFold f x).ports = s.ports ∧
    (s.setFold f x).fns = s.fns ∧
    (s.setFold f x).tiles = s.tiles ∧
    (s.setFold f x).chans = s.chans ∧
    (s.setFold f x).heath = s.heath ∧
    (s.setFold f x).events = s.events ∧
    (s.setFold f x).sec = s.sec ∧
    (s.setFold f x).sd = s.sd ∧
    (s.setFold f x).pcie = s.pcie ∧
    (s.setFold f x).out = s.out ∧
    (s.setFold f x).free = s.free ∧
    (∀ y, (s.setFold f x).fn y = s.fn y) ∧
    (∀ y, (s.setFold f x).link y = s.link y) ∧
    (∀ y, (s.setFold f x).port y = s.port y) ∧
    (∀ y, (s.setFold f x).quad y = s.quad y) ∧
    (∀ y, (s.setFold f x).hbm y = s.hbm y) ∧
    (∀ y, (s.setFold f x).tile y = s.tile y) ∧
    (∀ y, (s.setFold f x).chan y = s.chan y) ∧
    (∀ y, (s.setFold f x).foldCfg y = s.foldCfg y) ∧
    (∀ y, (s.setFold f x).chanCfg y = s.chanCfg y) ∧
    (s.setFold f x).now = s.now := by
  refine ⟨rfl, rfl, rfl, rfl, rfl, rfl, rfl, rfl, rfl, rfl, rfl, rfl, rfl, rfl, rfl, rfl, rfl, rfl, rfl, rfl, fun _ => rfl, fun _ => rfl, fun _ => rfl, fun _ => rfl, fun _ => rfl, fun _ => rfl, fun _ => rfl, fun _ => rfl, fun _ => rfl, rfl⟩
@[simp] theorem State.modFold_frame (s : State) (f : FoldId) (g : Fold → Fold) :
    (s.modFold f g).pending = s.pending ∧
    (s.modFold f g).clock = s.clock ∧
    (s.modFold f g).power = s.power ∧
    (s.modFold f g).shep = s.shep ∧
    (s.modFold f g).kept = s.kept ∧
    (s.modFold f g).cfg = s.cfg ∧
    (s.modFold f g).quads = s.quads ∧
    (s.modFold f g).hbms = s.hbms ∧
    (s.modFold f g).links = s.links ∧
    (s.modFold f g).ports = s.ports ∧
    (s.modFold f g).fns = s.fns ∧
    (s.modFold f g).tiles = s.tiles ∧
    (s.modFold f g).chans = s.chans ∧
    (s.modFold f g).heath = s.heath ∧
    (s.modFold f g).events = s.events ∧
    (s.modFold f g).sec = s.sec ∧
    (s.modFold f g).sd = s.sd ∧
    (s.modFold f g).pcie = s.pcie ∧
    (s.modFold f g).out = s.out ∧
    (s.modFold f g).free = s.free ∧
    (∀ y, (s.modFold f g).fn y = s.fn y) ∧
    (∀ y, (s.modFold f g).link y = s.link y) ∧
    (∀ y, (s.modFold f g).port y = s.port y) ∧
    (∀ y, (s.modFold f g).quad y = s.quad y) ∧
    (∀ y, (s.modFold f g).hbm y = s.hbm y) ∧
    (∀ y, (s.modFold f g).tile y = s.tile y) ∧
    (∀ y, (s.modFold f g).chan y = s.chan y) ∧
    (∀ y, (s.modFold f g).foldCfg y = s.foldCfg y) ∧
    (∀ y, (s.modFold f g).chanCfg y = s.chanCfg y) ∧
    (s.modFold f g).now = s.now := by
  refine ⟨rfl, rfl, rfl, rfl, rfl, rfl, rfl, rfl, rfl, rfl, rfl, rfl, rfl, rfl, rfl, rfl, rfl, rfl, rfl, rfl, fun _ => rfl, fun _ => rfl, fun _ => rfl, fun _ => rfl, fun _ => rfl, fun _ => rfl, fun _ => rfl, fun _ => rfl, fun _ => rfl, rfl⟩
@[simp] theorem State.modQuad_frame (s : State) (q : QuadId) (g : Quad → Quad) :
    (s.modQuad q g).pending = s.pending ∧
    (s.modQuad q g).clock = s.clock ∧
    (s.modQuad q g).power = s.power ∧
    (s.modQuad q g).shep = s.shep ∧
    (s.modQuad q g).kept = s.kept ∧
    (s.modQuad q g).cfg = s.cfg ∧
    (s.modQuad q g).folds = s.folds ∧
    (s.modQuad q g).hbms = s.hbms ∧
    (s.modQuad q g).links = s.links ∧
    (s.modQuad q g).ports = s.ports ∧
    (s.modQuad q g).fns = s.fns ∧
    (s.modQuad q g).tiles = s.tiles ∧
    (s.modQuad q g).chans = s.chans ∧
    (s.modQuad q g).heath = s.heath ∧
    (s.modQuad q g).events = s.events ∧
    (s.modQuad q g).sec = s.sec ∧
    (s.modQuad q g).sd = s.sd ∧
    (s.modQuad q g).pcie = s.pcie ∧
    (s.modQuad q g).out = s.out ∧
    (s.modQuad q g).free = s.free ∧
    (∀ y, (s.modQuad q g).fold y = s.fold y) ∧
    (∀ y, (s.modQuad q g).fn y = s.fn y) ∧
    (∀ y, (s.modQuad q g).link y = s.link y) ∧
    (∀ y, (s.modQuad q g).port y = s.port y) ∧
    (∀ y, (s.modQuad q g).hbm y = s.hbm y) ∧
    (∀ y, (s.modQuad q g).tile y = s.tile y) ∧
    (∀ y, (s.modQuad q g).chan y = s.chan y) ∧
    (∀ y, (s.modQuad q g).foldCfg y = s.foldCfg y) ∧
    (∀ y, (s.modQuad q g).chanCfg y = s.chanCfg y) ∧
    (s.modQuad q g).now = s.now := by
  refine ⟨rfl, rfl, rfl, rfl, rfl, rfl, rfl, rfl, rfl, rfl, rfl, rfl, rfl, rfl, rfl, rfl, rfl, rfl, rfl, rfl, fun _ => rfl, fun _ => rfl, fun _ => rfl, fun _ => rfl, fun _ => rfl, fun _ => rfl, fun _ => rfl, fun _ => rfl, fun _ => rfl, rfl⟩
@[simp] theorem State.modHbm_frame (s : State) (k : StackId) (g : Stack → Stack) :
    (s.modHbm k g).pending = s.pending ∧
    (s.modHbm k g).clock = s.clock ∧
    (s.modHbm k g).power = s.power ∧
    (s.modHbm k g).shep = s.shep ∧
    (s.modHbm k g).kept = s.kept ∧
    (s.modHbm k g).cfg = s.cfg ∧
    (s.modHbm k g).folds = s.folds ∧
    (s.modHbm k g).quads = s.quads ∧
    (s.modHbm k g).links = s.links ∧
    (s.modHbm k g).ports = s.ports ∧
    (s.modHbm k g).fns = s.fns ∧
    (s.modHbm k g).tiles = s.tiles ∧
    (s.modHbm k g).chans = s.chans ∧
    (s.modHbm k g).heath = s.heath ∧
    (s.modHbm k g).events = s.events ∧
    (s.modHbm k g).sec = s.sec ∧
    (s.modHbm k g).sd = s.sd ∧
    (s.modHbm k g).pcie = s.pcie ∧
    (s.modHbm k g).out = s.out ∧
    (s.modHbm k g).free = s.free ∧
    (∀ y, (s.modHbm k g).fold y = s.fold y) ∧
    (∀ y, (s.modHbm k g).fn y = s.fn y) ∧
    (∀ y, (s.modHbm k g).link y = s.link y) ∧
    (∀ y, (s.modHbm k g).port y = s.port y) ∧
    (∀ y, (s.modHbm k g).quad y = s.quad y) ∧
    (∀ y, (s.modHbm k g).tile y = s.tile y) ∧
    (∀ y, (s.modHbm k g).chan y = s.chan y) ∧
    (∀ y, (s.modHbm k g).foldCfg y = s.foldCfg y) ∧
    (∀ y, (s.modHbm k g).chanCfg y = s.chanCfg y) ∧
    (s.modHbm k g).now = s.now := by
  refine ⟨rfl, rfl, rfl, rfl, rfl, rfl, rfl, rfl, rfl, rfl, rfl, rfl, rfl, rfl, rfl, rfl, rfl, rfl, rfl, rfl, fun _ => rfl, fun _ => rfl, fun _ => rfl, fun _ => rfl, fun _ => rfl, fun _ => rfl, fun _ => rfl, fun _ => rfl, fun _ => rfl, rfl⟩
@[simp] theorem State.modLink_frame (s : State) (k : LinkId) (g : Link → Link) :
    (s.modLink k g).pending = s.pending ∧
    (s.modLink k g).clock = s.clock ∧
    (s.modLink k g).power = s.power ∧
    (s.modLink k g).shep = s.shep ∧
    (s.modLink k g).kept = s.kept ∧
    (s.modLink k g).cfg = s.cfg ∧
    (s.modLink k g).folds = s.folds ∧
    (s.modLink k g).quads = s.quads ∧
    (s.modLink k g).hbms = s.hbms ∧
    (s.modLink k g).ports = s.ports ∧
    (s.modLink k g).fns = s.fns ∧
    (s.modLink k g).tiles = s.tiles ∧
    (s.modLink k g).chans = s.chans ∧
    (s.modLink k g).heath = s.heath ∧
    (s.modLink k g).events = s.events ∧
    (s.modLink k g).sec = s.sec ∧
    (s.modLink k g).sd = s.sd ∧
    (s.modLink k g).pcie = s.pcie ∧
    (s.modLink k g).out = s.out ∧
    (s.modLink k g).free = s.free ∧
    (∀ y, (s.modLink k g).fold y = s.fold y) ∧
    (∀ y, (s.modLink k g).fn y = s.fn y) ∧
    (∀ y, (s.modLink k g).port y = s.port y) ∧
    (∀ y, (s.modLink k g).quad y = s.quad y) ∧
    (∀ y, (s.modLink k g).hbm y = s.hbm y) ∧
    (∀ y, (s.modLink k g).tile y = s.tile y) ∧
    (∀ y, (s.modLink k g).chan y = s.chan y) ∧
    (∀ y, (s.modLink k g).foldCfg y = s.foldCfg y) ∧
    (∀ y, (s.modLink k g).chanCfg y = s.chanCfg y) ∧
    (s.modLink k g).now = s.now := by
  refine ⟨rfl, rfl, rfl, rfl, rfl, rfl, rfl, rfl, rfl, rfl, rfl, rfl, rfl, rfl, rfl, rfl, rfl, rfl, rfl, rfl, fun _ => rfl, fun _ => rfl, fun _ => rfl, fun _ => rfl, fun _ => rfl, fun _ => rfl, fun _ => rfl, fun _ => rfl, fun _ => rfl, rfl⟩
@[simp] theorem State.modPort_frame (s : State) (p : PortId) (g : Port → Port) :
    (s.modPort p g).pending = s.pending ∧
    (s.modPort p g).clock = s.clock ∧
    (s.modPort p g).power = s.power ∧
    (s.modPort p g).shep = s.shep ∧
    (s.modPort p g).kept = s.kept ∧
    (s.modPort p g).cfg = s.cfg ∧
    (s.modPort p g).folds = s.folds ∧
    (s.modPort p g).quads = s.quads ∧
    (s.modPort p g).hbms = s.hbms ∧
    (s.modPort p g).links = s.links ∧
    (s.modPort p g).fns = s.fns ∧
    (s.modPort p g).tiles = s.tiles ∧
    (s.modPort p g).chans = s.chans ∧
    (s.modPort p g).heath = s.heath ∧
    (s.modPort p g).events = s.events ∧
    (s.modPort p g).sec = s.sec ∧
    (s.modPort p g).sd = s.sd ∧
    (s.modPort p g).pcie = s.pcie ∧
    (s.modPort p g).out = s.out ∧
    (s.modPort p g).free = s.free ∧
    (∀ y, (s.modPort p g).fold y = s.fold y) ∧
    (∀ y, (s.modPort p g).fn y = s.fn y) ∧
    (∀ y, (s.modPort p g).link y = s.link y) ∧
    (∀ y, (s.modPort p g).quad y = s.quad y) ∧
    (∀ y, (s.modPort p g).hbm y = s.hbm y) ∧
    (∀ y, (s.modPort p g).tile y = s.tile y) ∧
    (∀ y, (s.modPort p g).chan y = s.chan y) ∧
    (∀ y, (s.modPort p g).foldCfg y = s.foldCfg y) ∧
    (∀ y, (s.modPort p g).chanCfg y = s.chanCfg y) ∧
    (s.modPort p g).now = s.now := by
  refine ⟨rfl, rfl, rfl, rfl, rfl, rfl, rfl, rfl, rfl, rfl, rfl, rfl, rfl, rfl, rfl, rfl, rfl, rfl, rfl, rfl, fun _ => rfl, fun _ => rfl, fun _ => rfl, fun _ => rfl, fun _ => rfl, fun _ => rfl, fun _ => rfl, fun _ => rfl, fun _ => rfl, rfl⟩
@[simp] theorem State.modFn_frame (s : State) (v : FnId) (g : Func → Func) :
    (s.modFn v g).pending = s.pending ∧
    (s.modFn v g).clock = s.clock ∧
    (s.modFn v g).power = s.power ∧
    (s.modFn v g).shep = s.shep ∧
    (s.modFn v g).kept = s.kept ∧
    (s.modFn v g).cfg = s.cfg ∧
    (s.modFn v g).folds = s.folds ∧
    (s.modFn v g).quads = s.quads ∧
    (s.modFn v g).hbms = s.hbms ∧
    (s.modFn v g).links = s.links ∧
    (s.modFn v g).ports = s.ports ∧
    (s.modFn v g).tiles = s.tiles ∧
    (s.modFn v g).chans = s.chans ∧
    (s.modFn v g).heath = s.heath ∧
    (s.modFn v g).events = s.events ∧
    (s.modFn v g).sec = s.sec ∧
    (s.modFn v g).sd = s.sd ∧
    (s.modFn v g).pcie = s.pcie ∧
    (s.modFn v g).out = s.out ∧
    (s.modFn v g).free = s.free ∧
    (∀ y, (s.modFn v g).fold y = s.fold y) ∧
    (∀ y, (s.modFn v g).link y = s.link y) ∧
    (∀ y, (s.modFn v g).port y = s.port y) ∧
    (∀ y, (s.modFn v g).quad y = s.quad y) ∧
    (∀ y, (s.modFn v g).hbm y = s.hbm y) ∧
    (∀ y, (s.modFn v g).tile y = s.tile y) ∧
    (∀ y, (s.modFn v g).chan y = s.chan y) ∧
    (∀ y, (s.modFn v g).foldCfg y = s.foldCfg y) ∧
    (∀ y, (s.modFn v g).chanCfg y = s.chanCfg y) ∧
    (s.modFn v g).now = s.now := by
  refine ⟨rfl, rfl, rfl, rfl, rfl, rfl, rfl, rfl, rfl, rfl, rfl, rfl, rfl, rfl, rfl, rfl, rfl, rfl, rfl, rfl, fun _ => rfl, fun _ => rfl, fun _ => rfl, fun _ => rfl, fun _ => rfl, fun _ => rfl, fun _ => rfl, fun _ => rfl, fun _ => rfl, rfl⟩
@[simp] theorem State.setTile_frame (s : State) (n : Nat) (x : Tile) :
    (s.setTile n x).pending = s.pending ∧
    (s.setTile n x).clock = s.clock ∧
    (s.setTile n x).power = s.power ∧
    (s.setTile n x).shep = s.shep ∧
    (s.setTile n x).kept = s.kept ∧
    (s.setTile n x).cfg = s.cfg ∧
    (s.setTile n x).folds = s.folds ∧
    (s.setTile n x).quads = s.quads ∧
    (s.setTile n x).hbms = s.hbms ∧
    (s.setTile n x).links = s.links ∧
    (s.setTile n x).ports = s.ports ∧
    (s.setTile n x).fns = s.fns ∧
    (s.setTile n x).chans = s.chans ∧
    (s.setTile n x).heath = s.heath ∧
    (s.setTile n x).events = s.events ∧
    (s.setTile n x).sec = s.sec ∧
    (s.setTile n x).sd = s.sd ∧
    (s.setTile n x).pcie = s.pcie ∧
    (s.setTile n x).out = s.out ∧
    (s.setTile n x).free = s.free ∧
    (∀ y, (s.setTile n x).fold y = s.fold y) ∧
    (∀ y, (s.setTile n x).fn y = s.fn y) ∧
    (∀ y, (s.setTile n x).link y = s.link y) ∧
    (∀ y, (s.setTile n x).port y = s.port y) ∧
    (∀ y, (s.setTile n x).quad y = s.quad y) ∧
    (∀ y, (s.setTile n x).hbm y = s.hbm y) ∧
    (∀ y, (s.setTile n x).chan y = s.chan y) ∧
    (∀ y, (s.setTile n x).foldCfg y = s.foldCfg y) ∧
    (∀ y, (s.setTile n x).chanCfg y = s.chanCfg y) ∧
    (s.setTile n x).now = s.now := by
  refine ⟨rfl, rfl, rfl, rfl, rfl, rfl, rfl, rfl, rfl, rfl, rfl, rfl, rfl, rfl, rfl, rfl, rfl, rfl, rfl, rfl, fun _ => rfl, fun _ => rfl, fun _ => rfl, fun _ => rfl, fun _ => rfl, fun _ => rfl, fun _ => rfl, fun _ => rfl, fun _ => rfl, rfl⟩
@[simp] theorem State.setChan_frame (s : State) (n : Nat) (x : Chan) :
    (s.setChan n x).pending = s.pending ∧
    (s.setChan n x).clock = s.clock ∧
    (s.setChan n x).power = s.power ∧
    (s.setChan n x).shep = s.shep ∧
    (s.setChan n x).kept = s.kept ∧
    (s.setChan n x).cfg = s.cfg ∧
    (s.setChan n x).folds = s.folds ∧
    (s.setChan n x).quads = s.quads ∧
    (s.setChan n x).hbms = s.hbms ∧
    (s.setChan n x).links = s.links ∧
    (s.setChan n x).ports = s.ports ∧
    (s.setChan n x).fns = s.fns ∧
    (s.setChan n x).tiles = s.tiles ∧
    (s.setChan n x).heath = s.heath ∧
    (s.setChan n x).events = s.events ∧
    (s.setChan n x).sec = s.sec ∧
    (s.setChan n x).sd = s.sd ∧
    (s.setChan n x).pcie = s.pcie ∧
    (s.setChan n x).out = s.out ∧
    (s.setChan n x).free = s.free ∧
    (∀ y, (s.setChan n x).fold y = s.fold y) ∧
    (∀ y, (s.setChan n x).fn y = s.fn y) ∧
    (∀ y, (s.setChan n x).link y = s.link y) ∧
    (∀ y, (s.setChan n x).port y = s.port y) ∧
    (∀ y, (s.setChan n x).quad y = s.quad y) ∧
    (∀ y, (s.setChan n x).hbm y = s.hbm y) ∧
    (∀ y, (s.setChan n x).tile y = s.tile y) ∧
    (∀ y, (s.setChan n x).foldCfg y = s.foldCfg y) ∧
    (∀ y, (s.setChan n x).chanCfg y = s.chanCfg y) ∧
    (s.setChan n x).now = s.now := by
  refine ⟨rfl, rfl, rfl, rfl, rfl, rfl, rfl, rfl, rfl, rfl, rfl, rfl, rfl, rfl, rfl, rfl, rfl, rfl, rfl, rfl, fun _ => rfl, fun _ => rfl, fun _ => rfl, fun _ => rfl, fun _ => rfl, fun _ => rfl, fun _ => rfl, fun _ => rfl, fun _ => rfl, rfl⟩
@[simp] theorem State.modFoldCfg_frame (s : State) (f : FoldId) (g : FoldCfg → FoldCfg) :
    (s.modFoldCfg f g).pending = s.pending ∧
    (s.modFoldCfg f g).clock = s.clock ∧
    (s.modFoldCfg f g).power = s.power ∧
    (s.modFoldCfg f g).shep = s.shep ∧
    (s.modFoldCfg f g).kept = s.kept ∧
    (s.modFoldCfg f g).folds = s.folds ∧
    (s.modFoldCfg f g).quads = s.quads ∧
    (s.modFoldCfg f g).hbms = s.hbms ∧
    (s.modFoldCfg f g).links = s.links ∧
    (s.modFoldCfg f g).ports = s.ports ∧
    (s.modFoldCfg f g).fns = s.fns ∧
    (s.modFoldCfg f g).tiles = s.tiles ∧
    (s.modFoldCfg f g).chans = s.chans ∧
    (s.modFoldCfg f g).heath = s.heath ∧
    (s.modFoldCfg f g).events = s.events ∧
    (s.modFoldCfg f g).sec = s.sec ∧
    (s.modFoldCfg f g).sd = s.sd ∧
    (s.modFoldCfg f g).pcie = s.pcie ∧
    (s.modFoldCfg f g).out = s.out ∧
    (s.modFoldCfg f g).free = s.free ∧
    (∀ y, (s.modFoldCfg f g).fold y = s.fold y) ∧
    (∀ y, (s.modFoldCfg f g).fn y = s.fn y) ∧
    (∀ y, (s.modFoldCfg f g).link y = s.link y) ∧
    (∀ y, (s.modFoldCfg f g).port y = s.port y) ∧
    (∀ y, (s.modFoldCfg f g).quad y = s.quad y) ∧
    (∀ y, (s.modFoldCfg f g).hbm y = s.hbm y) ∧
    (∀ y, (s.modFoldCfg f g).tile y = s.tile y) ∧
    (∀ y, (s.modFoldCfg f g).chan y = s.chan y) ∧
    (∀ y, (s.modFoldCfg f g).chanCfg y = s.chanCfg y) ∧
    (s.modFoldCfg f g).now = s.now := by
  refine ⟨rfl, rfl, rfl, rfl, rfl, rfl, rfl, rfl, rfl, rfl, rfl, rfl, rfl, rfl, rfl, rfl, rfl, rfl, rfl, rfl, fun _ => rfl, fun _ => rfl, fun _ => rfl, fun _ => rfl, fun _ => rfl, fun _ => rfl, fun _ => rfl, fun _ => rfl, fun _ => rfl, rfl⟩
@[simp] theorem State.tick_frame (s : State) (t : Nat) :
    (s.tick t).pending = s.pending ∧
    (s.tick t).power = s.power ∧
    (s.tick t).shep = s.shep ∧
    (s.tick t).kept = s.kept ∧
    (s.tick t).cfg = s.cfg ∧
    (s.tick t).folds = s.folds ∧
    (s.tick t).quads = s.quads ∧
    (s.tick t).hbms = s.hbms ∧
    (s.tick t).links = s.links ∧
    (s.tick t).ports = s.ports ∧
    (s.tick t).fns = s.fns ∧
    (s.tick t).tiles = s.tiles ∧
    (s.tick t).chans = s.chans ∧
    (s.tick t).heath = s.heath ∧
    (s.tick t).events = s.events ∧
    (s.tick t).sec = s.sec ∧
    (s.tick t).sd = s.sd ∧
    (s.tick t).pcie = s.pcie ∧
    (s.tick t).out = s.out ∧
    (s.tick t).free = s.free ∧
    (∀ y, (s.tick t).fold y = s.fold y) ∧
    (∀ y, (s.tick t).fn y = s.fn y) ∧
    (∀ y, (s.tick t).link y = s.link y) ∧
    (∀ y, (s.tick t).port y = s.port y) ∧
    (∀ y, (s.tick t).quad y = s.quad y) ∧
    (∀ y, (s.tick t).hbm y = s.hbm y) ∧
    (∀ y, (s.tick t).tile y = s.tile y) ∧
    (∀ y, (s.tick t).chan y = s.chan y) ∧
    (∀ y, (s.tick t).foldCfg y = s.foldCfg y) ∧
    (∀ y, (s.tick t).chanCfg y = s.chanCfg y) := by
  unfold State.tick
  split <;> exact ⟨rfl, rfl, rfl, rfl, rfl, rfl, rfl, rfl, rfl, rfl, rfl, rfl, rfl, rfl, rfl, rfl, rfl, rfl, rfl, rfl, fun _ => rfl, fun _ => rfl, fun _ => rfl, fun _ => rfl, fun _ => rfl, fun _ => rfl, fun _ => rfl, fun _ => rfl, fun _ => rfl, fun _ => rfl⟩
@[simp] theorem State.send_frame (s : State) (o : Output) :
    (s.send o).pending = s.pending ∧
    (s.send o).clock = s.clock ∧
    (s.send o).power = s.power ∧
    (s.send o).shep = s.shep ∧
    (s.send o).kept = s.kept ∧
    (s.send o).cfg = s.cfg ∧
    (s.send o).folds = s.folds ∧
    (s.send o).quads = s.quads ∧
    (s.send o).hbms = s.hbms ∧
    (s.send o).links = s.links ∧
    (s.send o).ports = s.ports ∧
    (s.send o).fns = s.fns ∧
    (s.send o).tiles = s.tiles ∧
    (s.send o).chans = s.chans ∧
    (s.send o).heath = s.heath ∧
    (s.send o).events = s.events ∧
    (s.send o).sec = s.sec ∧
    (s.send o).sd = s.sd ∧
    (s.send o).pcie = s.pcie ∧
    (s.send o).free = s.free ∧
    (∀ y, (s.send o).fold y = s.fold y) ∧
    (∀ y, (s.send o).fn y = s.fn y) ∧
    (∀ y, (s.send o).link y = s.link y) ∧
    (∀ y, (s.send o).port y = s.port y) ∧
    (∀ y, (s.send o).quad y = s.quad y) ∧
    (∀ y, (s.send o).hbm y = s.hbm y) ∧
    (∀ y, (s.send o).tile y = s.tile y) ∧
    (∀ y, (s.send o).chan y = s.chan y) ∧
    (∀ y, (s.send o).foldCfg y = s.foldCfg y) ∧
    (∀ y, (s.send o).chanCfg y = s.chanCfg y) ∧
    (s.send o).now = s.now := by
  unfold State.send
  split <;> exact ⟨rfl, rfl, rfl, rfl, rfl, rfl, rfl, rfl, rfl, rfl, rfl, rfl, rfl, rfl, rfl, rfl, rfl, rfl, rfl, rfl, fun _ => rfl, fun _ => rfl, fun _ => rfl, fun _ => rfl, fun _ => rfl, fun _ => rfl, fun _ => rfl, fun _ => rfl, fun _ => rfl, fun _ => rfl, rfl⟩
@[simp] theorem State.emitAt_frame (s : State) (a u c : Nat) (fo : Bool) (d : Bytes) :
    (s.emitAt a u c fo d).pending = s.pending ∧
    (s.emitAt a u c fo d).clock = s.clock ∧
    (s.emitAt a u c fo d).power = s.power ∧
    (s.emitAt a u c fo d).shep = s.shep ∧
    (s.emitAt a u c fo d).kept = s.kept ∧
    (s.emitAt a u c fo d).cfg = s.cfg ∧
    (s.emitAt a u c fo d).folds = s.folds ∧
    (s.emitAt a u c fo d).quads = s.quads ∧
    (s.emitAt a u c fo d).hbms = s.hbms ∧
    (s.emitAt a u c fo d).links = s.links ∧
    (s.emitAt a u c fo d).ports = s.ports ∧
    (s.emitAt a u c fo d).fns = s.fns ∧
    (s.emitAt a u c fo d).tiles = s.tiles ∧
    (s.emitAt a u c fo d).chans = s.chans ∧
    (s.emitAt a u c fo d).heath = s.heath ∧
    (s.emitAt a u c fo d).sec = s.sec ∧
    (s.emitAt a u c fo d).sd = s.sd ∧
    (s.emitAt a u c fo d).pcie = s.pcie ∧
    (s.emitAt a u c fo d).out = s.out ∧
    (s.emitAt a u c fo d).free = s.free ∧
    (∀ y, (s.emitAt a u c fo d).fold y = s.fold y) ∧
    (∀ y, (s.emitAt a u c fo d).fn y = s.fn y) ∧
    (∀ y, (s.emitAt a u c fo d).link y = s.link y) ∧
    (∀ y, (s.emitAt a u c fo d).port y = s.port y) ∧
    (∀ y, (s.emitAt a u c fo d).quad y = s.quad y) ∧
    (∀ y, (s.emitAt a u c fo d).hbm y = s.hbm y) ∧
    (∀ y, (s.emitAt a u c fo d).tile y = s.tile y) ∧
    (∀ y, (s.emitAt a u c fo d).chan y = s.chan y) ∧
    (∀ y, (s.emitAt a u c fo d).foldCfg y = s.foldCfg y) ∧
    (∀ y, (s.emitAt a u c fo d).chanCfg y = s.chanCfg y) ∧
    (s.emitAt a u c fo d).now = s.now := by
  refine ⟨rfl, rfl, rfl, rfl, rfl, rfl, rfl, rfl, rfl, rfl, rfl, rfl, rfl, rfl, rfl, rfl, rfl, rfl, rfl, rfl, fun _ => rfl, fun _ => rfl, fun _ => rfl, fun _ => rfl, fun _ => rfl, fun _ => rfl, fun _ => rfl, fun _ => rfl, fun _ => rfl, fun _ => rfl, rfl⟩
@[simp] theorem State.emit_frame (s : State) (u c : Nat) (d : Bytes) :
    (s.emit u c d).pending = s.pending ∧
    (s.emit u c d).clock = s.clock ∧
    (s.emit u c d).power = s.power ∧
    (s.emit u c d).shep = s.shep ∧
    (s.emit u c d).kept = s.kept ∧
    (s.emit u c d).cfg = s.cfg ∧
    (s.emit u c d).folds = s.folds ∧
    (s.emit u c d).quads = s.quads ∧
    (s.emit u c d).hbms = s.hbms ∧
    (s.emit u c d).links = s.links ∧
    (s.emit u c d).ports = s.ports ∧
    (s.emit u c d).fns = s.fns ∧
    (s.emit u c d).tiles = s.tiles ∧
    (s.emit u c d).chans = s.chans ∧
    (s.emit u c d).heath = s.heath ∧
    (s.emit u c d).sec = s.sec ∧
    (s.emit u c d).sd = s.sd ∧
    (s.emit u c d).pcie = s.pcie ∧
    (s.emit u c d).out = s.out ∧
    (s.emit u c d).free = s.free ∧
    (∀ y, (s.emit u c d).fold y = s.fold y) ∧
    (∀ y, (s.emit u c d).fn y = s.fn y) ∧
    (∀ y, (s.emit u c d).link y = s.link y) ∧
    (∀ y, (s.emit u c d).port y = s.port y) ∧
    (∀ y, (s.emit u c d).quad y = s.quad y) ∧
    (∀ y, (s.emit u c d).hbm y = s.hbm y) ∧
    (∀ y, (s.emit u c d).tile y = s.tile y) ∧
    (∀ y, (s.emit u c d).chan y = s.chan y) ∧
    (∀ y, (s.emit u c d).foldCfg y = s.foldCfg y) ∧
    (∀ y, (s.emit u c d).chanCfg y = s.chanCfg y) ∧
    (s.emit u c d).now = s.now := by
  refine ⟨rfl, rfl, rfl, rfl, rfl, rfl, rfl, rfl, rfl, rfl, rfl, rfl, rfl, rfl, rfl, rfl, rfl, rfl, rfl, rfl, fun _ => rfl, fun _ => rfl, fun _ => rfl, fun _ => rfl, fun _ => rfl, fun _ => rfl, fun _ => rfl, fun _ => rfl, fun _ => rfl, fun _ => rfl, rfl⟩
@[simp] theorem State.sendVec_frame (s : State) (v : FnId) (n : Fin 4) :
    (s.sendVec v n).pending = s.pending ∧
    (s.sendVec v n).clock = s.clock ∧
    (s.sendVec v n).power = s.power ∧
    (s.sendVec v n).shep = s.shep ∧
    (s.sendVec v n).kept = s.kept ∧
    (s.sendVec v n).cfg = s.cfg ∧
    (s.sendVec v n).folds = s.folds ∧
    (s.sendVec v n).quads = s.quads ∧
    (s.sendVec v n).hbms = s.hbms ∧
    (s.sendVec v n).links = s.links ∧
    (s.sendVec v n).ports = s.ports ∧
    (s.sendVec v n).tiles = s.tiles ∧
    (s.sendVec v n).chans = s.chans ∧
    (s.sendVec v n).heath = s.heath ∧
    (s.sendVec v n).events = s.events ∧
    (s.sendVec v n).sec = s.sec ∧
    (s.sendVec v n).sd = s.sd ∧
    (s.sendVec v n).pcie = s.pcie ∧
    (s.sendVec v n).free = s.free ∧
    (∀ y, (s.sendVec v n).fold y = s.fold y) ∧
    (∀ y, (s.sendVec v n).link y = s.link y) ∧
    (∀ y, (s.sendVec v n).port y = s.port y) ∧
    (∀ y, (s.sendVec v n).quad y = s.quad y) ∧
    (∀ y, (s.sendVec v n).hbm y = s.hbm y) ∧
    (∀ y, (s.sendVec v n).tile y = s.tile y) ∧
    (∀ y, (s.sendVec v n).chan y = s.chan y) ∧
    (∀ y, (s.sendVec v n).foldCfg y = s.foldCfg y) ∧
    (∀ y, (s.sendVec v n).chanCfg y = s.chanCfg y) ∧
    (s.sendVec v n).now = s.now := by
  simp [State.sendVec]
@[simp] theorem State.coalesce_frame (s : State) (v : FnId) (n : Fin 4) :
    (s.coalesce v n).pending = s.pending ∧
    (s.coalesce v n).clock = s.clock ∧
    (s.coalesce v n).power = s.power ∧
    (s.coalesce v n).shep = s.shep ∧
    (s.coalesce v n).kept = s.kept ∧
    (s.coalesce v n).cfg = s.cfg ∧
    (s.coalesce v n).folds = s.folds ∧
    (s.coalesce v n).quads = s.quads ∧
    (s.coalesce v n).hbms = s.hbms ∧
    (s.coalesce v n).links = s.links ∧
    (s.coalesce v n).ports = s.ports ∧
    (s.coalesce v n).tiles = s.tiles ∧
    (s.coalesce v n).chans = s.chans ∧
    (s.coalesce v n).heath = s.heath ∧
    (s.coalesce v n).events = s.events ∧
    (s.coalesce v n).sec = s.sec ∧
    (s.coalesce v n).sd = s.sd ∧
    (s.coalesce v n).pcie = s.pcie ∧
    (s.coalesce v n).free = s.free ∧
    (∀ y, (s.coalesce v n).fold y = s.fold y) ∧
    (∀ y, (s.coalesce v n).link y = s.link y) ∧
    (∀ y, (s.coalesce v n).port y = s.port y) ∧
    (∀ y, (s.coalesce v n).quad y = s.quad y) ∧
    (∀ y, (s.coalesce v n).hbm y = s.hbm y) ∧
    (∀ y, (s.coalesce v n).tile y = s.tile y) ∧
    (∀ y, (s.coalesce v n).chan y = s.chan y) ∧
    (∀ y, (s.coalesce v n).foldCfg y = s.foldCfg y) ∧
    (∀ y, (s.coalesce v n).chanCfg y = s.chanCfg y) ∧
    (s.coalesce v n).now = s.now := by
  unfold State.coalesce
  repeat' split
  all_goals simp [State.fold, State.fn, State.link, State.port, State.quad, State.hbm, State.tile, State.chan, State.foldCfg, State.chanCfg, State.now]
@[simp] theorem State.writeCqe_frame (s : State) (v : FnId) (c : Cqe) :
    (s.writeCqe v c).pending = s.pending ∧
    (s.writeCqe v c).clock = s.clock ∧
    (s.writeCqe v c).power = s.power ∧
    (s.writeCqe v c).shep = s.shep ∧
    (s.writeCqe v c).kept = s.kept ∧
    (s.writeCqe v c).cfg = s.cfg ∧
    (s.writeCqe v c).folds = s.folds ∧
    (s.writeCqe v c).quads = s.quads ∧
    (s.writeCqe v c).hbms = s.hbms ∧
    (s.writeCqe v c).links = s.links ∧
    (s.writeCqe v c).ports = s.ports ∧
    (s.writeCqe v c).tiles = s.tiles ∧
    (s.writeCqe v c).chans = s.chans ∧
    (s.writeCqe v c).heath = s.heath ∧
    (s.writeCqe v c).events = s.events ∧
    (s.writeCqe v c).sec = s.sec ∧
    (s.writeCqe v c).sd = s.sd ∧
    (s.writeCqe v c).pcie = s.pcie ∧
    (s.writeCqe v c).free = s.free ∧
    (∀ y, (s.writeCqe v c).fold y = s.fold y) ∧
    (∀ y, (s.writeCqe v c).link y = s.link y) ∧
    (∀ y, (s.writeCqe v c).port y = s.port y) ∧
    (∀ y, (s.writeCqe v c).quad y = s.quad y) ∧
    (∀ y, (s.writeCqe v c).hbm y = s.hbm y) ∧
    (∀ y, (s.writeCqe v c).tile y = s.tile y) ∧
    (∀ y, (s.writeCqe v c).chan y = s.chan y) ∧
    (∀ y, (s.writeCqe v c).foldCfg y = s.foldCfg y) ∧
    (∀ y, (s.writeCqe v c).chanCfg y = s.chanCfg y) ∧
    (s.writeCqe v c).now = s.now := by
  simp [State.writeCqe]
@[simp] theorem State.post_frame (s : State) (v : FnId) (c : Cqe) :
    (s.post v c).pending = s.pending ∧
    (s.post v c).clock = s.clock ∧
    (s.post v c).power = s.power ∧
    (s.post v c).shep = s.shep ∧
    (s.post v c).kept = s.kept ∧
    (s.post v c).cfg = s.cfg ∧
    (s.post v c).folds = s.folds ∧
    (s.post v c).quads = s.quads ∧
    (s.post v c).hbms = s.hbms ∧
    (s.post v c).links = s.links ∧
    (s.post v c).ports = s.ports ∧
    (s.post v c).tiles = s.tiles ∧
    (s.post v c).chans = s.chans ∧
    (s.post v c).heath = s.heath ∧
    (s.post v c).events = s.events ∧
    (s.post v c).sec = s.sec ∧
    (s.post v c).sd = s.sd ∧
    (s.post v c).pcie = s.pcie ∧
    (s.post v c).free = s.free ∧
    (∀ y, (s.post v c).fold y = s.fold y) ∧
    (∀ y, (s.post v c).link y = s.link y) ∧
    (∀ y, (s.post v c).port y = s.port y) ∧
    (∀ y, (s.post v c).quad y = s.quad y) ∧
    (∀ y, (s.post v c).hbm y = s.hbm y) ∧
    (∀ y, (s.post v c).tile y = s.tile y) ∧
    (∀ y, (s.post v c).chan y = s.chan y) ∧
    (∀ y, (s.post v c).foldCfg y = s.foldCfg y) ∧
    (∀ y, (s.post v c).chanCfg y = s.chanCfg y) ∧
    (s.post v c).now = s.now := by
  unfold State.post
  dsimp only
  repeat' split
  all_goals simp [State.fold, State.fn, State.link, State.port, State.quad, State.hbm, State.tile, State.chan, State.foldCfg, State.chanCfg, State.now]
@[simp] theorem State.complete_frame (s : State) (q : QHdr) (st ev a b c : Nat) :
    (s.complete q st ev a b c).pending = s.pending ∧
    (s.complete q st ev a b c).clock = s.clock ∧
    (s.complete q st ev a b c).power = s.power ∧
    (s.complete q st ev a b c).shep = s.shep ∧
    (s.complete q st ev a b c).kept = s.kept ∧
    (s.complete q st ev a b c).cfg = s.cfg ∧
    (s.complete q st ev a b c).folds = s.folds ∧
    (s.complete q st ev a b c).quads = s.quads ∧
    (s.complete q st ev a b c).hbms = s.hbms ∧
    (s.complete q st ev a b c).links = s.links ∧
    (s.complete q st ev a b c).ports = s.ports ∧
    (s.complete q st ev a b c).tiles = s.tiles ∧
    (s.complete q st ev a b c).chans = s.chans ∧
    (s.complete q st ev a b c).heath = s.heath ∧
    (s.complete q st ev a b c).events = s.events ∧
    (s.complete q st ev a b c).sec = s.sec ∧
    (s.complete q st ev a b c).sd = s.sd ∧
    (s.complete q st ev a b c).pcie = s.pcie ∧
    (s.complete q st ev a b c).free = s.free ∧
    (∀ y, (s.complete q st ev a b c).fold y = s.fold y) ∧
    (∀ y, (s.complete q st ev a b c).link y = s.link y) ∧
    (∀ y, (s.complete q st ev a b c).port y = s.port y) ∧
    (∀ y, (s.complete q st ev a b c).quad y = s.quad y) ∧
    (∀ y, (s.complete q st ev a b c).hbm y = s.hbm y) ∧
    (∀ y, (s.complete q st ev a b c).tile y = s.tile y) ∧
    (∀ y, (s.complete q st ev a b c).chan y = s.chan y) ∧
    (∀ y, (s.complete q st ev a b c).foldCfg y = s.foldCfg y) ∧
    (∀ y, (s.complete q st ev a b c).chanCfg y = s.chanCfg y) ∧
    (s.complete q st ev a b c).now = s.now := by
  simp [State.complete]
@[simp] theorem State.complete1_frame (s : State) (q : QHdr) (st ev a b c : Nat) :
    (s.complete1 q st ev a b c).pending = s.pending ∧
    (s.complete1 q st ev a b c).clock = s.clock ∧
    (s.complete1 q st ev a b c).power = s.power ∧
    (s.complete1 q st ev a b c).shep = s.shep ∧
    (s.complete1 q st ev a b c).kept = s.kept ∧
    (s.complete1 q st ev a b c).cfg = s.cfg ∧
    (s.complete1 q st ev a b c).folds = s.folds ∧
    (s.complete1 q st ev a b c).quads = s.quads ∧
    (s.complete1 q st ev a b c).hbms = s.hbms ∧
    (s.complete1 q st ev a b c).links = s.links ∧
    (s.complete1 q st ev a b c).ports = s.ports ∧
    (s.complete1 q st ev a b c).tiles = s.tiles ∧
    (s.complete1 q st ev a b c).chans = s.chans ∧
    (s.complete1 q st ev a b c).heath = s.heath ∧
    (s.complete1 q st ev a b c).events = s.events ∧
    (s.complete1 q st ev a b c).sec = s.sec ∧
    (s.complete1 q st ev a b c).sd = s.sd ∧
    (s.complete1 q st ev a b c).pcie = s.pcie ∧
    (s.complete1 q st ev a b c).free = s.free ∧
    (∀ y, (s.complete1 q st ev a b c).fold y = s.fold y) ∧
    (∀ y, (s.complete1 q st ev a b c).link y = s.link y) ∧
    (∀ y, (s.complete1 q st ev a b c).port y = s.port y) ∧
    (∀ y, (s.complete1 q st ev a b c).quad y = s.quad y) ∧
    (∀ y, (s.complete1 q st ev a b c).hbm y = s.hbm y) ∧
    (∀ y, (s.complete1 q st ev a b c).tile y = s.tile y) ∧
    (∀ y, (s.complete1 q st ev a b c).chan y = s.chan y) ∧
    (∀ y, (s.complete1 q st ev a b c).foldCfg y = s.foldCfg y) ∧
    (∀ y, (s.complete1 q st ev a b c).chanCfg y = s.chanCfg y) ∧
    (s.complete1 q st ev a b c).now = s.now := by
  simp [State.complete1]
@[simp] theorem State.fetch_frame (s : State) (v : FnId) (n : Nat) :
    (s.fetch v n).pending = s.pending ∧
    (s.fetch v n).clock = s.clock ∧
    (s.fetch v n).power = s.power ∧
    (s.fetch v n).shep = s.shep ∧
    (s.fetch v n).kept = s.kept ∧
    (s.fetch v n).cfg = s.cfg ∧
    (s.fetch v n).folds = s.folds ∧
    (s.fetch v n).quads = s.quads ∧
    (s.fetch v n).hbms = s.hbms ∧
    (s.fetch v n).links = s.links ∧
    (s.fetch v n).ports = s.ports ∧
    (s.fetch v n).tiles = s.tiles ∧
    (s.fetch v n).chans = s.chans ∧
    (s.fetch v n).heath = s.heath ∧
    (s.fetch v n).events = s.events ∧
    (s.fetch v n).sec = s.sec ∧
    (s.fetch v n).sd = s.sd ∧
    (s.fetch v n).pcie = s.pcie ∧
    (s.fetch v n).out = s.out ∧
    (s.fetch v n).free = s.free ∧
    (∀ y, (s.fetch v n).fold y = s.fold y) ∧
    (∀ y, (s.fetch v n).link y = s.link y) ∧
    (∀ y, (s.fetch v n).port y = s.port y) ∧
    (∀ y, (s.fetch v n).quad y = s.quad y) ∧
    (∀ y, (s.fetch v n).hbm y = s.hbm y) ∧
    (∀ y, (s.fetch v n).tile y = s.tile y) ∧
    (∀ y, (s.fetch v n).chan y = s.chan y) ∧
    (∀ y, (s.fetch v n).foldCfg y = s.foldCfg y) ∧
    (∀ y, (s.fetch v n).chanCfg y = s.chanCfg y) ∧
    (s.fetch v n).now = s.now := by
  simp [State.fetch]
@[simp] theorem State.updateLevel_frame (s : State)  :
    (s.updateLevel).pending = s.pending ∧
    (s.updateLevel).clock = s.clock ∧
    (s.updateLevel).shep = s.shep ∧
    (s.updateLevel).kept = s.kept ∧
    (s.updateLevel).cfg = s.cfg ∧
    (s.updateLevel).folds = s.folds ∧
    (s.updateLevel).quads = s.quads ∧
    (s.updateLevel).hbms = s.hbms ∧
    (s.updateLevel).links = s.links ∧
    (s.updateLevel).ports = s.ports ∧
    (s.updateLevel).tiles = s.tiles ∧
    (s.updateLevel).chans = s.chans ∧
    (s.updateLevel).heath = s.heath ∧
    (s.updateLevel).sec = s.sec ∧
    (s.updateLevel).sd = s.sd ∧
    (s.updateLevel).pcie = s.pcie ∧
    (s.updateLevel).free = s.free ∧
    (∀ y, (s.updateLevel).fold y = s.fold y) ∧
    (∀ y, (s.updateLevel).link y = s.link y) ∧
    (∀ y, (s.updateLevel).port y = s.port y) ∧
    (∀ y, (s.updateLevel).quad y = s.quad y) ∧
    (∀ y, (s.updateLevel).hbm y = s.hbm y) ∧
    (∀ y, (s.updateLevel).tile y = s.tile y) ∧
    (∀ y, (s.updateLevel).chan y = s.chan y) ∧
    (∀ y, (s.updateLevel).foldCfg y = s.foldCfg y) ∧
    (∀ y, (s.updateLevel).chanCfg y = s.chanCfg y) ∧
    (s.updateLevel).now = s.now := by
  unfold State.updateLevel
  dsimp only
  split
  · simp
  · simp [State.fold, State.fn, State.link, State.port, State.quad, State.hbm, State.tile, State.chan, State.foldCfg, State.chanCfg, State.now]
@[simp] theorem State.setSt_frame (s : State) (f : FoldId) (st : FoldState) :
    (s.setSt f st).pending = s.pending ∧
    (s.setSt f st).clock = s.clock ∧
    (s.setSt f st).power = s.power ∧
    (s.setSt f st).shep = s.shep ∧
    (s.setSt f st).kept = s.kept ∧
    (s.setSt f st).cfg = s.cfg ∧
    (s.setSt f st).quads = s.quads ∧
    (s.setSt f st).hbms = s.hbms ∧
    (s.setSt f st).links = s.links ∧
    (s.setSt f st).ports = s.ports ∧
    (s.setSt f st).tiles = s.tiles ∧
    (s.setSt f st).chans = s.chans ∧
    (s.setSt f st).heath = s.heath ∧
    (s.setSt f st).events = s.events ∧
    (s.setSt f st).sec = s.sec ∧
    (s.setSt f st).sd = s.sd ∧
    (s.setSt f st).pcie = s.pcie ∧
    (s.setSt f st).free = s.free ∧
    (∀ y, (s.setSt f st).link y = s.link y) ∧
    (∀ y, (s.setSt f st).port y = s.port y) ∧
    (∀ y, (s.setSt f st).quad y = s.quad y) ∧
    (∀ y, (s.setSt f st).hbm y = s.hbm y) ∧
    (∀ y, (s.setSt f st).tile y = s.tile y) ∧
    (∀ y, (s.setSt f st).chan y = s.chan y) ∧
    (∀ y, (s.setSt f st).foldCfg y = s.foldCfg y) ∧
    (∀ y, (s.setSt f st).chanCfg y = s.chanCfg y) ∧
    (s.setSt f st).now = s.now := by
  unfold State.setSt
  split
  · simp
  · simp [State.fold, State.fn, State.link, State.port, State.quad, State.hbm, State.tile, State.chan, State.foldCfg, State.chanCfg, State.now]

end Sys2Proof.Machine
end

