-- ==== Sys2Proof/Laws/Dict.lean ====
section
/-! SUPPORT. What the checks and the answer of a dictionary access can do (13): an access changes AuthSeq and events while it is
checked, and refusals, functions and outputs when it is answered, and nothing else. -/

namespace Sys2Proof.Machine

@[simp] theorem State.answer_frame (s : State) (a : Access) (i u c e : Nat) (b : Bytes) :
    (s.answer a i u c e b).pending = s.pending ∧
    (s.answer a i u c e b).clock = s.clock ∧
    (s.answer a i u c e b).power = s.power ∧
    (s.answer a i u c e b).kept = s.kept ∧
    (s.answer a i u c e b).cfg = s.cfg ∧
    (s.answer a i u c e b).folds = s.folds ∧
    (s.answer a i u c e b).quads = s.quads ∧
    (s.answer a i u c e b).hbms = s.hbms ∧
    (s.answer a i u c e b).links = s.links ∧
    (s.answer a i u c e b).ports = s.ports ∧
    (s.answer a i u c e b).tiles = s.tiles ∧
    (s.answer a i u c e b).chans = s.chans ∧
    (s.answer a i u c e b).heath = s.heath ∧
    (s.answer a i u c e b).events = s.events ∧
    (s.answer a i u c e b).sec = s.sec ∧
    (s.answer a i u c e b).sd = s.sd ∧
    (s.answer a i u c e b).pcie = s.pcie ∧
    (s.answer a i u c e b).free = s.free ∧
    (∀ y, (s.answer a i u c e b).fold y = s.fold y) ∧
    (∀ y, (s.answer a i u c e b).link y = s.link y) ∧
    (∀ y, (s.answer a i u c e b).port y = s.port y) ∧
    (∀ y, (s.answer a i u c e b).quad y = s.quad y) ∧
    (∀ y, (s.answer a i u c e b).hbm y = s.hbm y) ∧
    (∀ y, (s.answer a i u c e b).tile y = s.tile y) ∧
    (∀ y, (s.answer a i u c e b).chan y = s.chan y) ∧
    (∀ y, (s.answer a i u c e b).foldCfg y = s.foldCfg y) ∧
    (∀ y, (s.answer a i u c e b).chanCfg y = s.chanCfg y) ∧
    (s.answer a i u c e b).now = s.now := by
  unfold State.answer
  dsimp only
  repeat' split
  all_goals simp [State.fold, State.fn, State.link, State.port, State.quad, State.hbm, State.tile, State.chan, State.foldCfg, State.chanCfg, State.now]
@[simp] theorem State.authReject_frame (s : State) (a : Access) (i u r q : Nat) :
    (s.authReject a i u r q).pending = s.pending ∧
    (s.authReject a i u r q).clock = s.clock ∧
    (s.authReject a i u r q).power = s.power ∧
    (s.authReject a i u r q).shep = s.shep ∧
    (s.authReject a i u r q).kept = s.kept ∧
    (s.authReject a i u r q).cfg = s.cfg ∧
    (s.authReject a i u r q).folds = s.folds ∧
    (s.authReject a i u r q).quads = s.quads ∧
    (s.authReject a i u r q).hbms = s.hbms ∧
    (s.authReject a i u r q).links = s.links ∧
    (s.authReject a i u r q).ports = s.ports ∧
    (s.authReject a i u r q).fns = s.fns ∧
    (s.authReject a i u r q).tiles = s.tiles ∧
    (s.authReject a i u r q).chans = s.chans ∧
    (s.authReject a i u r q).heath = s.heath ∧
    (s.authReject a i u r q).sec = s.sec ∧
    (s.authReject a i u r q).sd = s.sd ∧
    (s.authReject a i u r q).pcie = s.pcie ∧
    (s.authReject a i u r q).out = s.out ∧
    (s.authReject a i u r q).free = s.free ∧
    (∀ y, (s.authReject a i u r q).fold y = s.fold y) ∧
    (∀ y, (s.authReject a i u r q).fn y = s.fn y) ∧
    (∀ y, (s.authReject a i u r q).link y = s.link y) ∧
    (∀ y, (s.authReject a i u r q).port y = s.port y) ∧
    (∀ y, (s.authReject a i u r q).quad y = s.quad y) ∧
    (∀ y, (s.authReject a i u r q).hbm y = s.hbm y) ∧
    (∀ y, (s.authReject a i u r q).tile y = s.tile y) ∧
    (∀ y, (s.authReject a i u r q).chan y = s.chan y) ∧
    (∀ y, (s.authReject a i u r q).foldCfg y = s.foldCfg y) ∧
    (∀ y, (s.authReject a i u r q).chanCfg y = s.chanCfg y) ∧
    (s.authReject a i u r q).now = s.now := by
  simp [State.authReject]
@[simp] theorem State.setSeq_frame (s : State) (r n : Nat) :
    (s.setSeq r n).pending = s.pending ∧
    (s.setSeq r n).clock = s.clock ∧
    (s.setSeq r n).power = s.power ∧
    (s.setSeq r n).shep = s.shep ∧
    (s.setSeq r n).cfg = s.cfg ∧
    (s.setSeq r n).folds = s.folds ∧
    (s.setSeq r n).quads = s.quads ∧
    (s.setSeq r n).hbms = s.hbms ∧
    (s.setSeq r n).links = s.links ∧
    (s.setSeq r n).ports = s.ports ∧
    (s.setSeq r n).fns = s.fns ∧
    (s.setSeq r n).tiles = s.tiles ∧
    (s.setSeq r n).chans = s.chans ∧
    (s.setSeq r n).heath = s.heath ∧
    (s.setSeq r n).events = s.events ∧
    (s.setSeq r n).sec = s.sec ∧
    (s.setSeq r n).sd = s.sd ∧
    (s.setSeq r n).pcie = s.pcie ∧
    (s.setSeq r n).out = s.out ∧
    (s.setSeq r n).free = s.free ∧
    (∀ y, (s.setSeq r n).fold y = s.fold y) ∧
    (∀ y, (s.setSeq r n).fn y = s.fn y) ∧
    (∀ y, (s.setSeq r n).link y = s.link y) ∧
    (∀ y, (s.setSeq r n).port y = s.port y) ∧
    (∀ y, (s.setSeq r n).quad y = s.quad y) ∧
    (∀ y, (s.setSeq r n).hbm y = s.hbm y) ∧
    (∀ y, (s.setSeq r n).tile y = s.tile y) ∧
    (∀ y, (s.setSeq r n).chan y = s.chan y) ∧
    (∀ y, (s.setSeq r n).foldCfg y = s.foldCfg y) ∧
    (∀ y, (s.setSeq r n).chanCfg y = s.chanCfg y) ∧
    (s.setSeq r n).now = s.now := by
  refine ⟨rfl, rfl, rfl, rfl, rfl, rfl, rfl, rfl, rfl, rfl, rfl, rfl, rfl, rfl, rfl, rfl, rfl, rfl, rfl, rfl, fun _ => rfl, fun _ => rfl, fun _ => rfl, fun _ => rfl, fun _ => rfl, fun _ => rfl, fun _ => rfl, fun _ => rfl, fun _ => rfl, fun _ => rfl, rfl⟩
@[simp] theorem State.zeroSession_frame (s : State) (v : FnId) :
    (s.zeroSession v).pending = s.pending ∧
    (s.zeroSession v).clock = s.clock ∧
    (s.zeroSession v).power = s.power ∧
    (s.zeroSession v).shep = s.shep ∧
    (s.zeroSession v).kept = s.kept ∧
    (s.zeroSession v).cfg = s.cfg ∧
    (s.zeroSession v).folds = s.folds ∧
    (s.zeroSession v).quads = s.quads ∧
    (s.zeroSession v).hbms = s.hbms ∧
    (s.zeroSession v).links = s.links ∧
    (s.zeroSession v).ports = s.ports ∧
    (s.zeroSession v).tiles = s.tiles ∧
    (s.zeroSession v).chans = s.chans ∧
    (s.zeroSession v).heath = s.heath ∧
    (s.zeroSession v).events = s.events ∧
    (s.zeroSession v).sec = s.sec ∧
    (s.zeroSession v).sd = s.sd ∧
    (s.zeroSession v).pcie = s.pcie ∧
    (s.zeroSession v).out = s.out ∧
    (s.zeroSession v).free = s.free ∧
    (∀ y, (s.zeroSession v).fold y = s.fold y) ∧
    (∀ y, (s.zeroSession v).link y = s.link y) ∧
    (∀ y, (s.zeroSession v).port y = s.port y) ∧
    (∀ y, (s.zeroSession v).quad y = s.quad y) ∧
    (∀ y, (s.zeroSession v).hbm y = s.hbm y) ∧
    (∀ y, (s.zeroSession v).tile y = s.tile y) ∧
    (∀ y, (s.zeroSession v).chan y = s.chan y) ∧
    (∀ y, (s.zeroSession v).foldCfg y = s.foldCfg y) ∧
    (∀ y, (s.zeroSession v).chanCfg y = s.chanCfg y) ∧
    (s.zeroSession v).now = s.now := by
  simp [State.zeroSession]

theorem State.lateChecks_st (s : State) (a : Access) (i u : Nat) (e : Ent) (v : Bytes) :
    (s.lateChecks a i u e v).st = s ∧ (s.lateChecks a i u e v).value = v := by
  unfold State.lateChecks
  repeat' split
  all_goals exact ⟨rfl, rfl⟩
theorem State.noticeUnsigned_rest (s : State) (a : Access) (v : Bytes) :
    s.noticeUnsigned a v = { s with events := (s.noticeUnsigned a v).events } := by
  unfold State.noticeUnsigned
  split
  · simp only [State.emit, State.emitAt]
  · rfl
/-- The checks change AuthSeq and events only. -/
theorem State.admitWrite_rest (s : State) (a : Access) (i u : Nat) (d : WData) (c : Bool) :
    (s.admitWrite a i u d c).st = { s with kept := (s.admitWrite a i u d c).st.kept, events := (s.admitWrite a i u d c).st.events } := by
  unfold State.admitWrite State.signedChecks
  dsimp only
  repeat' split
  all_goals first
    | rfl
    | (dsimp only; rw [State.noticeUnsigned_rest]; rfl)
    | (rw [(State.lateChecks_st _ _ _ _ _ _).1]; done)
    | (rw [(State.lateChecks_st _ _ _ _ _ _).1]; rfl)
/-- An admitted write carries its payload. -/
theorem State.admitWrite_value (s : State) (a : Access) (i u : Nat) (d : WData) (c : Bool) :
    (s.admitWrite a i u d c).value = match d with | .plain v => v | .signed o => o.payload := by
  cases d <;> (unfold State.admitWrite State.signedChecks; dsimp only; repeat' split)
  all_goals first
    | rfl
    | exact (State.lateChecks_st _ _ _ _ _ _).2
@[simp] theorem State.admitWrite_frame (s : State) (a : Access) (i u : Nat) (d : WData) (c : Bool) :
    (s.admitWrite a i u d c).st.pending = s.pending ∧ (s.admitWrite a i u d c).st.clock = s.clock ∧
    (s.admitWrite a i u d c).st.power = s.power ∧ (s.admitWrite a i u d c).st.shep = s.shep ∧
    (s.admitWrite a i u d c).st.cfg = s.cfg ∧ (s.admitWrite a i u d c).st.folds = s.folds ∧
    (s.admitWrite a i u d c).st.quads = s.quads ∧ (s.admitWrite a i u d c).st.hbms = s.hbms ∧
    (s.admitWrite a i u d c).st.links = s.links ∧ (s.admitWrite a i u d c).st.ports = s.ports ∧
    (s.admitWrite a i u d c).st.fns = s.fns ∧ (s.admitWrite a i u d c).st.tiles = s.tiles ∧
    (s.admitWrite a i u d c).st.chans = s.chans ∧ (s.admitWrite a i u d c).st.heath = s.heath ∧
    (s.admitWrite a i u d c).st.sec = s.sec ∧ (s.admitWrite a i u d c).st.sd = s.sd ∧
    (s.admitWrite a i u d c).st.pcie = s.pcie ∧ (s.admitWrite a i u d c).st.out = s.out ∧
    (s.admitWrite a i u d c).st.free = s.free ∧
    (∀ y, (s.admitWrite a i u d c).st.fold y = s.fold y) ∧ (∀ y, (s.admitWrite a i u d c).st.fn y = s.fn y) ∧
    (∀ y, (s.admitWrite a i u d c).st.foldCfg y = s.foldCfg y) ∧ (∀ y, (s.admitWrite a i u d c).st.chan y = s.chan y) ∧
    (∀ y, (s.admitWrite a i u d c).st.chanCfg y = s.chanCfg y) ∧ (∀ y, (s.admitWrite a i u d c).st.tile y = s.tile y) := by
  rw [State.admitWrite_rest]
  exact ⟨rfl, rfl, rfl, rfl, rfl, rfl, rfl, rfl, rfl, rfl, rfl, rfl, rfl, rfl, rfl, rfl, rfl, rfl, rfl, fun _ => rfl, fun _ => rfl,
    fun _ => rfl, fun _ => rfl, fun _ => rfl, fun _ => rfl⟩

/-- A write with the main supply that the checks admit: the commit on its payload, then the answer. -/
theorem State.dictWrite_admitted (s : State) (i u : Nat) (r : WReq) (commit : State → Bytes → State × Nat × Nat)
    (hs : s.writeService r.acc = 2) (ha : (s.admitWrite r.acc i u r.data false).abort = 0) (hr : r.rsvd = 0)
    (hb : (r.acc.path == 0 && s.barDead r.acc.fn) = false) :
    s.dictWrite i u r commit =
      (commit (s.admitWrite r.acc i u r.data false).st (s.admitWrite r.acc i u r.data false).value).1.answer r.acc i u
        (commit (s.admitWrite r.acc i u r.data false).st (s.admitWrite r.acc i u r.data false).value).2.1
        (commit (s.admitWrite r.acc i u r.data false).st (s.admitWrite r.acc i u r.data false).value).2.2 [] := by
  simp [State.dictWrite, State.commitOrHold, ha, hs, hr, hb]
/-- A write that the checks refuse: the answer alone. -/
theorem State.dictWrite_refused (s : State) (i u : Nat) (r : WReq) (commit : State → Bytes → State × Nat × Nat)
    (ha : (s.admitWrite r.acc i u r.data false).abort ≠ 0) (hb : (r.acc.path == 0 && s.barDead r.acc.fn) = false) :
    s.dictWrite i u r commit = (s.admitWrite r.acc i u r.data false).st.answer r.acc i u
      (s.admitWrite r.acc i u r.data false).abort (s.admitWrite r.acc i u r.data false).event [] := by
  simp [State.dictWrite, ha, hb]
/-- An accepted access leaves the Shepherd as it was. -/
@[simp] theorem State.answer_zero_shep (s : State) (a : Access) (i u e : Nat) (b : Bytes) : (s.answer a i u 0 e b).shep = s.shep := by
  unfold State.answer
  dsimp only
  split <;> simp
/-- A refusal is the path's LastRefusal. -/
theorem State.answer_shep (s : State) (a : Access) (i u c e : Nat) (b : Bytes) (h : c ≠ 0) :
    (s.answer a i u c e b).shep =
      { s.shep with refusals := mset ⟨0, 0, 0, 0⟩ s.shep.refusals a.path.val ⟨i, u, c, s.now⟩ } := by
  unfold State.answer
  dsimp only
  split <;> simp [h]

end Sys2Proof.Machine
end

