-- ==== Sys2Proof/Laws/FieldBus.lean ====
section
/-! SUPPORT. Which operations leave the four values that say whether the field controllers are on their buses (17, R467). One lemma per
operation, in the order of the files. -/

namespace Sys2Proof.Machine

/-! ## Ops -/

@[simp] theorem ite_shep (c : Prop) [Decidable c] (a b : State) : (if c then a else b).shep = if c then a.shep else b.shep := apply_ite _ _ _ _

@[simp] theorem ite_fbPresHigh (c : Prop) [Decidable c] (a b : Shepherd) : (if c then a else b).fbPresHigh = if c then a.fbPresHigh else b.fbPresHigh := apply_ite _ _ _ _

@[simp] theorem ite_alState (c : Prop) [Decidable c] (a b : Shepherd) : (if c then a else b).alState = if c then a.alState else b.alState := apply_ite _ _ _ _

@[simp] theorem ite_nmt (c : Prop) [Decidable c] (a b : Shepherd) : (if c then a else b).nmt = if c then a.nmt else b.nmt := apply_ite _ _ _ _

@[simp] theorem ite_fieldBefore (c : Prop) [Decidable c] (a b : Shepherd) : (if c then a else b).fieldBefore = if c then a.fieldBefore else b.fieldBefore := apply_ite _ _ _ _

@[simp] theorem foldl_fbPresHigh {α : Type} (f : State → α → State) (l : List α) (s : State) (h : ∀ s a, (f s a).shep.fbPresHigh = s.shep.fbPresHigh) :
    (l.foldl f s).shep.fbPresHigh = s.shep.fbPresHigh := by
  induction l generalizing s with
  | nil => rfl
  | cons a l ih => rw [List.foldl_cons, ih, h]

@[simp] theorem foldl_alState {α : Type} (f : State → α → State) (l : List α) (s : State) (h : ∀ s a, (f s a).shep.alState = s.shep.alState) :
    (l.foldl f s).shep.alState = s.shep.alState := by
  induction l generalizing s with
  | nil => rfl
  | cons a l ih => rw [List.foldl_cons, ih, h]

@[simp] theorem foldl_nmt {α : Type} (f : State → α → State) (l : List α) (s : State) (h : ∀ s a, (f s a).shep.nmt = s.shep.nmt) :
    (l.foldl f s).shep.nmt = s.shep.nmt := by
  induction l generalizing s with
  | nil => rfl
  | cons a l ih => rw [List.foldl_cons, ih, h]

@[simp] theorem foldl_fieldBefore {α : Type} (f : State → α → State) (l : List α) (s : State) (h : ∀ s a, (f s a).shep.fieldBefore = s.shep.fieldBefore) :
    (l.foldl f s).shep.fieldBefore = s.shep.fieldBefore := by
  induction l generalizing s with
  | nil => rfl
  | cons a l ih => rw [List.foldl_cons, ih, h]

theorem foldl_field {α : Type} (g : State → α → State) (l : List α) (s : State)
    (hg : ∀ s a, (g s a).shep.fbPresHigh = s.shep.fbPresHigh ∧ (g s a).shep.alState = s.shep.alState ∧ (g s a).shep.nmt = s.shep.nmt ∧ (g s a).shep.fieldBefore = s.shep.fieldBefore) :
    (l.foldl g s).shep.fbPresHigh = s.shep.fbPresHigh ∧ (l.foldl g s).shep.alState = s.shep.alState ∧ (l.foldl g s).shep.nmt = s.shep.nmt ∧ (l.foldl g s).shep.fieldBefore = s.shep.fieldBefore :=
  ⟨foldl_fbPresHigh _ _ _ fun s a => (hg s a).1, foldl_alState _ _ _ fun s a => (hg s a).2.1, foldl_nmt _ _ _ fun s a => (hg s a).2.2.1, foldl_fieldBefore _ _ _ fun s a => (hg s a).2.2.2⟩

@[simp] theorem State.setFold_field (s : State) (f : FoldId) (x : Fold) :
    (State.setFold s f x).shep.fbPresHigh = s.shep.fbPresHigh ∧ (State.setFold s f x).shep.alState = s.shep.alState ∧ (State.setFold s f x).shep.nmt = s.shep.nmt ∧ (State.setFold s f x).shep.fieldBefore = s.shep.fieldBefore := by
  unfold State.setFold
  simp

@[simp] theorem State.modFold_field (s : State) (f : FoldId) (g : Fold → Fold) :
    (State.modFold s f g).shep.fbPresHigh = s.shep.fbPresHigh ∧ (State.modFold s f g).shep.alState = s.shep.alState ∧ (State.modFold s f g).shep.nmt = s.shep.nmt ∧ (State.modFold s f g).shep.fieldBefore = s.shep.fieldBefore := by
  unfold State.modFold
  simp

@[simp] theorem State.modQuad_field (s : State) (q : QuadId) (g : Quad → Quad) :
    (State.modQuad s q g).shep.fbPresHigh = s.shep.fbPresHigh ∧ (State.modQuad s q g).shep.alState = s.shep.alState ∧ (State.modQuad s q g).shep.nmt = s.shep.nmt ∧ (State.modQuad s q g).shep.fieldBefore = s.shep.fieldBefore := by
  unfold State.modQuad
  simp

@[simp] theorem State.modHbm_field (s : State) (k : StackId) (g : Stack → Stack) :
    (State.modHbm s k g).shep.fbPresHigh = s.shep.fbPresHigh ∧ (State.modHbm s k g).shep.alState = s.shep.alState ∧ (State.modHbm s k g).shep.nmt = s.shep.nmt ∧ (State.modHbm s k g).shep.fieldBefore = s.shep.fieldBefore := by
  unfold State.modHbm
  simp

@[simp] theorem State.modLink_field (s : State) (k : LinkId) (g : Link → Link) :
    (State.modLink s k g).shep.fbPresHigh = s.shep.fbPresHigh ∧ (State.modLink s k g).shep.alState = s.shep.alState ∧ (State.modLink s k g).shep.nmt = s.shep.nmt ∧ (State.modLink s k g).shep.fieldBefore = s.shep.fieldBefore := by
  unfold State.modLink
  simp

@[simp] theorem State.modPort_field (s : State) (p : PortId) (g : Port → Port) :
    (State.modPort s p g).shep.fbPresHigh = s.shep.fbPresHigh ∧ (State.modPort s p g).shep.alState = s.shep.alState ∧ (State.modPort s p g).shep.nmt = s.shep.nmt ∧ (State.modPort s p g).shep.fieldBefore = s.shep.fieldBefore := by
  unfold State.modPort
  simp

@[simp] theorem State.modFn_field (s : State) (v : FnId) (g : Func → Func) :
    (State.modFn s v g).shep.fbPresHigh = s.shep.fbPresHigh ∧ (State.modFn s v g).shep.alState = s.shep.alState ∧ (State.modFn s v g).shep.nmt = s.shep.nmt ∧ (State.modFn s v g).shep.fieldBefore = s.shep.fieldBefore := by
  unfold State.modFn
  simp

@[simp] theorem State.setTile_field (s : State) (t : Nat) (x : Tile) :
    (State.setTile s t x).shep.fbPresHigh = s.shep.fbPresHigh ∧ (State.setTile s t x).shep.alState = s.shep.alState ∧ (State.setTile s t x).shep.nmt = s.shep.nmt ∧ (State.setTile s t x).shep.fieldBefore = s.shep.fieldBefore := by
  unfold State.setTile
  simp

@[simp] theorem State.setChan_field (s : State) (c : Nat) (x : Chan) :
    (State.setChan s c x).shep.fbPresHigh = s.shep.fbPresHigh ∧ (State.setChan s c x).shep.alState = s.shep.alState ∧ (State.setChan s c x).shep.nmt = s.shep.nmt ∧ (State.setChan s c x).shep.fieldBefore = s.shep.fieldBefore := by
  unfold State.setChan
  simp

@[simp] theorem State.modFoldCfg_field (s : State) (f : FoldId) (g : FoldCfg → FoldCfg) :
    (State.modFoldCfg s f g).shep.fbPresHigh = s.shep.fbPresHigh ∧ (State.modFoldCfg s f g).shep.alState = s.shep.alState ∧ (State.modFoldCfg s f g).shep.nmt = s.shep.nmt ∧ (State.modFoldCfg s f g).shep.fieldBefore = s.shep.fieldBefore := by
  unfold State.modFoldCfg
  simp

@[simp] theorem State.tick_field (s : State) (t : Nat) :
    (State.tick s t).shep.fbPresHigh = s.shep.fbPresHigh ∧ (State.tick s t).shep.alState = s.shep.alState ∧ (State.tick s t).shep.nmt = s.shep.nmt ∧ (State.tick s t).shep.fieldBefore = s.shep.fieldBefore := by
  unfold State.tick
  simp

@[simp] theorem State.outOfMappings_field (s : State) (q : QuadId) :
    (State.outOfMappings s q).shep.fbPresHigh = s.shep.fbPresHigh ∧ (State.outOfMappings s q).shep.alState = s.shep.alState ∧ (State.outOfMappings s q).shep.nmt = s.shep.nmt ∧ (State.outOfMappings s q).shep.fieldBefore = s.shep.fieldBefore := by
  unfold State.outOfMappings
  (repeat' split) <;> simp

@[simp] theorem State.send_field (s : State) (o : Output) :
    (State.send s o).shep.fbPresHigh = s.shep.fbPresHigh ∧ (State.send s o).shep.alState = s.shep.alState ∧ (State.send s o).shep.nmt = s.shep.nmt ∧ (State.send s o).shep.fieldBefore = s.shep.fieldBefore := by
  unfold State.send
  simp

@[simp] theorem State.sendVec_field (s : State) (v : FnId) (vec : Fin 4) :
    (State.sendVec s v vec).shep.fbPresHigh = s.shep.fbPresHigh ∧ (State.sendVec s v vec).shep.alState = s.shep.alState ∧ (State.sendVec s v vec).shep.nmt = s.shep.nmt ∧ (State.sendVec s v vec).shep.fieldBefore = s.shep.fieldBefore := by
  unfold State.sendVec
  simp

@[simp] theorem State.coalesce_field (s : State) (v : FnId) (vec : Fin 4) :
    (State.coalesce s v vec).shep.fbPresHigh = s.shep.fbPresHigh ∧ (State.coalesce s v vec).shep.alState = s.shep.alState ∧ (State.coalesce s v vec).shep.nmt = s.shep.nmt ∧ (State.coalesce s v vec).shep.fieldBefore = s.shep.fieldBefore := by
  unfold State.coalesce
  split <;> simp

@[simp] theorem State.emitAt_field (s : State) (stamp unit code : Nat) (fo : Bool) (detail : Bytes) :
    (State.emitAt s stamp unit code fo detail).shep.fbPresHigh = s.shep.fbPresHigh ∧ (State.emitAt s stamp unit code fo detail).shep.alState = s.shep.alState ∧ (State.emitAt s stamp unit code fo detail).shep.nmt = s.shep.nmt ∧ (State.emitAt s stamp unit code fo detail).shep.fieldBefore = s.shep.fieldBefore := by
  unfold State.emitAt
  simp

@[simp] theorem State.emit_field (s : State) (unit code : Nat) (detail : Bytes) :
    (State.emit s unit code detail).shep.fbPresHigh = s.shep.fbPresHigh ∧ (State.emit s unit code detail).shep.alState = s.shep.alState ∧ (State.emit s unit code detail).shep.nmt = s.shep.nmt ∧ (State.emit s unit code detail).shep.fieldBefore = s.shep.fieldBefore := by
  unfold State.emit
  simp

@[simp] theorem State.writeCqe_field (s : State) (v : FnId) (c : Cqe) :
    (State.writeCqe s v c).shep.fbPresHigh = s.shep.fbPresHigh ∧ (State.writeCqe s v c).shep.alState = s.shep.alState ∧ (State.writeCqe s v c).shep.nmt = s.shep.nmt ∧ (State.writeCqe s v c).shep.fieldBefore = s.shep.fieldBefore := by
  unfold State.writeCqe
  simp

@[simp] theorem State.unsupported_field (s : State) :
    (State.unsupported s).shep.fbPresHigh = s.shep.fbPresHigh ∧ (State.unsupported s).shep.alState = s.shep.alState ∧ (State.unsupported s).shep.nmt = s.shep.nmt ∧ (State.unsupported s).shep.fieldBefore = s.shep.fieldBefore := by
  unfold State.unsupported
  simp

@[simp] theorem State.post_field (s : State) (v : FnId) (c : Cqe) :
    (State.post s v c).shep.fbPresHigh = s.shep.fbPresHigh ∧ (State.post s v c).shep.alState = s.shep.alState ∧ (State.post s v c).shep.nmt = s.shep.nmt ∧ (State.post s v c).shep.fieldBefore = s.shep.fieldBefore := by
  unfold State.post
  simp

theorem flushLoop_field (v : FnId) (q : Nat) (n : Nat) (s : State) :
    (flushLoop v q n s).shep.fbPresHigh = s.shep.fbPresHigh ∧ (flushLoop v q n s).shep.alState = s.shep.alState ∧ (flushLoop v q n s).shep.nmt = s.shep.nmt ∧ (flushLoop v q n s).shep.fieldBefore = s.shep.fieldBefore := by
  induction n generalizing s with
  | zero => exact ⟨rfl, rfl, rfl, rfl⟩
  | succ n ih =>
    unfold flushLoop
    (repeat' split) <;> simp [ih]
@[simp] theorem State.flush_field (s : State) (v : FnId) :
    (State.flush s v).shep.fbPresHigh = s.shep.fbPresHigh ∧ (State.flush s v).shep.alState = s.shep.alState ∧ (State.flush s v).shep.nmt = s.shep.nmt ∧ (State.flush s v).shep.fieldBefore = s.shep.fieldBefore := by
  simp [State.flush, flushLoop_field]

@[simp] theorem State.complete_field (s : State) (q : QHdr) (status event r0 r1 r2 : Nat) :
    (State.complete s q status event r0 r1 r2).shep.fbPresHigh = s.shep.fbPresHigh ∧ (State.complete s q status event r0 r1 r2).shep.alState = s.shep.alState ∧ (State.complete s q status event r0 r1 r2).shep.nmt = s.shep.nmt ∧ (State.complete s q status event r0 r1 r2).shep.fieldBefore = s.shep.fieldBefore := by
  unfold State.complete
  simp

@[simp] theorem State.complete1_field (s : State) (q : QHdr) (status event r0 r1 r2 : Nat) :
    (State.complete1 s q status event r0 r1 r2).shep.fbPresHigh = s.shep.fbPresHigh ∧ (State.complete1 s q status event r0 r1 r2).shep.alState = s.shep.alState ∧ (State.complete1 s q status event r0 r1 r2).shep.nmt = s.shep.nmt ∧ (State.complete1 s q status event r0 r1 r2).shep.fieldBefore = s.shep.fieldBefore := by
  unfold State.complete1
  simp

@[simp] theorem State.fetch_field (s : State) (v : FnId) (q : Nat) :
    (State.fetch s v q).shep.fbPresHigh = s.shep.fbPresHigh ∧ (State.fetch s v q).shep.alState = s.shep.alState ∧ (State.fetch s v q).shep.nmt = s.shep.nmt ∧ (State.fetch s v q).shep.fieldBefore = s.shep.fieldBefore := by
  unfold State.fetch
  simp

@[simp] theorem State.updateLevel_field (s : State) :
    (State.updateLevel s).shep.fbPresHigh = s.shep.fbPresHigh ∧ (State.updateLevel s).shep.alState = s.shep.alState ∧ (State.updateLevel s).shep.nmt = s.shep.nmt ∧ (State.updateLevel s).shep.fieldBefore = s.shep.fieldBefore := by
  unfold State.updateLevel
  simp

@[simp] theorem State.setSt_field (s : State) (f : FoldId) (st : FoldState) :
    (State.setSt s f st).shep.fbPresHigh = s.shep.fbPresHigh ∧ (State.setSt s f st).shep.alState = s.shep.alState ∧ (State.setSt s f st).shep.nmt = s.shep.nmt ∧ (State.setSt s f st).shep.fieldBefore = s.shep.fieldBefore := by
  unfold State.setSt
  simp

@[simp] theorem State.wipeChans_field (s : State) (f : FoldId) :
    (State.wipeChans s f).shep.fbPresHigh = s.shep.fbPresHigh ∧ (State.wipeChans s f).shep.alState = s.shep.alState ∧ (State.wipeChans s f).shep.nmt = s.shep.nmt ∧ (State.wipeChans s f).shep.fieldBefore = s.shep.fieldBefore := by
  unfold State.wipeChans
  simp

@[simp] theorem State.zeroChans_field (s : State) (f : FoldId) :
    (State.zeroChans s f).shep.fbPresHigh = s.shep.fbPresHigh ∧ (State.zeroChans s f).shep.alState = s.shep.alState ∧ (State.zeroChans s f).shep.nmt = s.shep.nmt ∧ (State.zeroChans s f).shep.fieldBefore = s.shep.fieldBefore := by
  unfold State.zeroChans
  simp

@[simp] theorem State.zeroPlots_field (s : State) (plots : BitVec 80) :
    (State.zeroPlots s plots).shep.fbPresHigh = s.shep.fbPresHigh ∧ (State.zeroPlots s plots).shep.alState = s.shep.alState ∧ (State.zeroPlots s plots).shep.nmt = s.shep.nmt ∧ (State.zeroPlots s plots).shep.fieldBefore = s.shep.fieldBefore := by
  unfold State.zeroPlots
  simp

@[simp] theorem State.zeroUnits_field (s : State) (units : BitVec 192) :
    (State.zeroUnits s units).shep.fbPresHigh = s.shep.fbPresHigh ∧ (State.zeroUnits s units).shep.alState = s.shep.alState ∧ (State.zeroUnits s units).shep.nmt = s.shep.nmt ∧ (State.zeroUnits s units).shep.fieldBefore = s.shep.fieldBefore := by
  unfold State.zeroUnits
  simp

@[simp] theorem State.setMasks_field (s : State) (f : FoldId) (plots : BitVec 80) (units : BitVec 192) :
    (State.setMasks s f plots units).shep.fbPresHigh = s.shep.fbPresHigh ∧ (State.setMasks s f plots units).shep.alState = s.shep.alState ∧ (State.setMasks s f plots units).shep.nmt = s.shep.nmt ∧ (State.setMasks s f plots units).shep.fieldBefore = s.shep.fieldBefore := by
  unfold State.setMasks
  simp

@[simp] theorem State.abortBg_field (s : State) (f : FoldId) :
    (State.abortBg s f).shep.fbPresHigh = s.shep.fbPresHigh ∧ (State.abortBg s f).shep.alState = s.shep.alState ∧ (State.abortBg s f).shep.nmt = s.shep.nmt ∧ (State.abortBg s f).shep.fieldBefore = s.shep.fieldBefore := by
  unfold State.abortBg
  split <;> simp

@[simp] theorem State.emptyFold_field (s : State) (f : FoldId) :
    (State.emptyFold s f).shep.fbPresHigh = s.shep.fbPresHigh ∧ (State.emptyFold s f).shep.alState = s.shep.alState ∧ (State.emptyFold s f).shep.nmt = s.shep.nmt ∧ (State.emptyFold s f).shep.fieldBefore = s.shep.fieldBefore := by
  unfold State.emptyFold
  simp

@[simp] theorem State.zeroSession_field (s : State) (v : FnId) :
    (State.zeroSession s v).shep.fbPresHigh = s.shep.fbPresHigh ∧ (State.zeroSession s v).shep.alState = s.shep.alState ∧ (State.zeroSession s v).shep.nmt = s.shep.nmt ∧ (State.zeroSession s v).shep.fieldBefore = s.shep.fieldBefore := by
  unfold State.zeroSession
  simp

/-! ## Journal -/

@[simp] theorem State.choosePage_field (s : State) :
    (State.choosePage s).shep.fbPresHigh = s.shep.fbPresHigh ∧ (State.choosePage s).shep.alState = s.shep.alState ∧ (State.choosePage s).shep.nmt = s.shep.nmt ∧ (State.choosePage s).shep.fieldBefore = s.shep.fieldBefore := by
  unfold State.choosePage
  (repeat' split) <;> simp

@[simp] theorem State.bindLabel_field (s : State) :
    (State.bindLabel s).shep.fbPresHigh = s.shep.fbPresHigh ∧ (State.bindLabel s).shep.alState = s.shep.alState ∧ (State.bindLabel s).shep.nmt = s.shep.nmt ∧ (State.bindLabel s).shep.fieldBefore = s.shep.fieldBefore := by
  unfold State.bindLabel
  split <;> simp

@[simp] theorem State.sendPage_field (s : State) :
    (State.sendPage s).shep.fbPresHigh = s.shep.fbPresHigh ∧ (State.sendPage s).shep.alState = s.shep.alState ∧ (State.sendPage s).shep.nmt = s.shep.nmt ∧ (State.sendPage s).shep.fieldBefore = s.shep.fieldBefore := by
  unfold State.sendPage
  split <;> simp

@[simp] theorem State.advanceJournal_field (s : State) :
    (State.advanceJournal s).shep.fbPresHigh = s.shep.fbPresHigh ∧ (State.advanceJournal s).shep.alState = s.shep.alState ∧ (State.advanceJournal s).shep.nmt = s.shep.nmt ∧ (State.advanceJournal s).shep.fieldBefore = s.shep.fieldBefore := by
  unfold State.advanceJournal
  simp

@[simp] theorem State.resumeJournal_field (s : State) :
    (State.resumeJournal s).shep.fbPresHigh = s.shep.fbPresHigh ∧ (State.resumeJournal s).shep.alState = s.shep.alState ∧ (State.resumeJournal s).shep.nmt = s.shep.nmt ∧ (State.resumeJournal s).shep.fieldBefore = s.shep.fieldBefore := by
  unfold State.resumeJournal
  split <;> (try split) <;> simp

@[simp] theorem State.resumeStaged_field (s : State) :
    (State.resumeStaged s).shep.fbPresHigh = s.shep.fbPresHigh ∧ (State.resumeStaged s).shep.alState = s.shep.alState ∧ (State.resumeStaged s).shep.nmt = s.shep.nmt ∧ (State.resumeStaged s).shep.fieldBefore = s.shep.fieldBefore := by
  unfold State.resumeStaged
  split <;> (try split) <;> simp

@[simp] theorem State.wearCheck_field (s : State) :
    (State.wearCheck s).shep.fbPresHigh = s.shep.fbPresHigh ∧ (State.wearCheck s).shep.alState = s.shep.alState ∧ (State.wearCheck s).shep.nmt = s.shep.nmt ∧ (State.wearCheck s).shep.fieldBefore = s.shep.fieldBefore := by
  unfold State.wearCheck
  simp

/-! ## Ledger -/

@[simp] theorem State.fileConnect_field (s : State) (f : FoldId) :
    (State.fileConnect s f).shep.fbPresHigh = s.shep.fbPresHigh ∧ (State.fileConnect s f).shep.alState = s.shep.alState ∧ (State.fileConnect s f).shep.nmt = s.shep.nmt ∧ (State.fileConnect s f).shep.fieldBefore = s.shep.fieldBefore := by
  unfold State.fileConnect
  simp

@[simp] theorem State.fileSend_field (s : State) (f : FoldId) (c : FileCmd) :
    (State.fileSend s f c).shep.fbPresHigh = s.shep.fbPresHigh ∧ (State.fileSend s f c).shep.alState = s.shep.alState ∧ (State.fileSend s f c).shep.nmt = s.shep.nmt ∧ (State.fileSend s f c).shep.fieldBefore = s.shep.fieldBefore := by
  unfold State.fileSend
  (repeat' split) <;> simp

@[simp] theorem State.fileIssue_field (s : State) (f : FoldId) (c : FileCmd) :
    (State.fileIssue s f c).shep.fbPresHigh = s.shep.fbPresHigh ∧ (State.fileIssue s f c).shep.alState = s.shep.alState ∧ (State.fileIssue s f c).shep.nmt = s.shep.nmt ∧ (State.fileIssue s f c).shep.fieldBefore = s.shep.fieldBefore := by
  unfold State.fileIssue
  simp

@[simp] theorem State.fileTake_field (s : State) (f : FoldId) (n : Nat) :
    (State.fileTake s f n).shep.fbPresHigh = s.shep.fbPresHigh ∧ (State.fileTake s f n).shep.alState = s.shep.alState ∧ (State.fileTake s f n).shep.nmt = s.shep.nmt ∧ (State.fileTake s f n).shep.fieldBefore = s.shep.fieldBefore := by
  unfold State.fileTake
  simp

@[simp] theorem State.filePump_field (s : State) (f : FoldId) :
    (State.filePump s f).shep.fbPresHigh = s.shep.fbPresHigh ∧ (State.filePump s f).shep.alState = s.shep.alState ∧ (State.filePump s f).shep.nmt = s.shep.nmt ∧ (State.filePump s f).shep.fieldBefore = s.shep.fieldBefore := by
  unfold State.filePump
  simp

@[simp] theorem State.fileQueue_field (s : State) (f : FoldId) (cs : List FileCmd) :
    (State.fileQueue s f cs).shep.fbPresHigh = s.shep.fbPresHigh ∧ (State.fileQueue s f cs).shep.alState = s.shep.alState ∧ (State.fileQueue s f cs).shep.nmt = s.shep.nmt ∧ (State.fileQueue s f cs).shep.fieldBefore = s.shep.fieldBefore := by
  unfold State.fileQueue
  simp

@[simp] theorem State.fileDone_field (s : State) (f : FoldId) (ckpt : Bool) :
    (State.fileDone s f ckpt).shep.fbPresHigh = s.shep.fbPresHigh ∧ (State.fileDone s f ckpt).shep.alState = s.shep.alState ∧ (State.fileDone s f ckpt).shep.nmt = s.shep.nmt ∧ (State.fileDone s f ckpt).shep.fieldBefore = s.shep.fieldBefore := by
  unfold State.fileDone
  dsimp only
  (repeat' split) <;> simp

@[simp] theorem State.fileDropCkpt_field (s : State) (f : FoldId) :
    (State.fileDropCkpt s f).shep.fbPresHigh = s.shep.fbPresHigh ∧ (State.fileDropCkpt s f).shep.alState = s.shep.alState ∧ (State.fileDropCkpt s f).shep.nmt = s.shep.nmt ∧ (State.fileDropCkpt s f).shep.fieldBefore = s.shep.fieldBefore := by
  unfold State.fileDropCkpt
  simp

@[simp] theorem State.fileEnd_field (s : State) (f : FoldId) :
    (State.fileEnd s f).shep.fbPresHigh = s.shep.fbPresHigh ∧ (State.fileEnd s f).shep.alState = s.shep.alState ∧ (State.fileEnd s f).shep.nmt = s.shep.nmt ∧ (State.fileEnd s f).shep.fieldBefore = s.shep.fieldBefore := by
  unfold State.fileEnd
  dsimp only
  (repeat' split) <;> simp

@[simp] theorem State.exportFile_field (s : State) (f : FoldId) (p : Page) (tagAnnex : Bool) :
    (State.exportFile s f p tagAnnex).shep.fbPresHigh = s.shep.fbPresHigh ∧ (State.exportFile s f p tagAnnex).shep.alState = s.shep.alState ∧ (State.exportFile s f p tagAnnex).shep.nmt = s.shep.nmt ∧ (State.exportFile s f p tagAnnex).shep.fieldBefore = s.shep.fieldBefore := by
  unfold State.exportFile
  simp

@[simp] theorem State.sealPage_field (s : State) (f : FoldId) (p : OpenPage) (count : Nat) :
    (State.sealPage s f p count).shep.fbPresHigh = s.shep.fbPresHigh ∧ (State.sealPage s f p count).shep.alState = s.shep.alState ∧ (State.sealPage s f p count).shep.nmt = s.shep.nmt ∧ (State.sealPage s f p count).shep.fieldBefore = s.shep.fieldBefore := by
  unfold State.sealPage
  dsimp only
  (repeat' split) <;> simp

@[simp] theorem State.openPage_field (s : State) (f : FoldId) (n : Nat) :
    (State.openPage s f n).shep.fbPresHigh = s.shep.fbPresHigh ∧ (State.openPage s f n).shep.alState = s.shep.alState ∧ (State.openPage s f n).shep.nmt = s.shep.nmt ∧ (State.openPage s f n).shep.fieldBefore = s.shep.fieldBefore := by
  unfold State.openPage
  simp

@[simp] theorem State.sealClosing_field (s : State) (f : FoldId) (count : Nat) :
    (State.sealClosing s f count).shep.fbPresHigh = s.shep.fbPresHigh ∧ (State.sealClosing s f count).shep.alState = s.shep.alState ∧ (State.sealClosing s f count).shep.nmt = s.shep.nmt ∧ (State.sealClosing s f count).shep.fieldBefore = s.shep.fieldBefore := by
  unfold State.sealClosing
  split <;> simp

@[simp] theorem State.closePage_field (s : State) (f : FoldId) (n : Nat) (final : Bool) :
    (State.closePage s f n final).shep.fbPresHigh = s.shep.fbPresHigh ∧ (State.closePage s f n final).shep.alState = s.shep.alState ∧ (State.closePage s f n final).shep.nmt = s.shep.nmt ∧ (State.closePage s f n final).shep.fieldBefore = s.shep.fieldBefore := by
  unfold State.closePage
  (repeat' split) <;> simp

@[simp] theorem State.ackPage_field (s : State) (f : FoldId) (dest sq : Nat) :
    (State.ackPage s f dest sq).shep.fbPresHigh = s.shep.fbPresHigh ∧ (State.ackPage s f dest sq).shep.alState = s.shep.alState ∧ (State.ackPage s f dest sq).shep.nmt = s.shep.nmt ∧ (State.ackPage s f dest sq).shep.fieldBefore = s.shep.fieldBefore := by
  unfold State.ackPage
  simp

@[simp] theorem State.hostAdvance_field (s : State) (f : FoldId) :
    (State.hostAdvance s f).shep.fbPresHigh = s.shep.fbPresHigh ∧ (State.hostAdvance s f).shep.alState = s.shep.alState ∧ (State.hostAdvance s f).shep.nmt = s.shep.nmt ∧ (State.hostAdvance s f).shep.fieldBefore = s.shep.fieldBefore := by
  unfold State.hostAdvance
  simp

/-! ## Records -/

@[simp] theorem State.sealBefore_field (s : State) (f : FoldId) (frame : Nat) :
    (State.sealBefore s f frame).shep.fbPresHigh = s.shep.fbPresHigh ∧ (State.sealBefore s f frame).shep.alState = s.shep.alState ∧ (State.sealBefore s f frame).shep.nmt = s.shep.nmt ∧ (State.sealBefore s f frame).shep.fieldBefore = s.shep.fieldBefore := by
  unfold State.sealBefore
  split <;> simp

@[simp] theorem State.enterCohort_field (s : State) (f : FoldId) (c : Cohort) (discarded : Bool) :
    (State.enterCohort s f c discarded).shep.fbPresHigh = s.shep.fbPresHigh ∧ (State.enterCohort s f c discarded).shep.alState = s.shep.alState ∧ (State.enterCohort s f c discarded).shep.nmt = s.shep.nmt ∧ (State.enterCohort s f c discarded).shep.fieldBefore = s.shep.fieldBefore := by
  unfold State.enterCohort
  simp

@[simp] theorem State.returnCredits_field (s : State) (f : FoldId) (n : Nat) :
    (State.returnCredits s f n).shep.fbPresHigh = s.shep.fbPresHigh ∧ (State.returnCredits s f n).shep.alState = s.shep.alState ∧ (State.returnCredits s f n).shep.nmt = s.shep.nmt ∧ (State.returnCredits s f n).shep.fieldBefore = s.shep.fieldBefore := by
  unfold State.returnCredits
  simp

@[simp] theorem State.recountCredits_field (s : State) (f : FoldId) :
    (State.recountCredits s f).shep.fbPresHigh = s.shep.fbPresHigh ∧ (State.recountCredits s f).shep.alState = s.shep.alState ∧ (State.recountCredits s f).shep.nmt = s.shep.nmt ∧ (State.recountCredits s f).shep.fieldBefore = s.shep.fieldBefore := by
  unfold State.recountCredits
  simp

@[simp] theorem State.postRecord_field (s : State) (f : FoldId) (cid status event frame len : Nat) :
    (State.postRecord s f cid status event frame len).shep.fbPresHigh = s.shep.fbPresHigh ∧ (State.postRecord s f cid status event frame len).shep.alState = s.shep.alState ∧ (State.postRecord s f cid status event frame len).shep.nmt = s.shep.nmt ∧ (State.postRecord s f cid status event frame len).shep.fieldBefore = s.shep.fieldBefore := by
  unfold State.postRecord
  simp

@[simp] theorem dropResult_field (s : State) (f : FoldId) (status : Nat) (r : Result) :
    (dropResult s f status r).shep.fbPresHigh = s.shep.fbPresHigh ∧ (dropResult s f status r).shep.alState = s.shep.alState ∧ (dropResult s f status r).shep.nmt = s.shep.nmt ∧ (dropResult s f status r).shep.fieldBefore = s.shep.fieldBefore := by
  unfold dropResult
  split <;> simp

@[simp] theorem State.dropResults_field (s : State) (f : FoldId) (status : Nat) (p : Result → Bool) :
    (State.dropResults s f status p).shep.fbPresHigh = s.shep.fbPresHigh ∧ (State.dropResults s f status p).shep.alState = s.shep.alState ∧ (State.dropResults s f status p).shep.nmt = s.shep.nmt ∧ (State.dropResults s f status p).shep.fieldBefore = s.shep.fieldBefore := by
  unfold State.dropResults
  simp

@[simp] theorem State.dropHeld_field (s : State) (f : FoldId) (status : Nat) :
    (State.dropHeld s f status).shep.fbPresHigh = s.shep.fbPresHigh ∧ (State.dropHeld s f status).shep.alState = s.shep.alState ∧ (State.dropHeld s f status).shep.nmt = s.shep.nmt ∧ (State.dropHeld s f status).shep.fieldBefore = s.shep.fieldBefore := by
  unfold State.dropHeld
  simp

@[simp] theorem State.dropCohort_field (s : State) (f : FoldId) (status : Nat) (c : Cohort) :
    (State.dropCohort s f status c).shep.fbPresHigh = s.shep.fbPresHigh ∧ (State.dropCohort s f status c).shep.alState = s.shep.alState ∧ (State.dropCohort s f status c).shep.nmt = s.shep.nmt ∧ (State.dropCohort s f status c).shep.fieldBefore = s.shep.fieldBefore := by
  unfold State.dropCohort
  refine ⟨foldl_fbPresHigh _ _ _ ?_, foldl_alState _ _ _ ?_, foldl_nmt _ _ _ ?_, foldl_fieldBefore _ _ _ ?_⟩ <;> intro s a <;> (try dsimp only) <;> (repeat' split) <;> simp

@[simp] theorem State.dropReads_field (s : State) (f : FoldId) (status : Nat) :
    (State.dropReads s f status).shep.fbPresHigh = s.shep.fbPresHigh ∧ (State.dropReads s f status).shep.alState = s.shep.alState ∧ (State.dropReads s f status).shep.nmt = s.shep.nmt ∧ (State.dropReads s f status).shep.fieldBefore = s.shep.fieldBefore := by
  unfold State.dropReads
  simp

@[simp] theorem State.placeResult_field (s : State) (f : FoldId) (c : Cohort) (i : Nat) (r : Rec) :
    (State.placeResult s f c i r).shep.fbPresHigh = s.shep.fbPresHigh ∧ (State.placeResult s f c i r).shep.alState = s.shep.alState ∧ (State.placeResult s f c i r).shep.nmt = s.shep.nmt ∧ (State.placeResult s f c i r).shep.fieldBefore = s.shep.fieldBefore := by
  unfold State.placeResult
  split <;> simp

@[simp] theorem State.placeRest_field (s : State) (f : FoldId) (c : Cohort) :
    (State.placeRest s f c).shep.fbPresHigh = s.shep.fbPresHigh ∧ (State.placeRest s f c).shep.alState = s.shep.alState ∧ (State.placeRest s f c).shep.nmt = s.shep.nmt ∧ (State.placeRest s f c).shep.fieldBefore = s.shep.fieldBefore := by
  unfold State.placeRest
  simp

@[simp] theorem State.writeField_field (s : State) (f : FoldId) (b : Bytes) :
    (State.writeField s f b).shep.fbPresHigh = s.shep.fbPresHigh ∧ (State.writeField s f b).shep.alState = s.shep.alState ∧ (State.writeField s f b).shep.nmt = s.shep.nmt ∧ (State.writeField s f b).shep.fieldBefore = s.shep.fieldBefore := by
  unfold State.writeField
  simp

@[simp] theorem State.fieldResults_field (s : State) (f : FoldId) (c : Cohort) :
    (State.fieldResults s f c).shep.fbPresHigh = s.shep.fbPresHigh ∧ (State.fieldResults s f c).shep.alState = s.shep.alState ∧ (State.fieldResults s f c).shep.nmt = s.shep.nmt ∧ (State.fieldResults s f c).shep.fieldBefore = s.shep.fieldBefore := by
  exact foldl_field _ _ _ fun s e => by (repeat' split) <;> simp

/-! ## Epoch -/

@[simp] theorem State.queueWord_field (s : State) (w : SvcWord) (copies : Nat) (skip : Option LinkId) :
    (State.queueWord s w copies skip).shep.fbPresHigh = s.shep.fbPresHigh ∧ (State.queueWord s w copies skip).shep.alState = s.shep.alState ∧ (State.queueWord s w copies skip).shep.nmt = s.shep.nmt ∧ (State.queueWord s w copies skip).shep.fieldBefore = s.shep.fieldBefore := by
  unfold State.queueWord
  simp

@[simp] theorem State.flood_field (s : State) (typ : Nat) (body : Bytes) :
    (State.flood s typ body).shep.fbPresHigh = s.shep.fbPresHigh ∧ (State.flood s typ body).shep.alState = s.shep.alState ∧ (State.flood s typ body).shep.nmt = s.shep.nmt ∧ (State.flood s typ body).shep.fieldBefore = s.shep.fieldBefore := by
  unfold State.flood
  simp

@[simp] theorem State.startHello_field (s : State) (k : LinkId) :
    (State.startHello s k).shep.fbPresHigh = s.shep.fbPresHigh ∧ (State.startHello s k).shep.alState = s.shep.alState ∧ (State.startHello s k).shep.nmt = s.shep.nmt ∧ (State.startHello s k).shep.fieldBefore = s.shep.fieldBefore := by
  unfold State.startHello
  simp

@[simp] theorem State.relay_field (s : State) (h : RelayHdr) (typ : Nat) (body : Bytes) :
    (State.relay s h typ body).shep.fbPresHigh = s.shep.fbPresHigh ∧ (State.relay s h typ body).shep.alState = s.shep.alState ∧ (State.relay s h typ body).shep.nmt = s.shep.nmt ∧ (State.relay s h typ body).shep.fieldBefore = s.shep.fieldBefore := by
  unfold State.relay
  simp

@[simp] theorem State.tryPropose_field (s : State) :
    (State.tryPropose s).shep.fbPresHigh = s.shep.fbPresHigh ∧ (State.tryPropose s).shep.alState = s.shep.alState ∧ (State.tryPropose s).shep.nmt = s.shep.nmt ∧ (State.tryPropose s).shep.fieldBefore = s.shep.fieldBefore := by
  unfold State.tryPropose
  split <;> simp

@[simp] theorem State.reselect_field (s : State) :
    (State.reselect s).shep.fbPresHigh = s.shep.fbPresHigh ∧ (State.reselect s).shep.alState = s.shep.alState ∧ (State.reselect s).shep.nmt = s.shep.nmt ∧ (State.reselect s).shep.fieldBefore = s.shep.fieldBefore := by
  unfold State.reselect
  (repeat' split) <;> simp

@[simp] theorem State.requestEpoch_field (s : State) (unitNo : Nat) :
    (State.requestEpoch s unitNo).shep.fbPresHigh = s.shep.fbPresHigh ∧ (State.requestEpoch s unitNo).shep.alState = s.shep.alState ∧ (State.requestEpoch s unitNo).shep.nmt = s.shep.nmt ∧ (State.requestEpoch s unitNo).shep.fieldBefore = s.shep.fieldBefore := by
  unfold State.requestEpoch
  simp

/-! ## FoldLife -/

@[simp] theorem State.appendAll_field (s : State) (f : FoldId) (frame : Nat) (es : List Bytes) :
    (State.appendAll s f frame es).shep.fbPresHigh = s.shep.fbPresHigh ∧ (State.appendAll s f frame es).shep.alState = s.shep.alState ∧ (State.appendAll s f frame es).shep.nmt = s.shep.nmt ∧ (State.appendAll s f frame es).shep.fieldBefore = s.shep.fieldBefore := by
  unfold State.appendAll
  simp

@[simp] theorem State.splitPage_field (s : State) (f : FoldId) (n : Nat) :
    (State.splitPage s f n).shep.fbPresHigh = s.shep.fbPresHigh ∧ (State.splitPage s f n).shep.alState = s.shep.alState ∧ (State.splitPage s f n).shep.nmt = s.shep.nmt ∧ (State.splitPage s f n).shep.fieldBefore = s.shep.fieldBefore := by
  unfold State.splitPage
  dsimp only
  (repeat' split) <;> simp

@[simp] theorem State.endAttempt_field (s : State) (f : FoldId) (last : Nat) :
    (State.endAttempt s f last).shep.fbPresHigh = s.shep.fbPresHigh ∧ (State.endAttempt s f last).shep.alState = s.shep.alState ∧ (State.endAttempt s f last).shep.nmt = s.shep.nmt ∧ (State.endAttempt s f last).shep.fieldBefore = s.shep.fieldBefore := by
  unfold State.endAttempt
  simp

@[simp] theorem State.cutAttempt_field (s : State) (f : FoldId) (last : Nat) :
    (State.cutAttempt s f last).shep.fbPresHigh = s.shep.fbPresHigh ∧ (State.cutAttempt s f last).shep.alState = s.shep.alState ∧ (State.cutAttempt s f last).shep.nmt = s.shep.nmt ∧ (State.cutAttempt s f last).shep.fieldBefore = s.shep.fieldBefore := by
  unfold State.cutAttempt
  (repeat' split) <;> simp

@[simp] theorem State.tdiError_field (s : State) (f : FoldId) :
    (State.tdiError s f).shep.fbPresHigh = s.shep.fbPresHigh ∧ (State.tdiError s f).shep.alState = s.shep.alState ∧ (State.tdiError s f).shep.nmt = s.shep.nmt ∧ (State.tdiError s f).shep.fieldBefore = s.shep.fieldBefore := by
  unfold State.tdiError
  (repeat' split) <;> simp

@[simp] theorem State.toStopped_field (s : State) (f : FoldId) :
    (State.toStopped s f).shep.fbPresHigh = s.shep.fbPresHigh ∧ (State.toStopped s f).shep.alState = s.shep.alState ∧ (State.toStopped s f).shep.nmt = s.shep.nmt ∧ (State.toStopped s f).shep.fieldBefore = s.shep.fieldBefore := by
  unfold State.toStopped
  simp

@[simp] theorem State.tryStopped_field (s : State) (f : FoldId) :
    (State.tryStopped s f).shep.fbPresHigh = s.shep.fbPresHigh ∧ (State.tryStopped s f).shep.alState = s.shep.alState ∧ (State.tryStopped s f).shep.nmt = s.shep.nmt ∧ (State.tryStopped s f).shep.fieldBefore = s.shep.fieldBefore := by
  unfold State.tryStopped
  simp

@[simp] theorem State.finalPage_field (s : State) (f : FoldId) (n : Nat) :
    (State.finalPage s f n).shep.fbPresHigh = s.shep.fbPresHigh ∧ (State.finalPage s f n).shep.alState = s.shep.alState ∧ (State.finalPage s f n).shep.nmt = s.shep.nmt ∧ (State.finalPage s f n).shep.fieldBefore = s.shep.fieldBefore := by
  unfold State.finalPage
  simp

@[simp] theorem State.endCohorts_field (s : State) (f : FoldId) (held : List Nat) (cs : List Cohort) :
    (State.endCohorts s f held cs).shep.fbPresHigh = s.shep.fbPresHigh ∧ (State.endCohorts s f held cs).shep.alState = s.shep.alState ∧ (State.endCohorts s f held cs).shep.nmt = s.shep.nmt ∧ (State.endCohorts s f held cs).shep.fieldBefore = s.shep.fieldBefore := by
  unfold State.endCohorts
  (repeat' split) <;> simp

@[simp] theorem State.endRun_field (s : State) (f : FoldId) :
    (State.endRun s f).shep.fbPresHigh = s.shep.fbPresHigh ∧ (State.endRun s f).shep.alState = s.shep.alState ∧ (State.endRun s f).shep.nmt = s.shep.nmt ∧ (State.endRun s f).shep.fieldBefore = s.shep.fieldBefore := by
  unfold State.endRun
  simp

@[simp] theorem State.forceStopNow_field (s : State) (f : FoldId) :
    (State.forceStopNow s f).shep.fbPresHigh = s.shep.fbPresHigh ∧ (State.forceStopNow s f).shep.alState = s.shep.alState ∧ (State.forceStopNow s f).shep.nmt = s.shep.nmt ∧ (State.forceStopNow s f).shep.fieldBefore = s.shep.fieldBefore := by
  unfold State.forceStopNow
  dsimp only
  (repeat' split) <;> simp

@[simp] theorem State.stopNow_field (s : State) (f : FoldId) :
    (State.stopNow s f).shep.fbPresHigh = s.shep.fbPresHigh ∧ (State.stopNow s f).shep.alState = s.shep.alState ∧ (State.stopNow s f).shep.nmt = s.shep.nmt ∧ (State.stopNow s f).shep.fieldBefore = s.shep.fieldBefore := by
  unfold State.stopNow
  dsimp only
  split
  · simp
  · simp only [State.toStopped_field, State.endRun_field, State.endCohorts_field]
    exact ⟨((foldl_field _ _ _ fun s c => by split <;> simp).1).trans ((State.modFold_field _ _ _).1),
    ((foldl_field _ _ _ fun s c => by split <;> simp).2.1).trans ((State.modFold_field _ _ _).2.1),
    ((foldl_field _ _ _ fun s c => by split <;> simp).2.2.1).trans ((State.modFold_field _ _ _).2.2.1),
    ((foldl_field _ _ _ fun s c => by split <;> simp).2.2.2).trans ((State.modFold_field _ _ _).2.2.2)⟩

@[simp] theorem State.noMapping_field (s : State) (f : FoldId) :
    (State.noMapping s f).shep.fbPresHigh = s.shep.fbPresHigh ∧ (State.noMapping s f).shep.alState = s.shep.alState ∧ (State.noMapping s f).shep.nmt = s.shep.nmt ∧ (State.noMapping s f).shep.fieldBefore = s.shep.fieldBefore := by
  unfold State.noMapping
  simp

@[simp] theorem State.faultFold_field (s : State) (f : FoldId) (cause frame : Nat) :
    (State.faultFold s f cause frame).shep.fbPresHigh = s.shep.fbPresHigh ∧ (State.faultFold s f cause frame).shep.alState = s.shep.alState ∧ (State.faultFold s f cause frame).shep.nmt = s.shep.nmt ∧ (State.faultFold s f cause frame).shep.fieldBefore = s.shep.fieldBefore := by
  unfold State.faultFold
  simp

@[simp] theorem State.startDraining_field (s : State) (f : FoldId) :
    (State.startDraining s f).shep.fbPresHigh = s.shep.fbPresHigh ∧ (State.startDraining s f).shep.alState = s.shep.alState ∧ (State.startDraining s f).shep.nmt = s.shep.nmt ∧ (State.startDraining s f).shep.fieldBefore = s.shep.fieldBefore := by
  unfold State.startDraining
  simp

@[simp] theorem State.stopCommit_field (s : State) (f : FoldId) (pf : Bool) :
    (State.stopCommit s f pf).1.shep.fbPresHigh = s.shep.fbPresHigh ∧ (State.stopCommit s f pf).1.shep.alState = s.shep.alState ∧ (State.stopCommit s f pf).1.shep.nmt = s.shep.nmt ∧ (State.stopCommit s f pf).1.shep.fieldBefore = s.shep.fieldBefore := by
  unfold State.stopCommit
  split <;> simp

@[simp] theorem State.forceStopCommit_field (s : State) (f : FoldId) (pf : Bool) :
    (State.forceStopCommit s f pf).1.shep.fbPresHigh = s.shep.fbPresHigh ∧ (State.forceStopCommit s f pf).1.shep.alState = s.shep.alState ∧ (State.forceStopCommit s f pf).1.shep.nmt = s.shep.nmt ∧ (State.forceStopCommit s f pf).1.shep.fieldBefore = s.shep.fieldBefore := by
  unfold State.forceStopCommit
  split <;> simp

@[simp] theorem State.unloadCommit_field (s : State) (f : FoldId) :
    (State.unloadCommit s f).1.shep.fbPresHigh = s.shep.fbPresHigh ∧ (State.unloadCommit s f).1.shep.alState = s.shep.alState ∧ (State.unloadCommit s f).1.shep.nmt = s.shep.nmt ∧ (State.unloadCommit s f).1.shep.fieldBefore = s.shep.fieldBefore := by
  unfold State.unloadCommit
  split <;> simp

@[simp] theorem State.resetFold_field (s : State) (f : FoldId) :
    (State.resetFold s f).shep.fbPresHigh = s.shep.fbPresHigh ∧ (State.resetFold s f).shep.alState = s.shep.alState ∧ (State.resetFold s f).shep.nmt = s.shep.nmt ∧ (State.resetFold s f).shep.fieldBefore = s.shep.fieldBefore := by
  unfold State.resetFold
  simp

@[simp] theorem State.resetCommit_field (s : State) (f : FoldId) :
    (State.resetCommit s f).1.shep.fbPresHigh = s.shep.fbPresHigh ∧ (State.resetCommit s f).1.shep.alState = s.shep.alState ∧ (State.resetCommit s f).1.shep.nmt = s.shep.nmt ∧ (State.resetCommit s f).1.shep.fieldBefore = s.shep.fieldBefore := by
  unfold State.resetCommit
  (repeat' split) <;> simp

@[simp] theorem State.launchCommit_field (s : State) (f : FoldId) (replay : Bool) (v : Bytes) :
    (State.launchCommit s f replay v).1.shep.fbPresHigh = s.shep.fbPresHigh ∧ (State.launchCommit s f replay v).1.shep.alState = s.shep.alState ∧ (State.launchCommit s f replay v).1.shep.nmt = s.shep.nmt ∧ (State.launchCommit s f replay v).1.shep.fieldBefore = s.shep.fieldBefore := by
  unfold State.launchCommit
  dsimp only
  (repeat' split) <;> simp

@[simp] theorem State.disarm_field (s : State) (f : FoldId) :
    (State.disarm s f).shep.fbPresHigh = s.shep.fbPresHigh ∧ (State.disarm s f).shep.alState = s.shep.alState ∧ (State.disarm s f).shep.nmt = s.shep.nmt ∧ (State.disarm s f).shep.fieldBefore = s.shep.fieldBefore := by
  unfold State.disarm
  simp

@[simp] theorem State.dropQuad_field (s : State) (q : QuadId) :
    (State.dropQuad s q).shep.fbPresHigh = s.shep.fbPresHigh ∧ (State.dropQuad s q).shep.alState = s.shep.alState ∧ (State.dropQuad s q).shep.nmt = s.shep.nmt ∧ (State.dropQuad s q).shep.fieldBefore = s.shep.fieldBefore := by
  unfold State.dropQuad
  simp

@[simp] theorem State.quarantine_field (s : State) (q : QuadId) (cause count : Nat) :
    (State.quarantine s q cause count).shep.fbPresHigh = s.shep.fbPresHigh ∧ (State.quarantine s q cause count).shep.alState = s.shep.alState ∧ (State.quarantine s q cause count).shep.nmt = s.shep.nmt ∧ (State.quarantine s q cause count).shep.fieldBefore = s.shep.fieldBefore := by
  unfold State.quarantine
  simp

@[simp] theorem State.countFault_field (s : State) (q : QuadId) (code stamp : Nat) :
    (State.countFault s q code stamp).shep.fbPresHigh = s.shep.fbPresHigh ∧ (State.countFault s q code stamp).shep.alState = s.shep.alState ∧ (State.countFault s q code stamp).shep.nmt = s.shep.nmt ∧ (State.countFault s q code stamp).shep.fieldBefore = s.shep.fieldBefore := by
  unfold State.countFault
  simp

@[simp] theorem State.causeFrame_field (s : State) (f : FoldId) (code : Nat) :
    (State.causeFrame s f code).shep.fbPresHigh = s.shep.fbPresHigh ∧ (State.causeFrame s f code).shep.alState = s.shep.alState ∧ (State.causeFrame s f code).shep.nmt = s.shep.nmt ∧ (State.causeFrame s f code).shep.fieldBefore = s.shep.fieldBefore := by
  unfold State.causeFrame
  simp

/-! ## Resets -/

@[simp] theorem State.foldHalted_field (s : State) (f : FoldId) :
    (State.foldHalted s f).shep.fbPresHigh = s.shep.fbPresHigh ∧ (State.foldHalted s f).shep.alState = s.shep.alState ∧ (State.foldHalted s f).shep.nmt = s.shep.nmt ∧ (State.foldHalted s f).shep.fieldBefore = s.shep.fieldBefore := by
  unfold State.foldHalted
  simp

@[simp] theorem State.foldsHalted_field (s : State) :
    (State.foldsHalted s).shep.fbPresHigh = s.shep.fbPresHigh ∧ (State.foldsHalted s).shep.alState = s.shep.alState ∧ (State.foldsHalted s).shep.nmt = s.shep.nmt ∧ (State.foldsHalted s).shep.fieldBefore = s.shep.fieldBefore := by
  unfold State.foldsHalted
  simp

@[simp] theorem State.zeroTripKeys_field (s : State) :
    (State.zeroTripKeys s).shep.fbPresHigh = s.shep.fbPresHigh ∧ (State.zeroTripKeys s).shep.alState = s.shep.alState ∧ (State.zeroTripKeys s).shep.nmt = s.shep.nmt ∧ (State.zeroTripKeys s).shep.fieldBefore = s.shep.fieldBefore := by
  unfold State.zeroTripKeys
  simp

@[simp] theorem State.tripCard_field (s : State) :
    (State.tripCard s).shep.fbPresHigh = s.shep.fbPresHigh ∧ (State.tripCard s).shep.alState = s.shep.alState ∧ (State.tripCard s).shep.nmt = s.shep.nmt ∧ (State.tripCard s).shep.fieldBefore = s.shep.fieldBefore := by
  unfold State.tripCard
  simp

@[simp] theorem State.applyRestore_field (s : State) :
    (State.applyRestore s).shep.fbPresHigh = s.shep.fbPresHigh ∧ (State.applyRestore s).shep.alState = s.shep.alState ∧ (State.applyRestore s).shep.nmt = s.shep.nmt ∧ (State.applyRestore s).shep.fieldBefore = s.shep.fieldBefore := by
  unfold State.applyRestore
  simp

@[simp] theorem State.warmReset_field (s : State) :
    (State.warmReset s).shep.fbPresHigh = s.shep.fbPresHigh ∧ (State.warmReset s).shep.alState = s.shep.alState ∧ (State.warmReset s).shep.nmt = s.shep.nmt ∧ (State.warmReset s).shep.fieldBefore = s.shep.fieldBefore := by
  unfold State.warmReset
  simp

@[simp] theorem State.perstReset_field (s : State) :
    (State.perstReset s).shep.fbPresHigh = s.shep.fbPresHigh ∧ (State.perstReset s).shep.alState = s.shep.alState ∧ (State.perstReset s).shep.nmt = s.shep.nmt ∧ (State.perstReset s).shep.fieldBefore = s.shep.fieldBefore := by
  unfold State.perstReset
  simp

@[simp] theorem State.quadReset_field (s : State) (q : QuadId) :
    (State.quadReset s q).shep.fbPresHigh = s.shep.fbPresHigh ∧ (State.quadReset s q).shep.alState = s.shep.alState ∧ (State.quadReset s q).shep.nmt = s.shep.nmt ∧ (State.quadReset s q).shep.fieldBefore = s.shep.fieldBefore := by
  unfold State.quadReset
  simp

/-! ## Dict -/

@[simp] theorem State.setSeq_field (s : State) (role n : Nat) :
    (State.setSeq s role n).shep.fbPresHigh = s.shep.fbPresHigh ∧ (State.setSeq s role n).shep.alState = s.shep.alState ∧ (State.setSeq s role n).shep.nmt = s.shep.nmt ∧ (State.setSeq s role n).shep.fieldBefore = s.shep.fieldBefore := by
  unfold State.setSeq
  simp

@[simp] theorem State.authReject_field (s : State) (a : Access) (idx sub role seq : Nat) :
    (State.authReject s a idx sub role seq).shep.fbPresHigh = s.shep.fbPresHigh ∧ (State.authReject s a idx sub role seq).shep.alState = s.shep.alState ∧ (State.authReject s a idx sub role seq).shep.nmt = s.shep.nmt ∧ (State.authReject s a idx sub role seq).shep.fieldBefore = s.shep.fieldBefore := by
  unfold State.authReject
  simp

@[simp] theorem State.lateChecks_field (s : State) (a : Access) (idx sub : Nat) (e : Ent) (v : Bytes) :
    (State.lateChecks s a idx sub e v).st.shep.fbPresHigh = s.shep.fbPresHigh ∧ (State.lateChecks s a idx sub e v).st.shep.alState = s.shep.alState ∧ (State.lateChecks s a idx sub e v).st.shep.nmt = s.shep.nmt ∧ (State.lateChecks s a idx sub e v).st.shep.fieldBefore = s.shep.fieldBefore := by
  unfold State.lateChecks
  (repeat' split) <;> simp

@[simp] theorem State.noticeUnsigned_field (s : State) (a : Access) (v : Bytes) :
    (State.noticeUnsigned s a v).shep.fbPresHigh = s.shep.fbPresHigh ∧ (State.noticeUnsigned s a v).shep.alState = s.shep.alState ∧ (State.noticeUnsigned s a v).shep.nmt = s.shep.nmt ∧ (State.noticeUnsigned s a v).shep.fieldBefore = s.shep.fieldBefore := by
  unfold State.noticeUnsigned
  (repeat' split) <;> simp

@[simp] theorem State.signedChecks_field (s : State) (a : Access) (idx sub : Nat) (e : Ent) (d : WData) :
    (State.signedChecks s a idx sub e d).st.shep.fbPresHigh = s.shep.fbPresHigh ∧ (State.signedChecks s a idx sub e d).st.shep.alState = s.shep.alState ∧ (State.signedChecks s a idx sub e d).st.shep.nmt = s.shep.nmt ∧ (State.signedChecks s a idx sub e d).st.shep.fieldBefore = s.shep.fieldBefore := by
  unfold State.signedChecks
  (repeat' split) <;> simp

@[simp] theorem State.admitWrite_field (s : State) (a : Access) (idx sub : Nat) (d : WData) (cmd : Bool) :
    (State.admitWrite s a idx sub d cmd).st.shep.fbPresHigh = s.shep.fbPresHigh ∧ (State.admitWrite s a idx sub d cmd).st.shep.alState = s.shep.alState ∧ (State.admitWrite s a idx sub d cmd).st.shep.nmt = s.shep.nmt ∧ (State.admitWrite s a idx sub d cmd).st.shep.fieldBefore = s.shep.fieldBefore := by
  unfold State.admitWrite
  (repeat' split) <;> simp

@[simp] theorem State.answer_field (s : State) (a : Access) (idx sub abort event : Nat) (value : Bytes) :
    (State.answer s a idx sub abort event value).shep.fbPresHigh = s.shep.fbPresHigh ∧ (State.answer s a idx sub abort event value).shep.alState = s.shep.alState ∧ (State.answer s a idx sub abort event value).shep.nmt = s.shep.nmt ∧ (State.answer s a idx sub abort event value).shep.fieldBefore = s.shep.fieldBefore := by
  unfold State.answer
  simp

theorem State.commitOrHold_field (s : State) (service idx sub : Nat) (v : Bytes) (commit : State → Bytes → State × Nat × Nat)
    (hc : ∀ s v, (commit s v).1.shep.fbPresHigh = s.shep.fbPresHigh ∧ (commit s v).1.shep.alState = s.shep.alState ∧ (commit s v).1.shep.nmt = s.shep.nmt ∧ (commit s v).1.shep.fieldBefore = s.shep.fieldBefore) : (State.commitOrHold s service idx sub v commit).1.shep.fbPresHigh = s.shep.fbPresHigh ∧ (State.commitOrHold s service idx sub v commit).1.shep.alState = s.shep.alState ∧ (State.commitOrHold s service idx sub v commit).1.shep.nmt = s.shep.nmt ∧ (State.commitOrHold s service idx sub v commit).1.shep.fieldBefore = s.shep.fieldBefore := by
  unfold State.commitOrHold
  dsimp only
  split
  · exact ⟨rfl, rfl, rfl, rfl⟩
  · exact hc s v
theorem State.dictWrite_field (s : State) (idx sub : Nat) (r : WReq) (commit : State → Bytes → State × Nat × Nat)
    (hc : ∀ s v, (commit s v).1.shep.fbPresHigh = s.shep.fbPresHigh ∧ (commit s v).1.shep.alState = s.shep.alState ∧ (commit s v).1.shep.nmt = s.shep.nmt ∧ (commit s v).1.shep.fieldBefore = s.shep.fieldBefore) : (State.dictWrite s idx sub r commit).shep.fbPresHigh = s.shep.fbPresHigh ∧ (State.dictWrite s idx sub r commit).shep.alState = s.shep.alState ∧ (State.dictWrite s idx sub r commit).shep.nmt = s.shep.nmt ∧ (State.dictWrite s idx sub r commit).shep.fieldBefore = s.shep.fieldBefore := by
  unfold State.dictWrite
  dsimp only
  (repeat' split) <;> simp [State.commitOrHold_field _ _ _ _ _ _ hc]

/-! ## Notice -/

@[simp] theorem State.noticeReject_field (s : State) (f : FoldId) (path seq : Nat) :
    (State.noticeReject s f path seq).shep.fbPresHigh = s.shep.fbPresHigh ∧ (State.noticeReject s f path seq).shep.alState = s.shep.alState ∧ (State.noticeReject s f path seq).shep.nmt = s.shep.nmt ∧ (State.noticeReject s f path seq).shep.fieldBefore = s.shep.fieldBefore := by
  unfold State.noticeReject
  simp

@[simp] theorem State.takeNotice_field (s : State) (f : FoldId) (n : NoticePayload) :
    (State.takeNotice s f n).shep.fbPresHigh = s.shep.fbPresHigh ∧ (State.takeNotice s f n).shep.alState = s.shep.alState ∧ (State.takeNotice s f n).shep.nmt = s.shep.nmt ∧ (State.takeNotice s f n).shep.fieldBefore = s.shep.fieldBefore := by
  unfold State.takeNotice
  dsimp only
  (repeat' split) <;> simp

@[simp] theorem State.noticeCommit_field (s : State) (path : Nat) (b : Bytes) (addressed : Option FoldId) :
    (State.noticeCommit s path b addressed).1.shep.fbPresHigh = s.shep.fbPresHigh ∧ (State.noticeCommit s path b addressed).1.shep.alState = s.shep.alState ∧ (State.noticeCommit s path b addressed).1.shep.nmt = s.shep.nmt ∧ (State.noticeCommit s path b addressed).1.shep.fieldBefore = s.shep.fieldBefore := by
  unfold State.noticeCommit
  dsimp only
  (repeat' split) <;> simp

/-! ## Telemetry -/

@[simp] theorem State.takeSnapshot_field (s : State) :
    (State.takeSnapshot s).shep.fbPresHigh = s.shep.fbPresHigh ∧ (State.takeSnapshot s).shep.alState = s.shep.alState ∧ (State.takeSnapshot s).shep.nmt = s.shep.nmt ∧ (State.takeSnapshot s).shep.fieldBefore = s.shep.fieldBefore := by
  unfold State.takeSnapshot
  simp

@[simp] theorem State.takeReadings_field (s : State) (m : Readings) :
    (State.takeReadings s m).shep.fbPresHigh = s.shep.fbPresHigh ∧ (State.takeReadings s m).shep.alState = s.shep.alState ∧ (State.takeReadings s m).shep.nmt = s.shep.nmt ∧ (State.takeReadings s m).shep.fieldBefore = s.shep.fieldBefore := by
  unfold State.takeReadings
  simp

/-! ## DictCommands -/

@[simp] theorem okC_field (s : State) :
    (okC s).1.shep.fbPresHigh = s.shep.fbPresHigh ∧ (okC s).1.shep.alState = s.shep.alState ∧ (okC s).1.shep.nmt = s.shep.nmt ∧ (okC s).1.shep.fieldBefore = s.shep.fieldBefore := by
  unfold okC
  simp

@[simp] theorem noC_field (s : State) (abort : Nat) :
    (noC s abort).1.shep.fbPresHigh = s.shep.fbPresHigh ∧ (noC s abort).1.shep.alState = s.shep.alState ∧ (noC s abort).1.shep.nmt = s.shep.nmt ∧ (noC s abort).1.shep.fieldBefore = s.shep.fieldBefore := by
  unfold noC
  simp

@[simp] theorem State.setVal_field (s : State) (idx sub : Nat) (v : Bytes) :
    (State.setVal s idx sub v).shep.fbPresHigh = s.shep.fbPresHigh ∧ (State.setVal s idx sub v).shep.alState = s.shep.alState ∧ (State.setVal s idx sub v).shep.nmt = s.shep.nmt ∧ (State.setVal s idx sub v).shep.fieldBefore = s.shep.fieldBefore := by
  unfold State.setVal
  simp

@[simp] theorem State.commitPeriod_field (s : State) (v : Bytes) :
    (State.commitPeriod s v).1.shep.fbPresHigh = s.shep.fbPresHigh ∧ (State.commitPeriod s v).1.shep.alState = s.shep.alState ∧ (State.commitPeriod s v).1.shep.nmt = s.shep.nmt ∧ (State.commitPeriod s v).1.shep.fieldBefore = s.shep.fieldBefore := by
  unfold State.commitPeriod
  simp

@[simp] theorem State.commitOp_field (s : State) (v : Bytes) :
    (State.commitOp s v).1.shep.fbPresHigh = s.shep.fbPresHigh ∧ (State.commitOp s v).1.shep.alState = s.shep.alState ∧ (State.commitOp s v).1.shep.nmt = s.shep.nmt ∧ (State.commitOp s v).1.shep.fieldBefore = s.shep.fieldBefore := by
  unfold State.commitOp
  (repeat' split) <;> simp

@[simp] theorem State.commitCap_field (s : State) (v : Bytes) :
    (State.commitCap s v).1.shep.fbPresHigh = s.shep.fbPresHigh ∧ (State.commitCap s v).1.shep.alState = s.shep.alState ∧ (State.commitCap s v).1.shep.nmt = s.shep.nmt ∧ (State.commitCap s v).1.shep.fieldBefore = s.shep.fieldBefore := by
  unfold State.commitCap
  split <;> simp

@[simp] theorem State.commitLayout_field (s : State) (v : Bytes) :
    (State.commitLayout s v).1.shep.fbPresHigh = s.shep.fbPresHigh ∧ (State.commitLayout s v).1.shep.alState = s.shep.alState ∧ (State.commitLayout s v).1.shep.nmt = s.shep.nmt ∧ (State.commitLayout s v).1.shep.fieldBefore = s.shep.fieldBefore := by
  unfold State.commitLayout
  simp

@[simp] theorem State.commitStore_field (s : State) :
    (State.commitStore s).1.shep.fbPresHigh = s.shep.fbPresHigh ∧ (State.commitStore s).1.shep.alState = s.shep.alState ∧ (State.commitStore s).1.shep.nmt = s.shep.nmt ∧ (State.commitStore s).1.shep.fieldBefore = s.shep.fieldBefore := by
  unfold State.commitStore
  simp

@[simp] theorem State.commitRestore_field (s : State) :
    (State.commitRestore s).1.shep.fbPresHigh = s.shep.fbPresHigh ∧ (State.commitRestore s).1.shep.alState = s.shep.alState ∧ (State.commitRestore s).1.shep.nmt = s.shep.nmt ∧ (State.commitRestore s).1.shep.fieldBefore = s.shep.fieldBefore := by
  unfold State.commitRestore
  simp

@[simp] theorem State.commitWarm_field (s : State) :
    (State.commitWarm s).1.shep.fbPresHigh = s.shep.fbPresHigh ∧ (State.commitWarm s).1.shep.alState = s.shep.alState ∧ (State.commitWarm s).1.shep.nmt = s.shep.nmt ∧ (State.commitWarm s).1.shep.fieldBefore = s.shep.fieldBefore := by
  unfold State.commitWarm
  split <;> simp

@[simp] theorem State.commitQuad_field (s : State) (q : QuadId) :
    (State.commitQuad s q).1.shep.fbPresHigh = s.shep.fbPresHigh ∧ (State.commitQuad s q).1.shep.alState = s.shep.alState ∧ (State.commitQuad s q).1.shep.nmt = s.shep.nmt ∧ (State.commitQuad s q).1.shep.fieldBefore = s.shep.fieldBefore := by
  unfold State.commitQuad
  split <;> simp

@[simp] theorem State.releaseOwner_field (s : State) :
    (State.releaseOwner s).shep.fbPresHigh = s.shep.fbPresHigh ∧ (State.releaseOwner s).shep.alState = s.shep.alState ∧ (State.releaseOwner s).shep.nmt = s.shep.nmt ∧ (State.releaseOwner s).shep.fieldBefore = s.shep.fieldBefore := by
  unfold State.releaseOwner
  simp

@[simp] theorem State.commitOwner_field (s : State) (v : Bytes) :
    (State.commitOwner s v).1.shep.fbPresHigh = s.shep.fbPresHigh ∧ (State.commitOwner s v).1.shep.alState = s.shep.alState ∧ (State.commitOwner s v).1.shep.nmt = s.shep.nmt ∧ (State.commitOwner s v).1.shep.fieldBefore = s.shep.fieldBefore := by
  unfold State.commitOwner
  (repeat' split) <;> simp

@[simp] theorem State.commitChan_field (s : State) (c sub : Nat) (v : Bytes) :
    (State.commitChan s c sub v).1.shep.fbPresHigh = s.shep.fbPresHigh ∧ (State.commitChan s c sub v).1.shep.alState = s.shep.alState ∧ (State.commitChan s c sub v).1.shep.nmt = s.shep.nmt ∧ (State.commitChan s c sub v).1.shep.fieldBefore = s.shep.fieldBefore := by
  unfold State.commitChan
  dsimp only
  (repeat' split) <;> simp

@[simp] theorem State.commitRing_field (s : State) (f : FoldId) (v : Bytes) :
    (State.commitRing s f v).1.shep.fbPresHigh = s.shep.fbPresHigh ∧ (State.commitRing s f v).1.shep.alState = s.shep.alState ∧ (State.commitRing s f v).1.shep.nmt = s.shep.nmt ∧ (State.commitRing s f v).1.shep.fieldBefore = s.shep.fieldBefore := by
  unfold State.commitRing
  dsimp only
  (repeat' split) <;> simp

@[simp] theorem State.commitExport_field (s : State) (f : FoldId) (v : Bytes) :
    (State.commitExport s f v).1.shep.fbPresHigh = s.shep.fbPresHigh ∧ (State.commitExport s f v).1.shep.alState = s.shep.alState ∧ (State.commitExport s f v).1.shep.nmt = s.shep.nmt ∧ (State.commitExport s f v).1.shep.fieldBefore = s.shep.fieldBefore := by
  unfold State.commitExport
  simp

@[simp] theorem State.commitMask_field (s : State) (f : FoldId) (sub : Nat) (v : Bytes) :
    (State.commitMask s f sub v).1.shep.fbPresHigh = s.shep.fbPresHigh ∧ (State.commitMask s f sub v).1.shep.alState = s.shep.alState ∧ (State.commitMask s f sub v).1.shep.nmt = s.shep.nmt ∧ (State.commitMask s f sub v).1.shep.fieldBefore = s.shep.fieldBefore := by
  unfold State.commitMask
  (repeat' split) <;> simp

@[simp] theorem State.commitKek_field (s : State) (f : FoldId) (k : Option KekSeal) :
    (State.commitKek s f k).1.shep.fbPresHigh = s.shep.fbPresHigh ∧ (State.commitKek s f k).1.shep.alState = s.shep.alState ∧ (State.commitKek s f k).1.shep.nmt = s.shep.nmt ∧ (State.commitKek s f k).1.shep.fieldBefore = s.shep.fieldBefore := by
  unfold State.commitKek
  (repeat' split) <;> simp

@[simp] theorem State.commitInput_field (s : State) (f : FoldId) (i sub : Nat) (v : Bytes) :
    (State.commitInput s f i sub v).1.shep.fbPresHigh = s.shep.fbPresHigh ∧ (State.commitInput s f i sub v).1.shep.alState = s.shep.alState ∧ (State.commitInput s f i sub v).1.shep.nmt = s.shep.nmt ∧ (State.commitInput s f i sub v).1.shep.fieldBefore = s.shep.fieldBefore := by
  unfold State.commitInput
  dsimp only
  (repeat' split) <;> simp

@[simp] theorem State.commitResult_field (s : State) (f : FoldId) (sub : Nat) (v : Bytes) :
    (State.commitResult s f sub v).1.shep.fbPresHigh = s.shep.fbPresHigh ∧ (State.commitResult s f sub v).1.shep.alState = s.shep.alState ∧ (State.commitResult s f sub v).1.shep.nmt = s.shep.nmt ∧ (State.commitResult s f sub v).1.shep.fieldBefore = s.shep.fieldBefore := by
  unfold State.commitResult
  dsimp only
  (repeat' split) <;> simp

@[simp] theorem State.commitIndex_field (s : State) (v : Bytes) :
    (State.commitIndex s v).shep.fbPresHigh = s.shep.fbPresHigh ∧ (State.commitIndex s v).shep.alState = s.shep.alState ∧ (State.commitIndex s v).shep.nmt = s.shep.nmt ∧ (State.commitIndex s v).shep.fieldBefore = s.shep.fieldBefore := by
  unfold State.commitIndex
  dsimp only
  (repeat' split) <;> simp

@[simp] theorem State.commitFoldArea_field (s : State) (a : Access) (f : FoldId) (o sub : Nat) (v : Bytes) :
    (State.commitFoldArea s a f o sub v).1.shep.fbPresHigh = s.shep.fbPresHigh ∧ (State.commitFoldArea s a f o sub v).1.shep.alState = s.shep.alState ∧ (State.commitFoldArea s a f o sub v).1.shep.nmt = s.shep.nmt ∧ (State.commitFoldArea s a f o sub v).1.shep.fieldBefore = s.shep.fieldBefore := by
  unfold State.commitFoldArea
  (repeat' split) <;> simp

/-! ## Load -/

@[simp] theorem State.loadIdle_field (s : State) (f : FoldId) (m : Nat) :
    (State.loadIdle s f m).shep.fbPresHigh = s.shep.fbPresHigh ∧ (State.loadIdle s f m).shep.alState = s.shep.alState ∧ (State.loadIdle s f m).shep.nmt = s.shep.nmt ∧ (State.loadIdle s f m).shep.fieldBefore = s.shep.fieldBefore := by
  unfold State.loadIdle
  split
  · exact ⟨rfl, rfl, rfl, rfl⟩
  · refine ⟨foldl_fbPresHigh _ _ _ ?_, foldl_alState _ _ _ ?_, foldl_nmt _ _ _ ?_, foldl_fieldBefore _ _ _ ?_⟩ <;> intro s a <;> (repeat' split) <;> simp

@[simp] theorem State.switchBanks_field (s : State) (f : FoldId) :
    (State.switchBanks s f).shep.fbPresHigh = s.shep.fbPresHigh ∧ (State.switchBanks s f).shep.alState = s.shep.alState ∧ (State.switchBanks s f).shep.nmt = s.shep.nmt ∧ (State.switchBanks s f).shep.fieldBefore = s.shep.fieldBefore := by
  unfold State.switchBanks
  simp

@[simp] theorem State.installMapping_field (s : State) (f : FoldId) (m : Nat) :
    (State.installMapping s f m).shep.fbPresHigh = s.shep.fbPresHigh ∧ (State.installMapping s f m).shep.alState = s.shep.alState ∧ (State.installMapping s f m).shep.nmt = s.shep.nmt ∧ (State.installMapping s f m).shep.fieldBefore = s.shep.fieldBefore := by
  unfold State.installMapping
  simp

@[simp] theorem State.installBundle_field (s : State) (f : FoldId) (l : Loaded) (image : Bytes) :
    (State.installBundle s f l image).shep.fbPresHigh = s.shep.fbPresHigh ∧ (State.installBundle s f l image).shep.alState = s.shep.alState ∧ (State.installBundle s f l image).shep.nmt = s.shep.nmt ∧ (State.installBundle s f l image).shep.fieldBefore = s.shep.fieldBefore := by
  unfold State.installBundle
  dsimp only
  (repeat' split) <;> simp

@[simp] theorem State.stageStripes_field (s : State) (f : FoldId) (image : Bytes) :
    (State.stageStripes s f image).shep.fbPresHigh = s.shep.fbPresHigh ∧ (State.stageStripes s f image).shep.alState = s.shep.alState ∧ (State.stageStripes s f image).shep.nmt = s.shep.nmt ∧ (State.stageStripes s f image).shep.fieldBefore = s.shep.fieldBefore := by
  unfold State.stageStripes
  simp

@[simp] theorem State.installShard_field (s : State) (f : FoldId) (d : Shard) (h : ShardHead) :
    (State.installShard s f d h).shep.fbPresHigh = s.shep.fbPresHigh ∧ (State.installShard s f d h).shep.alState = s.shep.alState ∧ (State.installShard s f d h).shep.nmt = s.shep.nmt ∧ (State.installShard s f d h).shep.fieldBefore = s.shep.fieldBefore := by
  unfold State.installShard
  simp

/-! ## Izr -/

@[simp] theorem State.discardIzr_field (s : State) (p : PortId) (cause chan : Nat) :
    (State.discardIzr s p cause chan).shep.fbPresHigh = s.shep.fbPresHigh ∧ (State.discardIzr s p cause chan).shep.alState = s.shep.alState ∧ (State.discardIzr s p cause chan).shep.nmt = s.shep.nmt ∧ (State.discardIzr s p cause chan).shep.fieldBefore = s.shep.fieldBefore := by
  unfold State.discardIzr
  dsimp only
  (repeat' split) <;> simp

@[simp] theorem State.izrAccept_field (s : State) (rx : IzrRx) (f : FoldId) :
    (State.izrAccept s rx f).shep.fbPresHigh = s.shep.fbPresHigh ∧ (State.izrAccept s rx f).shep.alState = s.shep.alState ∧ (State.izrAccept s rx f).shep.nmt = s.shep.nmt ∧ (State.izrAccept s rx f).shep.fieldBefore = s.shep.fieldBefore := by
  unfold State.izrAccept
  simp

@[simp] theorem State.rxFrame_field (s : State) (rx : IzrRx) :
    (State.rxFrame s rx).shep.fbPresHigh = s.shep.fbPresHigh ∧ (State.rxFrame s rx).shep.alState = s.shep.alState ∧ (State.rxFrame s rx).shep.nmt = s.shep.nmt ∧ (State.rxFrame s rx).shep.fieldBefore = s.shep.fieldBefore := by
  unfold State.rxFrame
  simp

@[simp] theorem State.sendIzr_field (s : State) (c : Nat) (typ : Nat) (e : Bool) (key salt : Bytes) (count : Nat) (payload : Bytes) (frag : Bool) :
    (State.sendIzr s c typ e key salt count payload frag).shep.fbPresHigh = s.shep.fbPresHigh ∧ (State.sendIzr s c typ e key salt count payload frag).shep.alState = s.shep.alState ∧ (State.sendIzr s c typ e key salt count payload frag).shep.nmt = s.shep.nmt ∧ (State.sendIzr s c typ e key salt count payload frag).shep.fieldBefore = s.shep.fieldBefore := by
  unfold State.sendIzr
  simp

/-! ## Peers -/

@[simp] theorem State.departFor_field (s : State) (f : FoldId) (c cond : Nat) :
    (State.departFor s f c cond).shep.fbPresHigh = s.shep.fbPresHigh ∧ (State.departFor s f c cond).shep.alState = s.shep.alState ∧ (State.departFor s f c cond).shep.nmt = s.shep.nmt ∧ (State.departFor s f c cond).shep.fieldBefore = s.shep.fieldBefore := by
  unfold State.departFor
  simp

@[simp] theorem State.depart_field (s : State) (c cond ref : Nat) (detected : Bool) :
    (State.depart s c cond ref detected).shep.fbPresHigh = s.shep.fbPresHigh ∧ (State.depart s c cond ref detected).shep.alState = s.shep.alState ∧ (State.depart s c cond ref detected).shep.nmt = s.shep.nmt ∧ (State.depart s c cond ref detected).shep.fieldBefore = s.shep.fieldBefore := by
  unfold State.depart
  simp

@[simp] theorem State.markReplay_field (s : State) (f : FoldId) (code : Nat) :
    (State.markReplay s f code).shep.fbPresHigh = s.shep.fbPresHigh ∧ (State.markReplay s f code).shep.alState = s.shep.alState ∧ (State.markReplay s f code).shep.nmt = s.shep.nmt ∧ (State.markReplay s f code).shep.fieldBefore = s.shep.fieldBefore := by
  unfold State.markReplay
  simp

@[simp] theorem State.stepFault_field (s : State) (f : FoldId) (code : Nat) :
    (State.stepFault s f code).shep.fbPresHigh = s.shep.fbPresHigh ∧ (State.stepFault s f code).shep.alState = s.shep.alState ∧ (State.stepFault s f code).shep.nmt = s.shep.nmt ∧ (State.stepFault s f code).shep.fieldBefore = s.shep.fieldBefore := by
  unfold State.stepFault
  simp

@[simp] theorem State.frameFault_field (s : State) (f : FoldId) (code : Nat) :
    (State.frameFault s f code).shep.fbPresHigh = s.shep.fbPresHigh ∧ (State.frameFault s f code).shep.alState = s.shep.alState ∧ (State.frameFault s f code).shep.nmt = s.shep.nmt ∧ (State.frameFault s f code).shep.fieldBefore = s.shep.fieldBefore := by
  unfold State.frameFault
  simp

/-! ## Frames -/

@[simp] theorem State.startContexts_field (s : State) (f : FoldId) :
    (State.startContexts s f).shep.fbPresHigh = s.shep.fbPresHigh ∧ (State.startContexts s f).shep.alState = s.shep.alState ∧ (State.startContexts s f).shep.nmt = s.shep.nmt ∧ (State.startContexts s f).shep.fieldBefore = s.shep.fieldBefore := by
  unfold State.startContexts
  dsimp only
  (repeat' split) <;> simp

@[simp] theorem State.takeScoringCut_field (s : State) (f : FoldId) (tick : Nat) :
    (State.takeScoringCut s f tick).shep.fbPresHigh = s.shep.fbPresHigh ∧ (State.takeScoringCut s f tick).shep.alState = s.shep.alState ∧ (State.takeScoringCut s f tick).shep.nmt = s.shep.nmt ∧ (State.takeScoringCut s f tick).shep.fieldBefore = s.shep.fieldBefore := by
  unfold State.takeScoringCut
  dsimp only
  (repeat' split) <;> simp

@[simp] theorem State.endIdle_field (s : State) (f : FoldId) (tick : Nat) :
    (State.endIdle s f tick).shep.fbPresHigh = s.shep.fbPresHigh ∧ (State.endIdle s f tick).shep.alState = s.shep.alState ∧ (State.endIdle s f tick).shep.nmt = s.shep.nmt ∧ (State.endIdle s f tick).shep.fieldBefore = s.shep.fieldBefore := by
  unfold State.endIdle
  simp

@[simp] theorem State.takeMapping_field (s : State) (f : FoldId) (tick : Nat) :
    (State.takeMapping s f tick).shep.fbPresHigh = s.shep.fbPresHigh ∧ (State.takeMapping s f tick).shep.alState = s.shep.alState ∧ (State.takeMapping s f tick).shep.nmt = s.shep.nmt ∧ (State.takeMapping s f tick).shep.fieldBefore = s.shep.fieldBefore := by
  unfold State.takeMapping
  split <;> simp

@[simp] theorem State.takePage_field (s : State) (f : FoldId) (n : Nat) :
    (State.takePage s f n).shep.fbPresHigh = s.shep.fbPresHigh ∧ (State.takePage s f n).shep.alState = s.shep.alState ∧ (State.takePage s f n).shep.nmt = s.shep.nmt ∧ (State.takePage s f n).shep.fieldBefore = s.shep.fieldBefore := by
  unfold State.takePage
  simp

@[simp] theorem State.endPage_field (s : State) (f : FoldId) (n : Nat) (final : Bool) :
    (State.endPage s f n final).shep.fbPresHigh = s.shep.fbPresHigh ∧ (State.endPage s f n final).shep.alState = s.shep.alState ∧ (State.endPage s f n final).shep.nmt = s.shep.nmt ∧ (State.endPage s f n final).shep.fieldBefore = s.shep.fieldBefore := by
  unfold State.endPage
  dsimp only
  (repeat' split) <;> simp

@[simp] theorem State.turnPage_field (s : State) (f : FoldId) (n : Nat) :
    (State.turnPage s f n).shep.fbPresHigh = s.shep.fbPresHigh ∧ (State.turnPage s f n).shep.alState = s.shep.alState ∧ (State.turnPage s f n).shep.nmt = s.shep.nmt ∧ (State.turnPage s f n).shep.fieldBefore = s.shep.fieldBefore := by
  unfold State.turnPage
  simp

@[simp] theorem State.endGrowing_field (s : State) (f : FoldId) (n : Nat) :
    (State.endGrowing s f n).shep.fbPresHigh = s.shep.fbPresHigh ∧ (State.endGrowing s f n).shep.alState = s.shep.alState ∧ (State.endGrowing s f n).shep.nmt = s.shep.nmt ∧ (State.endGrowing s f n).shep.fieldBefore = s.shep.fieldBefore := by
  unfold State.endGrowing
  simp

@[simp] theorem State.turnPeers_field (s : State) (f : FoldId) (tick : Nat) :
    (State.turnPeers s f tick).shep.fbPresHigh = s.shep.fbPresHigh ∧ (State.turnPeers s f tick).shep.alState = s.shep.alState ∧ (State.turnPeers s f tick).shep.nmt = s.shep.nmt ∧ (State.turnPeers s f tick).shep.fieldBefore = s.shep.fieldBefore := by
  unfold State.turnPeers
  dsimp only
  (repeat' split) <;> simp

@[simp] theorem State.queuePeers_field (s : State) (f : FoldId) (n : Nat) :
    (State.queuePeers s f n).shep.fbPresHigh = s.shep.fbPresHigh ∧ (State.queuePeers s f n).shep.alState = s.shep.alState ∧ (State.queuePeers s f n).shep.nmt = s.shep.nmt ∧ (State.queuePeers s f n).shep.fieldBefore = s.shep.fieldBefore := by
  unfold State.queuePeers
  simp

@[simp] theorem State.beginFrame_field (s : State) (f : FoldId) (n : Nat) :
    (State.beginFrame s f n).shep.fbPresHigh = s.shep.fbPresHigh ∧ (State.beginFrame s f n).shep.alState = s.shep.alState ∧ (State.beginFrame s f n).shep.nmt = s.shep.nmt ∧ (State.beginFrame s f n).shep.fieldBefore = s.shep.fieldBefore := by
  unfold State.beginFrame
  simp

@[simp] theorem State.carryReads_field (s : State) (f : FoldId) (n : Nat) :
    (State.carryReads s f n).shep.fbPresHigh = s.shep.fbPresHigh ∧ (State.carryReads s f n).shep.alState = s.shep.alState ∧ (State.carryReads s f n).shep.nmt = s.shep.nmt ∧ (State.carryReads s f n).shep.fieldBefore = s.shep.fieldBefore := by
  unfold State.carryReads
  simp

@[simp] theorem State.openFrame_field (s : State) (f : FoldId) (n : Nat) :
    (State.openFrame s f n).shep.fbPresHigh = s.shep.fbPresHigh ∧ (State.openFrame s f n).shep.alState = s.shep.alState ∧ (State.openFrame s f n).shep.nmt = s.shep.nmt ∧ (State.openFrame s f n).shep.fieldBefore = s.shep.fieldBefore := by
  unfold State.openFrame
  simp

@[simp] theorem State.settle_field (s : State) (f : FoldId) :
    (State.settle s f).shep.fbPresHigh = s.shep.fbPresHigh ∧ (State.settle s f).shep.alState = s.shep.alState ∧ (State.settle s f).shep.nmt = s.shep.nmt ∧ (State.settle s f).shep.fieldBefore = s.shep.fieldBefore := by
  unfold State.settle
  dsimp only
  (repeat' split) <;> simp

@[simp] theorem State.runFold_field (s : State) (f : FoldId) :
    (State.runFold s f).shep.fbPresHigh = s.shep.fbPresHigh ∧ (State.runFold s f).shep.alState = s.shep.alState ∧ (State.runFold s f).shep.nmt = s.shep.nmt ∧ (State.runFold s f).shep.fieldBefore = s.shep.fieldBefore := by
  unfold State.runFold
  simp

@[simp] theorem State.diverge_field (s : State) (f : FoldId) (q : QuadId) (predicted reported : Nat) :
    (State.diverge s f q predicted reported).shep.fbPresHigh = s.shep.fbPresHigh ∧ (State.diverge s f q predicted reported).shep.alState = s.shep.alState ∧ (State.diverge s f q predicted reported).shep.nmt = s.shep.nmt ∧ (State.diverge s f q predicted reported).shep.fieldBefore = s.shep.fieldBefore := by
  unfold State.diverge
  simp

@[simp] theorem State.compareQuad_field (s : State) (f : FoldId) (q : QuadId) :
    (State.compareQuad s f q).shep.fbPresHigh = s.shep.fbPresHigh ∧ (State.compareQuad s f q).shep.alState = s.shep.alState ∧ (State.compareQuad s f q).shep.nmt = s.shep.nmt ∧ (State.compareQuad s f q).shep.fieldBefore = s.shep.fieldBefore := by
  unfold State.compareQuad
  simp

@[simp] theorem State.sickQuads_field (s : State) (f : FoldId) :
    (State.sickQuads s f).shep.fbPresHigh = s.shep.fbPresHigh ∧ (State.sickQuads s f).shep.alState = s.shep.alState ∧ (State.sickQuads s f).shep.nmt = s.shep.nmt ∧ (State.sickQuads s f).shep.fieldBefore = s.shep.fieldBefore := by
  unfold State.sickQuads
  dsimp only
  (repeat' split) <;> simp

/-! ## TileExec -/

@[simp] theorem State.rebuildMargins_field (s : State) (f : FoldId) (l : Loaded) (x : Tile) (o : TileOp) :
    (State.rebuildMargins s f l x o).shep.fbPresHigh = s.shep.fbPresHigh ∧ (State.rebuildMargins s f l x o).shep.alState = s.shep.alState ∧ (State.rebuildMargins s f l x o).shep.nmt = s.shep.nmt ∧ (State.rebuildMargins s f l x o).shep.fieldBefore = s.shep.fieldBefore := by
  unfold State.rebuildMargins
  dsimp only
  (repeat' split) <;> simp

@[simp] theorem State.sendTo_field (s : State) (f : FoldId) (x : Tile) (o : TileOp) (e : Nat) :
    (State.sendTo s f x o e).shep.fbPresHigh = s.shep.fbPresHigh ∧ (State.sendTo s f x o e).shep.alState = s.shep.alState ∧ (State.sendTo s f x o e).shep.nmt = s.shep.nmt ∧ (State.sendTo s f x o e).shep.fieldBefore = s.shep.fieldBefore := by
  unfold State.sendTo
  (repeat' split) <;> simp

@[simp] theorem State.tileFault_field (s : State) (f : FoldId) (tile code : Nat) (info : Bytes) :
    (State.tileFault s f tile code info).shep.fbPresHigh = s.shep.fbPresHigh ∧ (State.tileFault s f tile code info).shep.alState = s.shep.alState ∧ (State.tileFault s f tile code info).shep.nmt = s.shep.nmt ∧ (State.tileFault s f tile code info).shep.fieldBefore = s.shep.fieldBefore := by
  unfold State.tileFault
  simp

@[simp] theorem State.askRestore_field (s : State) (f : FoldId) (tile w : Nat) :
    (State.askRestore s f tile w).shep.fbPresHigh = s.shep.fbPresHigh ∧ (State.askRestore s f tile w).shep.alState = s.shep.alState ∧ (State.askRestore s f tile w).shep.nmt = s.shep.nmt ∧ (State.askRestore s f tile w).shep.fieldBefore = s.shep.fieldBefore := by
  unfold State.askRestore
  dsimp only
  (repeat' split) <;> simp

@[simp] theorem State.reportParity_field (s : State) (f : FoldId) (tile : Nat) (x : Tile) (o : TileOp) (feed : Feed) :
    (State.reportParity s f tile x o feed).shep.fbPresHigh = s.shep.fbPresHigh ∧ (State.reportParity s f tile x o feed).shep.alState = s.shep.alState ∧ (State.reportParity s f tile x o feed).shep.nmt = s.shep.nmt ∧ (State.reportParity s f tile x o feed).shep.fieldBefore = s.shep.fieldBefore := by
  unfold State.reportParity
  dsimp only
  (repeat' split) <;> simp

@[simp] theorem State.reportOp_field (s : State) (f : FoldId) (tile : Nat) (x : Tile) (l : Loaded) (o : TileOp) (feed : Feed) :
    (State.reportOp s f tile x l o feed).shep.fbPresHigh = s.shep.fbPresHigh ∧ (State.reportOp s f tile x l o feed).shep.alState = s.shep.alState ∧ (State.reportOp s f tile x l o feed).shep.nmt = s.shep.nmt ∧ (State.reportOp s f tile x l o feed).shep.fieldBefore = s.shep.fieldBefore := by
  unfold State.reportOp
  dsimp only
  (repeat' split) <;> simp

@[simp] theorem State.runOp_field (s : State) (f : FoldId) (tile cycle : Nat) (w : OpWord) (feed : Feed) :
    (State.runOp s f tile cycle w feed).shep.fbPresHigh = s.shep.fbPresHigh ∧ (State.runOp s f tile cycle w feed).shep.alState = s.shep.alState ∧ (State.runOp s f tile cycle w feed).shep.nmt = s.shep.nmt ∧ (State.runOp s f tile cycle w feed).shep.fieldBefore = s.shep.fieldBefore := by
  unfold State.runOp
  split <;> simp

/-! ## Codes -/

@[simp] theorem State.putPart_field (s : State) (f : FoldId) (l : Loaded) (c : Cohort) (batch tile part : Nat) (acts : Bool) (a : Nat) (ports : List PortUse) :
    (State.putPart s f l c batch tile part acts a ports).shep.fbPresHigh = s.shep.fbPresHigh ∧ (State.putPart s f l c batch tile part acts a ports).shep.alState = s.shep.alState ∧ (State.putPart s f l c batch tile part acts a ports).shep.nmt = s.shep.nmt ∧ (State.putPart s f l c batch tile part acts a ports).shep.fieldBefore = s.shep.fieldBefore := by
  unfold State.putPart
  dsimp only
  (repeat' split) <;> simp

@[simp] theorem State.readScores_field (s : State) (f : FoldId) (l : Loaded) (c : Cohort) (batch out : Nat) :
    (State.readScores s f l c batch out).shep.fbPresHigh = s.shep.fbPresHigh ∧ (State.readScores s f l c batch out).shep.alState = s.shep.alState ∧ (State.readScores s f l c batch out).shep.nmt = s.shep.nmt ∧ (State.readScores s f l c batch out).shep.fieldBefore = s.shep.fieldBefore := by
  unfold State.readScores
  dsimp only
  split
  · exact ⟨rfl, rfl, rfl, rfl⟩
  · split
    · exact State.modFold_field _ _ _
    · exact ⟨((State.tileFault_field _ _ _ _ _).1).trans ((State.modFold_field _ _ _).1),
    ((State.tileFault_field _ _ _ _ _).2.1).trans ((State.modFold_field _ _ _).2.1),
    ((State.tileFault_field _ _ _ _ _).2.2.1).trans ((State.modFold_field _ _ _).2.2.1),
    ((State.tileFault_field _ _ _ _ _).2.2.2).trans ((State.modFold_field _ _ _).2.2.2)⟩

@[simp] theorem State.takeDie_field (s : State) (f : FoldId) (port dir : Nat) :
    (State.takeDie s f port dir).shep.fbPresHigh = s.shep.fbPresHigh ∧ (State.takeDie s f port dir).shep.alState = s.shep.alState ∧ (State.takeDie s f port dir).shep.nmt = s.shep.nmt ∧ (State.takeDie s f port dir).shep.fieldBefore = s.shep.fieldBefore := by
  unfold State.takeDie
  simp

@[simp] theorem State.codesOut_field (s : State) (f : FoldId) (l : Loaded) (port pos batch tile part : Nat) (acts : Bool) :
    (State.codesOut s f l port pos batch tile part acts).shep.fbPresHigh = s.shep.fbPresHigh ∧ (State.codesOut s f l port pos batch tile part acts).shep.alState = s.shep.alState ∧ (State.codesOut s f l port pos batch tile part acts).shep.nmt = s.shep.nmt ∧ (State.codesOut s f l port pos batch tile part acts).shep.fieldBefore = s.shep.fieldBefore := by
  unfold State.codesOut
  dsimp only
  (repeat' split) <;> simp

@[simp] theorem State.scoresIn_field (s : State) (f : FoldId) (l : Loaded) (port pos batch out : Nat) :
    (State.scoresIn s f l port pos batch out).shep.fbPresHigh = s.shep.fbPresHigh ∧ (State.scoresIn s f l port pos batch out).shep.alState = s.shep.alState ∧ (State.scoresIn s f l port pos batch out).shep.nmt = s.shep.nmt ∧ (State.scoresIn s f l port pos batch out).shep.fieldBefore = s.shep.fieldBefore := by
  unfold State.scoresIn
  (repeat' split) <;> simp

@[simp] theorem State.finishCodes_field (s : State) (f : FoldId) (n : Nat) :
    (State.finishCodes s f n).shep.fbPresHigh = s.shep.fbPresHigh ∧ (State.finishCodes s f n).shep.alState = s.shep.alState ∧ (State.finishCodes s f n).shep.nmt = s.shep.nmt ∧ (State.finishCodes s f n).shep.fieldBefore = s.shep.fieldBefore := by
  unfold State.finishCodes
  dsimp only
  (repeat' split) <;> simp

/-! ## FrameClose -/

@[simp] theorem State.admitCohort_field (s : State) (f : FoldId) (c : Cohort) :
    (State.admitCohort s f c).shep.fbPresHigh = s.shep.fbPresHigh ∧ (State.admitCohort s f c).shep.alState = s.shep.alState ∧ (State.admitCohort s f c).shep.nmt = s.shep.nmt ∧ (State.admitCohort s f c).shep.fieldBefore = s.shep.fieldBefore := by
  unfold State.admitCohort
  simp

@[simp] theorem State.admitAll_field (s : State) (f : FoldId) :
    (State.admitAll s f).shep.fbPresHigh = s.shep.fbPresHigh ∧ (State.admitAll s f).shep.alState = s.shep.alState ∧ (State.admitAll s f).shep.nmt = s.shep.nmt ∧ (State.admitAll s f).shep.fieldBefore = s.shep.fieldBefore := by
  unfold State.admitAll
  simp

theorem sendClosedLoop_field (c : Nat) (n : Nat) (s : State) :
    (sendClosedLoop c n s).shep.fbPresHigh = s.shep.fbPresHigh ∧ (sendClosedLoop c n s).shep.alState = s.shep.alState ∧ (sendClosedLoop c n s).shep.nmt = s.shep.nmt ∧ (sendClosedLoop c n s).shep.fieldBefore = s.shep.fieldBefore := by
  induction n generalizing s with
  | zero => exact ⟨rfl, rfl, rfl, rfl⟩
  | succ n ih =>
    unfold sendClosedLoop
    (repeat' split) <;> first | (simp; done) | (simp only [ih]; (repeat' split) <;> simp)
@[simp] theorem State.sendClosed_field (s : State) (c : Nat) :
    (State.sendClosed s c).shep.fbPresHigh = s.shep.fbPresHigh ∧ (State.sendClosed s c).shep.alState = s.shep.alState ∧ (State.sendClosed s c).shep.nmt = s.shep.nmt ∧ (State.sendClosed s c).shep.fieldBefore = s.shep.fieldBefore := by
  exact sendClosedLoop_field _ _ _

@[simp] theorem State.flushMsg_field (s : State) (c : Nat) :
    (State.flushMsg s c).shep.fbPresHigh = s.shep.fbPresHigh ∧ (State.flushMsg s c).shep.alState = s.shep.alState ∧ (State.flushMsg s c).shep.nmt = s.shep.nmt ∧ (State.flushMsg s c).shep.fieldBefore = s.shep.fieldBefore := by
  unfold State.flushMsg
  dsimp only
  (repeat' split) <;> simp

@[simp] theorem State.pushEntry_field (s : State) (c : Nat) (slot : Bool) (key salt : Bytes) (frame : Nat) (b : Bytes) :
    (State.pushEntry s c slot key salt frame b).shep.fbPresHigh = s.shep.fbPresHigh ∧ (State.pushEntry s c slot key salt frame b).shep.alState = s.shep.alState ∧ (State.pushEntry s c slot key salt frame b).shep.nmt = s.shep.nmt ∧ (State.pushEntry s c slot key salt frame b).shep.fieldBefore = s.shep.fieldBefore := by
  unfold State.pushEntry
  split <;> simp

@[simp] theorem State.flushFold_field (s : State) (f : FoldId) :
    (State.flushFold s f).shep.fbPresHigh = s.shep.fbPresHigh ∧ (State.flushFold s f).shep.alState = s.shep.alState ∧ (State.flushFold s f).shep.nmt = s.shep.nmt ∧ (State.flushFold s f).shep.fieldBefore = s.shep.fieldBefore := by
  unfold State.flushFold
  simp

@[simp] theorem State.postResult_field (s : State) (f : FoldId) (cid status event : Nat) (r : Result) (len : Nat) :
    (State.postResult s f cid status event r len).shep.fbPresHigh = s.shep.fbPresHigh ∧ (State.postResult s f cid status event r len).shep.alState = s.shep.alState ∧ (State.postResult s f cid status event r len).shep.nmt = s.shep.nmt ∧ (State.postResult s f cid status event r len).shep.fieldBefore = s.shep.fieldBefore := by
  unfold State.postResult
  simp

@[simp] theorem State.sendResult_field (s : State) (f : FoldId) (r : Result) :
    (State.sendResult s f r).shep.fbPresHigh = s.shep.fbPresHigh ∧ (State.sendResult s f r).shep.alState = s.shep.alState ∧ (State.sendResult s f r).shep.nmt = s.shep.nmt ∧ (State.sendResult s f r).shep.fieldBefore = s.shep.fieldBefore := by
  unfold State.sendResult
  (repeat' split) <;> simp

@[simp] theorem State.noteSent_field (s : State) (f : FoldId) :
    (State.noteSent s f).shep.fbPresHigh = s.shep.fbPresHigh ∧ (State.noteSent s f).shep.alState = s.shep.alState ∧ (State.noteSent s f).shep.nmt = s.shep.nmt ∧ (State.noteSent s f).shep.fieldBefore = s.shep.fieldBefore := by
  unfold State.noteSent
  simp

@[simp] theorem State.closeHeader_field (s : State) (f : FoldId) (tick frame : Nat) (h : RepHdr) (withheld : Bool) :
    (State.closeHeader s f tick frame h withheld).shep.fbPresHigh = s.shep.fbPresHigh ∧ (State.closeHeader s f tick frame h withheld).shep.alState = s.shep.alState ∧ (State.closeHeader s f tick frame h withheld).shep.nmt = s.shep.nmt ∧ (State.closeHeader s f tick frame h withheld).shep.fieldBefore = s.shep.fieldBefore := by
  unfold State.closeHeader
  dsimp only
  (repeat' split) <;> simp

@[simp] theorem State.closeHeaders_field (s : State) (f : FoldId) (tick n : Nat) (c : Option Cohort) :
    (State.closeHeaders s f tick n c).shep.fbPresHigh = s.shep.fbPresHigh ∧ (State.closeHeaders s f tick n c).shep.alState = s.shep.alState ∧ (State.closeHeaders s f tick n c).shep.nmt = s.shep.nmt ∧ (State.closeHeaders s f tick n c).shep.fieldBefore = s.shep.fieldBefore := by
  unfold State.closeHeaders
  dsimp only
  split
  · simp
  · refine ⟨foldl_fbPresHigh _ _ _ ?_, foldl_alState _ _ _ ?_, foldl_nmt _ _ _ ?_, foldl_fieldBefore _ _ _ ?_⟩ <;> intro s a <;> (try dsimp only) <;> (repeat' split) <;> simp

@[simp] theorem State.missInput_field (s : State) (f : FoldId) (n : Nat) (d : InDecl) :
    (State.missInput s f n d).shep.fbPresHigh = s.shep.fbPresHigh ∧ (State.missInput s f n d).shep.alState = s.shep.alState ∧ (State.missInput s f n d).shep.nmt = s.shep.nmt ∧ (State.missInput s f n d).shep.fieldBefore = s.shep.fieldBefore := by
  unfold State.missInput
  simp

@[simp] theorem State.closeArrivals_field (s : State) (f : FoldId) (n : Nat) :
    (State.closeArrivals s f n).shep.fbPresHigh = s.shep.fbPresHigh ∧ (State.closeArrivals s f n).shep.alState = s.shep.alState ∧ (State.closeArrivals s f n).shep.nmt = s.shep.nmt ∧ (State.closeArrivals s f n).shep.fieldBefore = s.shep.fieldBefore := by
  unfold State.closeArrivals
  simp

@[simp] theorem State.checkPeers_field (s : State) (f : FoldId) (n : Nat) :
    (State.checkPeers s f n).shep.fbPresHigh = s.shep.fbPresHigh ∧ (State.checkPeers s f n).shep.alState = s.shep.alState ∧ (State.checkPeers s f n).shep.nmt = s.shep.nmt ∧ (State.checkPeers s f n).shep.fieldBefore = s.shep.fieldBefore := by
  unfold State.checkPeers
  simp

@[simp] theorem State.withholdFrame_field (s : State) (f : FoldId) (n : Nat) :
    (State.withholdFrame s f n).shep.fbPresHigh = s.shep.fbPresHigh ∧ (State.withholdFrame s f n).shep.alState = s.shep.alState ∧ (State.withholdFrame s f n).shep.nmt = s.shep.nmt ∧ (State.withholdFrame s f n).shep.fieldBefore = s.shep.fieldBefore := by
  unfold State.withholdFrame
  dsimp only
  (repeat' split) <;> simp

@[simp] theorem State.closeRoot_field (s : State) (f : FoldId) (n : Nat) :
    (State.closeRoot s f n).shep.fbPresHigh = s.shep.fbPresHigh ∧ (State.closeRoot s f n).shep.alState = s.shep.alState ∧ (State.closeRoot s f n).shep.nmt = s.shep.nmt ∧ (State.closeRoot s f n).shep.fieldBefore = s.shep.fieldBefore := by
  unfold State.closeRoot
  dsimp only
  (repeat' split) <;> simp

@[simp] theorem State.finishWheels_field (s : State) (f : FoldId) (n : Nat) :
    (State.finishWheels s f n).shep.fbPresHigh = s.shep.fbPresHigh ∧ (State.finishWheels s f n).shep.alState = s.shep.alState ∧ (State.finishWheels s f n).shep.nmt = s.shep.nmt ∧ (State.finishWheels s f n).shep.fieldBefore = s.shep.fieldBefore := by
  unfold State.finishWheels
  simp

@[simp] theorem State.nextRole_field (s : State) (f : FoldId) :
    (State.nextRole s f).shep.fbPresHigh = s.shep.fbPresHigh ∧ (State.nextRole s f).shep.alState = s.shep.alState ∧ (State.nextRole s f).shep.nmt = s.shep.nmt ∧ (State.nextRole s f).shep.fieldBefore = s.shep.fieldBefore := by
  unfold State.nextRole
  simp

@[simp] theorem State.closeFrame_field (s : State) (f : FoldId) :
    (State.closeFrame s f).shep.fbPresHigh = s.shep.fbPresHigh ∧ (State.closeFrame s f).shep.alState = s.shep.alState ∧ (State.closeFrame s f).shep.nmt = s.shep.nmt ∧ (State.closeFrame s f).shep.fieldBefore = s.shep.fieldBefore := by
  unfold State.closeFrame
  simp

/-! ## Ports -/

@[simp] theorem State.refuseRecords_field (s : State) (f : FoldId) (n : Nat) :
    (State.refuseRecords s f n).shep.fbPresHigh = s.shep.fbPresHigh ∧ (State.refuseRecords s f n).shep.alState = s.shep.alState ∧ (State.refuseRecords s f n).shep.nmt = s.shep.nmt ∧ (State.refuseRecords s f n).shep.fieldBefore = s.shep.fieldBefore := by
  unfold State.refuseRecords
  simp

@[simp] theorem State.land_field (s : State) (f : FoldId) (a : Arrival) :
    (State.land s f a).shep.fbPresHigh = s.shep.fbPresHigh ∧ (State.land s f a).shep.alState = s.shep.alState ∧ (State.land s f a).shep.nmt = s.shep.nmt ∧ (State.land s f a).shep.fieldBefore = s.shep.fieldBefore := by
  unfold State.land
  simp

@[simp] theorem State.deliverInput_field (s : State) (f : FoldId) (i unit : Nat) (pos : Nat × Nat) (recId body : Bytes) (route : Route) :
    (State.deliverInput s f i unit pos recId body route).shep.fbPresHigh = s.shep.fbPresHigh ∧ (State.deliverInput s f i unit pos recId body route).shep.alState = s.shep.alState ∧ (State.deliverInput s f i unit pos recId body route).shep.nmt = s.shep.nmt ∧ (State.deliverInput s f i unit pos recId body route).shep.fieldBefore = s.shep.fieldBefore := by
  unfold State.deliverInput
  dsimp only
  (repeat' split) <;> simp

@[simp] theorem State.landAll_field (s : State) (f : FoldId) (rx : IzrRx) (route : Route) (bs : List Bytes) :
    (State.landAll s f rx route bs).shep.fbPresHigh = s.shep.fbPresHigh ∧ (State.landAll s f rx route bs).shep.alState = s.shep.alState ∧ (State.landAll s f rx route bs).shep.nmt = s.shep.nmt ∧ (State.landAll s f rx route bs).shep.fieldBefore = s.shep.fieldBefore := by
  unfold State.landAll
  simp

@[simp] theorem State.deliverImage_field (s : State) (source pdo : Nat) (recId image : Bytes) :
    (State.deliverImage s source pdo recId image).shep.fbPresHigh = s.shep.fbPresHigh ∧ (State.deliverImage s source pdo recId image).shep.alState = s.shep.alState ∧ (State.deliverImage s source pdo recId image).shep.nmt = s.shep.nmt ∧ (State.deliverImage s source pdo recId image).shep.fieldBefore = s.shep.fieldBefore := by
  unfold State.deliverImage
  simp

/-! ## Heath -/

@[simp] theorem State.askKeyUpdates_field (s : State) :
    (State.askKeyUpdates s).shep.fbPresHigh = s.shep.fbPresHigh ∧ (State.askKeyUpdates s).shep.alState = s.shep.alState ∧ (State.askKeyUpdates s).shep.nmt = s.shep.nmt ∧ (State.askKeyUpdates s).shep.fieldBefore = s.shep.fieldBefore := by
  unfold State.askKeyUpdates
  simp

@[simp] theorem State.stepGtc_field (s : State) (v : Nat) :
    (State.stepGtc s v).shep.fbPresHigh = s.shep.fbPresHigh ∧ (State.stepGtc s v).shep.alState = s.shep.alState ∧ (State.stepGtc s v).shep.nmt = s.shep.nmt ∧ (State.stepGtc s v).shep.fieldBefore = s.shep.fieldBefore := by
  unfold State.stepGtc
  simp

@[simp] theorem State.discipline_field (s : State) (ps : Int) :
    (State.discipline s ps).shep.fbPresHigh = s.shep.fbPresHigh ∧ (State.discipline s ps).shep.alState = s.shep.alState ∧ (State.discipline s ps).shep.nmt = s.shep.nmt ∧ (State.discipline s ps).shep.fieldBefore = s.shep.fieldBefore := by
  unfold State.discipline
  simp

@[simp] theorem State.alignLoss_field (s : State) (ps : Int) :
    (State.alignLoss s ps).shep.fbPresHigh = s.shep.fbPresHigh ∧ (State.alignLoss s ps).shep.alState = s.shep.alState ∧ (State.alignLoss s ps).shep.nmt = s.shep.nmt ∧ (State.alignLoss s ps).shep.fieldBefore = s.shep.fieldBefore := by
  unfold State.alignLoss
  simp

@[simp] theorem State.checkUpstream_field (s : State) :
    (State.checkUpstream s).shep.fbPresHigh = s.shep.fbPresHigh ∧ (State.checkUpstream s).shep.alState = s.shep.alState ∧ (State.checkUpstream s).shep.nmt = s.shep.nmt ∧ (State.checkUpstream s).shep.fieldBefore = s.shep.fieldBefore := by
  unfold State.checkUpstream
  simp

@[simp] theorem State.onTime_field (s : State) (k : LinkId) (sender reference depth : Nat) :
    (State.onTime s k sender reference depth).shep.fbPresHigh = s.shep.fbPresHigh ∧ (State.onTime s k sender reference depth).shep.alState = s.shep.alState ∧ (State.onTime s k sender reference depth).shep.nmt = s.shep.nmt ∧ (State.onTime s k sender reference depth).shep.fieldBefore = s.shep.fieldBefore := by
  unfold State.onTime
  simp

@[simp] theorem State.growLinkDown_field (s : State) (k : LinkId) (spare : Bool) (f : FoldId) :
    (State.growLinkDown s k spare f).shep.fbPresHigh = s.shep.fbPresHigh ∧ (State.growLinkDown s k spare f).shep.alState = s.shep.alState ∧ (State.growLinkDown s k spare f).shep.nmt = s.shep.nmt ∧ (State.growLinkDown s k spare f).shep.fieldBefore = s.shep.fieldBefore := by
  unfold State.growLinkDown
  simp

@[simp] theorem State.dropLink_field (s : State) (k : LinkId) (cause : Nat) :
    (State.dropLink s k cause).shep.fbPresHigh = s.shep.fbPresHigh ∧ (State.dropLink s k cause).shep.alState = s.shep.alState ∧ (State.dropLink s k cause).shep.nmt = s.shep.nmt ∧ (State.dropLink s k cause).shep.fieldBefore = s.shep.fieldBefore := by
  unfold State.dropLink
  dsimp only
  (repeat' split) <;> simp

@[simp] theorem State.growLoss_field (s : State) (k : LinkId) (pos : Nat) :
    (State.growLoss s k pos).shep.fbPresHigh = s.shep.fbPresHigh ∧ (State.growLoss s k pos).shep.alState = s.shep.alState ∧ (State.growLoss s k pos).shep.nmt = s.shep.nmt ∧ (State.growLoss s k pos).shep.fieldBefore = s.shep.fieldBefore := by
  unfold State.growLoss
  split <;> simp

@[simp] theorem State.loseFrame_field (s : State) (k : LinkId) (cause slot : Nat) :
    (State.loseFrame s k cause slot).shep.fbPresHigh = s.shep.fbPresHigh ∧ (State.loseFrame s k cause slot).shep.alState = s.shep.alState ∧ (State.loseFrame s k cause slot).shep.nmt = s.shep.nmt ∧ (State.loseFrame s k cause slot).shep.fieldBefore = s.shep.fieldBefore := by
  unfold State.loseFrame
  simp

@[simp] theorem State.onHello_field (s : State) (k : LinkId) (h : Hello) :
    (State.onHello s k h).shep.fbPresHigh = s.shep.fbPresHigh ∧ (State.onHello s k h).shep.alState = s.shep.alState ∧ (State.onHello s k h).shep.nmt = s.shep.nmt ∧ (State.onHello s k h).shep.fieldBefore = s.shep.fieldBefore := by
  unfold State.onHello
  simp

@[simp] theorem State.launchIncomplete_field (s : State) (f : FoldId) (missing : List Nat) :
    (State.launchIncomplete s f missing).shep.fbPresHigh = s.shep.fbPresHigh ∧ (State.launchIncomplete s f missing).shep.alState = s.shep.alState ∧ (State.launchIncomplete s f missing).shep.nmt = s.shep.nmt ∧ (State.launchIncomplete s f missing).shep.fieldBefore = s.shep.fieldBefore := by
  unfold State.launchIncomplete
  simp

@[simp] theorem State.onArm_field (s : State) (origin : Nat) (w : ArmWord) :
    (State.onArm s origin w).shep.fbPresHigh = s.shep.fbPresHigh ∧ (State.onArm s origin w).shep.alState = s.shep.alState ∧ (State.onArm s origin w).shep.nmt = s.shep.nmt ∧ (State.onArm s origin w).shep.fieldBefore = s.shep.fieldBefore := by
  unfold State.onArm
  dsimp only
  (repeat' split) <;> simp

@[simp] theorem State.onEpochReq_field (s : State) (h : RelayHdr) (c u k : Nat) :
    (State.onEpochReq s h c u k).shep.fbPresHigh = s.shep.fbPresHigh ∧ (State.onEpochReq s h c u k).shep.alState = s.shep.alState ∧ (State.onEpochReq s h c u k).shep.nmt = s.shep.nmt ∧ (State.onEpochReq s h c u k).shep.fieldBefore = s.shep.fieldBefore := by
  unfold State.onEpochReq
  simp

@[simp] theorem State.holdProposal_field (s : State) (b : MemberBody) :
    (State.holdProposal s b).shep.fbPresHigh = s.shep.fbPresHigh ∧ (State.holdProposal s b).shep.alState = s.shep.alState ∧ (State.holdProposal s b).shep.nmt = s.shep.nmt ∧ (State.holdProposal s b).shep.fieldBefore = s.shep.fieldBefore := by
  unfold State.holdProposal
  split <;> simp

@[simp] theorem State.setAck_field (s : State) (b : MemberBody) (c : Nat) :
    (State.setAck s b c).shep.fbPresHigh = s.shep.fbPresHigh ∧ (State.setAck s b c).shep.alState = s.shep.alState ∧ (State.setAck s b c).shep.nmt = s.shep.nmt ∧ (State.setAck s b c).shep.fieldBefore = s.shep.fieldBefore := by
  unfold State.setAck
  split <;> simp

@[simp] theorem State.onPropose_field (s : State) (h : RelayHdr) (b : MemberBody) :
    (State.onPropose s h b).shep.fbPresHigh = s.shep.fbPresHigh ∧ (State.onPropose s h b).shep.alState = s.shep.alState ∧ (State.onPropose s h b).shep.nmt = s.shep.nmt ∧ (State.onPropose s h b).shep.fieldBefore = s.shep.fieldBefore := by
  unfold State.onPropose
  simp

@[simp] theorem State.onAck_field (s : State) (h : RelayHdr) (b : MemberBody) :
    (State.onAck s h b).shep.fbPresHigh = s.shep.fbPresHigh ∧ (State.onAck s h b).shep.alState = s.shep.alState ∧ (State.onAck s h b).shep.nmt = s.shep.nmt ∧ (State.onAck s h b).shep.fieldBefore = s.shep.fieldBefore := by
  unfold State.onAck
  simp

@[simp] theorem State.abortEpoch_field (s : State) :
    (State.abortEpoch s).shep.fbPresHigh = s.shep.fbPresHigh ∧ (State.abortEpoch s).shep.alState = s.shep.alState ∧ (State.abortEpoch s).shep.nmt = s.shep.nmt ∧ (State.abortEpoch s).shep.fieldBefore = s.shep.fieldBefore := by
  unfold State.abortEpoch
  split <;> simp

@[simp] theorem State.onAbort_field (s : State) (h : RelayHdr) (b : MemberBody) :
    (State.onAbort s h b).shep.fbPresHigh = s.shep.fbPresHigh ∧ (State.onAbort s h b).shep.alState = s.shep.alState ∧ (State.onAbort s h b).shep.nmt = s.shep.nmt ∧ (State.onAbort s h b).shep.fieldBefore = s.shep.fieldBefore := by
  unfold State.onAbort
  dsimp only
  (repeat' split) <;> simp

@[simp] theorem State.applyLink_field (s : State) (j : LinkId) :
    (State.applyLink s j).shep.fbPresHigh = s.shep.fbPresHigh ∧ (State.applyLink s j).shep.alState = s.shep.alState ∧ (State.applyLink s j).shep.nmt = s.shep.nmt ∧ (State.applyLink s j).shep.fieldBefore = s.shep.fieldBefore := by
  unfold State.applyLink
  simp

@[simp] theorem State.admitLinks_field (s : State) (old : BitVec 32) :
    (State.admitLinks s old).shep.fbPresHigh = s.shep.fbPresHigh ∧ (State.admitLinks s old).shep.alState = s.shep.alState ∧ (State.admitLinks s old).shep.nmt = s.shep.nmt ∧ (State.admitLinks s old).shep.fieldBefore = s.shep.fieldBefore := by
  unfold State.admitLinks
  dsimp only
  (repeat' split) <;> simp

@[simp] theorem State.applyQuad_field (s : State) (c : Nat) (q : QuadId) :
    (State.applyQuad s c q).shep.fbPresHigh = s.shep.fbPresHigh ∧ (State.applyQuad s c q).shep.alState = s.shep.alState ∧ (State.applyQuad s c q).shep.nmt = s.shep.nmt ∧ (State.applyQuad s c q).shep.fieldBefore = s.shep.fieldBefore := by
  unfold State.applyQuad
  simp

@[simp] theorem State.applyStack_field (s : State) (k : Nat) :
    (State.applyStack s k).shep.fbPresHigh = s.shep.fbPresHigh ∧ (State.applyStack s k).shep.alState = s.shep.alState ∧ (State.applyStack s k).shep.nmt = s.shep.nmt ∧ (State.applyStack s k).shep.fieldBefore = s.shep.fieldBefore := by
  unfold State.applyStack
  (repeat' split) <;> simp

@[simp] theorem State.applyUnits_field (s : State) (p : Proposal) :
    (State.applyUnits s p).shep.fbPresHigh = s.shep.fbPresHigh ∧ (State.applyUnits s p).shep.alState = s.shep.alState ∧ (State.applyUnits s p).shep.nmt = s.shep.nmt ∧ (State.applyUnits s p).shep.fieldBefore = s.shep.fieldBefore := by
  unfold State.applyUnits
  dsimp only
  exact ⟨((State.admitLinks_field _ _).1).trans (((foldl_field _ _ _ fun s u => by (repeat' split) <;> simp).1).trans (((foldl_field _ _ _ fun s u => by (repeat' split) <;> simp).1).trans ((foldl_field _ _ _ fun s u => by (repeat' split) <;> simp).1))),
    ((State.admitLinks_field _ _).2.1).trans (((foldl_field _ _ _ fun s u => by (repeat' split) <;> simp).2.1).trans (((foldl_field _ _ _ fun s u => by (repeat' split) <;> simp).2.1).trans ((foldl_field _ _ _ fun s u => by (repeat' split) <;> simp).2.1))),
    ((State.admitLinks_field _ _).2.2.1).trans (((foldl_field _ _ _ fun s u => by (repeat' split) <;> simp).2.2.1).trans (((foldl_field _ _ _ fun s u => by (repeat' split) <;> simp).2.2.1).trans ((foldl_field _ _ _ fun s u => by (repeat' split) <;> simp).2.2.1))),
    ((State.admitLinks_field _ _).2.2.2).trans (((foldl_field _ _ _ fun s u => by (repeat' split) <;> simp).2.2.2).trans (((foldl_field _ _ _ fun s u => by (repeat' split) <;> simp).2.2.2).trans ((foldl_field _ _ _ fun s u => by (repeat' split) <;> simp).2.2.2)))⟩

@[simp] theorem State.remap_field (s : State) (e : Nat) (f : FoldId) :
    (State.remap s e f).shep.fbPresHigh = s.shep.fbPresHigh ∧ (State.remap s e f).shep.alState = s.shep.alState ∧ (State.remap s e f).shep.nmt = s.shep.nmt ∧ (State.remap s e f).shep.fieldBefore = s.shep.fieldBefore := by
  unfold State.remap
  split <;> simp

@[simp] theorem State.onLeave_field (s : State) (h : RelayHdr) (c cause ref : Nat) :
    (State.onLeave s h c cause ref).shep.fbPresHigh = s.shep.fbPresHigh ∧ (State.onLeave s h c cause ref).shep.alState = s.shep.alState ∧ (State.onLeave s h c cause ref).shep.nmt = s.shep.nmt ∧ (State.onLeave s h c cause ref).shep.fieldBefore = s.shep.fieldBefore := by
  unfold State.onLeave
  simp

@[simp] theorem State.onReplay_field (s : State) (h : RelayHdr) (f : FoldId) (round step : Nat) :
    (State.onReplay s h f round step).shep.fbPresHigh = s.shep.fbPresHigh ∧ (State.onReplay s h f round step).shep.alState = s.shep.alState ∧ (State.onReplay s h f round step).shep.nmt = s.shep.nmt ∧ (State.onReplay s h f round step).shep.fieldBefore = s.shep.fieldBefore := by
  unfold State.onReplay
  simp

@[simp] theorem State.takeArm_field (s : State) (h : RelayHdr) (w : SvcWord) :
    (State.takeArm s h w).shep.fbPresHigh = s.shep.fbPresHigh ∧ (State.takeArm s h w).shep.alState = s.shep.alState ∧ (State.takeArm s h w).shep.nmt = s.shep.nmt ∧ (State.takeArm s h w).shep.fieldBefore = s.shep.fieldBefore := by
  unfold State.takeArm
  dsimp only
  (repeat' split) <;> simp

@[simp] theorem State.takeWord_field (s : State) (k : LinkId) (w : SvcWord) :
    (State.takeWord s k w).shep.fbPresHigh = s.shep.fbPresHigh ∧ (State.takeWord s k w).shep.alState = s.shep.alState ∧ (State.takeWord s k w).shep.nmt = s.shep.nmt ∧ (State.takeWord s k w).shep.fieldBefore = s.shep.fieldBefore := by
  unfold State.takeWord
  dsimp only
  (repeat' split) <;> simp

@[simp] theorem State.holdPeer_field (s : State) (sender : Nat) (p : PeerFrame) :
    (State.holdPeer s sender p).shep.fbPresHigh = s.shep.fbPresHigh ∧ (State.holdPeer s sender p).shep.alState = s.shep.alState ∧ (State.holdPeer s sender p).shep.nmt = s.shep.nmt ∧ (State.holdPeer s sender p).shep.fieldBefore = s.shep.fieldBefore := by
  unfold State.holdPeer
  simp

/-! ## Commands -/

theorem State.signedCommand_field (s : State) (q : QHdr) (o : Signed) (idx sub : Nat) (commit : State → Bytes → State × Nat × Nat)
    (result : State → Bytes → Nat)
    (hc : ∀ s v, (commit s v).1.shep.fbPresHigh = s.shep.fbPresHigh ∧ (commit s v).1.shep.alState = s.shep.alState ∧ (commit s v).1.shep.nmt = s.shep.nmt ∧ (commit s v).1.shep.fieldBefore = s.shep.fieldBefore) :
    (State.signedCommand s q o idx sub commit result).shep.fbPresHigh = s.shep.fbPresHigh ∧ (State.signedCommand s q o idx sub commit result).shep.alState = s.shep.alState ∧ (State.signedCommand s q o idx sub commit result).shep.nmt = s.shep.nmt ∧ (State.signedCommand s q o idx sub commit result).shep.fieldBefore = s.shep.fieldBefore := by
  unfold State.signedCommand
  dsimp only
  split <;> simp [hc]

@[simp] theorem State.readSource_field (s : State) (v : FnId) (l : LoadSource) :
    (State.readSource s v l).shep.fbPresHigh = s.shep.fbPresHigh ∧ (State.readSource s v l).shep.alState = s.shep.alState ∧ (State.readSource s v l).shep.nmt = s.shep.nmt ∧ (State.readSource s v l).shep.fieldBefore = s.shep.fieldBefore := by
  unfold State.readSource
  simp

@[simp] theorem State.startBg_field (s : State) (q : QHdr) (kind : Nat) (l : LoadSource) (target generation : Nat) (fields states : Bool) :
    (State.startBg s q kind l target generation fields states).shep.fbPresHigh = s.shep.fbPresHigh ∧ (State.startBg s q kind l target generation fields states).shep.alState = s.shep.alState ∧ (State.startBg s q kind l target generation fields states).shep.nmt = s.shep.nmt ∧ (State.startBg s q kind l target generation fields states).shep.fieldBefore = s.shep.fieldBefore := by
  unfold State.startBg
  simp

@[simp] theorem State.endBg_field (s : State) (f : FoldId) (status event r0 r1 r2 : Nat) :
    (State.endBg s f status event r0 r1 r2).shep.fbPresHigh = s.shep.fbPresHigh ∧ (State.endBg s f status event r0 r1 r2).shep.alState = s.shep.alState ∧ (State.endBg s f status event r0 r1 r2).shep.nmt = s.shep.nmt ∧ (State.endBg s f status event r0 r1 r2).shep.fieldBefore = s.shep.fieldBefore := by
  unfold State.endBg
  split <;> simp

@[simp] theorem State.foldCommand_field (s : State) (f : FoldId) (pf : Bool) (v : Nat) :
    (State.foldCommand s f pf v).1.shep.fbPresHigh = s.shep.fbPresHigh ∧ (State.foldCommand s f pf v).1.shep.alState = s.shep.alState ∧ (State.foldCommand s f pf v).1.shep.nmt = s.shep.nmt ∧ (State.foldCommand s f pf v).1.shep.fieldBefore = s.shep.fieldBefore := by
  unfold State.foldCommand
  (repeat' split) <;> simp

/-! ## Rings -/

theorem State.entry_field (s : State) (q : QHdr) (k : State → State)
    (hk : ∀ s, (k s).shep.fbPresHigh = s.shep.fbPresHigh ∧ (k s).shep.alState = s.shep.alState ∧ (k s).shep.nmt = s.shep.nmt ∧ (k s).shep.fieldBefore = s.shep.fieldBefore) :
    (State.entry s q k).shep.fbPresHigh = s.shep.fbPresHigh ∧ (State.entry s q k).shep.alState = s.shep.alState ∧ (State.entry s q k).shep.nmt = s.shep.nmt ∧ (State.entry s q k).shep.fieldBefore = s.shep.fieldBefore := by
  unfold State.entry
  dsimp only
  (repeat' split) <;> simp [hk]

@[simp] theorem State.issueRead_field (s : State) (f : FoldId) (q : QHdr) (addr len resAddr : Nat) :
    (State.issueRead s f q addr len resAddr).shep.fbPresHigh = s.shep.fbPresHigh ∧ (State.issueRead s f q addr len resAddr).shep.alState = s.shep.alState ∧ (State.issueRead s f q addr len resAddr).shep.nmt = s.shep.nmt ∧ (State.issueRead s f q addr len resAddr).shep.fieldBefore = s.shep.fieldBefore := by
  unfold State.issueRead
  simp

@[simp] theorem State.readError_field (s : State) (f : FoldId) (r : Read) :
    (State.readError s f r).shep.fbPresHigh = s.shep.fbPresHigh ∧ (State.readError s f r).shep.alState = s.shep.alState ∧ (State.readError s f r).shep.nmt = s.shep.nmt ∧ (State.readError s f r).shep.fieldBefore = s.shep.fieldBefore := by
  unfold State.readError
  split <;> simp

@[simp] theorem State.landRecord_field (s : State) (f : FoldId) (r : Read) (b : Bytes) :
    (State.landRecord s f r b).shep.fbPresHigh = s.shep.fbPresHigh ∧ (State.landRecord s f r b).shep.alState = s.shep.alState ∧ (State.landRecord s f r b).shep.nmt = s.shep.nmt ∧ (State.landRecord s f r b).shep.fieldBefore = s.shep.fieldBefore := by
  unfold State.landRecord
  simp

@[simp] theorem State.mbAnswer_field (s : State) (fn : FnId) (abort event : Nat) :
    (State.mbAnswer s fn abort event).shep.fbPresHigh = s.shep.fbPresHigh ∧ (State.mbAnswer s fn abort event).shep.alState = s.shep.alState ∧ (State.mbAnswer s fn abort event).shep.nmt = s.shep.nmt ∧ (State.mbAnswer s fn abort event).shep.fieldBefore = s.shep.fieldBefore := by
  unfold State.mbAnswer
  simp

/-! ## Boot -/

@[simp] theorem State.supplyTrip_field (s : State) (r : Rail) (mv : Nat) :
    (State.supplyTrip s r mv).shep.fbPresHigh = s.shep.fbPresHigh ∧ (State.supplyTrip s r mv).shep.alState = s.shep.alState ∧ (State.supplyTrip s r mv).shep.nmt = s.shep.nmt ∧ (State.supplyTrip s r mv).shep.fieldBefore = s.shep.fieldBefore := by
  unfold State.supplyTrip
  simp

@[simp] theorem State.bootSet_field (s : State) (x : FwSet) (src : Nat) :
    (State.bootSet s x src).shep.fbPresHigh = s.shep.fbPresHigh ∧ (State.bootSet s x src).shep.alState = s.shep.alState ∧ (State.bootSet s x src).shep.nmt = s.shep.nmt ∧ (State.bootSet s x src).shep.fieldBefore = s.shep.fieldBefore := by
  unfold State.bootSet
  simp

@[simp] theorem State.trainLink_field (s : State) (r : LinkTraining) :
    (State.trainLink s r).shep.fbPresHigh = s.shep.fbPresHigh ∧ (State.trainLink s r).shep.alState = s.shep.alState ∧ (State.trainLink s r).shep.nmt = s.shep.nmt ∧ (State.trainLink s r).shep.fieldBefore = s.shep.fieldBefore := by
  unfold State.trainLink
  dsimp only
  (repeat' split) <;> simp

@[simp] theorem State.hbmFail_field (s : State) (k : StackId) :
    (State.hbmFail s k).shep.fbPresHigh = s.shep.fbPresHigh ∧ (State.hbmFail s k).shep.alState = s.shep.alState ∧ (State.hbmFail s k).shep.nmt = s.shep.nmt ∧ (State.hbmFail s k).shep.fieldBefore = s.shep.fieldBefore := by
  unfold State.hbmFail
  simp

@[simp] theorem State.quadFail_field (s : State) (q : QuadId) :
    (State.quadFail s q).shep.fbPresHigh = s.shep.fbPresHigh ∧ (State.quadFail s q).shep.alState = s.shep.alState ∧ (State.quadFail s q).shep.nmt = s.shep.nmt ∧ (State.quadFail s q).shep.fieldBefore = s.shep.fieldBefore := by
  unfold State.quadFail
  simp

@[simp] theorem State.armTrip_field (s : State) (x : Nat × Int) :
    (State.armTrip s x).shep.fbPresHigh = s.shep.fbPresHigh ∧ (State.armTrip s x).shep.alState = s.shep.alState ∧ (State.armTrip s x).shep.nmt = s.shep.nmt ∧ (State.armTrip s x).shep.fieldBefore = s.shep.fieldBefore := by
  unfold State.armTrip
  simp

/-! ## Evidence -/

@[simp] theorem State.ackCommitted_field (s : State) (p : JPage) :
    (State.ackCommitted s p).shep.fbPresHigh = s.shep.fbPresHigh ∧ (State.ackCommitted s p).shep.alState = s.shep.alState ∧ (State.ackCommitted s p).shep.nmt = s.shep.nmt ∧ (State.ackCommitted s p).shep.fieldBefore = s.shep.fieldBefore := by
  unfold State.ackCommitted
  (repeat' split) <;> simp

/-! ## Hbm -/

@[simp] theorem State.queueRebuild_field (s : State) (f : FoldId) (key : Nat) :
    (State.queueRebuild s f key).shep.fbPresHigh = s.shep.fbPresHigh ∧ (State.queueRebuild s f key).shep.alState = s.shep.alState ∧ (State.queueRebuild s f key).shep.nmt = s.shep.nmt ∧ (State.queueRebuild s f key).shep.fieldBefore = s.shep.fieldBefore := by
  unfold State.queueRebuild
  (repeat' split) <;> simp

@[simp] theorem State.modelLost_field (s : State) (f : FoldId) (stripes : List Nat) :
    (State.modelLost s f stripes).shep.fbPresHigh = s.shep.fbPresHigh ∧ (State.modelLost s f stripes).shep.alState = s.shep.alState ∧ (State.modelLost s f stripes).shep.nmt = s.shep.nmt ∧ (State.modelLost s f stripes).shep.fieldBefore = s.shep.fieldBefore := by
  unfold State.modelLost
  split <;> simp

@[simp] theorem State.loseMembers_field (s : State) (k : StackId) (f : FoldId) :
    (State.loseMembers s k f).shep.fbPresHigh = s.shep.fbPresHigh ∧ (State.loseMembers s k f).shep.alState = s.shep.alState ∧ (State.loseMembers s k f).shep.nmt = s.shep.nmt ∧ (State.loseMembers s k f).shep.fieldBefore = s.shep.fieldBefore := by
  unfold State.loseMembers
  simp

@[simp] theorem State.levelStop_field (s : State) :
    (State.levelStop s).shep.fbPresHigh = s.shep.fbPresHigh ∧ (State.levelStop s).shep.alState = s.shep.alState ∧ (State.levelStop s).shep.nmt = s.shep.nmt ∧ (State.levelStop s).shep.fieldBefore = s.shep.fieldBefore := by
  unfold State.levelStop
  simp

@[simp] theorem State.loseStack_field (s : State) (k : StackId) (cause : Nat) :
    (State.loseStack s k cause).shep.fbPresHigh = s.shep.fbPresHigh ∧ (State.loseStack s k cause).shep.alState = s.shep.alState ∧ (State.loseStack s k cause).shep.nmt = s.shep.nmt ∧ (State.loseStack s k cause).shep.fieldBefore = s.shep.fieldBefore := by
  unfold State.loseStack
  simp

@[simp] theorem State.badMember_field (s : State) (f : FoldId) (key : Nat) :
    (State.badMember s f key).shep.fbPresHigh = s.shep.fbPresHigh ∧ (State.badMember s f key).shep.alState = s.shep.alState ∧ (State.badMember s f key).shep.nmt = s.shep.nmt ∧ (State.badMember s f key).shep.fieldBefore = s.shep.fieldBefore := by
  unfold State.badMember
  simp

@[simp] theorem State.poisonRead_field (s : State) (f : FoldId) (k : StackId) (a : Nat) (m : Option Nat) (scratch : Bool) :
    (State.poisonRead s f k a m scratch).shep.fbPresHigh = s.shep.fbPresHigh ∧ (State.poisonRead s f k a m scratch).shep.alState = s.shep.alState ∧ (State.poisonRead s f k a m scratch).shep.nmt = s.shep.nmt ∧ (State.poisonRead s f k a m scratch).shep.fieldBefore = s.shep.fieldBefore := by
  unfold State.poisonRead
  split <;> simp

@[simp] theorem State.writeLanding_field (s : State) (a : Nat) (b : Bytes) :
    (State.writeLanding s a b).shep.fbPresHigh = s.shep.fbPresHigh ∧ (State.writeLanding s a b).shep.alState = s.shep.alState ∧ (State.writeLanding s a b).shep.nmt = s.shep.nmt ∧ (State.writeLanding s a b).shep.fieldBefore = s.shep.fieldBefore := by
  unfold State.writeLanding
  simp

@[simp] theorem State.readSlot_field (s : State) (f : FoldId) (l : Loaded) (k : StackId) (j tile i lo a : Nat) (y : Stream) :
    (State.readSlot s f l k j tile i lo a y).shep.fbPresHigh = s.shep.fbPresHigh ∧ (State.readSlot s f l k j tile i lo a y).shep.alState = s.shep.alState ∧ (State.readSlot s f l k j tile i lo a y).shep.nmt = s.shep.nmt ∧ (State.readSlot s f l k j tile i lo a y).shep.fieldBefore = s.shep.fieldBefore := by
  unfold State.readSlot
  simp

@[simp] theorem State.writeHbm_field (s : State) (f : FoldId) (k : StackId) (tile a : Nat) (b : Bytes) (bad : List Nat) :
    (State.writeHbm s f k tile a b bad).shep.fbPresHigh = s.shep.fbPresHigh ∧ (State.writeHbm s f k tile a b bad).shep.alState = s.shep.alState ∧ (State.writeHbm s f k tile a b bad).shep.nmt = s.shep.nmt ∧ (State.writeHbm s f k tile a b bad).shep.fieldBefore = s.shep.fieldBefore := by
  unfold State.writeHbm
  dsimp only
  (repeat' split) <;> simp

@[simp] theorem State.writeSlot_field (s : State) (f : FoldId) (l : Loaded) (k : StackId) (j tile i a : Nat) (y : Stream) :
    (State.writeSlot s f l k j tile i a y).shep.fbPresHigh = s.shep.fbPresHigh ∧ (State.writeSlot s f l k j tile i a y).shep.alState = s.shep.alState ∧ (State.writeSlot s f l k j tile i a y).shep.nmt = s.shep.nmt ∧ (State.writeSlot s f l k j tile i a y).shep.fieldBefore = s.shep.fieldBefore := by
  unfold State.writeSlot
  dsimp only
  (repeat' split) <;> simp

@[simp] theorem State.remoteSlot_field (s : State) (f : FoldId) (l : Loaded) (k : StackId) (j tile i a : Nat) (y : Stream) :
    (State.remoteSlot s f l k j tile i a y).shep.fbPresHigh = s.shep.fbPresHigh ∧ (State.remoteSlot s f l k j tile i a y).shep.alState = s.shep.alState ∧ (State.remoteSlot s f l k j tile i a y).shep.nmt = s.shep.nmt ∧ (State.remoteSlot s f l k j tile i a y).shep.fieldBefore = s.shep.fieldBefore := by
  unfold State.remoteSlot
  split <;> simp

/-! ## Grazing -/

@[simp] theorem State.scrubSlot_field (s : State) (k : StackId) :
    (State.scrubSlot s k).shep.fbPresHigh = s.shep.fbPresHigh ∧ (State.scrubSlot s k).shep.alState = s.shep.alState ∧ (State.scrubSlot s k).shep.nmt = s.shep.nmt ∧ (State.scrubSlot s k).shep.fieldBefore = s.shep.fieldBefore := by
  unfold State.scrubSlot
  dsimp only
  (repeat' split) <;> simp

@[simp] theorem State.rewriteMember_field (s : State) (f : FoldId) (key : Nat) :
    (State.rewriteMember s f key).shep.fbPresHigh = s.shep.fbPresHigh ∧ (State.rewriteMember s f key).shep.alState = s.shep.alState ∧ (State.rewriteMember s f key).shep.nmt = s.shep.nmt ∧ (State.rewriteMember s f key).shep.fieldBefore = s.shep.fieldBefore := by
  unfold State.rewriteMember
  simp

@[simp] theorem State.readRestore_field (s : State) (tile w : Nat) :
    (State.readRestore s tile w).shep.fbPresHigh = s.shep.fbPresHigh ∧ (State.readRestore s tile w).shep.alState = s.shep.alState ∧ (State.readRestore s tile w).shep.nmt = s.shep.nmt ∧ (State.readRestore s tile w).shep.fieldBefore = s.shep.fieldBefore := by
  unfold State.readRestore
  dsimp only
  (repeat' split) <;> simp

@[simp] theorem State.testQuad_field (s : State) (q : QuadId) (ok : Bool) :
    (State.testQuad s q ok).shep.fbPresHigh = s.shep.fbPresHigh ∧ (State.testQuad s q ok).shep.alState = s.shep.alState ∧ (State.testQuad s q ok).shep.nmt = s.shep.nmt ∧ (State.testQuad s q ok).shep.fieldBefore = s.shep.fieldBefore := by
  unfold State.testQuad
  simp

@[simp] theorem State.grazeHbm_field (s : State) (k : StackId) (testOk : Bool) :
    (State.grazeHbm s k testOk).shep.fbPresHigh = s.shep.fbPresHigh ∧ (State.grazeHbm s k testOk).shep.alState = s.shep.alState ∧ (State.grazeHbm s k testOk).shep.nmt = s.shep.nmt ∧ (State.grazeHbm s k testOk).shep.fieldBefore = s.shep.fieldBefore := by
  unfold State.grazeHbm
  dsimp only
  (repeat' split) <;> simp

@[simp] theorem State.grazeTile_field (s : State) (n : Nat) :
    (State.grazeTile s n).shep.fbPresHigh = s.shep.fbPresHigh ∧ (State.grazeTile s n).shep.alState = s.shep.alState ∧ (State.grazeTile s n).shep.nmt = s.shep.nmt ∧ (State.grazeTile s n).shep.fieldBefore = s.shep.fieldBefore := by
  unfold State.grazeTile
  dsimp only
  (repeat' split) <;> simp

@[simp] theorem State.grazeLanding_field (s : State) :
    (State.grazeLanding s).shep.fbPresHigh = s.shep.fbPresHigh ∧ (State.grazeLanding s).shep.alState = s.shep.alState ∧ (State.grazeLanding s).shep.nmt = s.shep.nmt ∧ (State.grazeLanding s).shep.fieldBefore = s.shep.fieldBefore := by
  unfold State.grazeLanding
  dsimp only
  (repeat' split) <;> simp

@[simp] theorem State.grazeEngine_field (s : State) (kind index : Nat) (pass : Bool) :
    (State.grazeEngine s kind index pass).shep.fbPresHigh = s.shep.fbPresHigh ∧ (State.grazeEngine s kind index pass).shep.alState = s.shep.alState ∧ (State.grazeEngine s kind index pass).shep.nmt = s.shep.nmt ∧ (State.grazeEngine s kind index pass).shep.fieldBefore = s.shep.fieldBefore := by
  unfold State.grazeEngine
  simp

@[simp] theorem State.grazeLink_field (s : State) (k : LinkId) (lanes : Nat) :
    (State.grazeLink s k lanes).shep.fbPresHigh = s.shep.fbPresHigh ∧ (State.grazeLink s k lanes).shep.alState = s.shep.alState ∧ (State.grazeLink s k lanes).shep.nmt = s.shep.nmt ∧ (State.grazeLink s k lanes).shep.fieldBefore = s.shep.fieldBefore := by
  unfold State.grazeLink
  simp

@[simp] theorem State.grazeShepherd_field (s : State) :
    (State.grazeShepherd s).shep.fbPresHigh = s.shep.fbPresHigh ∧ (State.grazeShepherd s).shep.alState = s.shep.alState ∧ (State.grazeShepherd s).shep.nmt = s.shep.nmt ∧ (State.grazeShepherd s).shep.fieldBefore = s.shep.fieldBefore := by
  unfold State.grazeShepherd
  simp

@[simp] theorem State.rebuiltAll_field (s : State) (f : FoldId) (st : Nat) :
    (State.rebuiltAll s f st).shep.fbPresHigh = s.shep.fbPresHigh ∧ (State.rebuiltAll s f st).shep.alState = s.shep.alState ∧ (State.rebuiltAll s f st).shep.nmt = s.shep.nmt ∧ (State.rebuiltAll s f st).shep.fieldBefore = s.shep.fieldBefore := by
  unfold State.rebuiltAll
  simp

@[simp] theorem State.ceRestart_field (s : State) (unit : Nat) :
    (State.ceRestart s unit).shep.fbPresHigh = s.shep.fbPresHigh ∧ (State.ceRestart s unit).shep.alState = s.shep.alState ∧ (State.ceRestart s unit).shep.nmt = s.shep.nmt ∧ (State.ceRestart s unit).shep.fieldBefore = s.shep.fieldBefore := by
  unfold State.ceRestart
  (repeat' split) <;> simp

/-! ## Exchange -/

@[simp] theorem State.sendAll_field {α : Type} (s : State) (f : FoldId) (wrap : α → Exchanged) (l : List (Nat × α)) :
    (State.sendAll s f wrap l).shep.fbPresHigh = s.shep.fbPresHigh ∧ (State.sendAll s f wrap l).shep.alState = s.shep.alState ∧ (State.sendAll s f wrap l).shep.nmt = s.shep.nmt ∧ (State.sendAll s f wrap l).shep.fieldBefore = s.shep.fieldBefore :=
  foldl_field _ _ _ fun s e => by simp

/-! ## Growing -/

@[simp] theorem State.putQuad_field (s : State) (f : FoldId) (row quad : Nat) (b : Bytes) :
    (State.putQuad s f row quad b).shep.fbPresHigh = s.shep.fbPresHigh ∧ (State.putQuad s f row quad b).shep.alState = s.shep.alState ∧ (State.putQuad s f row quad b).shep.nmt = s.shep.nmt ∧ (State.putQuad s f row quad b).shep.fieldBefore = s.shep.fieldBefore := by
  exact foldl_field _ _ _ fun s e => by (repeat' split) <;> simp

@[simp] theorem State.takeRow_field (s : State) (f : FoldId) (l : Loaded) (pass row : Nat) (b : Bytes) :
    (State.takeRow s f l pass row b).shep.fbPresHigh = s.shep.fbPresHigh ∧ (State.takeRow s f l pass row b).shep.alState = s.shep.alState ∧ (State.takeRow s f l pass row b).shep.nmt = s.shep.nmt ∧ (State.takeRow s f l pass row b).shep.fieldBefore = s.shep.fieldBefore := by
  unfold State.takeRow
  simp

@[simp] theorem State.takeRows_field (s : State) (f : FoldId) (l : Loaded) (q : QHdr) (pass first : Nat) (data : List Bytes) (done : Nat) :
    (State.takeRows s f l q pass first data done).shep.fbPresHigh = s.shep.fbPresHigh ∧ (State.takeRows s f l q pass first data done).shep.alState = s.shep.alState ∧ (State.takeRows s f l q pass first data done).shep.nmt = s.shep.nmt ∧ (State.takeRows s f l q pass first data done).shep.fieldBefore = s.shep.fieldBefore := by
  unfold State.takeRows
  simp

@[simp] theorem State.clearLost_field (s : State) :
    (State.clearLost s).shep.fbPresHigh = s.shep.fbPresHigh ∧ (State.clearLost s).shep.alState = s.shep.alState ∧ (State.clearLost s).shep.nmt = s.shep.nmt ∧ (State.clearLost s).shep.fieldBefore = s.shep.fieldBefore := by
  unfold State.clearLost
  simp

@[simp] theorem State.clearExact_field (s : State) (f : FoldId) :
    (State.clearExact s f).shep.fbPresHigh = s.shep.fbPresHigh ∧ (State.clearExact s f).shep.alState = s.shep.alState ∧ (State.clearExact s f).shep.nmt = s.shep.nmt ∧ (State.clearExact s f).shep.fieldBefore = s.shep.fieldBefore := by
  unfold State.clearExact
  simp

@[simp] theorem State.rerunGradient_field (s : State) (f : FoldId) (cause : Nat) :
    (State.rerunGradient s f cause).shep.fbPresHigh = s.shep.fbPresHigh ∧ (State.rerunGradient s f cause).shep.alState = s.shep.alState ∧ (State.rerunGradient s f cause).shep.nmt = s.shep.nmt ∧ (State.rerunGradient s f cause).shep.fieldBefore = s.shep.fieldBefore := by
  unfold State.rerunGradient
  simp

@[simp] theorem State.judgeGradient_field (s : State) (f : FoldId) :
    (State.judgeGradient s f).shep.fbPresHigh = s.shep.fbPresHigh ∧ (State.judgeGradient s f).shep.alState = s.shep.alState ∧ (State.judgeGradient s f).shep.nmt = s.shep.nmt ∧ (State.judgeGradient s f).shep.fieldBefore = s.shep.fieldBefore := by
  unfold State.judgeGradient
  dsimp only
  (repeat' split) <;> simp

@[simp] theorem State.startScoring_field (s : State) (f : FoldId) :
    (State.startScoring s f).shep.fbPresHigh = s.shep.fbPresHigh ∧ (State.startScoring s f).shep.alState = s.shep.alState ∧ (State.startScoring s f).shep.nmt = s.shep.nmt ∧ (State.startScoring s f).shep.fieldBefore = s.shep.fieldBefore := by
  unfold State.startScoring
  simp

/-! ## Preempt -/

@[simp] theorem State.drainNext_field (s : State) (f : FoldId) :
    (State.drainNext s f).shep.fbPresHigh = s.shep.fbPresHigh ∧ (State.drainNext s f).shep.alState = s.shep.alState ∧ (State.drainNext s f).shep.nmt = s.shep.nmt ∧ (State.drainNext s f).shep.fieldBefore = s.shep.fieldBefore := by
  unfold State.drainNext
  dsimp only
  (repeat' split) <;> simp

@[simp] theorem State.endDrain_field (s : State) (f : FoldId) (status : Nat) :
    (State.endDrain s f status).shep.fbPresHigh = s.shep.fbPresHigh ∧ (State.endDrain s f status).shep.alState = s.shep.alState ∧ (State.endDrain s f status).shep.nmt = s.shep.nmt ∧ (State.endDrain s f status).shep.fieldBefore = s.shep.fieldBefore := by
  unfold State.endDrain
  simp

@[simp] theorem State.abandonDrain_field (s : State) (f : FoldId) (stamp : Nat) :
    (State.abandonDrain s f stamp).shep.fbPresHigh = s.shep.fbPresHigh ∧ (State.abandonDrain s f stamp).shep.alState = s.shep.alState ∧ (State.abandonDrain s f stamp).shep.nmt = s.shep.nmt ∧ (State.abandonDrain s f stamp).shep.fieldBefore = s.shep.fieldBefore := by
  unfold State.abandonDrain
  split <;> simp

@[simp] theorem State.nothingWritten_field (s : State) (f : FoldId) (stamp gen : Nat) :
    (State.nothingWritten s f stamp gen).shep.fbPresHigh = s.shep.fbPresHigh ∧ (State.nothingWritten s f stamp gen).shep.alState = s.shep.alState ∧ (State.nothingWritten s f stamp gen).shep.nmt = s.shep.nmt ∧ (State.nothingWritten s f stamp gen).shep.fieldBefore = s.shep.fieldBefore := by
  unfold State.nothingWritten
  simp

@[simp] theorem State.startDrain_field (s : State) (f : FoldId) (n : Notice) (tick gen : Nat) :
    (State.startDrain s f n tick gen).shep.fbPresHigh = s.shep.fbPresHigh ∧ (State.startDrain s f n tick gen).shep.alState = s.shep.alState ∧ (State.startDrain s f n tick gen).shep.nmt = s.shep.nmt ∧ (State.startDrain s f n tick gen).shep.fieldBefore = s.shep.fieldBefore := by
  unfold State.startDrain
  simp

@[simp] theorem State.writeCut_field (s : State) (f : FoldId) (n : Notice) (tick lbaSize : Nat) :
    (State.writeCut s f n tick lbaSize).shep.fbPresHigh = s.shep.fbPresHigh ∧ (State.writeCut s f n tick lbaSize).shep.alState = s.shep.alState ∧ (State.writeCut s f n tick lbaSize).shep.nmt = s.shep.nmt ∧ (State.writeCut s f n tick lbaSize).shep.fieldBefore = s.shep.fieldBefore := by
  unfold State.writeCut
  simp

@[simp] theorem State.takeCut_field (s : State) (f : FoldId) (n : Notice) (lbaSize : Nat) :
    (State.takeCut s f n lbaSize).shep.fbPresHigh = s.shep.fbPresHigh ∧ (State.takeCut s f n lbaSize).shep.alState = s.shep.alState ∧ (State.takeCut s f n lbaSize).shep.nmt = s.shep.nmt ∧ (State.takeCut s f n lbaSize).shep.fieldBefore = s.shep.fieldBefore := by
  unfold State.takeCut
  simp

@[simp] theorem State.drainDone_field (s : State) (f : FoldId) (d : Drain) :
    (State.drainDone s f d).shep.fbPresHigh = s.shep.fbPresHigh ∧ (State.drainDone s f d).shep.alState = s.shep.alState ∧ (State.drainDone s f d).shep.nmt = s.shep.nmt ∧ (State.drainDone s f d).shep.fieldBefore = s.shep.fieldBefore := by
  unfold State.drainDone
  simp

/-! ## RootWheel -/

theorem deliverRecs_field (f : FoldId) (n : Nat) (s : State) :
    (deliverRecs f n s).shep.fbPresHigh = s.shep.fbPresHigh ∧ (deliverRecs f n s).shep.alState = s.shep.alState ∧ (deliverRecs f n s).shep.nmt = s.shep.nmt ∧ (deliverRecs f n s).shep.fieldBefore = s.shep.fieldBefore := by
  induction n generalizing s with
  | zero => exact ⟨rfl, rfl, rfl, rfl⟩
  | succ n ih =>
    unfold deliverRecs
    (repeat' split) <;> simp [ih]
@[simp] theorem State.deliverReady_field (s : State) (f : FoldId) :
    (State.deliverReady s f).shep.fbPresHigh = s.shep.fbPresHigh ∧ (State.deliverReady s f).shep.alState = s.shep.alState ∧ (State.deliverReady s f).shep.nmt = s.shep.nmt ∧ (State.deliverReady s f).shep.fieldBefore = s.shep.fieldBefore := by
  unfold State.deliverReady
  split
  · exact deliverRecs_field _ _ _
  · exact ⟨rfl, rfl, rfl, rfl⟩

@[simp] theorem State.tagLeaf_field (s : State) (f : FoldId) (l : Loaded) (leaf : Nat) :
    (State.tagLeaf s f l leaf).shep.fbPresHigh = s.shep.fbPresHigh ∧ (State.tagLeaf s f l leaf).shep.alState = s.shep.alState ∧ (State.tagLeaf s f l leaf).shep.nmt = s.shep.nmt ∧ (State.tagLeaf s f l leaf).shep.fieldBefore = s.shep.fieldBefore := by
  unfold State.tagLeaf
  simp

@[simp] theorem State.sealLeaf_field (s : State) (f : FoldId) (leaf : Nat) :
    (State.sealLeaf s f leaf).shep.fbPresHigh = s.shep.fbPresHigh ∧ (State.sealLeaf s f leaf).shep.alState = s.shep.alState ∧ (State.sealLeaf s f leaf).shep.nmt = s.shep.nmt ∧ (State.sealLeaf s f leaf).shep.fieldBefore = s.shep.fieldBefore := by
  unfold State.sealLeaf
  simp

/-! ## Security -/

@[simp] theorem State.spdmSend_field (s : State) (fn : FnId) (kind : Nat) (parts : List Bytes) :
    (State.spdmSend s fn kind parts).shep.fbPresHigh = s.shep.fbPresHigh ∧ (State.spdmSend s fn kind parts).shep.alState = s.shep.alState ∧ (State.spdmSend s fn kind parts).shep.nmt = s.shep.nmt ∧ (State.spdmSend s fn kind parts).shep.fieldBefore = s.shep.fieldBefore := by
  unfold State.spdmSend
  simp

@[simp] theorem State.spdmSigned_field (s : State) (fn : FnId) (kind key : Nat) (parts : List Bytes) :
    (State.spdmSigned s fn kind key parts).shep.fbPresHigh = s.shep.fbPresHigh ∧ (State.spdmSigned s fn kind key parts).shep.alState = s.shep.alState ∧ (State.spdmSigned s fn kind key parts).shep.nmt = s.shep.nmt ∧ (State.spdmSigned s fn kind key parts).shep.fieldBefore = s.shep.fieldBefore := by
  unfold State.spdmSigned
  simp

@[simp] theorem State.spdmError_field (s : State) (fn : FnId) (code : Nat) :
    (State.spdmError s fn code).shep.fbPresHigh = s.shep.fbPresHigh ∧ (State.spdmError s fn code).shep.alState = s.shep.alState ∧ (State.spdmError s fn code).shep.nmt = s.shep.nmt ∧ (State.spdmError s fn code).shep.fieldBefore = s.shep.fieldBefore := by
  unfold State.spdmError
  simp

@[simp] theorem State.modSpdm_field (s : State) (fn : FnId) (g : Spdm → Spdm) :
    (State.modSpdm s fn g).shep.fbPresHigh = s.shep.fbPresHigh ∧ (State.modSpdm s fn g).shep.alState = s.shep.alState ∧ (State.modSpdm s fn g).shep.nmt = s.shep.nmt ∧ (State.modSpdm s fn g).shep.fieldBefore = s.shep.fieldBefore := by
  unfold State.modSpdm
  simp

end Sys2Proof.Machine
end

