-- ==== Sys2Proof/Laws/Keeps.lean ====
section
/-! SUPPORT. What every operation of the model does to the queue and to the event logs: nothing, but for the two operations that place
events. One lemma per operation, in the order of the files. -/

namespace Sys2Proof.Machine

/-! ## Ops -/

@[simp] theorem ite_pending (c : Prop) [Decidable c] (a b : State) : (if c then a else b).pending = if c then a.pending else b.pending := apply_ite _ _ _ _

@[simp] theorem ite_events (c : Prop) [Decidable c] (a b : State) : (if c then a else b).events = if c then a.events else b.events := apply_ite _ _ _ _

@[simp] theorem ite_log (c : Prop) [Decidable c] (a b : Events) : (if c then a else b).log = if c then a.log else b.log := apply_ite _ _ _ _

@[simp] theorem ite_sealedLog (c : Prop) [Decidable c] (a b : Events) : (if c then a else b).sealedLog = if c then a.sealedLog else b.sealedLog := apply_ite _ _ _ _

@[simp] theorem foldl_pending {α : Type} (f : State → α → State) (l : List α) (s : State) (h : ∀ s a, (f s a).pending = s.pending) :
    (l.foldl f s).pending = s.pending := by
  induction l generalizing s with
  | nil => rfl
  | cons a l ih => rw [List.foldl_cons, ih, h]

@[simp] theorem foldl_log {α : Type} (f : State → α → State) (l : List α) (s : State) (h : ∀ s a, (f s a).events.log = s.events.log) :
    (l.foldl f s).events.log = s.events.log := by
  induction l generalizing s with
  | nil => rfl
  | cons a l ih => rw [List.foldl_cons, ih, h]

@[simp] theorem foldl_sealedLog {α : Type} (f : State → α → State) (l : List α) (s : State) (h : ∀ s a, (f s a).events.sealedLog = s.events.sealedLog) :
    (l.foldl f s).events.sealedLog = s.events.sealedLog := by
  induction l generalizing s with
  | nil => rfl
  | cons a l ih => rw [List.foldl_cons, ih, h]

theorem foldl_keeps {α : Type} (g : State → α → State) (l : List α) (s : State)
    (hg : ∀ s a, (g s a).pending = s.pending ∧ (g s a).events.log = s.events.log ∧ (g s a).events.sealedLog = s.events.sealedLog) :
    (l.foldl g s).pending = s.pending ∧ (l.foldl g s).events.log = s.events.log ∧ (l.foldl g s).events.sealedLog = s.events.sealedLog :=
  ⟨foldl_pending _ _ _ fun s a => (hg s a).1, foldl_log _ _ _ fun s a => (hg s a).2.1, foldl_sealedLog _ _ _ fun s a => (hg s a).2.2⟩

@[simp] theorem State.setFold_keeps (s : State) (f : FoldId) (x : Fold) :
    (State.setFold s f x).pending = s.pending ∧ (State.setFold s f x).events.log = s.events.log ∧ (State.setFold s f x).events.sealedLog = s.events.sealedLog := by
  unfold State.setFold
  simp

@[simp] theorem State.modFold_keeps (s : State) (f : FoldId) (g : Fold → Fold) :
    (State.modFold s f g).pending = s.pending ∧ (State.modFold s f g).events.log = s.events.log ∧ (State.modFold s f g).events.sealedLog = s.events.sealedLog := by
  unfold State.modFold
  simp

@[simp] theorem State.modQuad_keeps (s : State) (q : QuadId) (g : Quad → Quad) :
    (State.modQuad s q g).pending = s.pending ∧ (State.modQuad s q g).events.log = s.events.log ∧ (State.modQuad s q g).events.sealedLog = s.events.sealedLog := by
  unfold State.modQuad
  simp

@[simp] theorem State.modHbm_keeps (s : State) (k : StackId) (g : Stack → Stack) :
    (State.modHbm s k g).pending = s.pending ∧ (State.modHbm s k g).events.log = s.events.log ∧ (State.modHbm s k g).events.sealedLog = s.events.sealedLog := by
  unfold State.modHbm
  simp

@[simp] theorem State.modLink_keeps (s : State) (k : LinkId) (g : Link → Link) :
    (State.modLink s k g).pending = s.pending ∧ (State.modLink s k g).events.log = s.events.log ∧ (State.modLink s k g).events.sealedLog = s.events.sealedLog := by
  unfold State.modLink
  simp

@[simp] theorem State.modPort_keeps (s : State) (p : PortId) (g : Port → Port) :
    (State.modPort s p g).pending = s.pending ∧ (State.modPort s p g).events.log = s.events.log ∧ (State.modPort s p g).events.sealedLog = s.events.sealedLog := by
  unfold State.modPort
  simp

@[simp] theorem State.modFn_keeps (s : State) (v : FnId) (g : Func → Func) :
    (State.modFn s v g).pending = s.pending ∧ (State.modFn s v g).events.log = s.events.log ∧ (State.modFn s v g).events.sealedLog = s.events.sealedLog := by
  unfold State.modFn
  simp

@[simp] theorem State.setTile_keeps (s : State) (t : Nat) (x : Tile) :
    (State.setTile s t x).pending = s.pending ∧ (State.setTile s t x).events.log = s.events.log ∧ (State.setTile s t x).events.sealedLog = s.events.sealedLog := by
  unfold State.setTile
  simp

@[simp] theorem State.setChan_keeps (s : State) (c : Nat) (x : Chan) :
    (State.setChan s c x).pending = s.pending ∧ (State.setChan s c x).events.log = s.events.log ∧ (State.setChan s c x).events.sealedLog = s.events.sealedLog := by
  unfold State.setChan
  simp

@[simp] theorem State.modFoldCfg_keeps (s : State) (f : FoldId) (g : FoldCfg → FoldCfg) :
    (State.modFoldCfg s f g).pending = s.pending ∧ (State.modFoldCfg s f g).events.log = s.events.log ∧ (State.modFoldCfg s f g).events.sealedLog = s.events.sealedLog := by
  unfold State.modFoldCfg
  simp

@[simp] theorem State.tick_keeps (s : State) (t : Nat) :
    (State.tick s t).pending = s.pending ∧ (State.tick s t).events.log = s.events.log ∧ (State.tick s t).events.sealedLog = s.events.sealedLog := by
  unfold State.tick
  simp

@[simp] theorem State.outOfMappings_keeps (s : State) (q : QuadId) :
    (State.outOfMappings s q).pending = s.pending ∧ (State.outOfMappings s q).events.log = s.events.log ∧ (State.outOfMappings s q).events.sealedLog = s.events.sealedLog := by
  unfold State.outOfMappings
  (repeat' split) <;> simp

@[simp] theorem State.send_keeps (s : State) (o : Output) :
    (State.send s o).pending = s.pending ∧ (State.send s o).events.log = s.events.log ∧ (State.send s o).events.sealedLog = s.events.sealedLog := by
  unfold State.send
  simp

@[simp] theorem State.sendVec_keeps (s : State) (v : FnId) (vec : Fin 4) :
    (State.sendVec s v vec).pending = s.pending ∧ (State.sendVec s v vec).events.log = s.events.log ∧ (State.sendVec s v vec).events.sealedLog = s.events.sealedLog := by
  unfold State.sendVec
  simp

@[simp] theorem State.coalesce_keeps (s : State) (v : FnId) (vec : Fin 4) :
    (State.coalesce s v vec).pending = s.pending ∧ (State.coalesce s v vec).events.log = s.events.log ∧ (State.coalesce s v vec).events.sealedLog = s.events.sealedLog := by
  unfold State.coalesce
  split <;> simp

@[simp] theorem State.emitAt_keeps (s : State) (stamp unit code : Nat) (fo : Bool) (detail : Bytes) :
    (State.emitAt s stamp unit code fo detail).pending = s.pending ∧ (State.emitAt s stamp unit code fo detail).events.log = s.events.log ∧ (State.emitAt s stamp unit code fo detail).events.sealedLog = s.events.sealedLog := by
  unfold State.emitAt
  simp

@[simp] theorem State.emit_keeps (s : State) (unit code : Nat) (detail : Bytes) :
    (State.emit s unit code detail).pending = s.pending ∧ (State.emit s unit code detail).events.log = s.events.log ∧ (State.emit s unit code detail).events.sealedLog = s.events.sealedLog := by
  unfold State.emit
  simp

@[simp] theorem State.writeCqe_keeps (s : State) (v : FnId) (c : Cqe) :
    (State.writeCqe s v c).pending = s.pending ∧ (State.writeCqe s v c).events.log = s.events.log ∧ (State.writeCqe s v c).events.sealedLog = s.events.sealedLog := by
  unfold State.writeCqe
  simp

@[simp] theorem State.unsupported_keeps (s : State) :
    (State.unsupported s).pending = s.pending ∧ (State.unsupported s).events.log = s.events.log ∧ (State.unsupported s).events.sealedLog = s.events.sealedLog := by
  unfold State.unsupported
  simp

@[simp] theorem State.post_keeps (s : State) (v : FnId) (c : Cqe) :
    (State.post s v c).pending = s.pending ∧ (State.post s v c).events.log = s.events.log ∧ (State.post s v c).events.sealedLog = s.events.sealedLog := by
  unfold State.post
  simp

theorem flushLoop_keeps (v : FnId) (q : Nat) (n : Nat) (s : State) :
    (flushLoop v q n s).pending = s.pending ∧ (flushLoop v q n s).events.log = s.events.log ∧ (flushLoop v q n s).events.sealedLog = s.events.sealedLog := by
  induction n generalizing s with
  | zero => exact ⟨rfl, rfl, rfl⟩
  | succ n ih =>
    unfold flushLoop
    (repeat' split) <;> simp [ih]
@[simp] theorem State.flush_keeps (s : State) (v : FnId) :
    (State.flush s v).pending = s.pending ∧ (State.flush s v).events.log = s.events.log ∧ (State.flush s v).events.sealedLog = s.events.sealedLog := by
  simp [State.flush, flushLoop_keeps]

@[simp] theorem State.complete_keeps (s : State) (q : QHdr) (status event r0 r1 r2 : Nat) :
    (State.complete s q status event r0 r1 r2).pending = s.pending ∧ (State.complete s q status event r0 r1 r2).events.log = s.events.log ∧ (State.complete s q status event r0 r1 r2).events.sealedLog = s.events.sealedLog := by
  unfold State.complete
  simp

@[simp] theorem State.complete1_keeps (s : State) (q : QHdr) (status event r0 r1 r2 : Nat) :
    (State.complete1 s q status event r0 r1 r2).pending = s.pending ∧ (State.complete1 s q status event r0 r1 r2).events.log = s.events.log ∧ (State.complete1 s q status event r0 r1 r2).events.sealedLog = s.events.sealedLog := by
  unfold State.complete1
  simp

@[simp] theorem State.fetch_keeps (s : State) (v : FnId) (q : Nat) :
    (State.fetch s v q).pending = s.pending ∧ (State.fetch s v q).events.log = s.events.log ∧ (State.fetch s v q).events.sealedLog = s.events.sealedLog := by
  unfold State.fetch
  simp

@[simp] theorem State.updateLevel_keeps (s : State) :
    (State.updateLevel s).pending = s.pending ∧ (State.updateLevel s).events.log = s.events.log ∧ (State.updateLevel s).events.sealedLog = s.events.sealedLog := by
  unfold State.updateLevel
  simp

@[simp] theorem State.setSt_keeps (s : State) (f : FoldId) (st : FoldState) :
    (State.setSt s f st).pending = s.pending ∧ (State.setSt s f st).events.log = s.events.log ∧ (State.setSt s f st).events.sealedLog = s.events.sealedLog := by
  unfold State.setSt
  simp

@[simp] theorem State.wipeChans_keeps (s : State) (f : FoldId) :
    (State.wipeChans s f).pending = s.pending ∧ (State.wipeChans s f).events.log = s.events.log ∧ (State.wipeChans s f).events.sealedLog = s.events.sealedLog := by
  unfold State.wipeChans
  simp

@[simp] theorem State.zeroChans_keeps (s : State) (f : FoldId) :
    (State.zeroChans s f).pending = s.pending ∧ (State.zeroChans s f).events.log = s.events.log ∧ (State.zeroChans s f).events.sealedLog = s.events.sealedLog := by
  unfold State.zeroChans
  simp

@[simp] theorem State.zeroPlots_keeps (s : State) (plots : BitVec 80) :
    (State.zeroPlots s plots).pending = s.pending ∧ (State.zeroPlots s plots).events.log = s.events.log ∧ (State.zeroPlots s plots).events.sealedLog = s.events.sealedLog := by
  unfold State.zeroPlots
  simp

@[simp] theorem State.zeroUnits_keeps (s : State) (units : BitVec 192) :
    (State.zeroUnits s units).pending = s.pending ∧ (State.zeroUnits s units).events.log = s.events.log ∧ (State.zeroUnits s units).events.sealedLog = s.events.sealedLog := by
  unfold State.zeroUnits
  simp

@[simp] theorem State.setMasks_keeps (s : State) (f : FoldId) (plots : BitVec 80) (units : BitVec 192) :
    (State.setMasks s f plots units).pending = s.pending ∧ (State.setMasks s f plots units).events.log = s.events.log ∧ (State.setMasks s f plots units).events.sealedLog = s.events.sealedLog := by
  unfold State.setMasks
  simp

@[simp] theorem State.abortBg_keeps (s : State) (f : FoldId) :
    (State.abortBg s f).pending = s.pending ∧ (State.abortBg s f).events.log = s.events.log ∧ (State.abortBg s f).events.sealedLog = s.events.sealedLog := by
  unfold State.abortBg
  split <;> simp

@[simp] theorem State.emptyFold_keeps (s : State) (f : FoldId) :
    (State.emptyFold s f).pending = s.pending ∧ (State.emptyFold s f).events.log = s.events.log ∧ (State.emptyFold s f).events.sealedLog = s.events.sealedLog := by
  unfold State.emptyFold
  simp

@[simp] theorem State.zeroSession_keeps (s : State) (v : FnId) :
    (State.zeroSession s v).pending = s.pending ∧ (State.zeroSession s v).events.log = s.events.log ∧ (State.zeroSession s v).events.sealedLog = s.events.sealedLog := by
  unfold State.zeroSession
  simp

/-! ## Journal -/

@[simp] theorem State.choosePage_keeps (s : State) :
    (State.choosePage s).pending = s.pending ∧ (State.choosePage s).events.log = s.events.log ∧ (State.choosePage s).events.sealedLog = s.events.sealedLog := by
  unfold State.choosePage
  (repeat' split) <;> simp

@[simp] theorem State.bindLabel_keeps (s : State) :
    (State.bindLabel s).pending = s.pending ∧ (State.bindLabel s).events.log = s.events.log ∧ (State.bindLabel s).events.sealedLog = s.events.sealedLog := by
  unfold State.bindLabel
  split <;> simp

@[simp] theorem State.sendPage_keeps (s : State) :
    (State.sendPage s).pending = s.pending ∧ (State.sendPage s).events.log = s.events.log ∧ (State.sendPage s).events.sealedLog = s.events.sealedLog := by
  unfold State.sendPage
  split <;> simp

@[simp] theorem State.advanceJournal_keeps (s : State) :
    (State.advanceJournal s).pending = s.pending ∧ (State.advanceJournal s).events.log = s.events.log ∧ (State.advanceJournal s).events.sealedLog = s.events.sealedLog := by
  unfold State.advanceJournal
  simp

@[simp] theorem State.resumeJournal_keeps (s : State) :
    (State.resumeJournal s).pending = s.pending ∧ (State.resumeJournal s).events.log = s.events.log ∧ (State.resumeJournal s).events.sealedLog = s.events.sealedLog := by
  unfold State.resumeJournal
  split <;> (try split) <;> simp

@[simp] theorem State.resumeStaged_keeps (s : State) :
    (State.resumeStaged s).pending = s.pending ∧ (State.resumeStaged s).events.log = s.events.log ∧ (State.resumeStaged s).events.sealedLog = s.events.sealedLog := by
  unfold State.resumeStaged
  split <;> (try split) <;> simp

@[simp] theorem State.wearCheck_keeps (s : State) :
    (State.wearCheck s).pending = s.pending ∧ (State.wearCheck s).events.log = s.events.log ∧ (State.wearCheck s).events.sealedLog = s.events.sealedLog := by
  unfold State.wearCheck
  simp

/-! ## Ledger -/

@[simp] theorem State.fileConnect_keeps (s : State) (f : FoldId) :
    (State.fileConnect s f).pending = s.pending ∧ (State.fileConnect s f).events.log = s.events.log ∧ (State.fileConnect s f).events.sealedLog = s.events.sealedLog := by
  unfold State.fileConnect
  simp

@[simp] theorem State.fileSend_keeps (s : State) (f : FoldId) (c : FileCmd) :
    (State.fileSend s f c).pending = s.pending ∧ (State.fileSend s f c).events.log = s.events.log ∧ (State.fileSend s f c).events.sealedLog = s.events.sealedLog := by
  unfold State.fileSend
  (repeat' split) <;> simp

@[simp] theorem State.fileIssue_keeps (s : State) (f : FoldId) (c : FileCmd) :
    (State.fileIssue s f c).pending = s.pending ∧ (State.fileIssue s f c).events.log = s.events.log ∧ (State.fileIssue s f c).events.sealedLog = s.events.sealedLog := by
  unfold State.fileIssue
  simp

@[simp] theorem State.fileTake_keeps (s : State) (f : FoldId) (n : Nat) :
    (State.fileTake s f n).pending = s.pending ∧ (State.fileTake s f n).events.log = s.events.log ∧ (State.fileTake s f n).events.sealedLog = s.events.sealedLog := by
  unfold State.fileTake
  simp

@[simp] theorem State.filePump_keeps (s : State) (f : FoldId) :
    (State.filePump s f).pending = s.pending ∧ (State.filePump s f).events.log = s.events.log ∧ (State.filePump s f).events.sealedLog = s.events.sealedLog := by
  unfold State.filePump
  simp

@[simp] theorem State.fileQueue_keeps (s : State) (f : FoldId) (cs : List FileCmd) :
    (State.fileQueue s f cs).pending = s.pending ∧ (State.fileQueue s f cs).events.log = s.events.log ∧ (State.fileQueue s f cs).events.sealedLog = s.events.sealedLog := by
  unfold State.fileQueue
  simp

@[simp] theorem State.fileDone_keeps (s : State) (f : FoldId) (ckpt : Bool) :
    (State.fileDone s f ckpt).pending = s.pending ∧ (State.fileDone s f ckpt).events.log = s.events.log ∧ (State.fileDone s f ckpt).events.sealedLog = s.events.sealedLog := by
  unfold State.fileDone
  dsimp only
  (repeat' split) <;> simp

@[simp] theorem State.fileDropCkpt_keeps (s : State) (f : FoldId) :
    (State.fileDropCkpt s f).pending = s.pending ∧ (State.fileDropCkpt s f).events.log = s.events.log ∧ (State.fileDropCkpt s f).events.sealedLog = s.events.sealedLog := by
  unfold State.fileDropCkpt
  simp

@[simp] theorem State.fileEnd_keeps (s : State) (f : FoldId) :
    (State.fileEnd s f).pending = s.pending ∧ (State.fileEnd s f).events.log = s.events.log ∧ (State.fileEnd s f).events.sealedLog = s.events.sealedLog := by
  unfold State.fileEnd
  dsimp only
  (repeat' split) <;> simp

@[simp] theorem State.exportFile_keeps (s : State) (f : FoldId) (p : Page) (tagAnnex : Bool) :
    (State.exportFile s f p tagAnnex).pending = s.pending ∧ (State.exportFile s f p tagAnnex).events.log = s.events.log ∧ (State.exportFile s f p tagAnnex).events.sealedLog = s.events.sealedLog := by
  unfold State.exportFile
  simp

@[simp] theorem State.sealPage_keeps (s : State) (f : FoldId) (p : OpenPage) (count : Nat) :
    (State.sealPage s f p count).pending = s.pending ∧ (State.sealPage s f p count).events.log = s.events.log ∧ (State.sealPage s f p count).events.sealedLog = s.events.sealedLog := by
  unfold State.sealPage
  dsimp only
  (repeat' split) <;> simp

@[simp] theorem State.openPage_keeps (s : State) (f : FoldId) (n : Nat) :
    (State.openPage s f n).pending = s.pending ∧ (State.openPage s f n).events.log = s.events.log ∧ (State.openPage s f n).events.sealedLog = s.events.sealedLog := by
  unfold State.openPage
  simp

@[simp] theorem State.sealClosing_keeps (s : State) (f : FoldId) (count : Nat) :
    (State.sealClosing s f count).pending = s.pending ∧ (State.sealClosing s f count).events.log = s.events.log ∧ (State.sealClosing s f count).events.sealedLog = s.events.sealedLog := by
  unfold State.sealClosing
  split <;> simp

@[simp] theorem State.closePage_keeps (s : State) (f : FoldId) (n : Nat) (final : Bool) :
    (State.closePage s f n final).pending = s.pending ∧ (State.closePage s f n final).events.log = s.events.log ∧ (State.closePage s f n final).events.sealedLog = s.events.sealedLog := by
  unfold State.closePage
  (repeat' split) <;> simp

@[simp] theorem State.ackPage_keeps (s : State) (f : FoldId) (dest sq : Nat) :
    (State.ackPage s f dest sq).pending = s.pending ∧ (State.ackPage s f dest sq).events.log = s.events.log ∧ (State.ackPage s f dest sq).events.sealedLog = s.events.sealedLog := by
  unfold State.ackPage
  simp

@[simp] theorem State.hostAdvance_keeps (s : State) (f : FoldId) :
    (State.hostAdvance s f).pending = s.pending ∧ (State.hostAdvance s f).events.log = s.events.log ∧ (State.hostAdvance s f).events.sealedLog = s.events.sealedLog := by
  unfold State.hostAdvance
  simp

/-! ## Records -/

@[simp] theorem State.sealBefore_keeps (s : State) (f : FoldId) (frame : Nat) :
    (State.sealBefore s f frame).pending = s.pending ∧ (State.sealBefore s f frame).events.log = s.events.log ∧ (State.sealBefore s f frame).events.sealedLog = s.events.sealedLog := by
  unfold State.sealBefore
  split <;> simp

@[simp] theorem State.enterCohort_keeps (s : State) (f : FoldId) (c : Cohort) (discarded : Bool) :
    (State.enterCohort s f c discarded).pending = s.pending ∧ (State.enterCohort s f c discarded).events.log = s.events.log ∧ (State.enterCohort s f c discarded).events.sealedLog = s.events.sealedLog := by
  unfold State.enterCohort
  simp

@[simp] theorem State.returnCredits_keeps (s : State) (f : FoldId) (n : Nat) :
    (State.returnCredits s f n).pending = s.pending ∧ (State.returnCredits s f n).events.log = s.events.log ∧ (State.returnCredits s f n).events.sealedLog = s.events.sealedLog := by
  unfold State.returnCredits
  simp

@[simp] theorem State.recountCredits_keeps (s : State) (f : FoldId) :
    (State.recountCredits s f).pending = s.pending ∧ (State.recountCredits s f).events.log = s.events.log ∧ (State.recountCredits s f).events.sealedLog = s.events.sealedLog := by
  unfold State.recountCredits
  simp

@[simp] theorem State.postRecord_keeps (s : State) (f : FoldId) (cid status event frame len : Nat) :
    (State.postRecord s f cid status event frame len).pending = s.pending ∧ (State.postRecord s f cid status event frame len).events.log = s.events.log ∧ (State.postRecord s f cid status event frame len).events.sealedLog = s.events.sealedLog := by
  unfold State.postRecord
  simp

@[simp] theorem dropResult_keeps (s : State) (f : FoldId) (status : Nat) (r : Result) :
    (dropResult s f status r).pending = s.pending ∧ (dropResult s f status r).events.log = s.events.log ∧ (dropResult s f status r).events.sealedLog = s.events.sealedLog := by
  unfold dropResult
  split <;> simp

@[simp] theorem State.dropResults_keeps (s : State) (f : FoldId) (status : Nat) (p : Result → Bool) :
    (State.dropResults s f status p).pending = s.pending ∧ (State.dropResults s f status p).events.log = s.events.log ∧ (State.dropResults s f status p).events.sealedLog = s.events.sealedLog := by
  unfold State.dropResults
  simp

@[simp] theorem State.dropHeld_keeps (s : State) (f : FoldId) (status : Nat) :
    (State.dropHeld s f status).pending = s.pending ∧ (State.dropHeld s f status).events.log = s.events.log ∧ (State.dropHeld s f status).events.sealedLog = s.events.sealedLog := by
  unfold State.dropHeld
  simp

@[simp] theorem State.dropCohort_keeps (s : State) (f : FoldId) (status : Nat) (c : Cohort) :
    (State.dropCohort s f status c).pending = s.pending ∧ (State.dropCohort s f status c).events.log = s.events.log ∧ (State.dropCohort s f status c).events.sealedLog = s.events.sealedLog := by
  unfold State.dropCohort
  refine ⟨foldl_pending _ _ _ ?_, foldl_log _ _ _ ?_, foldl_sealedLog _ _ _ ?_⟩ <;> intro s a <;> (try dsimp only) <;> (repeat' split) <;> simp

@[simp] theorem State.dropReads_keeps (s : State) (f : FoldId) (status : Nat) :
    (State.dropReads s f status).pending = s.pending ∧ (State.dropReads s f status).events.log = s.events.log ∧ (State.dropReads s f status).events.sealedLog = s.events.sealedLog := by
  unfold State.dropReads
  simp

@[simp] theorem State.placeResult_keeps (s : State) (f : FoldId) (c : Cohort) (i : Nat) (r : Rec) :
    (State.placeResult s f c i r).pending = s.pending ∧ (State.placeResult s f c i r).events.log = s.events.log ∧ (State.placeResult s f c i r).events.sealedLog = s.events.sealedLog := by
  unfold State.placeResult
  split <;> simp

@[simp] theorem State.placeRest_keeps (s : State) (f : FoldId) (c : Cohort) :
    (State.placeRest s f c).pending = s.pending ∧ (State.placeRest s f c).events.log = s.events.log ∧ (State.placeRest s f c).events.sealedLog = s.events.sealedLog := by
  unfold State.placeRest
  simp

@[simp] theorem State.writeField_keeps (s : State) (f : FoldId) (b : Bytes) :
    (State.writeField s f b).pending = s.pending ∧ (State.writeField s f b).events.log = s.events.log ∧ (State.writeField s f b).events.sealedLog = s.events.sealedLog := by
  unfold State.writeField
  simp

@[simp] theorem State.fieldResults_keeps (s : State) (f : FoldId) (c : Cohort) :
    (State.fieldResults s f c).pending = s.pending ∧ (State.fieldResults s f c).events.log = s.events.log ∧ (State.fieldResults s f c).events.sealedLog = s.events.sealedLog := by
  exact foldl_keeps _ _ _ fun s e => by (repeat' split) <;> simp

/-! ## Epoch -/

@[simp] theorem State.queueWord_keeps (s : State) (w : SvcWord) (copies : Nat) (skip : Option LinkId) :
    (State.queueWord s w copies skip).pending = s.pending ∧ (State.queueWord s w copies skip).events.log = s.events.log ∧ (State.queueWord s w copies skip).events.sealedLog = s.events.sealedLog := by
  unfold State.queueWord
  simp

@[simp] theorem State.flood_keeps (s : State) (typ : Nat) (body : Bytes) :
    (State.flood s typ body).pending = s.pending ∧ (State.flood s typ body).events.log = s.events.log ∧ (State.flood s typ body).events.sealedLog = s.events.sealedLog := by
  unfold State.flood
  simp

@[simp] theorem State.startHello_keeps (s : State) (k : LinkId) :
    (State.startHello s k).pending = s.pending ∧ (State.startHello s k).events.log = s.events.log ∧ (State.startHello s k).events.sealedLog = s.events.sealedLog := by
  unfold State.startHello
  simp

@[simp] theorem State.relay_keeps (s : State) (h : RelayHdr) (typ : Nat) (body : Bytes) :
    (State.relay s h typ body).pending = s.pending ∧ (State.relay s h typ body).events.log = s.events.log ∧ (State.relay s h typ body).events.sealedLog = s.events.sealedLog := by
  unfold State.relay
  simp

@[simp] theorem State.tryPropose_keeps (s : State) :
    (State.tryPropose s).pending = s.pending ∧ (State.tryPropose s).events.log = s.events.log ∧ (State.tryPropose s).events.sealedLog = s.events.sealedLog := by
  unfold State.tryPropose
  split <;> simp

@[simp] theorem State.reselect_keeps (s : State) :
    (State.reselect s).pending = s.pending ∧ (State.reselect s).events.log = s.events.log ∧ (State.reselect s).events.sealedLog = s.events.sealedLog := by
  unfold State.reselect
  (repeat' split) <;> simp

@[simp] theorem State.requestEpoch_keeps (s : State) (unitNo : Nat) :
    (State.requestEpoch s unitNo).pending = s.pending ∧ (State.requestEpoch s unitNo).events.log = s.events.log ∧ (State.requestEpoch s unitNo).events.sealedLog = s.events.sealedLog := by
  unfold State.requestEpoch
  simp

/-! ## FoldLife -/

@[simp] theorem State.appendAll_keeps (s : State) (f : FoldId) (frame : Nat) (es : List Bytes) :
    (State.appendAll s f frame es).pending = s.pending ∧ (State.appendAll s f frame es).events.log = s.events.log ∧ (State.appendAll s f frame es).events.sealedLog = s.events.sealedLog := by
  unfold State.appendAll
  simp

@[simp] theorem State.splitPage_keeps (s : State) (f : FoldId) (n : Nat) :
    (State.splitPage s f n).pending = s.pending ∧ (State.splitPage s f n).events.log = s.events.log ∧ (State.splitPage s f n).events.sealedLog = s.events.sealedLog := by
  unfold State.splitPage
  dsimp only
  (repeat' split) <;> simp

@[simp] theorem State.endAttempt_keeps (s : State) (f : FoldId) (last : Nat) :
    (State.endAttempt s f last).pending = s.pending ∧ (State.endAttempt s f last).events.log = s.events.log ∧ (State.endAttempt s f last).events.sealedLog = s.events.sealedLog := by
  unfold State.endAttempt
  simp

@[simp] theorem State.cutAttempt_keeps (s : State) (f : FoldId) (last : Nat) :
    (State.cutAttempt s f last).pending = s.pending ∧ (State.cutAttempt s f last).events.log = s.events.log ∧ (State.cutAttempt s f last).events.sealedLog = s.events.sealedLog := by
  unfold State.cutAttempt
  (repeat' split) <;> simp

@[simp] theorem State.tdiError_keeps (s : State) (f : FoldId) :
    (State.tdiError s f).pending = s.pending ∧ (State.tdiError s f).events.log = s.events.log ∧ (State.tdiError s f).events.sealedLog = s.events.sealedLog := by
  unfold State.tdiError
  (repeat' split) <;> simp

@[simp] theorem State.toStopped_keeps (s : State) (f : FoldId) :
    (State.toStopped s f).pending = s.pending ∧ (State.toStopped s f).events.log = s.events.log ∧ (State.toStopped s f).events.sealedLog = s.events.sealedLog := by
  unfold State.toStopped
  simp

@[simp] theorem State.tryStopped_keeps (s : State) (f : FoldId) :
    (State.tryStopped s f).pending = s.pending ∧ (State.tryStopped s f).events.log = s.events.log ∧ (State.tryStopped s f).events.sealedLog = s.events.sealedLog := by
  unfold State.tryStopped
  simp

@[simp] theorem State.finalPage_keeps (s : State) (f : FoldId) (n : Nat) :
    (State.finalPage s f n).pending = s.pending ∧ (State.finalPage s f n).events.log = s.events.log ∧ (State.finalPage s f n).events.sealedLog = s.events.sealedLog := by
  unfold State.finalPage
  simp

@[simp] theorem State.endCohorts_keeps (s : State) (f : FoldId) (held : List Nat) (cs : List Cohort) :
    (State.endCohorts s f held cs).pending = s.pending ∧ (State.endCohorts s f held cs).events.log = s.events.log ∧ (State.endCohorts s f held cs).events.sealedLog = s.events.sealedLog := by
  unfold State.endCohorts
  (repeat' split) <;> simp

@[simp] theorem State.endRun_keeps (s : State) (f : FoldId) :
    (State.endRun s f).pending = s.pending ∧ (State.endRun s f).events.log = s.events.log ∧ (State.endRun s f).events.sealedLog = s.events.sealedLog := by
  unfold State.endRun
  simp

@[simp] theorem State.forceStopNow_keeps (s : State) (f : FoldId) :
    (State.forceStopNow s f).pending = s.pending ∧ (State.forceStopNow s f).events.log = s.events.log ∧ (State.forceStopNow s f).events.sealedLog = s.events.sealedLog := by
  unfold State.forceStopNow
  dsimp only
  (repeat' split) <;> simp

@[simp] theorem State.stopNow_keeps (s : State) (f : FoldId) :
    (State.stopNow s f).pending = s.pending ∧ (State.stopNow s f).events.log = s.events.log ∧ (State.stopNow s f).events.sealedLog = s.events.sealedLog := by
  unfold State.stopNow
  dsimp only
  split
  · simp
  · simp only [State.toStopped_keeps, State.endRun_keeps, State.endCohorts_keeps]
    exact ⟨((foldl_keeps _ _ _ fun s c => by split <;> simp).1).trans ((State.modFold_keeps _ _ _).1),
    ((foldl_keeps _ _ _ fun s c => by split <;> simp).2.1).trans ((State.modFold_keeps _ _ _).2.1),
    ((foldl_keeps _ _ _ fun s c => by split <;> simp).2.2).trans ((State.modFold_keeps _ _ _).2.2)⟩

@[simp] theorem State.noMapping_keeps (s : State) (f : FoldId) :
    (State.noMapping s f).pending = s.pending ∧ (State.noMapping s f).events.log = s.events.log ∧ (State.noMapping s f).events.sealedLog = s.events.sealedLog := by
  unfold State.noMapping
  simp

@[simp] theorem State.faultFold_keeps (s : State) (f : FoldId) (cause frame : Nat) :
    (State.faultFold s f cause frame).pending = s.pending ∧ (State.faultFold s f cause frame).events.log = s.events.log ∧ (State.faultFold s f cause frame).events.sealedLog = s.events.sealedLog := by
  unfold State.faultFold
  simp

@[simp] theorem State.startDraining_keeps (s : State) (f : FoldId) :
    (State.startDraining s f).pending = s.pending ∧ (State.startDraining s f).events.log = s.events.log ∧ (State.startDraining s f).events.sealedLog = s.events.sealedLog := by
  unfold State.startDraining
  simp

@[simp] theorem State.stopCommit_keeps (s : State) (f : FoldId) (pf : Bool) :
    (State.stopCommit s f pf).1.pending = s.pending ∧ (State.stopCommit s f pf).1.events.log = s.events.log ∧ (State.stopCommit s f pf).1.events.sealedLog = s.events.sealedLog := by
  unfold State.stopCommit
  split <;> simp

@[simp] theorem State.forceStopCommit_keeps (s : State) (f : FoldId) (pf : Bool) :
    (State.forceStopCommit s f pf).1.pending = s.pending ∧ (State.forceStopCommit s f pf).1.events.log = s.events.log ∧ (State.forceStopCommit s f pf).1.events.sealedLog = s.events.sealedLog := by
  unfold State.forceStopCommit
  split <;> simp

@[simp] theorem State.unloadCommit_keeps (s : State) (f : FoldId) :
    (State.unloadCommit s f).1.pending = s.pending ∧ (State.unloadCommit s f).1.events.log = s.events.log ∧ (State.unloadCommit s f).1.events.sealedLog = s.events.sealedLog := by
  unfold State.unloadCommit
  split <;> simp

@[simp] theorem State.resetFold_keeps (s : State) (f : FoldId) :
    (State.resetFold s f).pending = s.pending ∧ (State.resetFold s f).events.log = s.events.log ∧ (State.resetFold s f).events.sealedLog = s.events.sealedLog := by
  unfold State.resetFold
  simp

@[simp] theorem State.resetCommit_keeps (s : State) (f : FoldId) :
    (State.resetCommit s f).1.pending = s.pending ∧ (State.resetCommit s f).1.events.log = s.events.log ∧ (State.resetCommit s f).1.events.sealedLog = s.events.sealedLog := by
  unfold State.resetCommit
  (repeat' split) <;> simp

@[simp] theorem State.launchCommit_keeps (s : State) (f : FoldId) (replay : Bool) (v : Bytes) :
    (State.launchCommit s f replay v).1.pending = s.pending ∧ (State.launchCommit s f replay v).1.events.log = s.events.log ∧ (State.launchCommit s f replay v).1.events.sealedLog = s.events.sealedLog := by
  unfold State.launchCommit
  dsimp only
  (repeat' split) <;> simp

@[simp] theorem State.disarm_keeps (s : State) (f : FoldId) :
    (State.disarm s f).pending = s.pending ∧ (State.disarm s f).events.log = s.events.log ∧ (State.disarm s f).events.sealedLog = s.events.sealedLog := by
  unfold State.disarm
  simp

@[simp] theorem State.dropQuad_keeps (s : State) (q : QuadId) :
    (State.dropQuad s q).pending = s.pending ∧ (State.dropQuad s q).events.log = s.events.log ∧ (State.dropQuad s q).events.sealedLog = s.events.sealedLog := by
  unfold State.dropQuad
  simp

@[simp] theorem State.quarantine_keeps (s : State) (q : QuadId) (cause count : Nat) :
    (State.quarantine s q cause count).pending = s.pending ∧ (State.quarantine s q cause count).events.log = s.events.log ∧ (State.quarantine s q cause count).events.sealedLog = s.events.sealedLog := by
  unfold State.quarantine
  simp

@[simp] theorem State.countFault_keeps (s : State) (q : QuadId) (code stamp : Nat) :
    (State.countFault s q code stamp).pending = s.pending ∧ (State.countFault s q code stamp).events.log = s.events.log ∧ (State.countFault s q code stamp).events.sealedLog = s.events.sealedLog := by
  unfold State.countFault
  simp

@[simp] theorem State.causeFrame_keeps (s : State) (f : FoldId) (code : Nat) :
    (State.causeFrame s f code).pending = s.pending ∧ (State.causeFrame s f code).events.log = s.events.log ∧ (State.causeFrame s f code).events.sealedLog = s.events.sealedLog := by
  unfold State.causeFrame
  simp

/-! ## Resets -/

@[simp] theorem State.foldHalted_keeps (s : State) (f : FoldId) :
    (State.foldHalted s f).pending = s.pending ∧ (State.foldHalted s f).events.log = s.events.log ∧ (State.foldHalted s f).events.sealedLog = s.events.sealedLog := by
  unfold State.foldHalted
  simp

@[simp] theorem State.foldsHalted_keeps (s : State) :
    (State.foldsHalted s).pending = s.pending ∧ (State.foldsHalted s).events.log = s.events.log ∧ (State.foldsHalted s).events.sealedLog = s.events.sealedLog := by
  unfold State.foldsHalted
  simp

@[simp] theorem State.zeroTripKeys_keeps (s : State) :
    (State.zeroTripKeys s).pending = s.pending ∧ (State.zeroTripKeys s).events.log = s.events.log ∧ (State.zeroTripKeys s).events.sealedLog = s.events.sealedLog := by
  unfold State.zeroTripKeys
  simp

@[simp] theorem State.tripCard_keeps (s : State) :
    (State.tripCard s).pending = s.pending ∧ (State.tripCard s).events.log = s.events.log ∧ (State.tripCard s).events.sealedLog = s.events.sealedLog := by
  unfold State.tripCard
  simp

@[simp] theorem State.applyRestore_keeps (s : State) :
    (State.applyRestore s).pending = s.pending ∧ (State.applyRestore s).events.log = s.events.log ∧ (State.applyRestore s).events.sealedLog = s.events.sealedLog := by
  unfold State.applyRestore
  simp

@[simp] theorem State.warmReset_keeps (s : State) :
    (State.warmReset s).pending = s.pending ∧ (State.warmReset s).events.log = s.events.log ∧ (State.warmReset s).events.sealedLog = s.events.sealedLog := by
  unfold State.warmReset
  simp

@[simp] theorem State.perstReset_keeps (s : State) :
    (State.perstReset s).pending = s.pending ∧ (State.perstReset s).events.log = s.events.log ∧ (State.perstReset s).events.sealedLog = s.events.sealedLog := by
  unfold State.perstReset
  simp

@[simp] theorem State.quadReset_keeps (s : State) (q : QuadId) :
    (State.quadReset s q).pending = s.pending ∧ (State.quadReset s q).events.log = s.events.log ∧ (State.quadReset s q).events.sealedLog = s.events.sealedLog := by
  unfold State.quadReset
  simp

@[simp] theorem State.shepReset_pending (s : State) : (State.shepReset s).pending = s.pending := rfl

@[simp] theorem State.coldReset_pending (s : State) : (State.coldReset s).pending = s.pending := by
  unfold State.coldReset
  simp

@[simp] theorem State.shepOff_pending (s : State) : (State.shepOff s).pending = s.pending := rfl

/-! ## Dict -/

@[simp] theorem State.setSeq_keeps (s : State) (role n : Nat) :
    (State.setSeq s role n).pending = s.pending ∧ (State.setSeq s role n).events.log = s.events.log ∧ (State.setSeq s role n).events.sealedLog = s.events.sealedLog := by
  unfold State.setSeq
  simp

@[simp] theorem State.authReject_keeps (s : State) (a : Access) (idx sub role seq : Nat) :
    (State.authReject s a idx sub role seq).pending = s.pending ∧ (State.authReject s a idx sub role seq).events.log = s.events.log ∧ (State.authReject s a idx sub role seq).events.sealedLog = s.events.sealedLog := by
  unfold State.authReject
  simp

@[simp] theorem State.lateChecks_keeps (s : State) (a : Access) (idx sub : Nat) (e : Ent) (v : Bytes) :
    (State.lateChecks s a idx sub e v).st.pending = s.pending ∧ (State.lateChecks s a idx sub e v).st.events.log = s.events.log ∧ (State.lateChecks s a idx sub e v).st.events.sealedLog = s.events.sealedLog := by
  unfold State.lateChecks
  (repeat' split) <;> simp

@[simp] theorem State.noticeUnsigned_keeps (s : State) (a : Access) (v : Bytes) :
    (State.noticeUnsigned s a v).pending = s.pending ∧ (State.noticeUnsigned s a v).events.log = s.events.log ∧ (State.noticeUnsigned s a v).events.sealedLog = s.events.sealedLog := by
  unfold State.noticeUnsigned
  (repeat' split) <;> simp

@[simp] theorem State.signedChecks_keeps (s : State) (a : Access) (idx sub : Nat) (e : Ent) (d : WData) :
    (State.signedChecks s a idx sub e d).st.pending = s.pending ∧ (State.signedChecks s a idx sub e d).st.events.log = s.events.log ∧ (State.signedChecks s a idx sub e d).st.events.sealedLog = s.events.sealedLog := by
  unfold State.signedChecks
  (repeat' split) <;> simp

@[simp] theorem State.admitWrite_keeps (s : State) (a : Access) (idx sub : Nat) (d : WData) (cmd : Bool) :
    (State.admitWrite s a idx sub d cmd).st.pending = s.pending ∧ (State.admitWrite s a idx sub d cmd).st.events.log = s.events.log ∧ (State.admitWrite s a idx sub d cmd).st.events.sealedLog = s.events.sealedLog := by
  unfold State.admitWrite
  (repeat' split) <;> simp

@[simp] theorem State.answer_keeps (s : State) (a : Access) (idx sub abort event : Nat) (value : Bytes) :
    (State.answer s a idx sub abort event value).pending = s.pending ∧ (State.answer s a idx sub abort event value).events.log = s.events.log ∧ (State.answer s a idx sub abort event value).events.sealedLog = s.events.sealedLog := by
  unfold State.answer
  simp

theorem State.commitOrHold_keeps (s : State) (service idx sub : Nat) (v : Bytes) (commit : State → Bytes → State × Nat × Nat)
    (hc : ∀ s v, (commit s v).1.pending = s.pending ∧ (commit s v).1.events.log = s.events.log ∧ (commit s v).1.events.sealedLog = s.events.sealedLog) : (State.commitOrHold s service idx sub v commit).1.pending = s.pending ∧ (State.commitOrHold s service idx sub v commit).1.events.log = s.events.log ∧ (State.commitOrHold s service idx sub v commit).1.events.sealedLog = s.events.sealedLog := by
  unfold State.commitOrHold
  dsimp only
  split
  · exact ⟨rfl, rfl, rfl⟩
  · exact hc s v
theorem State.dictWrite_keeps (s : State) (idx sub : Nat) (r : WReq) (commit : State → Bytes → State × Nat × Nat)
    (hc : ∀ s v, (commit s v).1.pending = s.pending ∧ (commit s v).1.events.log = s.events.log ∧ (commit s v).1.events.sealedLog = s.events.sealedLog) : (State.dictWrite s idx sub r commit).pending = s.pending ∧ (State.dictWrite s idx sub r commit).events.log = s.events.log ∧ (State.dictWrite s idx sub r commit).events.sealedLog = s.events.sealedLog := by
  unfold State.dictWrite
  dsimp only
  (repeat' split) <;> simp [State.commitOrHold_keeps _ _ _ _ _ _ hc]

theorem State.dictWrite_pending (s : State) (idx sub : Nat) (r : WReq) (commit : State → Bytes → State × Nat × Nat)
    (hc : ∀ s v, (commit s v).1.pending = s.pending) : (State.dictWrite s idx sub r commit).pending = s.pending := by
  unfold State.dictWrite State.commitOrHold
  dsimp only
  (repeat' split) <;> simp [hc]

/-! ## Notice -/

@[simp] theorem State.noticeReject_keeps (s : State) (f : FoldId) (path seq : Nat) :
    (State.noticeReject s f path seq).pending = s.pending ∧ (State.noticeReject s f path seq).events.log = s.events.log ∧ (State.noticeReject s f path seq).events.sealedLog = s.events.sealedLog := by
  unfold State.noticeReject
  simp

@[simp] theorem State.takeNotice_keeps (s : State) (f : FoldId) (n : NoticePayload) :
    (State.takeNotice s f n).pending = s.pending ∧ (State.takeNotice s f n).events.log = s.events.log ∧ (State.takeNotice s f n).events.sealedLog = s.events.sealedLog := by
  unfold State.takeNotice
  dsimp only
  (repeat' split) <;> simp

@[simp] theorem State.noticeCommit_keeps (s : State) (path : Nat) (b : Bytes) (addressed : Option FoldId) :
    (State.noticeCommit s path b addressed).1.pending = s.pending ∧ (State.noticeCommit s path b addressed).1.events.log = s.events.log ∧ (State.noticeCommit s path b addressed).1.events.sealedLog = s.events.sealedLog := by
  unfold State.noticeCommit
  dsimp only
  (repeat' split) <;> simp

/-! ## Telemetry -/

@[simp] theorem State.takeSnapshot_keeps (s : State) :
    (State.takeSnapshot s).pending = s.pending ∧ (State.takeSnapshot s).events.log = s.events.log ∧ (State.takeSnapshot s).events.sealedLog = s.events.sealedLog := by
  unfold State.takeSnapshot
  simp

@[simp] theorem State.takeReadings_keeps (s : State) (m : Readings) :
    (State.takeReadings s m).pending = s.pending ∧ (State.takeReadings s m).events.log = s.events.log ∧ (State.takeReadings s m).events.sealedLog = s.events.sealedLog := by
  unfold State.takeReadings
  simp

/-! ## DictCommands -/

@[simp] theorem okC_keeps (s : State) :
    (okC s).1.pending = s.pending ∧ (okC s).1.events.log = s.events.log ∧ (okC s).1.events.sealedLog = s.events.sealedLog := by
  unfold okC
  simp

@[simp] theorem noC_keeps (s : State) (abort : Nat) :
    (noC s abort).1.pending = s.pending ∧ (noC s abort).1.events.log = s.events.log ∧ (noC s abort).1.events.sealedLog = s.events.sealedLog := by
  unfold noC
  simp

@[simp] theorem State.setVal_keeps (s : State) (idx sub : Nat) (v : Bytes) :
    (State.setVal s idx sub v).pending = s.pending ∧ (State.setVal s idx sub v).events.log = s.events.log ∧ (State.setVal s idx sub v).events.sealedLog = s.events.sealedLog := by
  unfold State.setVal
  simp

@[simp] theorem State.commitPeriod_keeps (s : State) (v : Bytes) :
    (State.commitPeriod s v).1.pending = s.pending ∧ (State.commitPeriod s v).1.events.log = s.events.log ∧ (State.commitPeriod s v).1.events.sealedLog = s.events.sealedLog := by
  unfold State.commitPeriod
  simp

@[simp] theorem State.commitOp_keeps (s : State) (v : Bytes) :
    (State.commitOp s v).1.pending = s.pending ∧ (State.commitOp s v).1.events.log = s.events.log ∧ (State.commitOp s v).1.events.sealedLog = s.events.sealedLog := by
  unfold State.commitOp
  (repeat' split) <;> simp

@[simp] theorem State.commitCap_keeps (s : State) (v : Bytes) :
    (State.commitCap s v).1.pending = s.pending ∧ (State.commitCap s v).1.events.log = s.events.log ∧ (State.commitCap s v).1.events.sealedLog = s.events.sealedLog := by
  unfold State.commitCap
  split <;> simp

@[simp] theorem State.commitLayout_keeps (s : State) (v : Bytes) :
    (State.commitLayout s v).1.pending = s.pending ∧ (State.commitLayout s v).1.events.log = s.events.log ∧ (State.commitLayout s v).1.events.sealedLog = s.events.sealedLog := by
  unfold State.commitLayout
  simp

@[simp] theorem State.commitStore_keeps (s : State) :
    (State.commitStore s).1.pending = s.pending ∧ (State.commitStore s).1.events.log = s.events.log ∧ (State.commitStore s).1.events.sealedLog = s.events.sealedLog := by
  unfold State.commitStore
  simp

@[simp] theorem State.commitRestore_keeps (s : State) :
    (State.commitRestore s).1.pending = s.pending ∧ (State.commitRestore s).1.events.log = s.events.log ∧ (State.commitRestore s).1.events.sealedLog = s.events.sealedLog := by
  unfold State.commitRestore
  simp

@[simp] theorem State.commitWarm_keeps (s : State) :
    (State.commitWarm s).1.pending = s.pending ∧ (State.commitWarm s).1.events.log = s.events.log ∧ (State.commitWarm s).1.events.sealedLog = s.events.sealedLog := by
  unfold State.commitWarm
  split <;> simp

@[simp] theorem State.commitShep_pending (s : State) : (State.commitShep s).1.pending = s.pending := by
  unfold State.commitShep
  (repeat' split) <;> simp

@[simp] theorem State.commitQuad_keeps (s : State) (q : QuadId) :
    (State.commitQuad s q).1.pending = s.pending ∧ (State.commitQuad s q).1.events.log = s.events.log ∧ (State.commitQuad s q).1.events.sealedLog = s.events.sealedLog := by
  unfold State.commitQuad
  split <;> simp

@[simp] theorem State.commitReset_pending (s : State) (n : Nat) : (State.commitReset s n).1.pending = s.pending := by
  unfold State.commitReset
  (repeat' split) <;> simp

@[simp] theorem State.releaseOwner_keeps (s : State) :
    (State.releaseOwner s).pending = s.pending ∧ (State.releaseOwner s).events.log = s.events.log ∧ (State.releaseOwner s).events.sealedLog = s.events.sealedLog := by
  unfold State.releaseOwner
  simp

@[simp] theorem State.commitOwner_keeps (s : State) (v : Bytes) :
    (State.commitOwner s v).1.pending = s.pending ∧ (State.commitOwner s v).1.events.log = s.events.log ∧ (State.commitOwner s v).1.events.sealedLog = s.events.sealedLog := by
  unfold State.commitOwner
  (repeat' split) <;> simp

@[simp] theorem State.commitChan_keeps (s : State) (c sub : Nat) (v : Bytes) :
    (State.commitChan s c sub v).1.pending = s.pending ∧ (State.commitChan s c sub v).1.events.log = s.events.log ∧ (State.commitChan s c sub v).1.events.sealedLog = s.events.sealedLog := by
  unfold State.commitChan
  dsimp only
  (repeat' split) <;> simp

@[simp] theorem State.commitRing_keeps (s : State) (f : FoldId) (v : Bytes) :
    (State.commitRing s f v).1.pending = s.pending ∧ (State.commitRing s f v).1.events.log = s.events.log ∧ (State.commitRing s f v).1.events.sealedLog = s.events.sealedLog := by
  unfold State.commitRing
  dsimp only
  (repeat' split) <;> simp

@[simp] theorem State.commitExport_keeps (s : State) (f : FoldId) (v : Bytes) :
    (State.commitExport s f v).1.pending = s.pending ∧ (State.commitExport s f v).1.events.log = s.events.log ∧ (State.commitExport s f v).1.events.sealedLog = s.events.sealedLog := by
  unfold State.commitExport
  simp

@[simp] theorem State.commitMask_keeps (s : State) (f : FoldId) (sub : Nat) (v : Bytes) :
    (State.commitMask s f sub v).1.pending = s.pending ∧ (State.commitMask s f sub v).1.events.log = s.events.log ∧ (State.commitMask s f sub v).1.events.sealedLog = s.events.sealedLog := by
  unfold State.commitMask
  (repeat' split) <;> simp

@[simp] theorem State.commitKek_keeps (s : State) (f : FoldId) (k : Option KekSeal) :
    (State.commitKek s f k).1.pending = s.pending ∧ (State.commitKek s f k).1.events.log = s.events.log ∧ (State.commitKek s f k).1.events.sealedLog = s.events.sealedLog := by
  unfold State.commitKek
  (repeat' split) <;> simp

@[simp] theorem State.commitInput_keeps (s : State) (f : FoldId) (i sub : Nat) (v : Bytes) :
    (State.commitInput s f i sub v).1.pending = s.pending ∧ (State.commitInput s f i sub v).1.events.log = s.events.log ∧ (State.commitInput s f i sub v).1.events.sealedLog = s.events.sealedLog := by
  unfold State.commitInput
  dsimp only
  (repeat' split) <;> simp

@[simp] theorem State.commitResult_keeps (s : State) (f : FoldId) (sub : Nat) (v : Bytes) :
    (State.commitResult s f sub v).1.pending = s.pending ∧ (State.commitResult s f sub v).1.events.log = s.events.log ∧ (State.commitResult s f sub v).1.events.sealedLog = s.events.sealedLog := by
  unfold State.commitResult
  dsimp only
  (repeat' split) <;> simp

@[simp] theorem State.commitIndex_keeps (s : State) (v : Bytes) :
    (State.commitIndex s v).pending = s.pending ∧ (State.commitIndex s v).events.log = s.events.log ∧ (State.commitIndex s v).events.sealedLog = s.events.sealedLog := by
  unfold State.commitIndex
  dsimp only
  (repeat' split) <;> simp

@[simp] theorem State.commitFoldArea_keeps (s : State) (a : Access) (f : FoldId) (o sub : Nat) (v : Bytes) :
    (State.commitFoldArea s a f o sub v).1.pending = s.pending ∧ (State.commitFoldArea s a f o sub v).1.events.log = s.events.log ∧ (State.commitFoldArea s a f o sub v).1.events.sealedLog = s.events.sealedLog := by
  unfold State.commitFoldArea
  (repeat' split) <;> simp

theorem ite_commit_pending (c : Prop) [Decidable c] (a b : Commit) :
    (if c then a else b).1.pending = if c then a.1.pending else b.1.pending := by split <;> rfl

@[simp] theorem State.commitEntry_pending (s : State) (a : Access) (idx sub : Nat) (v : Bytes) : (State.commitEntry s a idx sub v).1.pending = s.pending := by
  unfold State.commitEntry
  simp only [ite_commit_pending]
  simp

@[simp] theorem State.resetWrite_pending (s : State) (r : WReq) (want : Nat) : (State.resetWrite s r want).pending = s.pending := by
  unfold State.resetWrite
  apply State.dictWrite_pending
  intro s v
  split <;> simp

/-! ## Field -/

@[simp] theorem State.canBoot_keeps (s : State) :
    (State.canBoot s).pending = s.pending ∧ (State.canBoot s).events.log = s.events.log ∧ (State.canBoot s).events.sealedLog = s.events.sealedLog := by
  unfold State.canBoot
  simp

/-! ## Load -/

@[simp] theorem State.loadIdle_keeps (s : State) (f : FoldId) (m : Nat) :
    (State.loadIdle s f m).pending = s.pending ∧ (State.loadIdle s f m).events.log = s.events.log ∧ (State.loadIdle s f m).events.sealedLog = s.events.sealedLog := by
  unfold State.loadIdle
  split
  · exact ⟨rfl, rfl, rfl⟩
  · refine ⟨foldl_pending _ _ _ ?_, foldl_log _ _ _ ?_, foldl_sealedLog _ _ _ ?_⟩ <;> intro s a <;> (repeat' split) <;> simp

@[simp] theorem State.switchBanks_keeps (s : State) (f : FoldId) :
    (State.switchBanks s f).pending = s.pending ∧ (State.switchBanks s f).events.log = s.events.log ∧ (State.switchBanks s f).events.sealedLog = s.events.sealedLog := by
  unfold State.switchBanks
  simp

@[simp] theorem State.installMapping_keeps (s : State) (f : FoldId) (m : Nat) :
    (State.installMapping s f m).pending = s.pending ∧ (State.installMapping s f m).events.log = s.events.log ∧ (State.installMapping s f m).events.sealedLog = s.events.sealedLog := by
  unfold State.installMapping
  simp

@[simp] theorem State.installBundle_keeps (s : State) (f : FoldId) (l : Loaded) (image : Bytes) :
    (State.installBundle s f l image).pending = s.pending ∧ (State.installBundle s f l image).events.log = s.events.log ∧ (State.installBundle s f l image).events.sealedLog = s.events.sealedLog := by
  unfold State.installBundle
  dsimp only
  (repeat' split) <;> simp

@[simp] theorem State.stageStripes_keeps (s : State) (f : FoldId) (image : Bytes) :
    (State.stageStripes s f image).pending = s.pending ∧ (State.stageStripes s f image).events.log = s.events.log ∧ (State.stageStripes s f image).events.sealedLog = s.events.sealedLog := by
  unfold State.stageStripes
  simp

@[simp] theorem State.installShard_keeps (s : State) (f : FoldId) (d : Shard) (h : ShardHead) :
    (State.installShard s f d h).pending = s.pending ∧ (State.installShard s f d h).events.log = s.events.log ∧ (State.installShard s f d h).events.sealedLog = s.events.sealedLog := by
  unfold State.installShard
  simp

/-! ## Izr -/

@[simp] theorem State.discardIzr_keeps (s : State) (p : PortId) (cause chan : Nat) :
    (State.discardIzr s p cause chan).pending = s.pending ∧ (State.discardIzr s p cause chan).events.log = s.events.log ∧ (State.discardIzr s p cause chan).events.sealedLog = s.events.sealedLog := by
  unfold State.discardIzr
  dsimp only
  (repeat' split) <;> simp

@[simp] theorem State.izrAccept_keeps (s : State) (rx : IzrRx) (f : FoldId) :
    (State.izrAccept s rx f).pending = s.pending ∧ (State.izrAccept s rx f).events.log = s.events.log ∧ (State.izrAccept s rx f).events.sealedLog = s.events.sealedLog := by
  unfold State.izrAccept
  simp

@[simp] theorem State.rxFrame_keeps (s : State) (rx : IzrRx) :
    (State.rxFrame s rx).pending = s.pending ∧ (State.rxFrame s rx).events.log = s.events.log ∧ (State.rxFrame s rx).events.sealedLog = s.events.sealedLog := by
  unfold State.rxFrame
  simp

@[simp] theorem State.sendIzr_keeps (s : State) (c : Nat) (typ : Nat) (e : Bool) (key salt : Bytes) (count : Nat) (payload : Bytes) (frag : Bool) :
    (State.sendIzr s c typ e key salt count payload frag).pending = s.pending ∧ (State.sendIzr s c typ e key salt count payload frag).events.log = s.events.log ∧ (State.sendIzr s c typ e key salt count payload frag).events.sealedLog = s.events.sealedLog := by
  unfold State.sendIzr
  simp

/-! ## Peers -/

@[simp] theorem State.departFor_keeps (s : State) (f : FoldId) (c cond : Nat) :
    (State.departFor s f c cond).pending = s.pending ∧ (State.departFor s f c cond).events.log = s.events.log ∧ (State.departFor s f c cond).events.sealedLog = s.events.sealedLog := by
  unfold State.departFor
  simp

@[simp] theorem State.depart_keeps (s : State) (c cond ref : Nat) (detected : Bool) :
    (State.depart s c cond ref detected).pending = s.pending ∧ (State.depart s c cond ref detected).events.log = s.events.log ∧ (State.depart s c cond ref detected).events.sealedLog = s.events.sealedLog := by
  unfold State.depart
  simp

@[simp] theorem State.markReplay_keeps (s : State) (f : FoldId) (code : Nat) :
    (State.markReplay s f code).pending = s.pending ∧ (State.markReplay s f code).events.log = s.events.log ∧ (State.markReplay s f code).events.sealedLog = s.events.sealedLog := by
  unfold State.markReplay
  simp

@[simp] theorem State.stepFault_keeps (s : State) (f : FoldId) (code : Nat) :
    (State.stepFault s f code).pending = s.pending ∧ (State.stepFault s f code).events.log = s.events.log ∧ (State.stepFault s f code).events.sealedLog = s.events.sealedLog := by
  unfold State.stepFault
  simp

@[simp] theorem State.frameFault_keeps (s : State) (f : FoldId) (code : Nat) :
    (State.frameFault s f code).pending = s.pending ∧ (State.frameFault s f code).events.log = s.events.log ∧ (State.frameFault s f code).events.sealedLog = s.events.sealedLog := by
  unfold State.frameFault
  simp

/-! ## Frames -/

@[simp] theorem State.startContexts_keeps (s : State) (f : FoldId) :
    (State.startContexts s f).pending = s.pending ∧ (State.startContexts s f).events.log = s.events.log ∧ (State.startContexts s f).events.sealedLog = s.events.sealedLog := by
  unfold State.startContexts
  dsimp only
  (repeat' split) <;> simp

@[simp] theorem State.takeScoringCut_keeps (s : State) (f : FoldId) (tick : Nat) :
    (State.takeScoringCut s f tick).pending = s.pending ∧ (State.takeScoringCut s f tick).events.log = s.events.log ∧ (State.takeScoringCut s f tick).events.sealedLog = s.events.sealedLog := by
  unfold State.takeScoringCut
  dsimp only
  (repeat' split) <;> simp

@[simp] theorem State.endIdle_keeps (s : State) (f : FoldId) (tick : Nat) :
    (State.endIdle s f tick).pending = s.pending ∧ (State.endIdle s f tick).events.log = s.events.log ∧ (State.endIdle s f tick).events.sealedLog = s.events.sealedLog := by
  unfold State.endIdle
  simp

@[simp] theorem State.takeMapping_keeps (s : State) (f : FoldId) (tick : Nat) :
    (State.takeMapping s f tick).pending = s.pending ∧ (State.takeMapping s f tick).events.log = s.events.log ∧ (State.takeMapping s f tick).events.sealedLog = s.events.sealedLog := by
  unfold State.takeMapping
  split <;> simp

@[simp] theorem State.takePage_keeps (s : State) (f : FoldId) (n : Nat) :
    (State.takePage s f n).pending = s.pending ∧ (State.takePage s f n).events.log = s.events.log ∧ (State.takePage s f n).events.sealedLog = s.events.sealedLog := by
  unfold State.takePage
  simp

@[simp] theorem State.endPage_keeps (s : State) (f : FoldId) (n : Nat) (final : Bool) :
    (State.endPage s f n final).pending = s.pending ∧ (State.endPage s f n final).events.log = s.events.log ∧ (State.endPage s f n final).events.sealedLog = s.events.sealedLog := by
  unfold State.endPage
  dsimp only
  (repeat' split) <;> simp

@[simp] theorem State.turnPage_keeps (s : State) (f : FoldId) (n : Nat) :
    (State.turnPage s f n).pending = s.pending ∧ (State.turnPage s f n).events.log = s.events.log ∧ (State.turnPage s f n).events.sealedLog = s.events.sealedLog := by
  unfold State.turnPage
  simp

@[simp] theorem State.endGrowing_keeps (s : State) (f : FoldId) (n : Nat) :
    (State.endGrowing s f n).pending = s.pending ∧ (State.endGrowing s f n).events.log = s.events.log ∧ (State.endGrowing s f n).events.sealedLog = s.events.sealedLog := by
  unfold State.endGrowing
  simp

@[simp] theorem State.turnPeers_keeps (s : State) (f : FoldId) (tick : Nat) :
    (State.turnPeers s f tick).pending = s.pending ∧ (State.turnPeers s f tick).events.log = s.events.log ∧ (State.turnPeers s f tick).events.sealedLog = s.events.sealedLog := by
  unfold State.turnPeers
  dsimp only
  (repeat' split) <;> simp

@[simp] theorem State.queuePeers_keeps (s : State) (f : FoldId) (n : Nat) :
    (State.queuePeers s f n).pending = s.pending ∧ (State.queuePeers s f n).events.log = s.events.log ∧ (State.queuePeers s f n).events.sealedLog = s.events.sealedLog := by
  unfold State.queuePeers
  simp

@[simp] theorem State.beginFrame_keeps (s : State) (f : FoldId) (n : Nat) :
    (State.beginFrame s f n).pending = s.pending ∧ (State.beginFrame s f n).events.log = s.events.log ∧ (State.beginFrame s f n).events.sealedLog = s.events.sealedLog := by
  unfold State.beginFrame
  simp

@[simp] theorem State.carryReads_keeps (s : State) (f : FoldId) (n : Nat) :
    (State.carryReads s f n).pending = s.pending ∧ (State.carryReads s f n).events.log = s.events.log ∧ (State.carryReads s f n).events.sealedLog = s.events.sealedLog := by
  unfold State.carryReads
  simp

@[simp] theorem State.openFrame_keeps (s : State) (f : FoldId) (n : Nat) :
    (State.openFrame s f n).pending = s.pending ∧ (State.openFrame s f n).events.log = s.events.log ∧ (State.openFrame s f n).events.sealedLog = s.events.sealedLog := by
  unfold State.openFrame
  simp

@[simp] theorem State.settle_keeps (s : State) (f : FoldId) :
    (State.settle s f).pending = s.pending ∧ (State.settle s f).events.log = s.events.log ∧ (State.settle s f).events.sealedLog = s.events.sealedLog := by
  unfold State.settle
  dsimp only
  (repeat' split) <;> simp

@[simp] theorem State.runFold_keeps (s : State) (f : FoldId) :
    (State.runFold s f).pending = s.pending ∧ (State.runFold s f).events.log = s.events.log ∧ (State.runFold s f).events.sealedLog = s.events.sealedLog := by
  unfold State.runFold
  simp

@[simp] theorem State.diverge_keeps (s : State) (f : FoldId) (q : QuadId) (predicted reported : Nat) :
    (State.diverge s f q predicted reported).pending = s.pending ∧ (State.diverge s f q predicted reported).events.log = s.events.log ∧ (State.diverge s f q predicted reported).events.sealedLog = s.events.sealedLog := by
  unfold State.diverge
  simp

@[simp] theorem State.compareQuad_keeps (s : State) (f : FoldId) (q : QuadId) :
    (State.compareQuad s f q).pending = s.pending ∧ (State.compareQuad s f q).events.log = s.events.log ∧ (State.compareQuad s f q).events.sealedLog = s.events.sealedLog := by
  unfold State.compareQuad
  simp

@[simp] theorem State.sickQuads_keeps (s : State) (f : FoldId) :
    (State.sickQuads s f).pending = s.pending ∧ (State.sickQuads s f).events.log = s.events.log ∧ (State.sickQuads s f).events.sealedLog = s.events.sealedLog := by
  unfold State.sickQuads
  dsimp only
  (repeat' split) <;> simp

/-! ## TileExec -/

@[simp] theorem State.rebuildMargins_keeps (s : State) (f : FoldId) (l : Loaded) (x : Tile) (o : TileOp) :
    (State.rebuildMargins s f l x o).pending = s.pending ∧ (State.rebuildMargins s f l x o).events.log = s.events.log ∧ (State.rebuildMargins s f l x o).events.sealedLog = s.events.sealedLog := by
  unfold State.rebuildMargins
  dsimp only
  (repeat' split) <;> simp

@[simp] theorem State.sendTo_keeps (s : State) (f : FoldId) (x : Tile) (o : TileOp) (e : Nat) :
    (State.sendTo s f x o e).pending = s.pending ∧ (State.sendTo s f x o e).events.log = s.events.log ∧ (State.sendTo s f x o e).events.sealedLog = s.events.sealedLog := by
  unfold State.sendTo
  (repeat' split) <;> simp

@[simp] theorem State.tileFault_keeps (s : State) (f : FoldId) (tile code : Nat) (info : Bytes) :
    (State.tileFault s f tile code info).pending = s.pending ∧ (State.tileFault s f tile code info).events.log = s.events.log ∧ (State.tileFault s f tile code info).events.sealedLog = s.events.sealedLog := by
  unfold State.tileFault
  simp

@[simp] theorem State.askRestore_keeps (s : State) (f : FoldId) (tile w : Nat) :
    (State.askRestore s f tile w).pending = s.pending ∧ (State.askRestore s f tile w).events.log = s.events.log ∧ (State.askRestore s f tile w).events.sealedLog = s.events.sealedLog := by
  unfold State.askRestore
  dsimp only
  (repeat' split) <;> simp

@[simp] theorem State.reportParity_keeps (s : State) (f : FoldId) (tile : Nat) (x : Tile) (o : TileOp) (feed : Feed) :
    (State.reportParity s f tile x o feed).pending = s.pending ∧ (State.reportParity s f tile x o feed).events.log = s.events.log ∧ (State.reportParity s f tile x o feed).events.sealedLog = s.events.sealedLog := by
  unfold State.reportParity
  dsimp only
  (repeat' split) <;> simp

@[simp] theorem State.reportOp_keeps (s : State) (f : FoldId) (tile : Nat) (x : Tile) (l : Loaded) (o : TileOp) (feed : Feed) :
    (State.reportOp s f tile x l o feed).pending = s.pending ∧ (State.reportOp s f tile x l o feed).events.log = s.events.log ∧ (State.reportOp s f tile x l o feed).events.sealedLog = s.events.sealedLog := by
  unfold State.reportOp
  dsimp only
  (repeat' split) <;> simp

@[simp] theorem State.runOp_keeps (s : State) (f : FoldId) (tile cycle : Nat) (w : OpWord) (feed : Feed) :
    (State.runOp s f tile cycle w feed).pending = s.pending ∧ (State.runOp s f tile cycle w feed).events.log = s.events.log ∧ (State.runOp s f tile cycle w feed).events.sealedLog = s.events.sealedLog := by
  unfold State.runOp
  split <;> simp

/-! ## Codes -/

@[simp] theorem State.putPart_keeps (s : State) (f : FoldId) (l : Loaded) (c : Cohort) (batch tile part : Nat) (acts : Bool) (a : Nat) (ports : List PortUse) :
    (State.putPart s f l c batch tile part acts a ports).pending = s.pending ∧ (State.putPart s f l c batch tile part acts a ports).events.log = s.events.log ∧ (State.putPart s f l c batch tile part acts a ports).events.sealedLog = s.events.sealedLog := by
  unfold State.putPart
  dsimp only
  (repeat' split) <;> simp

@[simp] theorem State.readScores_keeps (s : State) (f : FoldId) (l : Loaded) (c : Cohort) (batch out : Nat) :
    (State.readScores s f l c batch out).pending = s.pending ∧ (State.readScores s f l c batch out).events.log = s.events.log ∧ (State.readScores s f l c batch out).events.sealedLog = s.events.sealedLog := by
  unfold State.readScores
  dsimp only
  split
  · exact ⟨rfl, rfl, rfl⟩
  · split
    · exact State.modFold_keeps _ _ _
    · exact ⟨((State.tileFault_keeps _ _ _ _ _).1).trans ((State.modFold_keeps _ _ _).1),
    ((State.tileFault_keeps _ _ _ _ _).2.1).trans ((State.modFold_keeps _ _ _).2.1),
    ((State.tileFault_keeps _ _ _ _ _).2.2).trans ((State.modFold_keeps _ _ _).2.2)⟩

@[simp] theorem State.takeDie_keeps (s : State) (f : FoldId) (port dir : Nat) :
    (State.takeDie s f port dir).pending = s.pending ∧ (State.takeDie s f port dir).events.log = s.events.log ∧ (State.takeDie s f port dir).events.sealedLog = s.events.sealedLog := by
  unfold State.takeDie
  simp

@[simp] theorem State.codesOut_keeps (s : State) (f : FoldId) (l : Loaded) (port pos batch tile part : Nat) (acts : Bool) :
    (State.codesOut s f l port pos batch tile part acts).pending = s.pending ∧ (State.codesOut s f l port pos batch tile part acts).events.log = s.events.log ∧ (State.codesOut s f l port pos batch tile part acts).events.sealedLog = s.events.sealedLog := by
  unfold State.codesOut
  dsimp only
  (repeat' split) <;> simp

@[simp] theorem State.scoresIn_keeps (s : State) (f : FoldId) (l : Loaded) (port pos batch out : Nat) :
    (State.scoresIn s f l port pos batch out).pending = s.pending ∧ (State.scoresIn s f l port pos batch out).events.log = s.events.log ∧ (State.scoresIn s f l port pos batch out).events.sealedLog = s.events.sealedLog := by
  unfold State.scoresIn
  (repeat' split) <;> simp

@[simp] theorem State.finishCodes_keeps (s : State) (f : FoldId) (n : Nat) :
    (State.finishCodes s f n).pending = s.pending ∧ (State.finishCodes s f n).events.log = s.events.log ∧ (State.finishCodes s f n).events.sealedLog = s.events.sealedLog := by
  unfold State.finishCodes
  dsimp only
  (repeat' split) <;> simp

/-! ## FrameClose -/

@[simp] theorem State.admitCohort_keeps (s : State) (f : FoldId) (c : Cohort) :
    (State.admitCohort s f c).pending = s.pending ∧ (State.admitCohort s f c).events.log = s.events.log ∧ (State.admitCohort s f c).events.sealedLog = s.events.sealedLog := by
  unfold State.admitCohort
  simp

@[simp] theorem State.admitAll_keeps (s : State) (f : FoldId) :
    (State.admitAll s f).pending = s.pending ∧ (State.admitAll s f).events.log = s.events.log ∧ (State.admitAll s f).events.sealedLog = s.events.sealedLog := by
  unfold State.admitAll
  simp

theorem sendClosedLoop_keeps (c : Nat) (n : Nat) (s : State) :
    (sendClosedLoop c n s).pending = s.pending ∧ (sendClosedLoop c n s).events.log = s.events.log ∧ (sendClosedLoop c n s).events.sealedLog = s.events.sealedLog := by
  induction n generalizing s with
  | zero => exact ⟨rfl, rfl, rfl⟩
  | succ n ih =>
    unfold sendClosedLoop
    (repeat' split) <;> first | (simp; done) | (simp only [ih]; (repeat' split) <;> simp)
@[simp] theorem State.sendClosed_keeps (s : State) (c : Nat) :
    (State.sendClosed s c).pending = s.pending ∧ (State.sendClosed s c).events.log = s.events.log ∧ (State.sendClosed s c).events.sealedLog = s.events.sealedLog := by
  exact sendClosedLoop_keeps _ _ _

@[simp] theorem State.flushMsg_keeps (s : State) (c : Nat) :
    (State.flushMsg s c).pending = s.pending ∧ (State.flushMsg s c).events.log = s.events.log ∧ (State.flushMsg s c).events.sealedLog = s.events.sealedLog := by
  unfold State.flushMsg
  dsimp only
  (repeat' split) <;> simp

@[simp] theorem State.pushEntry_keeps (s : State) (c : Nat) (slot : Bool) (key salt : Bytes) (frame : Nat) (b : Bytes) :
    (State.pushEntry s c slot key salt frame b).pending = s.pending ∧ (State.pushEntry s c slot key salt frame b).events.log = s.events.log ∧ (State.pushEntry s c slot key salt frame b).events.sealedLog = s.events.sealedLog := by
  unfold State.pushEntry
  split <;> simp

@[simp] theorem State.flushFold_keeps (s : State) (f : FoldId) :
    (State.flushFold s f).pending = s.pending ∧ (State.flushFold s f).events.log = s.events.log ∧ (State.flushFold s f).events.sealedLog = s.events.sealedLog := by
  unfold State.flushFold
  simp

@[simp] theorem State.postResult_keeps (s : State) (f : FoldId) (cid status event : Nat) (r : Result) (len : Nat) :
    (State.postResult s f cid status event r len).pending = s.pending ∧ (State.postResult s f cid status event r len).events.log = s.events.log ∧ (State.postResult s f cid status event r len).events.sealedLog = s.events.sealedLog := by
  unfold State.postResult
  simp

@[simp] theorem State.sendResult_keeps (s : State) (f : FoldId) (r : Result) :
    (State.sendResult s f r).pending = s.pending ∧ (State.sendResult s f r).events.log = s.events.log ∧ (State.sendResult s f r).events.sealedLog = s.events.sealedLog := by
  unfold State.sendResult
  (repeat' split) <;> simp

@[simp] theorem State.noteSent_keeps (s : State) (f : FoldId) :
    (State.noteSent s f).pending = s.pending ∧ (State.noteSent s f).events.log = s.events.log ∧ (State.noteSent s f).events.sealedLog = s.events.sealedLog := by
  unfold State.noteSent
  simp

@[simp] theorem State.closeHeader_keeps (s : State) (f : FoldId) (tick frame : Nat) (h : RepHdr) (withheld : Bool) :
    (State.closeHeader s f tick frame h withheld).pending = s.pending ∧ (State.closeHeader s f tick frame h withheld).events.log = s.events.log ∧ (State.closeHeader s f tick frame h withheld).events.sealedLog = s.events.sealedLog := by
  unfold State.closeHeader
  dsimp only
  (repeat' split) <;> simp

@[simp] theorem State.closeHeaders_keeps (s : State) (f : FoldId) (tick n : Nat) (c : Option Cohort) :
    (State.closeHeaders s f tick n c).pending = s.pending ∧ (State.closeHeaders s f tick n c).events.log = s.events.log ∧ (State.closeHeaders s f tick n c).events.sealedLog = s.events.sealedLog := by
  unfold State.closeHeaders
  dsimp only
  split
  · simp
  · refine ⟨foldl_pending _ _ _ ?_, foldl_log _ _ _ ?_, foldl_sealedLog _ _ _ ?_⟩ <;> intro s a <;> (try dsimp only) <;> (repeat' split) <;> simp

@[simp] theorem State.missInput_keeps (s : State) (f : FoldId) (n : Nat) (d : InDecl) :
    (State.missInput s f n d).pending = s.pending ∧ (State.missInput s f n d).events.log = s.events.log ∧ (State.missInput s f n d).events.sealedLog = s.events.sealedLog := by
  unfold State.missInput
  simp

@[simp] theorem State.closeArrivals_keeps (s : State) (f : FoldId) (n : Nat) :
    (State.closeArrivals s f n).pending = s.pending ∧ (State.closeArrivals s f n).events.log = s.events.log ∧ (State.closeArrivals s f n).events.sealedLog = s.events.sealedLog := by
  unfold State.closeArrivals
  simp

@[simp] theorem State.checkPeers_keeps (s : State) (f : FoldId) (n : Nat) :
    (State.checkPeers s f n).pending = s.pending ∧ (State.checkPeers s f n).events.log = s.events.log ∧ (State.checkPeers s f n).events.sealedLog = s.events.sealedLog := by
  unfold State.checkPeers
  simp

@[simp] theorem State.withholdFrame_keeps (s : State) (f : FoldId) (n : Nat) :
    (State.withholdFrame s f n).pending = s.pending ∧ (State.withholdFrame s f n).events.log = s.events.log ∧ (State.withholdFrame s f n).events.sealedLog = s.events.sealedLog := by
  unfold State.withholdFrame
  dsimp only
  (repeat' split) <;> simp

@[simp] theorem State.closeRoot_keeps (s : State) (f : FoldId) (n : Nat) :
    (State.closeRoot s f n).pending = s.pending ∧ (State.closeRoot s f n).events.log = s.events.log ∧ (State.closeRoot s f n).events.sealedLog = s.events.sealedLog := by
  unfold State.closeRoot
  dsimp only
  (repeat' split) <;> simp

@[simp] theorem State.finishWheels_keeps (s : State) (f : FoldId) (n : Nat) :
    (State.finishWheels s f n).pending = s.pending ∧ (State.finishWheels s f n).events.log = s.events.log ∧ (State.finishWheels s f n).events.sealedLog = s.events.sealedLog := by
  unfold State.finishWheels
  simp

@[simp] theorem State.nextRole_keeps (s : State) (f : FoldId) :
    (State.nextRole s f).pending = s.pending ∧ (State.nextRole s f).events.log = s.events.log ∧ (State.nextRole s f).events.sealedLog = s.events.sealedLog := by
  unfold State.nextRole
  simp

@[simp] theorem State.closeFrame_keeps (s : State) (f : FoldId) :
    (State.closeFrame s f).pending = s.pending ∧ (State.closeFrame s f).events.log = s.events.log ∧ (State.closeFrame s f).events.sealedLog = s.events.sealedLog := by
  unfold State.closeFrame
  simp

/-! ## Ports -/

@[simp] theorem State.refuseRecords_keeps (s : State) (f : FoldId) (n : Nat) :
    (State.refuseRecords s f n).pending = s.pending ∧ (State.refuseRecords s f n).events.log = s.events.log ∧ (State.refuseRecords s f n).events.sealedLog = s.events.sealedLog := by
  unfold State.refuseRecords
  simp

@[simp] theorem State.land_keeps (s : State) (f : FoldId) (a : Arrival) :
    (State.land s f a).pending = s.pending ∧ (State.land s f a).events.log = s.events.log ∧ (State.land s f a).events.sealedLog = s.events.sealedLog := by
  unfold State.land
  simp

@[simp] theorem State.deliverInput_keeps (s : State) (f : FoldId) (i unit : Nat) (pos : Nat × Nat) (recId body : Bytes) (route : Route) :
    (State.deliverInput s f i unit pos recId body route).pending = s.pending ∧ (State.deliverInput s f i unit pos recId body route).events.log = s.events.log ∧ (State.deliverInput s f i unit pos recId body route).events.sealedLog = s.events.sealedLog := by
  unfold State.deliverInput
  dsimp only
  (repeat' split) <;> simp

@[simp] theorem State.landAll_keeps (s : State) (f : FoldId) (rx : IzrRx) (route : Route) (bs : List Bytes) :
    (State.landAll s f rx route bs).pending = s.pending ∧ (State.landAll s f rx route bs).events.log = s.events.log ∧ (State.landAll s f rx route bs).events.sealedLog = s.events.sealedLog := by
  unfold State.landAll
  simp

@[simp] theorem State.deliverImage_keeps (s : State) (source pdo : Nat) (recId image : Bytes) :
    (State.deliverImage s source pdo recId image).pending = s.pending ∧ (State.deliverImage s source pdo recId image).events.log = s.events.log ∧ (State.deliverImage s source pdo recId image).events.sealedLog = s.events.sealedLog := by
  unfold State.deliverImage
  simp

/-! ## Heath -/

@[simp] theorem State.askKeyUpdates_keeps (s : State) :
    (State.askKeyUpdates s).pending = s.pending ∧ (State.askKeyUpdates s).events.log = s.events.log ∧ (State.askKeyUpdates s).events.sealedLog = s.events.sealedLog := by
  unfold State.askKeyUpdates
  simp

@[simp] theorem State.stepGtc_keeps (s : State) (v : Nat) :
    (State.stepGtc s v).pending = s.pending ∧ (State.stepGtc s v).events.log = s.events.log ∧ (State.stepGtc s v).events.sealedLog = s.events.sealedLog := by
  unfold State.stepGtc
  simp

@[simp] theorem State.discipline_keeps (s : State) (ps : Int) :
    (State.discipline s ps).pending = s.pending ∧ (State.discipline s ps).events.log = s.events.log ∧ (State.discipline s ps).events.sealedLog = s.events.sealedLog := by
  unfold State.discipline
  simp

@[simp] theorem State.alignLoss_keeps (s : State) (ps : Int) :
    (State.alignLoss s ps).pending = s.pending ∧ (State.alignLoss s ps).events.log = s.events.log ∧ (State.alignLoss s ps).events.sealedLog = s.events.sealedLog := by
  unfold State.alignLoss
  simp

@[simp] theorem State.checkUpstream_keeps (s : State) :
    (State.checkUpstream s).pending = s.pending ∧ (State.checkUpstream s).events.log = s.events.log ∧ (State.checkUpstream s).events.sealedLog = s.events.sealedLog := by
  unfold State.checkUpstream
  simp

@[simp] theorem State.onTime_keeps (s : State) (k : LinkId) (sender reference depth : Nat) :
    (State.onTime s k sender reference depth).pending = s.pending ∧ (State.onTime s k sender reference depth).events.log = s.events.log ∧ (State.onTime s k sender reference depth).events.sealedLog = s.events.sealedLog := by
  unfold State.onTime
  simp

@[simp] theorem State.growLinkDown_keeps (s : State) (k : LinkId) (spare : Bool) (f : FoldId) :
    (State.growLinkDown s k spare f).pending = s.pending ∧ (State.growLinkDown s k spare f).events.log = s.events.log ∧ (State.growLinkDown s k spare f).events.sealedLog = s.events.sealedLog := by
  unfold State.growLinkDown
  simp

@[simp] theorem State.dropLink_keeps (s : State) (k : LinkId) (cause : Nat) :
    (State.dropLink s k cause).pending = s.pending ∧ (State.dropLink s k cause).events.log = s.events.log ∧ (State.dropLink s k cause).events.sealedLog = s.events.sealedLog := by
  unfold State.dropLink
  dsimp only
  (repeat' split) <;> simp

@[simp] theorem State.growLoss_keeps (s : State) (k : LinkId) (pos : Nat) :
    (State.growLoss s k pos).pending = s.pending ∧ (State.growLoss s k pos).events.log = s.events.log ∧ (State.growLoss s k pos).events.sealedLog = s.events.sealedLog := by
  unfold State.growLoss
  split <;> simp

@[simp] theorem State.loseFrame_keeps (s : State) (k : LinkId) (cause slot : Nat) :
    (State.loseFrame s k cause slot).pending = s.pending ∧ (State.loseFrame s k cause slot).events.log = s.events.log ∧ (State.loseFrame s k cause slot).events.sealedLog = s.events.sealedLog := by
  unfold State.loseFrame
  simp

@[simp] theorem State.onHello_keeps (s : State) (k : LinkId) (h : Hello) :
    (State.onHello s k h).pending = s.pending ∧ (State.onHello s k h).events.log = s.events.log ∧ (State.onHello s k h).events.sealedLog = s.events.sealedLog := by
  unfold State.onHello
  simp

@[simp] theorem State.launchIncomplete_keeps (s : State) (f : FoldId) (missing : List Nat) :
    (State.launchIncomplete s f missing).pending = s.pending ∧ (State.launchIncomplete s f missing).events.log = s.events.log ∧ (State.launchIncomplete s f missing).events.sealedLog = s.events.sealedLog := by
  unfold State.launchIncomplete
  simp

@[simp] theorem State.onArm_keeps (s : State) (origin : Nat) (w : ArmWord) :
    (State.onArm s origin w).pending = s.pending ∧ (State.onArm s origin w).events.log = s.events.log ∧ (State.onArm s origin w).events.sealedLog = s.events.sealedLog := by
  unfold State.onArm
  dsimp only
  (repeat' split) <;> simp

@[simp] theorem State.onEpochReq_keeps (s : State) (h : RelayHdr) (c u k : Nat) :
    (State.onEpochReq s h c u k).pending = s.pending ∧ (State.onEpochReq s h c u k).events.log = s.events.log ∧ (State.onEpochReq s h c u k).events.sealedLog = s.events.sealedLog := by
  unfold State.onEpochReq
  simp

@[simp] theorem State.holdProposal_keeps (s : State) (b : MemberBody) :
    (State.holdProposal s b).pending = s.pending ∧ (State.holdProposal s b).events.log = s.events.log ∧ (State.holdProposal s b).events.sealedLog = s.events.sealedLog := by
  unfold State.holdProposal
  split <;> simp

@[simp] theorem State.setAck_keeps (s : State) (b : MemberBody) (c : Nat) :
    (State.setAck s b c).pending = s.pending ∧ (State.setAck s b c).events.log = s.events.log ∧ (State.setAck s b c).events.sealedLog = s.events.sealedLog := by
  unfold State.setAck
  split <;> simp

@[simp] theorem State.onPropose_keeps (s : State) (h : RelayHdr) (b : MemberBody) :
    (State.onPropose s h b).pending = s.pending ∧ (State.onPropose s h b).events.log = s.events.log ∧ (State.onPropose s h b).events.sealedLog = s.events.sealedLog := by
  unfold State.onPropose
  simp

@[simp] theorem State.onAck_keeps (s : State) (h : RelayHdr) (b : MemberBody) :
    (State.onAck s h b).pending = s.pending ∧ (State.onAck s h b).events.log = s.events.log ∧ (State.onAck s h b).events.sealedLog = s.events.sealedLog := by
  unfold State.onAck
  simp

@[simp] theorem State.abortEpoch_keeps (s : State) :
    (State.abortEpoch s).pending = s.pending ∧ (State.abortEpoch s).events.log = s.events.log ∧ (State.abortEpoch s).events.sealedLog = s.events.sealedLog := by
  unfold State.abortEpoch
  split <;> simp

@[simp] theorem State.onAbort_keeps (s : State) (h : RelayHdr) (b : MemberBody) :
    (State.onAbort s h b).pending = s.pending ∧ (State.onAbort s h b).events.log = s.events.log ∧ (State.onAbort s h b).events.sealedLog = s.events.sealedLog := by
  unfold State.onAbort
  dsimp only
  (repeat' split) <;> simp

@[simp] theorem State.applyLink_keeps (s : State) (j : LinkId) :
    (State.applyLink s j).pending = s.pending ∧ (State.applyLink s j).events.log = s.events.log ∧ (State.applyLink s j).events.sealedLog = s.events.sealedLog := by
  unfold State.applyLink
  simp

@[simp] theorem State.admitLinks_keeps (s : State) (old : BitVec 32) :
    (State.admitLinks s old).pending = s.pending ∧ (State.admitLinks s old).events.log = s.events.log ∧ (State.admitLinks s old).events.sealedLog = s.events.sealedLog := by
  unfold State.admitLinks
  dsimp only
  (repeat' split) <;> simp

@[simp] theorem State.applyQuad_keeps (s : State) (c : Nat) (q : QuadId) :
    (State.applyQuad s c q).pending = s.pending ∧ (State.applyQuad s c q).events.log = s.events.log ∧ (State.applyQuad s c q).events.sealedLog = s.events.sealedLog := by
  unfold State.applyQuad
  simp

@[simp] theorem State.applyStack_keeps (s : State) (k : Nat) :
    (State.applyStack s k).pending = s.pending ∧ (State.applyStack s k).events.log = s.events.log ∧ (State.applyStack s k).events.sealedLog = s.events.sealedLog := by
  unfold State.applyStack
  (repeat' split) <;> simp

@[simp] theorem unitsFold_keeps (g : State → Nat × Nat → State) (l : List (Nat × Nat)) (s : State)
    (hg : ∀ s u, (g s u).pending = s.pending ∧ (g s u).events.log = s.events.log ∧ (g s u).events.sealedLog = s.events.sealedLog) :
    (l.foldl g s).pending = s.pending ∧ (l.foldl g s).events.log = s.events.log ∧ (l.foldl g s).events.sealedLog = s.events.sealedLog :=
  ⟨foldl_pending _ _ _ fun s a => (hg s a).1, foldl_log _ _ _ fun s a => (hg s a).2.1, foldl_sealedLog _ _ _ fun s a => (hg s a).2.2⟩

@[simp] theorem State.applyUnits_keeps (s : State) (p : Proposal) :
    (State.applyUnits s p).pending = s.pending ∧ (State.applyUnits s p).events.log = s.events.log ∧ (State.applyUnits s p).events.sealedLog = s.events.sealedLog := by
  unfold State.applyUnits
  dsimp only
  exact ⟨((State.admitLinks_keeps _ _).1).trans (((foldl_keeps _ _ _ fun s u => by (repeat' split) <;> simp).1).trans (((foldl_keeps _ _ _ fun s u => by (repeat' split) <;> simp).1).trans ((foldl_keeps _ _ _ fun s u => by (repeat' split) <;> simp).1))),
    ((State.admitLinks_keeps _ _).2.1).trans (((foldl_keeps _ _ _ fun s u => by (repeat' split) <;> simp).2.1).trans (((foldl_keeps _ _ _ fun s u => by (repeat' split) <;> simp).2.1).trans ((foldl_keeps _ _ _ fun s u => by (repeat' split) <;> simp).2.1))),
    ((State.admitLinks_keeps _ _).2.2).trans (((foldl_keeps _ _ _ fun s u => by (repeat' split) <;> simp).2.2).trans (((foldl_keeps _ _ _ fun s u => by (repeat' split) <;> simp).2.2).trans ((foldl_keeps _ _ _ fun s u => by (repeat' split) <;> simp).2.2)))⟩

@[simp] theorem State.remap_keeps (s : State) (e : Nat) (f : FoldId) :
    (State.remap s e f).pending = s.pending ∧ (State.remap s e f).events.log = s.events.log ∧ (State.remap s e f).events.sealedLog = s.events.sealedLog := by
  unfold State.remap
  split <;> simp

@[simp] theorem State.onLeave_keeps (s : State) (h : RelayHdr) (c cause ref : Nat) :
    (State.onLeave s h c cause ref).pending = s.pending ∧ (State.onLeave s h c cause ref).events.log = s.events.log ∧ (State.onLeave s h c cause ref).events.sealedLog = s.events.sealedLog := by
  unfold State.onLeave
  simp

@[simp] theorem State.onReplay_keeps (s : State) (h : RelayHdr) (f : FoldId) (round step : Nat) :
    (State.onReplay s h f round step).pending = s.pending ∧ (State.onReplay s h f round step).events.log = s.events.log ∧ (State.onReplay s h f round step).events.sealedLog = s.events.sealedLog := by
  unfold State.onReplay
  simp

@[simp] theorem State.takeArm_keeps (s : State) (h : RelayHdr) (w : SvcWord) :
    (State.takeArm s h w).pending = s.pending ∧ (State.takeArm s h w).events.log = s.events.log ∧ (State.takeArm s h w).events.sealedLog = s.events.sealedLog := by
  unfold State.takeArm
  dsimp only
  (repeat' split) <;> simp

@[simp] theorem State.takeWord_keeps (s : State) (k : LinkId) (w : SvcWord) :
    (State.takeWord s k w).pending = s.pending ∧ (State.takeWord s k w).events.log = s.events.log ∧ (State.takeWord s k w).events.sealedLog = s.events.sealedLog := by
  unfold State.takeWord
  dsimp only
  (repeat' split) <;> simp

@[simp] theorem State.holdPeer_keeps (s : State) (sender : Nat) (p : PeerFrame) :
    (State.holdPeer s sender p).pending = s.pending ∧ (State.holdPeer s sender p).events.log = s.events.log ∧ (State.holdPeer s sender p).events.sealedLog = s.events.sealedLog := by
  unfold State.holdPeer
  simp

/-! ## Commands -/

theorem State.signedCommand_keeps (s : State) (q : QHdr) (o : Signed) (idx sub : Nat) (commit : State → Bytes → State × Nat × Nat)
    (result : State → Bytes → Nat)
    (hc : ∀ s v, (commit s v).1.pending = s.pending ∧ (commit s v).1.events.log = s.events.log ∧ (commit s v).1.events.sealedLog = s.events.sealedLog) :
    (State.signedCommand s q o idx sub commit result).pending = s.pending ∧
      (State.signedCommand s q o idx sub commit result).events.log = s.events.log ∧
      (State.signedCommand s q o idx sub commit result).events.sealedLog = s.events.sealedLog := by
  unfold State.signedCommand
  dsimp only
  split <;> simp [hc]

@[simp] theorem State.readSource_keeps (s : State) (v : FnId) (l : LoadSource) :
    (State.readSource s v l).pending = s.pending ∧ (State.readSource s v l).events.log = s.events.log ∧ (State.readSource s v l).events.sealedLog = s.events.sealedLog := by
  unfold State.readSource
  simp

@[simp] theorem State.startBg_keeps (s : State) (q : QHdr) (kind : Nat) (l : LoadSource) (target generation : Nat) (fields states : Bool) :
    (State.startBg s q kind l target generation fields states).pending = s.pending ∧ (State.startBg s q kind l target generation fields states).events.log = s.events.log ∧ (State.startBg s q kind l target generation fields states).events.sealedLog = s.events.sealedLog := by
  unfold State.startBg
  simp

@[simp] theorem State.endBg_keeps (s : State) (f : FoldId) (status event r0 r1 r2 : Nat) :
    (State.endBg s f status event r0 r1 r2).pending = s.pending ∧ (State.endBg s f status event r0 r1 r2).events.log = s.events.log ∧ (State.endBg s f status event r0 r1 r2).events.sealedLog = s.events.sealedLog := by
  unfold State.endBg
  split <;> simp

@[simp] theorem State.foldCommand_keeps (s : State) (f : FoldId) (pf : Bool) (v : Nat) :
    (State.foldCommand s f pf v).1.pending = s.pending ∧ (State.foldCommand s f pf v).1.events.log = s.events.log ∧ (State.foldCommand s f pf v).1.events.sealedLog = s.events.sealedLog := by
  unfold State.foldCommand
  (repeat' split) <;> simp

/-! ## Rings -/

theorem State.entry_keeps (s : State) (q : QHdr) (k : State → State)
    (hk : ∀ s, (k s).pending = s.pending ∧ (k s).events.log = s.events.log ∧ (k s).events.sealedLog = s.events.sealedLog) :
    (State.entry s q k).pending = s.pending ∧ (State.entry s q k).events.log = s.events.log ∧
      (State.entry s q k).events.sealedLog = s.events.sealedLog := by
  unfold State.entry
  dsimp only
  (repeat' split) <;> simp [hk]

@[simp] theorem State.issueRead_keeps (s : State) (f : FoldId) (q : QHdr) (addr len resAddr : Nat) :
    (State.issueRead s f q addr len resAddr).pending = s.pending ∧ (State.issueRead s f q addr len resAddr).events.log = s.events.log ∧ (State.issueRead s f q addr len resAddr).events.sealedLog = s.events.sealedLog := by
  unfold State.issueRead
  simp

@[simp] theorem State.readError_keeps (s : State) (f : FoldId) (r : Read) :
    (State.readError s f r).pending = s.pending ∧ (State.readError s f r).events.log = s.events.log ∧ (State.readError s f r).events.sealedLog = s.events.sealedLog := by
  unfold State.readError
  split <;> simp

@[simp] theorem State.landRecord_keeps (s : State) (f : FoldId) (r : Read) (b : Bytes) :
    (State.landRecord s f r b).pending = s.pending ∧ (State.landRecord s f r b).events.log = s.events.log ∧ (State.landRecord s f r b).events.sealedLog = s.events.sealedLog := by
  unfold State.landRecord
  simp

@[simp] theorem State.mbAnswer_keeps (s : State) (fn : FnId) (abort event : Nat) :
    (State.mbAnswer s fn abort event).pending = s.pending ∧ (State.mbAnswer s fn abort event).events.log = s.events.log ∧ (State.mbAnswer s fn abort event).events.sealedLog = s.events.sealedLog := by
  unfold State.mbAnswer
  simp

/-! ## Boot -/

@[simp] theorem State.shepStart_keeps (s : State) :
    (State.shepStart s).pending = s.pending ∧ (State.shepStart s).events.log = s.events.log ∧ (State.shepStart s).events.sealedLog = s.events.sealedLog := by
  unfold State.shepStart
  simp

@[simp] theorem State.supplyTrip_keeps (s : State) (r : Rail) (mv : Nat) :
    (State.supplyTrip s r mv).pending = s.pending ∧ (State.supplyTrip s r mv).events.log = s.events.log ∧ (State.supplyTrip s r mv).events.sealedLog = s.events.sealedLog := by
  unfold State.supplyTrip
  simp

@[simp] theorem State.applyDeferred_pending (s : State) : (State.applyDeferred s).pending = s.pending := by
  unfold State.applyDeferred
  simp

@[simp] theorem State.bootSet_keeps (s : State) (x : FwSet) (src : Nat) :
    (State.bootSet s x src).pending = s.pending ∧ (State.bootSet s x src).events.log = s.events.log ∧ (State.bootSet s x src).events.sealedLog = s.events.sealedLog := by
  unfold State.bootSet
  simp

@[simp] theorem State.trainLink_keeps (s : State) (r : LinkTraining) :
    (State.trainLink s r).pending = s.pending ∧ (State.trainLink s r).events.log = s.events.log ∧ (State.trainLink s r).events.sealedLog = s.events.sealedLog := by
  unfold State.trainLink
  dsimp only
  (repeat' split) <;> simp

@[simp] theorem State.hbmFail_keeps (s : State) (k : StackId) :
    (State.hbmFail s k).pending = s.pending ∧ (State.hbmFail s k).events.log = s.events.log ∧ (State.hbmFail s k).events.sealedLog = s.events.sealedLog := by
  unfold State.hbmFail
  simp

@[simp] theorem State.quadFail_keeps (s : State) (q : QuadId) :
    (State.quadFail s q).pending = s.pending ∧ (State.quadFail s q).events.log = s.events.log ∧ (State.quadFail s q).events.sealedLog = s.events.sealedLog := by
  unfold State.quadFail
  simp

@[simp] theorem State.armTrip_keeps (s : State) (x : Nat × Int) :
    (State.armTrip s x).pending = s.pending ∧ (State.armTrip s x).events.log = s.events.log ∧ (State.armTrip s x).events.sealedLog = s.events.sealedLog := by
  unfold State.armTrip
  simp

/-! ## Evidence -/

@[simp] theorem State.ackCommitted_keeps (s : State) (p : JPage) :
    (State.ackCommitted s p).pending = s.pending ∧ (State.ackCommitted s p).events.log = s.events.log ∧ (State.ackCommitted s p).events.sealedLog = s.events.sealedLog := by
  unfold State.ackCommitted
  (repeat' split) <;> simp

/-! ## Hbm -/

@[simp] theorem State.queueRebuild_keeps (s : State) (f : FoldId) (key : Nat) :
    (State.queueRebuild s f key).pending = s.pending ∧ (State.queueRebuild s f key).events.log = s.events.log ∧ (State.queueRebuild s f key).events.sealedLog = s.events.sealedLog := by
  unfold State.queueRebuild
  (repeat' split) <;> simp

@[simp] theorem State.modelLost_keeps (s : State) (f : FoldId) (stripes : List Nat) :
    (State.modelLost s f stripes).pending = s.pending ∧ (State.modelLost s f stripes).events.log = s.events.log ∧ (State.modelLost s f stripes).events.sealedLog = s.events.sealedLog := by
  unfold State.modelLost
  split <;> simp

@[simp] theorem State.loseMembers_keeps (s : State) (k : StackId) (f : FoldId) :
    (State.loseMembers s k f).pending = s.pending ∧ (State.loseMembers s k f).events.log = s.events.log ∧ (State.loseMembers s k f).events.sealedLog = s.events.sealedLog := by
  unfold State.loseMembers
  simp

@[simp] theorem State.levelStop_keeps (s : State) :
    (State.levelStop s).pending = s.pending ∧ (State.levelStop s).events.log = s.events.log ∧ (State.levelStop s).events.sealedLog = s.events.sealedLog := by
  unfold State.levelStop
  simp

@[simp] theorem State.loseStack_keeps (s : State) (k : StackId) (cause : Nat) :
    (State.loseStack s k cause).pending = s.pending ∧ (State.loseStack s k cause).events.log = s.events.log ∧ (State.loseStack s k cause).events.sealedLog = s.events.sealedLog := by
  unfold State.loseStack
  simp

@[simp] theorem State.badMember_keeps (s : State) (f : FoldId) (key : Nat) :
    (State.badMember s f key).pending = s.pending ∧ (State.badMember s f key).events.log = s.events.log ∧ (State.badMember s f key).events.sealedLog = s.events.sealedLog := by
  unfold State.badMember
  simp

@[simp] theorem State.poisonRead_keeps (s : State) (f : FoldId) (k : StackId) (a : Nat) (m : Option Nat) (scratch : Bool) :
    (State.poisonRead s f k a m scratch).pending = s.pending ∧ (State.poisonRead s f k a m scratch).events.log = s.events.log ∧ (State.poisonRead s f k a m scratch).events.sealedLog = s.events.sealedLog := by
  unfold State.poisonRead
  split <;> simp

@[simp] theorem State.writeLanding_keeps (s : State) (a : Nat) (b : Bytes) :
    (State.writeLanding s a b).pending = s.pending ∧ (State.writeLanding s a b).events.log = s.events.log ∧ (State.writeLanding s a b).events.sealedLog = s.events.sealedLog := by
  unfold State.writeLanding
  simp

@[simp] theorem State.readSlot_keeps (s : State) (f : FoldId) (l : Loaded) (k : StackId) (j tile i lo a : Nat) (y : Stream) :
    (State.readSlot s f l k j tile i lo a y).pending = s.pending ∧ (State.readSlot s f l k j tile i lo a y).events.log = s.events.log ∧ (State.readSlot s f l k j tile i lo a y).events.sealedLog = s.events.sealedLog := by
  unfold State.readSlot
  simp

@[simp] theorem State.writeHbm_keeps (s : State) (f : FoldId) (k : StackId) (tile a : Nat) (b : Bytes) (bad : List Nat) :
    (State.writeHbm s f k tile a b bad).pending = s.pending ∧ (State.writeHbm s f k tile a b bad).events.log = s.events.log ∧ (State.writeHbm s f k tile a b bad).events.sealedLog = s.events.sealedLog := by
  unfold State.writeHbm
  dsimp only
  (repeat' split) <;> simp

@[simp] theorem State.writeSlot_keeps (s : State) (f : FoldId) (l : Loaded) (k : StackId) (j tile i a : Nat) (y : Stream) :
    (State.writeSlot s f l k j tile i a y).pending = s.pending ∧ (State.writeSlot s f l k j tile i a y).events.log = s.events.log ∧ (State.writeSlot s f l k j tile i a y).events.sealedLog = s.events.sealedLog := by
  unfold State.writeSlot
  dsimp only
  (repeat' split) <;> simp

@[simp] theorem State.remoteSlot_keeps (s : State) (f : FoldId) (l : Loaded) (k : StackId) (j tile i a : Nat) (y : Stream) :
    (State.remoteSlot s f l k j tile i a y).pending = s.pending ∧ (State.remoteSlot s f l k j tile i a y).events.log = s.events.log ∧ (State.remoteSlot s f l k j tile i a y).events.sealedLog = s.events.sealedLog := by
  unfold State.remoteSlot
  split <;> simp

/-! ## Grazing -/

@[simp] theorem State.scrubSlot_keeps (s : State) (k : StackId) :
    (State.scrubSlot s k).pending = s.pending ∧ (State.scrubSlot s k).events.log = s.events.log ∧ (State.scrubSlot s k).events.sealedLog = s.events.sealedLog := by
  unfold State.scrubSlot
  dsimp only
  (repeat' split) <;> simp

@[simp] theorem State.rewriteMember_keeps (s : State) (f : FoldId) (key : Nat) :
    (State.rewriteMember s f key).pending = s.pending ∧ (State.rewriteMember s f key).events.log = s.events.log ∧ (State.rewriteMember s f key).events.sealedLog = s.events.sealedLog := by
  unfold State.rewriteMember
  simp

@[simp] theorem State.readRestore_keeps (s : State) (tile w : Nat) :
    (State.readRestore s tile w).pending = s.pending ∧ (State.readRestore s tile w).events.log = s.events.log ∧ (State.readRestore s tile w).events.sealedLog = s.events.sealedLog := by
  unfold State.readRestore
  dsimp only
  (repeat' split) <;> simp

@[simp] theorem State.testQuad_keeps (s : State) (q : QuadId) (ok : Bool) :
    (State.testQuad s q ok).pending = s.pending ∧ (State.testQuad s q ok).events.log = s.events.log ∧ (State.testQuad s q ok).events.sealedLog = s.events.sealedLog := by
  unfold State.testQuad
  simp

@[simp] theorem State.grazeHbm_keeps (s : State) (k : StackId) (testOk : Bool) :
    (State.grazeHbm s k testOk).pending = s.pending ∧ (State.grazeHbm s k testOk).events.log = s.events.log ∧ (State.grazeHbm s k testOk).events.sealedLog = s.events.sealedLog := by
  unfold State.grazeHbm
  dsimp only
  (repeat' split) <;> simp

@[simp] theorem State.grazeTile_keeps (s : State) (n : Nat) :
    (State.grazeTile s n).pending = s.pending ∧ (State.grazeTile s n).events.log = s.events.log ∧ (State.grazeTile s n).events.sealedLog = s.events.sealedLog := by
  unfold State.grazeTile
  dsimp only
  (repeat' split) <;> simp

@[simp] theorem State.grazeLanding_keeps (s : State) :
    (State.grazeLanding s).pending = s.pending ∧ (State.grazeLanding s).events.log = s.events.log ∧ (State.grazeLanding s).events.sealedLog = s.events.sealedLog := by
  unfold State.grazeLanding
  dsimp only
  (repeat' split) <;> simp

@[simp] theorem State.grazeEngine_keeps (s : State) (kind index : Nat) (pass : Bool) :
    (State.grazeEngine s kind index pass).pending = s.pending ∧ (State.grazeEngine s kind index pass).events.log = s.events.log ∧ (State.grazeEngine s kind index pass).events.sealedLog = s.events.sealedLog := by
  unfold State.grazeEngine
  simp

@[simp] theorem State.grazeLink_keeps (s : State) (k : LinkId) (lanes : Nat) :
    (State.grazeLink s k lanes).pending = s.pending ∧ (State.grazeLink s k lanes).events.log = s.events.log ∧ (State.grazeLink s k lanes).events.sealedLog = s.events.sealedLog := by
  unfold State.grazeLink
  simp

@[simp] theorem State.grazeShepherd_keeps (s : State) :
    (State.grazeShepherd s).pending = s.pending ∧ (State.grazeShepherd s).events.log = s.events.log ∧ (State.grazeShepherd s).events.sealedLog = s.events.sealedLog := by
  unfold State.grazeShepherd
  simp

@[simp] theorem State.rebuiltAll_keeps (s : State) (f : FoldId) (st : Nat) :
    (State.rebuiltAll s f st).pending = s.pending ∧ (State.rebuiltAll s f st).events.log = s.events.log ∧ (State.rebuiltAll s f st).events.sealedLog = s.events.sealedLog := by
  unfold State.rebuiltAll
  simp

@[simp] theorem State.ceRestart_keeps (s : State) (unit : Nat) :
    (State.ceRestart s unit).pending = s.pending ∧ (State.ceRestart s unit).events.log = s.events.log ∧ (State.ceRestart s unit).events.sealedLog = s.events.sealedLog := by
  unfold State.ceRestart
  (repeat' split) <;> simp

/-! ## Exchange -/

@[simp] theorem State.sendAll_keeps {α : Type} (s : State) (f : FoldId) (wrap : α → Exchanged) (l : List (Nat × α)) :
    (State.sendAll s f wrap l).pending = s.pending ∧ (State.sendAll s f wrap l).events.log = s.events.log ∧ (State.sendAll s f wrap l).events.sealedLog = s.events.sealedLog :=
  foldl_keeps _ _ _ fun s e => by simp

/-! ## Growing -/

@[simp] theorem State.putQuad_keeps (s : State) (f : FoldId) (row quad : Nat) (b : Bytes) :
    (State.putQuad s f row quad b).pending = s.pending ∧ (State.putQuad s f row quad b).events.log = s.events.log ∧ (State.putQuad s f row quad b).events.sealedLog = s.events.sealedLog := by
  exact foldl_keeps _ _ _ fun s e => by (repeat' split) <;> simp

@[simp] theorem State.takeRow_keeps (s : State) (f : FoldId) (l : Loaded) (pass row : Nat) (b : Bytes) :
    (State.takeRow s f l pass row b).pending = s.pending ∧ (State.takeRow s f l pass row b).events.log = s.events.log ∧ (State.takeRow s f l pass row b).events.sealedLog = s.events.sealedLog := by
  unfold State.takeRow
  simp

@[simp] theorem State.takeRows_keeps (s : State) (f : FoldId) (l : Loaded) (q : QHdr) (pass first : Nat) (data : List Bytes) (done : Nat) :
    (State.takeRows s f l q pass first data done).pending = s.pending ∧ (State.takeRows s f l q pass first data done).events.log = s.events.log ∧ (State.takeRows s f l q pass first data done).events.sealedLog = s.events.sealedLog := by
  unfold State.takeRows
  simp

@[simp] theorem State.clearLost_keeps (s : State) :
    (State.clearLost s).pending = s.pending ∧ (State.clearLost s).events.log = s.events.log ∧ (State.clearLost s).events.sealedLog = s.events.sealedLog := by
  unfold State.clearLost
  simp

@[simp] theorem State.clearExact_keeps (s : State) (f : FoldId) :
    (State.clearExact s f).pending = s.pending ∧ (State.clearExact s f).events.log = s.events.log ∧ (State.clearExact s f).events.sealedLog = s.events.sealedLog := by
  unfold State.clearExact
  simp

@[simp] theorem State.rerunGradient_keeps (s : State) (f : FoldId) (cause : Nat) :
    (State.rerunGradient s f cause).pending = s.pending ∧ (State.rerunGradient s f cause).events.log = s.events.log ∧ (State.rerunGradient s f cause).events.sealedLog = s.events.sealedLog := by
  unfold State.rerunGradient
  simp

@[simp] theorem State.judgeGradient_keeps (s : State) (f : FoldId) :
    (State.judgeGradient s f).pending = s.pending ∧ (State.judgeGradient s f).events.log = s.events.log ∧ (State.judgeGradient s f).events.sealedLog = s.events.sealedLog := by
  unfold State.judgeGradient
  dsimp only
  (repeat' split) <;> simp

@[simp] theorem State.startScoring_keeps (s : State) (f : FoldId) :
    (State.startScoring s f).pending = s.pending ∧ (State.startScoring s f).events.log = s.events.log ∧ (State.startScoring s f).events.sealedLog = s.events.sealedLog := by
  unfold State.startScoring
  simp

/-! ## Preempt -/

@[simp] theorem State.drainNext_keeps (s : State) (f : FoldId) :
    (State.drainNext s f).pending = s.pending ∧ (State.drainNext s f).events.log = s.events.log ∧ (State.drainNext s f).events.sealedLog = s.events.sealedLog := by
  unfold State.drainNext
  dsimp only
  (repeat' split) <;> simp

@[simp] theorem State.endDrain_keeps (s : State) (f : FoldId) (status : Nat) :
    (State.endDrain s f status).pending = s.pending ∧ (State.endDrain s f status).events.log = s.events.log ∧ (State.endDrain s f status).events.sealedLog = s.events.sealedLog := by
  unfold State.endDrain
  simp

@[simp] theorem State.abandonDrain_keeps (s : State) (f : FoldId) (stamp : Nat) :
    (State.abandonDrain s f stamp).pending = s.pending ∧ (State.abandonDrain s f stamp).events.log = s.events.log ∧ (State.abandonDrain s f stamp).events.sealedLog = s.events.sealedLog := by
  unfold State.abandonDrain
  split <;> simp

@[simp] theorem State.nothingWritten_keeps (s : State) (f : FoldId) (stamp gen : Nat) :
    (State.nothingWritten s f stamp gen).pending = s.pending ∧ (State.nothingWritten s f stamp gen).events.log = s.events.log ∧ (State.nothingWritten s f stamp gen).events.sealedLog = s.events.sealedLog := by
  unfold State.nothingWritten
  simp

@[simp] theorem State.startDrain_keeps (s : State) (f : FoldId) (n : Notice) (tick gen : Nat) :
    (State.startDrain s f n tick gen).pending = s.pending ∧ (State.startDrain s f n tick gen).events.log = s.events.log ∧ (State.startDrain s f n tick gen).events.sealedLog = s.events.sealedLog := by
  unfold State.startDrain
  simp

@[simp] theorem State.writeCut_keeps (s : State) (f : FoldId) (n : Notice) (tick lbaSize : Nat) :
    (State.writeCut s f n tick lbaSize).pending = s.pending ∧ (State.writeCut s f n tick lbaSize).events.log = s.events.log ∧ (State.writeCut s f n tick lbaSize).events.sealedLog = s.events.sealedLog := by
  unfold State.writeCut
  simp

@[simp] theorem State.takeCut_keeps (s : State) (f : FoldId) (n : Notice) (lbaSize : Nat) :
    (State.takeCut s f n lbaSize).pending = s.pending ∧ (State.takeCut s f n lbaSize).events.log = s.events.log ∧ (State.takeCut s f n lbaSize).events.sealedLog = s.events.sealedLog := by
  unfold State.takeCut
  simp

@[simp] theorem State.drainDone_keeps (s : State) (f : FoldId) (d : Drain) :
    (State.drainDone s f d).pending = s.pending ∧ (State.drainDone s f d).events.log = s.events.log ∧ (State.drainDone s f d).events.sealedLog = s.events.sealedLog := by
  unfold State.drainDone
  simp

/-! ## RootWheel -/

theorem deliverRecs_keeps (f : FoldId) (n : Nat) (s : State) :
    (deliverRecs f n s).pending = s.pending ∧ (deliverRecs f n s).events.log = s.events.log ∧ (deliverRecs f n s).events.sealedLog = s.events.sealedLog := by
  induction n generalizing s with
  | zero => exact ⟨rfl, rfl, rfl⟩
  | succ n ih =>
    unfold deliverRecs
    (repeat' split) <;> simp [ih]
@[simp] theorem State.deliverReady_keeps (s : State) (f : FoldId) :
    (State.deliverReady s f).pending = s.pending ∧ (State.deliverReady s f).events.log = s.events.log ∧ (State.deliverReady s f).events.sealedLog = s.events.sealedLog := by
  unfold State.deliverReady
  split
  · exact deliverRecs_keeps _ _ _
  · exact ⟨rfl, rfl, rfl⟩

@[simp] theorem State.tagLeaf_keeps (s : State) (f : FoldId) (l : Loaded) (leaf : Nat) :
    (State.tagLeaf s f l leaf).pending = s.pending ∧ (State.tagLeaf s f l leaf).events.log = s.events.log ∧ (State.tagLeaf s f l leaf).events.sealedLog = s.events.sealedLog := by
  unfold State.tagLeaf
  simp

@[simp] theorem State.sealLeaf_keeps (s : State) (f : FoldId) (leaf : Nat) :
    (State.sealLeaf s f leaf).pending = s.pending ∧ (State.sealLeaf s f leaf).events.log = s.events.log ∧ (State.sealLeaf s f leaf).events.sealedLog = s.events.sealedLog := by
  unfold State.sealLeaf
  simp

/-! ## Security -/

@[simp] theorem State.spdmSend_keeps (s : State) (fn : FnId) (kind : Nat) (parts : List Bytes) :
    (State.spdmSend s fn kind parts).pending = s.pending ∧ (State.spdmSend s fn kind parts).events.log = s.events.log ∧ (State.spdmSend s fn kind parts).events.sealedLog = s.events.sealedLog := by
  unfold State.spdmSend
  simp

@[simp] theorem State.spdmSigned_keeps (s : State) (fn : FnId) (kind key : Nat) (parts : List Bytes) :
    (State.spdmSigned s fn kind key parts).pending = s.pending ∧ (State.spdmSigned s fn kind key parts).events.log = s.events.log ∧ (State.spdmSigned s fn kind key parts).events.sealedLog = s.events.sealedLog := by
  unfold State.spdmSigned
  simp

@[simp] theorem State.spdmError_keeps (s : State) (fn : FnId) (code : Nat) :
    (State.spdmError s fn code).pending = s.pending ∧ (State.spdmError s fn code).events.log = s.events.log ∧ (State.spdmError s fn code).events.sealedLog = s.events.sealedLog := by
  unfold State.spdmError
  simp

@[simp] theorem State.modSpdm_keeps (s : State) (fn : FnId) (g : Spdm → Spdm) :
    (State.modSpdm s fn g).pending = s.pending ∧ (State.modSpdm s fn g).events.log = s.events.log ∧ (State.modSpdm s fn g).events.sealedLog = s.events.sealedLog := by
  unfold State.modSpdm
  simp

end Sys2Proof.Machine
end

