-- ==== Sys2Proof/Laws/Memory.lean ====
section
/-! SUPPORT. Sparse maps, the form of every memory, store and table of the model: what a read gives after a write, and that
every operation keeps the canonical form. -/

namespace Sys2Proof.Machine

/-! ## Reads after writes -/

@[simp] theorem mget_mins_same {α : Type} (d : α) (m : SMap α) (k : Nat) (v : α) : mget d (mins m k v) k = v := by
  induction m with
  | nil => simp [mins, mget]
  | cons e r ih =>
    obtain ⟨j, w⟩ := e
    unfold mins
    split
    · simp [mget]
    · split
      · simp [mget]
      · simp [mget, ih, Ne.symm ‹¬k = j›]
theorem mget_mins_other {α : Type} (d : α) (m : SMap α) (k i : Nat) (v : α) (h : i ≠ k) : mget d (mins m k v) i = mget d m i := by
  induction m with
  | nil => simp [mins, mget, Ne.symm h]
  | cons e r ih =>
    obtain ⟨j, w⟩ := e
    unfold mins
    split
    · simp [mget, Ne.symm h]
    · split
      · subst k; simp [mget, Ne.symm h]
      · simp [mget, ih]
theorem mget_mdel_other {α : Type} (d : α) (m : SMap α) (k i : Nat) (h : i ≠ k) : mget d (mdel m k) i = mget d m i := by
  induction m with
  | nil => rfl
  | cons e r ih =>
    obtain ⟨j, w⟩ := e
    unfold mdel
    split
    · subst j; simp [mget, Ne.symm h]
    · simp [mget, ih]
theorem mget_absent {α : Type} (d : α) (m : SMap α) (k : Nat) (h : ∀ e ∈ m, e.1 ≠ k) : mget d m k = d := by
  induction m with
  | nil => rfl
  | cons e r ih =>
    obtain ⟨j, w⟩ := e
    have hj : j ≠ k := h (j, w) (by simp)
    simp [mget, hj, ih fun e he => h e (by simp [he])]
theorem mget_mdel_same {α : Type} [DecidableEq α] (d : α) (m : SMap α) (k : Nat) (h : SMap.wf d m) : mget d (mdel m k) k = d := by
  induction m with
  | nil => rfl
  | cons e r ih =>
    obtain ⟨j, w⟩ := e
    obtain ⟨hp, hd⟩ := h
    rw [List.pairwise_cons] at hp
    unfold mdel
    split
    · subst j
      exact mget_absent d r k fun e he => Nat.ne_of_gt (hp.1 e he)
    · simp [mget, ‹¬j = k›, ih ⟨hp.2, fun e he => hd e (by simp [he])⟩]
/-- A read of another key gives what it gave. -/
theorem mget_mset_other {α : Type} [DecidableEq α] (d : α) (m : SMap α) (k i : Nat) (v : α) (h : i ≠ k) :
    mget d (mset d m k v) i = mget d m i := by
  unfold mset
  split
  · exact mget_mdel_other d m k i h
  · exact mget_mins_other d m k i v h
/-- A read of the written key gives the value. -/
theorem mget_mset_same {α : Type} [DecidableEq α] (d : α) (m : SMap α) (k : Nat) (v : α) (h : SMap.wf d m) :
    mget d (mset d m k v) k = v := by
  unfold mset
  split
  · subst v; exact mget_mdel_same d m k h
  · simp
/-- So it does in any map, where the value is not the default. -/
theorem mget_mset_ne {α : Type} [DecidableEq α] (d : α) (m : SMap α) (k : Nat) (v : α) (h : v ≠ d) : mget d (mset d m k v) k = v := by
  simp [mset, h]

/-! ## The canonical form -/

theorem mem_mins {α : Type} (m : SMap α) (k : Nat) (v : α) (e : Nat × α) (h : e ∈ mins m k v) : e = (k, v) ∨ e ∈ m := by
  induction m with
  | nil => simpa [mins] using h
  | cons x r ih =>
    obtain ⟨j, w⟩ := x
    unfold mins at h
    split at h
    · rcases List.mem_cons.1 h with h | h
      · exact .inl h
      · exact .inr h
    · split at h
      · rcases List.mem_cons.1 h with h | h
        · exact .inl h
        · exact .inr (by simp [h])
      · rcases List.mem_cons.1 h with h | h
        · exact .inr (by simp [h])
        · rcases ih h with h | h
          · exact .inl h
          · exact .inr (by simp [h])
theorem mem_mdel {α : Type} (m : SMap α) (k : Nat) (e : Nat × α) (h : e ∈ mdel m k) : e ∈ m := by
  induction m with
  | nil => exact h
  | cons x r ih =>
    obtain ⟨j, w⟩ := x
    unfold mdel at h
    split at h
    · simp [h]
    · rcases List.mem_cons.1 h with h | h
      · simp [h]
      · simp [ih h]
theorem mins_wf {α : Type} [DecidableEq α] (d : α) (m : SMap α) (k : Nat) (v : α) (h : SMap.wf d m) (hv : v ≠ d) :
    SMap.wf d (mins m k v) := by
  refine ⟨?_, fun e he => ?_⟩
  · obtain ⟨hp, -⟩ := h
    induction m with
    | nil => simp [mins]
    | cons x r ih =>
      obtain ⟨j, w⟩ := x
      rw [List.pairwise_cons] at hp
      unfold mins
      split
      · refine List.pairwise_cons.2 ⟨fun e he => ?_, List.pairwise_cons.2 hp⟩
        rcases List.mem_cons.1 he with rfl | he
        · assumption
        · exact Nat.lt_trans ‹k < j› (hp.1 e he)
      · split
        · subst k; exact List.pairwise_cons.2 hp
        · refine List.pairwise_cons.2 ⟨fun e he => ?_, ih hp.2⟩
          rcases mem_mins r k v e he with rfl | he
          · show j < k; omega
          · exact hp.1 e he
  · rcases mem_mins m k v e he with rfl | he
    · exact hv
    · exact h.2 e he
theorem mdel_wf {α : Type} [DecidableEq α] (d : α) (m : SMap α) (k : Nat) (h : SMap.wf d m) : SMap.wf d (mdel m k) := by
  refine ⟨?_, fun e he => h.2 e (mem_mdel m k e he)⟩
  obtain ⟨hp, -⟩ := h
  induction m with
  | nil => simp [mdel]
  | cons x r ih =>
    obtain ⟨j, w⟩ := x
    rw [List.pairwise_cons] at hp
    unfold mdel
    split
    · exact hp.2
    · exact List.pairwise_cons.2 ⟨fun e he => hp.1 e (mem_mdel r k e he), ih hp.2⟩
/-- A write keeps the canonical form. -/
theorem mset_wf {α : Type} [DecidableEq α] (d : α) (m : SMap α) (k : Nat) (v : α) (h : SMap.wf d m) : SMap.wf d (mset d m k v) := by
  unfold mset
  split
  · exact mdel_wf d m k h
  · exact mins_wf d m k v h ‹_›
/-- Writing bytes keeps the canonical form. -/
theorem mwrite_wf (m : SMap Byte) (a : Nat) (b : Bytes) (h : SMap.wf 0 m) : SMap.wf 0 (mwrite m a b) := by
  induction b generalizing m a with
  | nil => exact h
  | cons x r ih => exact ih _ _ (mset_wf 0 m a x h)
/-- Zeroising by a filter keeps the canonical form. -/
theorem filter_wf {α : Type} [DecidableEq α] (d : α) (m : SMap α) (p : Nat × α → Bool) (h : SMap.wf d m) : SMap.wf d (m.filter p) :=
  ⟨h.1.filter _, fun e he => h.2 e (List.mem_filter.1 he).1⟩
theorem mdrop_wf {α : Type} [DecidableEq α] (d : α) (m : SMap α) (a b : Nat) (h : SMap.wf d m) : SMap.wf d (mdrop m a b) :=
  filter_wf d m _ h

/-! ## Bytes -/

/-- A byte outside the written ones reads as before. -/
theorem mget_mwrite_outside (m : SMap Byte) (a i : Nat) (b : Bytes) (h : i < a ∨ a + b.length ≤ i) :
    mget 0 (mwrite m a b) i = mget 0 m i := by
  induction b generalizing m a with
  | nil => rfl
  | cons x r ih =>
    simp only [List.length_cons] at h
    show mget 0 (mwrite (mset 0 m a x) (a + 1) r) i = _
    rw [ih _ _ (by omega), mget_mset_other 0 m a i x (by omega)]
/-- A written byte reads as written. -/
theorem mget_mwrite_inside (m : SMap Byte) (a i : Nat) (b : Bytes) (hm : SMap.wf 0 m) (h : i < b.length) :
    mget 0 (mwrite m a b) (a + i) = b[i] := by
  induction b generalizing m a i with
  | nil => simp at h
  | cons x r ih =>
    show mget 0 (mwrite (mset 0 m a x) (a + 1) r) (a + i) = _
    cases i with
    | zero => rw [mget_mwrite_outside _ _ _ _ (by omega)]; simpa using mget_mset_same 0 m a x hm
    | succ n =>
      have hn : n < r.length := by simpa using h
      have := ih (mset 0 m a x) (a + 1) n (mset_wf 0 m a x hm) hn
      rw [show a + (n + 1) = a + 1 + n by omega, this]
      rfl
/-- Reading back what was written. -/
theorem mread_mwrite (m : SMap Byte) (a : Nat) (b : Bytes) (hm : SMap.wf 0 m) : mread (mwrite m a b) a b.length = b := by
  apply List.ext_getElem
  · simp [mread]
  · intro i h1 h2
    have := mget_mwrite_inside m a i b hm h2
    simpa [mread] using this
/-- The stores after reset are in canonical form: nothing is listed. -/
theorem reset_stores_wf : State.reset.tiles = [] ∧ (∀ k, (State.reset.hbms.get k).mem = []) ∧ State.reset.chans = [] := by
  refine ⟨rfl, ?_, rfl⟩
  decide

end Sys2Proof.Machine
end

