-- ==== Sys2Proof/Laws/Same.lean ====
section
/-! SUPPORT. Which operations leave the configuration, the kept entries and the security engine as they were. One lemma per operation,
in the order of the files. -/

namespace Sys2Proof.Machine

/-! ## Ops -/

@[simp] theorem ite_cfg (c : Prop) [Decidable c] (a b : State) : (if c then a else b).cfg = if c then a.cfg else b.cfg := apply_ite _ _ _ _

@[simp] theorem ite_kept (c : Prop) [Decidable c] (a b : State) : (if c then a else b).kept = if c then a.kept else b.kept := apply_ite _ _ _ _

@[simp] theorem ite_sec (c : Prop) [Decidable c] (a b : State) : (if c then a else b).sec = if c then a.sec else b.sec := apply_ite _ _ _ _

@[simp] theorem foldl_cfg {α : Type} (f : State → α → State) (l : List α) (s : State) (h : ∀ s a, (f s a).cfg = s.cfg) :
    (l.foldl f s).cfg = s.cfg := by
  induction l generalizing s with
  | nil => rfl
  | cons a l ih => rw [List.foldl_cons, ih, h]

@[simp] theorem foldl_kept {α : Type} (f : State → α → State) (l : List α) (s : State) (h : ∀ s a, (f s a).kept = s.kept) :
    (l.foldl f s).kept = s.kept := by
  induction l generalizing s with
  | nil => rfl
  | cons a l ih => rw [List.foldl_cons, ih, h]

@[simp] theorem foldl_sec {α : Type} (f : State → α → State) (l : List α) (s : State) (h : ∀ s a, (f s a).sec = s.sec) :
    (l.foldl f s).sec = s.sec := by
  induction l generalizing s with
  | nil => rfl
  | cons a l ih => rw [List.foldl_cons, ih, h]

theorem foldl_settings {α : Type} (g : State → α → State) (l : List α) (s : State)
    (hg : ∀ s a, (g s a).cfg = s.cfg ∧ (g s a).kept = s.kept ∧ (g s a).sec = s.sec) :
    (l.foldl g s).cfg = s.cfg ∧ (l.foldl g s).kept = s.kept ∧ (l.foldl g s).sec = s.sec :=
  ⟨foldl_cfg _ _ _ fun s a => (hg s a).1, foldl_kept _ _ _ fun s a => (hg s a).2.1, foldl_sec _ _ _ fun s a => (hg s a).2.2⟩

@[simp] theorem State.setFold_settings (s : State) (f : FoldId) (x : Fold) :
    (State.setFold s f x).cfg = s.cfg ∧ (State.setFold s f x).kept = s.kept ∧ (State.setFold s f x).sec = s.sec := by
  unfold State.setFold
  simp

@[simp] theorem State.modFold_settings (s : State) (f : FoldId) (g : Fold → Fold) :
    (State.modFold s f g).cfg = s.cfg ∧ (State.modFold s f g).kept = s.kept ∧ (State.modFold s f g).sec = s.sec := by
  unfold State.modFold
  simp

@[simp] theorem State.modQuad_settings (s : State) (q : QuadId) (g : Quad → Quad) :
    (State.modQuad s q g).cfg = s.cfg ∧ (State.modQuad s q g).kept = s.kept ∧ (State.modQuad s q g).sec = s.sec := by
  unfold State.modQuad
  simp

@[simp] theorem State.modHbm_settings (s : State) (k : StackId) (g : Stack → Stack) :
    (State.modHbm s k g).cfg = s.cfg ∧ (State.modHbm s k g).kept = s.kept ∧ (State.modHbm s k g).sec = s.sec := by
  unfold State.modHbm
  simp

@[simp] theorem State.modLink_settings (s : State) (k : LinkId) (g : Link → Link) :
    (State.modLink s k g).cfg = s.cfg ∧ (State.modLink s k g).kept = s.kept ∧ (State.modLink s k g).sec = s.sec := by
  unfold State.modLink
  simp

@[simp] theorem State.modPort_settings (s : State) (p : PortId) (g : Port → Port) :
    (State.modPort s p g).cfg = s.cfg ∧ (State.modPort s p g).kept = s.kept ∧ (State.modPort s p g).sec = s.sec := by
  unfold State.modPort
  simp

@[simp] theorem State.modFn_settings (s : State) (v : FnId) (g : Func → Func) :
    (State.modFn s v g).cfg = s.cfg ∧ (State.modFn s v g).kept = s.kept ∧ (State.modFn s v g).sec = s.sec := by
  unfold State.modFn
  simp

@[simp] theorem State.setTile_settings (s : State) (t : Nat) (x : Tile) :
    (State.setTile s t x).cfg = s.cfg ∧ (State.setTile s t x).kept = s.kept ∧ (State.setTile s t x).sec = s.sec := by
  unfold State.setTile
  simp

@[simp] theorem State.setChan_settings (s : State) (c : Nat) (x : Chan) :
    (State.setChan s c x).cfg = s.cfg ∧ (State.setChan s c x).kept = s.kept ∧ (State.setChan s c x).sec = s.sec := by
  unfold State.setChan
  simp

@[simp] theorem State.tick_settings (s : State) (t : Nat) :
    (State.tick s t).cfg = s.cfg ∧ (State.tick s t).kept = s.kept ∧ (State.tick s t).sec = s.sec := by
  unfold State.tick
  simp

@[simp] theorem State.outOfMappings_settings (s : State) (q : QuadId) :
    (State.outOfMappings s q).cfg = s.cfg ∧ (State.outOfMappings s q).kept = s.kept ∧ (State.outOfMappings s q).sec = s.sec := by
  unfold State.outOfMappings
  (repeat' split) <;> simp

@[simp] theorem State.send_settings (s : State) (o : Output) :
    (State.send s o).cfg = s.cfg ∧ (State.send s o).kept = s.kept ∧ (State.send s o).sec = s.sec := by
  unfold State.send
  simp

@[simp] theorem State.sendVec_settings (s : State) (v : FnId) (vec : Fin 4) :
    (State.sendVec s v vec).cfg = s.cfg ∧ (State.sendVec s v vec).kept = s.kept ∧ (State.sendVec s v vec).sec = s.sec := by
  unfold State.sendVec
  simp

@[simp] theorem State.coalesce_settings (s : State) (v : FnId) (vec : Fin 4) :
    (State.coalesce s v vec).cfg = s.cfg ∧ (State.coalesce s v vec).kept = s.kept ∧ (State.coalesce s v vec).sec = s.sec := by
  unfold State.coalesce
  split <;> simp

@[simp] theorem State.emitAt_settings (s : State) (stamp unit code : Nat) (fo : Bool) (detail : Bytes) :
    (State.emitAt s stamp unit code fo detail).cfg = s.cfg ∧ (State.emitAt s stamp unit code fo detail).kept = s.kept ∧ (State.emitAt s stamp unit code fo detail).sec = s.sec := by
  unfold State.emitAt
  simp

@[simp] theorem State.emit_settings (s : State) (unit code : Nat) (detail : Bytes) :
    (State.emit s unit code detail).cfg = s.cfg ∧ (State.emit s unit code detail).kept = s.kept ∧ (State.emit s unit code detail).sec = s.sec := by
  unfold State.emit
  simp

@[simp] theorem State.writeCqe_settings (s : State) (v : FnId) (c : Cqe) :
    (State.writeCqe s v c).cfg = s.cfg ∧ (State.writeCqe s v c).kept = s.kept ∧ (State.writeCqe s v c).sec = s.sec := by
  unfold State.writeCqe
  simp

@[simp] theorem State.unsupported_settings (s : State) :
    (State.unsupported s).cfg = s.cfg ∧ (State.unsupported s).kept = s.kept ∧ (State.unsupported s).sec = s.sec := by
  unfold State.unsupported
  simp

@[simp] theorem State.post_settings (s : State) (v : FnId) (c : Cqe) :
    (State.post s v c).cfg = s.cfg ∧ (State.post s v c).kept = s.kept ∧ (State.post s v c).sec = s.sec := by
  unfold State.post
  simp

theorem flushLoop_settings (v : FnId) (q : Nat) (n : Nat) (s : State) :
    (flushLoop v q n s).cfg = s.cfg ∧ (flushLoop v q n s).kept = s.kept ∧ (flushLoop v q n s).sec = s.sec := by
  induction n generalizing s with
  | zero => exact ⟨rfl, rfl, rfl⟩
  | succ n ih =>
    unfold flushLoop
    (repeat' split) <;> simp [ih]
@[simp] theorem State.flush_settings (s : State) (v : FnId) :
    (State.flush s v).cfg = s.cfg ∧ (State.flush s v).kept = s.kept ∧ (State.flush s v).sec = s.sec := by
  simp [State.flush, flushLoop_settings]

@[simp] theorem State.complete_settings (s : State) (q : QHdr) (status event r0 r1 r2 : Nat) :
    (State.complete s q status event r0 r1 r2).cfg = s.cfg ∧ (State.complete s q status event r0 r1 r2).kept = s.kept ∧ (State.complete s q status event r0 r1 r2).sec = s.sec := by
  unfold State.complete
  simp

@[simp] theorem State.complete1_settings (s : State) (q : QHdr) (status event r0 r1 r2 : Nat) :
    (State.complete1 s q status event r0 r1 r2).cfg = s.cfg ∧ (State.complete1 s q status event r0 r1 r2).kept = s.kept ∧ (State.complete1 s q status event r0 r1 r2).sec = s.sec := by
  unfold State.complete1
  simp

@[simp] theorem State.fetch_settings (s : State) (v : FnId) (q : Nat) :
    (State.fetch s v q).cfg = s.cfg ∧ (State.fetch s v q).kept = s.kept ∧ (State.fetch s v q).sec = s.sec := by
  unfold State.fetch
  simp

@[simp] theorem State.updateLevel_settings (s : State) :
    (State.updateLevel s).cfg = s.cfg ∧ (State.updateLevel s).kept = s.kept ∧ (State.updateLevel s).sec = s.sec := by
  unfold State.updateLevel
  simp

@[simp] theorem State.setSt_settings (s : State) (f : FoldId) (st : FoldState) :
    (State.setSt s f st).cfg = s.cfg ∧ (State.setSt s f st).kept = s.kept ∧ (State.setSt s f st).sec = s.sec := by
  unfold State.setSt
  simp

@[simp] theorem State.wipeChans_settings (s : State) (f : FoldId) :
    (State.wipeChans s f).cfg = s.cfg ∧ (State.wipeChans s f).kept = s.kept ∧ (State.wipeChans s f).sec = s.sec := by
  unfold State.wipeChans
  simp

@[simp] theorem State.zeroChans_settings (s : State) (f : FoldId) :
    (State.zeroChans s f).cfg = s.cfg ∧ (State.zeroChans s f).kept = s.kept ∧ (State.zeroChans s f).sec = s.sec := by
  unfold State.zeroChans
  simp

@[simp] theorem State.zeroPlots_settings (s : State) (plots : BitVec 80) :
    (State.zeroPlots s plots).cfg = s.cfg ∧ (State.zeroPlots s plots).kept = s.kept ∧ (State.zeroPlots s plots).sec = s.sec := by
  unfold State.zeroPlots
  simp

@[simp] theorem State.zeroUnits_settings (s : State) (units : BitVec 192) :
    (State.zeroUnits s units).cfg = s.cfg ∧ (State.zeroUnits s units).kept = s.kept ∧ (State.zeroUnits s units).sec = s.sec := by
  unfold State.zeroUnits
  simp

@[simp] theorem State.abortBg_settings (s : State) (f : FoldId) :
    (State.abortBg s f).cfg = s.cfg ∧ (State.abortBg s f).kept = s.kept ∧ (State.abortBg s f).sec = s.sec := by
  unfold State.abortBg
  split <;> simp

@[simp] theorem State.emptyFold_settings (s : State) (f : FoldId) :
    (State.emptyFold s f).cfg = s.cfg ∧ (State.emptyFold s f).kept = s.kept ∧ (State.emptyFold s f).sec = s.sec := by
  unfold State.emptyFold
  simp

@[simp] theorem State.zeroSession_settings (s : State) (v : FnId) :
    (State.zeroSession s v).cfg = s.cfg ∧ (State.zeroSession s v).kept = s.kept ∧ (State.zeroSession s v).sec = s.sec := by
  unfold State.zeroSession
  simp

/-! ## Journal -/

@[simp] theorem State.choosePage_settings (s : State) :
    (State.choosePage s).cfg = s.cfg ∧ (State.choosePage s).kept = s.kept ∧ (State.choosePage s).sec = s.sec := by
  unfold State.choosePage
  (repeat' split) <;> simp

@[simp] theorem State.bindLabel_settings (s : State) :
    (State.bindLabel s).cfg = s.cfg ∧ (State.bindLabel s).kept = s.kept ∧ (State.bindLabel s).sec = s.sec := by
  unfold State.bindLabel
  split <;> simp

@[simp] theorem State.sendPage_settings (s : State) :
    (State.sendPage s).cfg = s.cfg ∧ (State.sendPage s).kept = s.kept ∧ (State.sendPage s).sec = s.sec := by
  unfold State.sendPage
  split <;> simp

@[simp] theorem State.advanceJournal_settings (s : State) :
    (State.advanceJournal s).cfg = s.cfg ∧ (State.advanceJournal s).kept = s.kept ∧ (State.advanceJournal s).sec = s.sec := by
  unfold State.advanceJournal
  simp

@[simp] theorem State.resumeJournal_settings (s : State) :
    (State.resumeJournal s).cfg = s.cfg ∧ (State.resumeJournal s).kept = s.kept ∧ (State.resumeJournal s).sec = s.sec := by
  unfold State.resumeJournal
  split <;> (try split) <;> simp

@[simp] theorem State.resumeStaged_settings (s : State) :
    (State.resumeStaged s).cfg = s.cfg ∧ (State.resumeStaged s).kept = s.kept ∧ (State.resumeStaged s).sec = s.sec := by
  unfold State.resumeStaged
  split <;> (try split) <;> simp

@[simp] theorem State.wearCheck_settings (s : State) :
    (State.wearCheck s).cfg = s.cfg ∧ (State.wearCheck s).kept = s.kept ∧ (State.wearCheck s).sec = s.sec := by
  unfold State.wearCheck
  simp

/-! ## Ledger -/

@[simp] theorem State.fileConnect_settings (s : State) (f : FoldId) :
    (State.fileConnect s f).cfg = s.cfg ∧ (State.fileConnect s f).kept = s.kept ∧ (State.fileConnect s f).sec = s.sec := by
  unfold State.fileConnect
  simp

@[simp] theorem State.fileSend_settings (s : State) (f : FoldId) (c : FileCmd) :
    (State.fileSend s f c).cfg = s.cfg ∧ (State.fileSend s f c).kept = s.kept ∧ (State.fileSend s f c).sec = s.sec := by
  unfold State.fileSend
  (repeat' split) <;> simp

@[simp] theorem State.fileIssue_settings (s : State) (f : FoldId) (c : FileCmd) :
    (State.fileIssue s f c).cfg = s.cfg ∧ (State.fileIssue s f c).kept = s.kept ∧ (State.fileIssue s f c).sec = s.sec := by
  unfold State.fileIssue
  simp

@[simp] theorem State.fileTake_settings (s : State) (f : FoldId) (n : Nat) :
    (State.fileTake s f n).cfg = s.cfg ∧ (State.fileTake s f n).kept = s.kept ∧ (State.fileTake s f n).sec = s.sec := by
  unfold State.fileTake
  simp

@[simp] theorem State.filePump_settings (s : State) (f : FoldId) :
    (State.filePump s f).cfg = s.cfg ∧ (State.filePump s f).kept = s.kept ∧ (State.filePump s f).sec = s.sec := by
  unfold State.filePump
  simp

@[simp] theorem State.fileQueue_settings (s : State) (f : FoldId) (cs : List FileCmd) :
    (State.fileQueue s f cs).cfg = s.cfg ∧ (State.fileQueue s f cs).kept = s.kept ∧ (State.fileQueue s f cs).sec = s.sec := by
  unfold State.fileQueue
  simp

@[simp] theorem State.fileDone_settings (s : State) (f : FoldId) (ckpt : Bool) :
    (State.fileDone s f ckpt).cfg = s.cfg ∧ (State.fileDone s f ckpt).kept = s.kept ∧ (State.fileDone s f ckpt).sec = s.sec := by
  unfold State.fileDone
  dsimp only
  (repeat' split) <;> simp

@[simp] theorem State.fileDropCkpt_settings (s : State) (f : FoldId) :
    (State.fileDropCkpt s f).cfg = s.cfg ∧ (State.fileDropCkpt s f).kept = s.kept ∧ (State.fileDropCkpt s f).sec = s.sec := by
  unfold State.fileDropCkpt
  simp

@[simp] theorem State.fileEnd_settings (s : State) (f : FoldId) :
    (State.fileEnd s f).cfg = s.cfg ∧ (State.fileEnd s f).kept = s.kept ∧ (State.fileEnd s f).sec = s.sec := by
  unfold State.fileEnd
  dsimp only
  (repeat' split) <;> simp

@[simp] theorem State.exportFile_settings (s : State) (f : FoldId) (p : Page) (tagAnnex : Bool) :
    (State.exportFile s f p tagAnnex).cfg = s.cfg ∧ (State.exportFile s f p tagAnnex).kept = s.kept ∧ (State.exportFile s f p tagAnnex).sec = s.sec := by
  unfold State.exportFile
  simp

@[simp] theorem State.sealPage_settings (s : State) (f : FoldId) (p : OpenPage) (count : Nat) :
    (State.sealPage s f p count).cfg = s.cfg ∧ (State.sealPage s f p count).kept = s.kept ∧ (State.sealPage s f p count).sec = s.sec := by
  unfold State.sealPage
  dsimp only
  (repeat' split) <;> simp

@[simp] theorem State.openPage_settings (s : State) (f : FoldId) (n : Nat) :
    (State.openPage s f n).cfg = s.cfg ∧ (State.openPage s f n).kept = s.kept ∧ (State.openPage s f n).sec = s.sec := by
  unfold State.openPage
  simp

@[simp] theorem State.sealClosing_settings (s : State) (f : FoldId) (count : Nat) :
    (State.sealClosing s f count).cfg = s.cfg ∧ (State.sealClosing s f count).kept = s.kept ∧ (State.sealClosing s f count).sec = s.sec := by
  unfold State.sealClosing
  split <;> simp

@[simp] theorem State.closePage_settings (s : State) (f : FoldId) (n : Nat) (final : Bool) :
    (State.closePage s f n final).cfg = s.cfg ∧ (State.closePage s f n final).kept = s.kept ∧ (State.closePage s f n final).sec = s.sec := by
  unfold State.closePage
  (repeat' split) <;> simp

@[simp] theorem State.ackPage_settings (s : State) (f : FoldId) (dest sq : Nat) :
    (State.ackPage s f dest sq).cfg = s.cfg ∧ (State.ackPage s f dest sq).kept = s.kept ∧ (State.ackPage s f dest sq).sec = s.sec := by
  unfold State.ackPage
  simp

@[simp] theorem State.hostAdvance_settings (s : State) (f : FoldId) :
    (State.hostAdvance s f).cfg = s.cfg ∧ (State.hostAdvance s f).kept = s.kept ∧ (State.hostAdvance s f).sec = s.sec := by
  unfold State.hostAdvance
  simp

/-! ## Records -/

@[simp] theorem State.sealBefore_settings (s : State) (f : FoldId) (frame : Nat) :
    (State.sealBefore s f frame).cfg = s.cfg ∧ (State.sealBefore s f frame).kept = s.kept ∧ (State.sealBefore s f frame).sec = s.sec := by
  unfold State.sealBefore
  split <;> simp

@[simp] theorem State.enterCohort_settings (s : State) (f : FoldId) (c : Cohort) (discarded : Bool) :
    (State.enterCohort s f c discarded).cfg = s.cfg ∧ (State.enterCohort s f c discarded).kept = s.kept ∧ (State.enterCohort s f c discarded).sec = s.sec := by
  unfold State.enterCohort
  simp

@[simp] theorem State.returnCredits_settings (s : State) (f : FoldId) (n : Nat) :
    (State.returnCredits s f n).cfg = s.cfg ∧ (State.returnCredits s f n).kept = s.kept ∧ (State.returnCredits s f n).sec = s.sec := by
  unfold State.returnCredits
  simp

@[simp] theorem State.recountCredits_settings (s : State) (f : FoldId) :
    (State.recountCredits s f).cfg = s.cfg ∧ (State.recountCredits s f).kept = s.kept ∧ (State.recountCredits s f).sec = s.sec := by
  unfold State.recountCredits
  simp

@[simp] theorem State.postRecord_settings (s : State) (f : FoldId) (cid status event frame len : Nat) :
    (State.postRecord s f cid status event frame len).cfg = s.cfg ∧ (State.postRecord s f cid status event frame len).kept = s.kept ∧ (State.postRecord s f cid status event frame len).sec = s.sec := by
  unfold State.postRecord
  simp

@[simp] theorem dropResult_settings (s : State) (f : FoldId) (status : Nat) (r : Result) :
    (dropResult s f status r).cfg = s.cfg ∧ (dropResult s f status r).kept = s.kept ∧ (dropResult s f status r).sec = s.sec := by
  unfold dropResult
  split <;> simp

@[simp] theorem State.dropResults_settings (s : State) (f : FoldId) (status : Nat) (p : Result → Bool) :
    (State.dropResults s f status p).cfg = s.cfg ∧ (State.dropResults s f status p).kept = s.kept ∧ (State.dropResults s f status p).sec = s.sec := by
  unfold State.dropResults
  simp

@[simp] theorem State.dropHeld_settings (s : State) (f : FoldId) (status : Nat) :
    (State.dropHeld s f status).cfg = s.cfg ∧ (State.dropHeld s f status).kept = s.kept ∧ (State.dropHeld s f status).sec = s.sec := by
  unfold State.dropHeld
  simp

@[simp] theorem State.dropCohort_settings (s : State) (f : FoldId) (status : Nat) (c : Cohort) :
    (State.dropCohort s f status c).cfg = s.cfg ∧ (State.dropCohort s f status c).kept = s.kept ∧ (State.dropCohort s f status c).sec = s.sec := by
  unfold State.dropCohort
  refine ⟨foldl_cfg _ _ _ ?_, foldl_kept _ _ _ ?_, foldl_sec _ _ _ ?_⟩ <;> intro s a <;> (try dsimp only) <;> (repeat' split) <;> simp

@[simp] theorem State.dropReads_settings (s : State) (f : FoldId) (status : Nat) :
    (State.dropReads s f status).cfg = s.cfg ∧ (State.dropReads s f status).kept = s.kept ∧ (State.dropReads s f status).sec = s.sec := by
  unfold State.dropReads
  simp

@[simp] theorem State.placeResult_settings (s : State) (f : FoldId) (c : Cohort) (i : Nat) (r : Rec) :
    (State.placeResult s f c i r).cfg = s.cfg ∧ (State.placeResult s f c i r).kept = s.kept ∧ (State.placeResult s f c i r).sec = s.sec := by
  unfold State.placeResult
  split <;> simp

@[simp] theorem State.placeRest_settings (s : State) (f : FoldId) (c : Cohort) :
    (State.placeRest s f c).cfg = s.cfg ∧ (State.placeRest s f c).kept = s.kept ∧ (State.placeRest s f c).sec = s.sec := by
  unfold State.placeRest
  simp

@[simp] theorem State.writeField_settings (s : State) (f : FoldId) (b : Bytes) :
    (State.writeField s f b).cfg = s.cfg ∧ (State.writeField s f b).kept = s.kept ∧ (State.writeField s f b).sec = s.sec := by
  unfold State.writeField
  simp

@[simp] theorem State.fieldResults_settings (s : State) (f : FoldId) (c : Cohort) :
    (State.fieldResults s f c).cfg = s.cfg ∧ (State.fieldResults s f c).kept = s.kept ∧ (State.fieldResults s f c).sec = s.sec := by
  exact foldl_settings _ _ _ fun s e => by (repeat' split) <;> simp

/-! ## Epoch -/

@[simp] theorem State.queueWord_settings (s : State) (w : SvcWord) (copies : Nat) (skip : Option LinkId) :
    (State.queueWord s w copies skip).cfg = s.cfg ∧ (State.queueWord s w copies skip).kept = s.kept ∧ (State.queueWord s w copies skip).sec = s.sec := by
  unfold State.queueWord
  simp

@[simp] theorem State.flood_settings (s : State) (typ : Nat) (body : Bytes) :
    (State.flood s typ body).cfg = s.cfg ∧ (State.flood s typ body).kept = s.kept ∧ (State.flood s typ body).sec = s.sec := by
  unfold State.flood
  simp

@[simp] theorem State.startHello_settings (s : State) (k : LinkId) :
    (State.startHello s k).cfg = s.cfg ∧ (State.startHello s k).kept = s.kept ∧ (State.startHello s k).sec = s.sec := by
  unfold State.startHello
  simp

@[simp] theorem State.relay_settings (s : State) (h : RelayHdr) (typ : Nat) (body : Bytes) :
    (State.relay s h typ body).cfg = s.cfg ∧ (State.relay s h typ body).kept = s.kept ∧ (State.relay s h typ body).sec = s.sec := by
  unfold State.relay
  simp

@[simp] theorem State.tryPropose_settings (s : State) :
    (State.tryPropose s).cfg = s.cfg ∧ (State.tryPropose s).kept = s.kept ∧ (State.tryPropose s).sec = s.sec := by
  unfold State.tryPropose
  split <;> simp

@[simp] theorem State.reselect_settings (s : State) :
    (State.reselect s).cfg = s.cfg ∧ (State.reselect s).kept = s.kept ∧ (State.reselect s).sec = s.sec := by
  unfold State.reselect
  (repeat' split) <;> simp

@[simp] theorem State.requestEpoch_settings (s : State) (unitNo : Nat) :
    (State.requestEpoch s unitNo).cfg = s.cfg ∧ (State.requestEpoch s unitNo).kept = s.kept ∧ (State.requestEpoch s unitNo).sec = s.sec := by
  unfold State.requestEpoch
  simp

/-! ## FoldLife -/

@[simp] theorem State.appendAll_settings (s : State) (f : FoldId) (frame : Nat) (es : List Bytes) :
    (State.appendAll s f frame es).cfg = s.cfg ∧ (State.appendAll s f frame es).kept = s.kept ∧ (State.appendAll s f frame es).sec = s.sec := by
  unfold State.appendAll
  simp

@[simp] theorem State.splitPage_settings (s : State) (f : FoldId) (n : Nat) :
    (State.splitPage s f n).cfg = s.cfg ∧ (State.splitPage s f n).kept = s.kept ∧ (State.splitPage s f n).sec = s.sec := by
  unfold State.splitPage
  dsimp only
  (repeat' split) <;> simp

@[simp] theorem State.endAttempt_settings (s : State) (f : FoldId) (last : Nat) :
    (State.endAttempt s f last).cfg = s.cfg ∧ (State.endAttempt s f last).kept = s.kept ∧ (State.endAttempt s f last).sec = s.sec := by
  unfold State.endAttempt
  simp

@[simp] theorem State.cutAttempt_settings (s : State) (f : FoldId) (last : Nat) :
    (State.cutAttempt s f last).cfg = s.cfg ∧ (State.cutAttempt s f last).kept = s.kept ∧ (State.cutAttempt s f last).sec = s.sec := by
  unfold State.cutAttempt
  (repeat' split) <;> simp

@[simp] theorem State.tdiError_settings (s : State) (f : FoldId) :
    (State.tdiError s f).cfg = s.cfg ∧ (State.tdiError s f).kept = s.kept ∧ (State.tdiError s f).sec = s.sec := by
  unfold State.tdiError
  (repeat' split) <;> simp

@[simp] theorem State.toStopped_settings (s : State) (f : FoldId) :
    (State.toStopped s f).cfg = s.cfg ∧ (State.toStopped s f).kept = s.kept ∧ (State.toStopped s f).sec = s.sec := by
  unfold State.toStopped
  simp

@[simp] theorem State.tryStopped_settings (s : State) (f : FoldId) :
    (State.tryStopped s f).cfg = s.cfg ∧ (State.tryStopped s f).kept = s.kept ∧ (State.tryStopped s f).sec = s.sec := by
  unfold State.tryStopped
  simp

@[simp] theorem State.finalPage_settings (s : State) (f : FoldId) (n : Nat) :
    (State.finalPage s f n).cfg = s.cfg ∧ (State.finalPage s f n).kept = s.kept ∧ (State.finalPage s f n).sec = s.sec := by
  unfold State.finalPage
  simp

@[simp] theorem State.endCohorts_settings (s : State) (f : FoldId) (held : List Nat) (cs : List Cohort) :
    (State.endCohorts s f held cs).cfg = s.cfg ∧ (State.endCohorts s f held cs).kept = s.kept ∧ (State.endCohorts s f held cs).sec = s.sec := by
  unfold State.endCohorts
  (repeat' split) <;> simp

@[simp] theorem State.endRun_settings (s : State) (f : FoldId) :
    (State.endRun s f).cfg = s.cfg ∧ (State.endRun s f).kept = s.kept ∧ (State.endRun s f).sec = s.sec := by
  unfold State.endRun
  simp

@[simp] theorem State.forceStopNow_settings (s : State) (f : FoldId) :
    (State.forceStopNow s f).cfg = s.cfg ∧ (State.forceStopNow s f).kept = s.kept ∧ (State.forceStopNow s f).sec = s.sec := by
  unfold State.forceStopNow
  dsimp only
  (repeat' split) <;> simp

@[simp] theorem State.stopNow_settings (s : State) (f : FoldId) :
    (State.stopNow s f).cfg = s.cfg ∧ (State.stopNow s f).kept = s.kept ∧ (State.stopNow s f).sec = s.sec := by
  unfold State.stopNow
  dsimp only
  split
  · simp
  · simp only [State.toStopped_settings, State.endRun_settings, State.endCohorts_settings]
    exact ⟨((foldl_settings _ _ _ fun s c => by split <;> simp).1).trans ((State.modFold_settings _ _ _).1),
    ((foldl_settings _ _ _ fun s c => by split <;> simp).2.1).trans ((State.modFold_settings _ _ _).2.1),
    ((foldl_settings _ _ _ fun s c => by split <;> simp).2.2).trans ((State.modFold_settings _ _ _).2.2)⟩

@[simp] theorem State.noMapping_settings (s : State) (f : FoldId) :
    (State.noMapping s f).cfg = s.cfg ∧ (State.noMapping s f).kept = s.kept ∧ (State.noMapping s f).sec = s.sec := by
  unfold State.noMapping
  simp

@[simp] theorem State.faultFold_settings (s : State) (f : FoldId) (cause frame : Nat) :
    (State.faultFold s f cause frame).cfg = s.cfg ∧ (State.faultFold s f cause frame).kept = s.kept ∧ (State.faultFold s f cause frame).sec = s.sec := by
  unfold State.faultFold
  simp

@[simp] theorem State.startDraining_settings (s : State) (f : FoldId) :
    (State.startDraining s f).cfg = s.cfg ∧ (State.startDraining s f).kept = s.kept ∧ (State.startDraining s f).sec = s.sec := by
  unfold State.startDraining
  simp

@[simp] theorem State.stopCommit_settings (s : State) (f : FoldId) (pf : Bool) :
    (State.stopCommit s f pf).1.cfg = s.cfg ∧ (State.stopCommit s f pf).1.kept = s.kept ∧ (State.stopCommit s f pf).1.sec = s.sec := by
  unfold State.stopCommit
  split <;> simp

@[simp] theorem State.forceStopCommit_settings (s : State) (f : FoldId) (pf : Bool) :
    (State.forceStopCommit s f pf).1.cfg = s.cfg ∧ (State.forceStopCommit s f pf).1.kept = s.kept ∧ (State.forceStopCommit s f pf).1.sec = s.sec := by
  unfold State.forceStopCommit
  split <;> simp

@[simp] theorem State.unloadCommit_settings (s : State) (f : FoldId) :
    (State.unloadCommit s f).1.cfg = s.cfg ∧ (State.unloadCommit s f).1.kept = s.kept ∧ (State.unloadCommit s f).1.sec = s.sec := by
  unfold State.unloadCommit
  split <;> simp

@[simp] theorem State.resetFold_settings (s : State) (f : FoldId) :
    (State.resetFold s f).cfg = s.cfg ∧ (State.resetFold s f).kept = s.kept ∧ (State.resetFold s f).sec = s.sec := by
  unfold State.resetFold
  simp

@[simp] theorem State.resetCommit_settings (s : State) (f : FoldId) :
    (State.resetCommit s f).1.cfg = s.cfg ∧ (State.resetCommit s f).1.kept = s.kept ∧ (State.resetCommit s f).1.sec = s.sec := by
  unfold State.resetCommit
  (repeat' split) <;> simp

@[simp] theorem State.disarm_settings (s : State) (f : FoldId) :
    (State.disarm s f).cfg = s.cfg ∧ (State.disarm s f).kept = s.kept ∧ (State.disarm s f).sec = s.sec := by
  unfold State.disarm
  simp

@[simp] theorem State.dropQuad_settings (s : State) (q : QuadId) :
    (State.dropQuad s q).cfg = s.cfg ∧ (State.dropQuad s q).kept = s.kept ∧ (State.dropQuad s q).sec = s.sec := by
  unfold State.dropQuad
  simp

@[simp] theorem State.quarantine_settings (s : State) (q : QuadId) (cause count : Nat) :
    (State.quarantine s q cause count).cfg = s.cfg ∧ (State.quarantine s q cause count).kept = s.kept ∧ (State.quarantine s q cause count).sec = s.sec := by
  unfold State.quarantine
  simp

@[simp] theorem State.countFault_settings (s : State) (q : QuadId) (code stamp : Nat) :
    (State.countFault s q code stamp).cfg = s.cfg ∧ (State.countFault s q code stamp).kept = s.kept ∧ (State.countFault s q code stamp).sec = s.sec := by
  unfold State.countFault
  simp

@[simp] theorem State.causeFrame_settings (s : State) (f : FoldId) (code : Nat) :
    (State.causeFrame s f code).cfg = s.cfg ∧ (State.causeFrame s f code).kept = s.kept ∧ (State.causeFrame s f code).sec = s.sec := by
  unfold State.causeFrame
  simp

/-! ## Resets -/

@[simp] theorem State.foldHalted_settings (s : State) (f : FoldId) :
    (State.foldHalted s f).cfg = s.cfg ∧ (State.foldHalted s f).kept = s.kept ∧ (State.foldHalted s f).sec = s.sec := by
  unfold State.foldHalted
  simp

@[simp] theorem State.foldsHalted_settings (s : State) :
    (State.foldsHalted s).cfg = s.cfg ∧ (State.foldsHalted s).kept = s.kept ∧ (State.foldsHalted s).sec = s.sec := by
  unfold State.foldsHalted
  simp

@[simp] theorem State.zeroTripKeys_settings (s : State) :
    (State.zeroTripKeys s).cfg = s.cfg ∧ (State.zeroTripKeys s).kept = s.kept ∧ (State.zeroTripKeys s).sec = s.sec := by
  unfold State.zeroTripKeys
  simp

@[simp] theorem State.tripCard_settings (s : State) :
    (State.tripCard s).cfg = s.cfg ∧ (State.tripCard s).kept = s.kept ∧ (State.tripCard s).sec = s.sec := by
  unfold State.tripCard
  simp

@[simp] theorem State.quadReset_settings (s : State) (q : QuadId) :
    (State.quadReset s q).cfg = s.cfg ∧ (State.quadReset s q).kept = s.kept ∧ (State.quadReset s q).sec = s.sec := by
  unfold State.quadReset
  simp

@[simp] theorem State.shepReset_settings (s : State) :
    (State.shepReset s).cfg = s.cfg ∧ (State.shepReset s).kept = s.kept ∧ (State.shepReset s).sec = s.sec := by
  unfold State.shepReset
  simp

@[simp] theorem State.shepOff_settings (s : State) :
    (State.shepOff s).cfg = s.cfg ∧ (State.shepOff s).kept = s.kept ∧ (State.shepOff s).sec = s.sec := by
  unfold State.shepOff
  simp

/-! ## Dict -/

@[simp] theorem State.authReject_settings (s : State) (a : Access) (idx sub role seq : Nat) :
    (State.authReject s a idx sub role seq).cfg = s.cfg ∧ (State.authReject s a idx sub role seq).kept = s.kept ∧ (State.authReject s a idx sub role seq).sec = s.sec := by
  unfold State.authReject
  simp

@[simp] theorem State.lateChecks_settings (s : State) (a : Access) (idx sub : Nat) (e : Ent) (v : Bytes) :
    (State.lateChecks s a idx sub e v).st.cfg = s.cfg ∧ (State.lateChecks s a idx sub e v).st.kept = s.kept ∧ (State.lateChecks s a idx sub e v).st.sec = s.sec := by
  unfold State.lateChecks
  (repeat' split) <;> simp

@[simp] theorem State.noticeUnsigned_settings (s : State) (a : Access) (v : Bytes) :
    (State.noticeUnsigned s a v).cfg = s.cfg ∧ (State.noticeUnsigned s a v).kept = s.kept ∧ (State.noticeUnsigned s a v).sec = s.sec := by
  unfold State.noticeUnsigned
  (repeat' split) <;> simp

@[simp] theorem State.answer_settings (s : State) (a : Access) (idx sub abort event : Nat) (value : Bytes) :
    (State.answer s a idx sub abort event value).cfg = s.cfg ∧ (State.answer s a idx sub abort event value).kept = s.kept ∧ (State.answer s a idx sub abort event value).sec = s.sec := by
  unfold State.answer
  simp

/-! ## Notice -/

@[simp] theorem State.noticeReject_settings (s : State) (f : FoldId) (path seq : Nat) :
    (State.noticeReject s f path seq).cfg = s.cfg ∧ (State.noticeReject s f path seq).kept = s.kept ∧ (State.noticeReject s f path seq).sec = s.sec := by
  unfold State.noticeReject
  simp

@[simp] theorem State.takeNotice_settings (s : State) (f : FoldId) (n : NoticePayload) :
    (State.takeNotice s f n).cfg = s.cfg ∧ (State.takeNotice s f n).kept = s.kept ∧ (State.takeNotice s f n).sec = s.sec := by
  unfold State.takeNotice
  dsimp only
  (repeat' split) <;> simp

@[simp] theorem State.noticeCommit_settings (s : State) (path : Nat) (b : Bytes) (addressed : Option FoldId) :
    (State.noticeCommit s path b addressed).1.cfg = s.cfg ∧ (State.noticeCommit s path b addressed).1.kept = s.kept ∧ (State.noticeCommit s path b addressed).1.sec = s.sec := by
  unfold State.noticeCommit
  dsimp only
  (repeat' split) <;> simp

/-! ## Telemetry -/

@[simp] theorem State.takeSnapshot_settings (s : State) :
    (State.takeSnapshot s).cfg = s.cfg ∧ (State.takeSnapshot s).kept = s.kept ∧ (State.takeSnapshot s).sec = s.sec := by
  unfold State.takeSnapshot
  simp

@[simp] theorem State.takeReadings_settings (s : State) (m : Readings) :
    (State.takeReadings s m).cfg = s.cfg ∧ (State.takeReadings s m).kept = s.kept ∧ (State.takeReadings s m).sec = s.sec := by
  unfold State.takeReadings
  simp

/-! ## DictCommands -/

@[simp] theorem okC_settings (s : State) :
    (okC s).1.cfg = s.cfg ∧ (okC s).1.kept = s.kept ∧ (okC s).1.sec = s.sec := by
  unfold okC
  simp

@[simp] theorem noC_settings (s : State) (abort : Nat) :
    (noC s abort).1.cfg = s.cfg ∧ (noC s abort).1.kept = s.kept ∧ (noC s abort).1.sec = s.sec := by
  unfold noC
  simp

@[simp] theorem State.commitStore_settings (s : State) :
    (State.commitStore s).1.cfg = s.cfg ∧ (State.commitStore s).1.kept = s.kept ∧ (State.commitStore s).1.sec = s.sec := by
  unfold State.commitStore
  simp

@[simp] theorem State.commitRestore_settings (s : State) :
    (State.commitRestore s).1.cfg = s.cfg ∧ (State.commitRestore s).1.kept = s.kept ∧ (State.commitRestore s).1.sec = s.sec := by
  unfold State.commitRestore
  simp

@[simp] theorem State.commitShep_settings (s : State) :
    (State.commitShep s).1.cfg = s.cfg ∧ (State.commitShep s).1.kept = s.kept ∧ (State.commitShep s).1.sec = s.sec := by
  unfold State.commitShep
  exact ⟨rfl, rfl, rfl⟩

@[simp] theorem State.commitQuad_settings (s : State) (q : QuadId) :
    (State.commitQuad s q).1.cfg = s.cfg ∧ (State.commitQuad s q).1.kept = s.kept ∧ (State.commitQuad s q).1.sec = s.sec := by
  unfold State.commitQuad
  split <;> simp

@[simp] theorem State.commitKek_settings (s : State) (f : FoldId) (k : Option KekSeal) :
    (State.commitKek s f k).1.cfg = s.cfg ∧ (State.commitKek s f k).1.kept = s.kept ∧ (State.commitKek s f k).1.sec = s.sec := by
  unfold State.commitKek
  (repeat' split) <;> simp

/-! ## Field -/

@[simp] theorem State.canBoot_settings (s : State) :
    (State.canBoot s).cfg = s.cfg ∧ (State.canBoot s).kept = s.kept ∧ (State.canBoot s).sec = s.sec := by
  unfold State.canBoot
  simp

/-! ## Load -/

@[simp] theorem State.loadIdle_settings (s : State) (f : FoldId) (m : Nat) :
    (State.loadIdle s f m).cfg = s.cfg ∧ (State.loadIdle s f m).kept = s.kept ∧ (State.loadIdle s f m).sec = s.sec := by
  unfold State.loadIdle
  split
  · exact ⟨rfl, rfl, rfl⟩
  · refine ⟨foldl_cfg _ _ _ ?_, foldl_kept _ _ _ ?_, foldl_sec _ _ _ ?_⟩ <;> intro s a <;> (repeat' split) <;> simp

@[simp] theorem State.switchBanks_settings (s : State) (f : FoldId) :
    (State.switchBanks s f).cfg = s.cfg ∧ (State.switchBanks s f).kept = s.kept ∧ (State.switchBanks s f).sec = s.sec := by
  unfold State.switchBanks
  simp

@[simp] theorem State.installMapping_settings (s : State) (f : FoldId) (m : Nat) :
    (State.installMapping s f m).cfg = s.cfg ∧ (State.installMapping s f m).kept = s.kept ∧ (State.installMapping s f m).sec = s.sec := by
  unfold State.installMapping
  simp

@[simp] theorem State.installBundle_settings (s : State) (f : FoldId) (l : Loaded) (image : Bytes) :
    (State.installBundle s f l image).cfg = s.cfg ∧ (State.installBundle s f l image).kept = s.kept ∧ (State.installBundle s f l image).sec = s.sec := by
  unfold State.installBundle
  dsimp only
  (repeat' split) <;> simp

@[simp] theorem State.stageStripes_settings (s : State) (f : FoldId) (image : Bytes) :
    (State.stageStripes s f image).cfg = s.cfg ∧ (State.stageStripes s f image).kept = s.kept ∧ (State.stageStripes s f image).sec = s.sec := by
  unfold State.stageStripes
  simp

@[simp] theorem State.installShard_settings (s : State) (f : FoldId) (d : Shard) (h : ShardHead) :
    (State.installShard s f d h).cfg = s.cfg ∧ (State.installShard s f d h).kept = s.kept ∧ (State.installShard s f d h).sec = s.sec := by
  unfold State.installShard
  simp

/-! ## Izr -/

@[simp] theorem State.discardIzr_settings (s : State) (p : PortId) (cause chan : Nat) :
    (State.discardIzr s p cause chan).cfg = s.cfg ∧ (State.discardIzr s p cause chan).kept = s.kept ∧ (State.discardIzr s p cause chan).sec = s.sec := by
  unfold State.discardIzr
  dsimp only
  (repeat' split) <;> simp

@[simp] theorem State.izrAccept_settings (s : State) (rx : IzrRx) (f : FoldId) :
    (State.izrAccept s rx f).cfg = s.cfg ∧ (State.izrAccept s rx f).kept = s.kept ∧ (State.izrAccept s rx f).sec = s.sec := by
  unfold State.izrAccept
  simp

@[simp] theorem State.rxFrame_settings (s : State) (rx : IzrRx) :
    (State.rxFrame s rx).cfg = s.cfg ∧ (State.rxFrame s rx).kept = s.kept ∧ (State.rxFrame s rx).sec = s.sec := by
  unfold State.rxFrame
  simp

@[simp] theorem State.sendIzr_settings (s : State) (c : Nat) (typ : Nat) (e : Bool) (key salt : Bytes) (count : Nat) (payload : Bytes) (frag : Bool) :
    (State.sendIzr s c typ e key salt count payload frag).cfg = s.cfg ∧ (State.sendIzr s c typ e key salt count payload frag).kept = s.kept ∧ (State.sendIzr s c typ e key salt count payload frag).sec = s.sec := by
  unfold State.sendIzr
  simp

/-! ## Peers -/

@[simp] theorem State.departFor_settings (s : State) (f : FoldId) (c cond : Nat) :
    (State.departFor s f c cond).cfg = s.cfg ∧ (State.departFor s f c cond).kept = s.kept ∧ (State.departFor s f c cond).sec = s.sec := by
  unfold State.departFor
  simp

@[simp] theorem State.depart_settings (s : State) (c cond ref : Nat) (detected : Bool) :
    (State.depart s c cond ref detected).cfg = s.cfg ∧ (State.depart s c cond ref detected).kept = s.kept ∧ (State.depart s c cond ref detected).sec = s.sec := by
  unfold State.depart
  simp

@[simp] theorem State.markReplay_settings (s : State) (f : FoldId) (code : Nat) :
    (State.markReplay s f code).cfg = s.cfg ∧ (State.markReplay s f code).kept = s.kept ∧ (State.markReplay s f code).sec = s.sec := by
  unfold State.markReplay
  simp

@[simp] theorem State.stepFault_settings (s : State) (f : FoldId) (code : Nat) :
    (State.stepFault s f code).cfg = s.cfg ∧ (State.stepFault s f code).kept = s.kept ∧ (State.stepFault s f code).sec = s.sec := by
  unfold State.stepFault
  simp

@[simp] theorem State.frameFault_settings (s : State) (f : FoldId) (code : Nat) :
    (State.frameFault s f code).cfg = s.cfg ∧ (State.frameFault s f code).kept = s.kept ∧ (State.frameFault s f code).sec = s.sec := by
  unfold State.frameFault
  simp

/-! ## Frames -/

@[simp] theorem State.startContexts_settings (s : State) (f : FoldId) :
    (State.startContexts s f).cfg = s.cfg ∧ (State.startContexts s f).kept = s.kept ∧ (State.startContexts s f).sec = s.sec := by
  unfold State.startContexts
  dsimp only
  (repeat' split) <;> simp

@[simp] theorem State.takeScoringCut_settings (s : State) (f : FoldId) (tick : Nat) :
    (State.takeScoringCut s f tick).cfg = s.cfg ∧ (State.takeScoringCut s f tick).kept = s.kept ∧ (State.takeScoringCut s f tick).sec = s.sec := by
  unfold State.takeScoringCut
  dsimp only
  (repeat' split) <;> simp

@[simp] theorem State.endIdle_settings (s : State) (f : FoldId) (tick : Nat) :
    (State.endIdle s f tick).cfg = s.cfg ∧ (State.endIdle s f tick).kept = s.kept ∧ (State.endIdle s f tick).sec = s.sec := by
  unfold State.endIdle
  simp

@[simp] theorem State.takeMapping_settings (s : State) (f : FoldId) (tick : Nat) :
    (State.takeMapping s f tick).cfg = s.cfg ∧ (State.takeMapping s f tick).kept = s.kept ∧ (State.takeMapping s f tick).sec = s.sec := by
  unfold State.takeMapping
  split <;> simp

@[simp] theorem State.takePage_settings (s : State) (f : FoldId) (n : Nat) :
    (State.takePage s f n).cfg = s.cfg ∧ (State.takePage s f n).kept = s.kept ∧ (State.takePage s f n).sec = s.sec := by
  unfold State.takePage
  simp

@[simp] theorem State.endPage_settings (s : State) (f : FoldId) (n : Nat) (final : Bool) :
    (State.endPage s f n final).cfg = s.cfg ∧ (State.endPage s f n final).kept = s.kept ∧ (State.endPage s f n final).sec = s.sec := by
  unfold State.endPage
  dsimp only
  (repeat' split) <;> simp

@[simp] theorem State.turnPage_settings (s : State) (f : FoldId) (n : Nat) :
    (State.turnPage s f n).cfg = s.cfg ∧ (State.turnPage s f n).kept = s.kept ∧ (State.turnPage s f n).sec = s.sec := by
  unfold State.turnPage
  simp

@[simp] theorem State.endGrowing_settings (s : State) (f : FoldId) (n : Nat) :
    (State.endGrowing s f n).cfg = s.cfg ∧ (State.endGrowing s f n).kept = s.kept ∧ (State.endGrowing s f n).sec = s.sec := by
  unfold State.endGrowing
  simp

@[simp] theorem State.turnPeers_settings (s : State) (f : FoldId) (tick : Nat) :
    (State.turnPeers s f tick).cfg = s.cfg ∧ (State.turnPeers s f tick).kept = s.kept ∧ (State.turnPeers s f tick).sec = s.sec := by
  unfold State.turnPeers
  dsimp only
  (repeat' split) <;> simp

@[simp] theorem State.queuePeers_settings (s : State) (f : FoldId) (n : Nat) :
    (State.queuePeers s f n).cfg = s.cfg ∧ (State.queuePeers s f n).kept = s.kept ∧ (State.queuePeers s f n).sec = s.sec := by
  unfold State.queuePeers
  simp

@[simp] theorem State.beginFrame_settings (s : State) (f : FoldId) (n : Nat) :
    (State.beginFrame s f n).cfg = s.cfg ∧ (State.beginFrame s f n).kept = s.kept ∧ (State.beginFrame s f n).sec = s.sec := by
  unfold State.beginFrame
  simp

@[simp] theorem State.carryReads_settings (s : State) (f : FoldId) (n : Nat) :
    (State.carryReads s f n).cfg = s.cfg ∧ (State.carryReads s f n).kept = s.kept ∧ (State.carryReads s f n).sec = s.sec := by
  unfold State.carryReads
  simp

@[simp] theorem State.openFrame_settings (s : State) (f : FoldId) (n : Nat) :
    (State.openFrame s f n).cfg = s.cfg ∧ (State.openFrame s f n).kept = s.kept ∧ (State.openFrame s f n).sec = s.sec := by
  unfold State.openFrame
  simp

@[simp] theorem State.settle_settings (s : State) (f : FoldId) :
    (State.settle s f).cfg = s.cfg ∧ (State.settle s f).kept = s.kept ∧ (State.settle s f).sec = s.sec := by
  unfold State.settle
  dsimp only
  (repeat' split) <;> simp

@[simp] theorem State.runFold_settings (s : State) (f : FoldId) :
    (State.runFold s f).cfg = s.cfg ∧ (State.runFold s f).kept = s.kept ∧ (State.runFold s f).sec = s.sec := by
  unfold State.runFold
  simp

@[simp] theorem State.diverge_settings (s : State) (f : FoldId) (q : QuadId) (predicted reported : Nat) :
    (State.diverge s f q predicted reported).cfg = s.cfg ∧ (State.diverge s f q predicted reported).kept = s.kept ∧ (State.diverge s f q predicted reported).sec = s.sec := by
  unfold State.diverge
  simp

@[simp] theorem State.compareQuad_settings (s : State) (f : FoldId) (q : QuadId) :
    (State.compareQuad s f q).cfg = s.cfg ∧ (State.compareQuad s f q).kept = s.kept ∧ (State.compareQuad s f q).sec = s.sec := by
  unfold State.compareQuad
  simp

@[simp] theorem State.sickQuads_settings (s : State) (f : FoldId) :
    (State.sickQuads s f).cfg = s.cfg ∧ (State.sickQuads s f).kept = s.kept ∧ (State.sickQuads s f).sec = s.sec := by
  unfold State.sickQuads
  dsimp only
  (repeat' split) <;> simp

/-! ## TileExec -/

@[simp] theorem State.rebuildMargins_settings (s : State) (f : FoldId) (l : Loaded) (x : Tile) (o : TileOp) :
    (State.rebuildMargins s f l x o).cfg = s.cfg ∧ (State.rebuildMargins s f l x o).kept = s.kept ∧ (State.rebuildMargins s f l x o).sec = s.sec := by
  unfold State.rebuildMargins
  dsimp only
  (repeat' split) <;> simp

@[simp] theorem State.sendTo_settings (s : State) (f : FoldId) (x : Tile) (o : TileOp) (e : Nat) :
    (State.sendTo s f x o e).cfg = s.cfg ∧ (State.sendTo s f x o e).kept = s.kept ∧ (State.sendTo s f x o e).sec = s.sec := by
  unfold State.sendTo
  (repeat' split) <;> simp

@[simp] theorem State.tileFault_settings (s : State) (f : FoldId) (tile code : Nat) (info : Bytes) :
    (State.tileFault s f tile code info).cfg = s.cfg ∧ (State.tileFault s f tile code info).kept = s.kept ∧ (State.tileFault s f tile code info).sec = s.sec := by
  unfold State.tileFault
  simp

@[simp] theorem State.askRestore_settings (s : State) (f : FoldId) (tile w : Nat) :
    (State.askRestore s f tile w).cfg = s.cfg ∧ (State.askRestore s f tile w).kept = s.kept ∧ (State.askRestore s f tile w).sec = s.sec := by
  unfold State.askRestore
  dsimp only
  (repeat' split) <;> simp

@[simp] theorem State.reportParity_settings (s : State) (f : FoldId) (tile : Nat) (x : Tile) (o : TileOp) (feed : Feed) :
    (State.reportParity s f tile x o feed).cfg = s.cfg ∧ (State.reportParity s f tile x o feed).kept = s.kept ∧ (State.reportParity s f tile x o feed).sec = s.sec := by
  unfold State.reportParity
  dsimp only
  (repeat' split) <;> simp

@[simp] theorem State.reportOp_settings (s : State) (f : FoldId) (tile : Nat) (x : Tile) (l : Loaded) (o : TileOp) (feed : Feed) :
    (State.reportOp s f tile x l o feed).cfg = s.cfg ∧ (State.reportOp s f tile x l o feed).kept = s.kept ∧ (State.reportOp s f tile x l o feed).sec = s.sec := by
  unfold State.reportOp
  dsimp only
  (repeat' split) <;> simp

@[simp] theorem State.runOp_settings (s : State) (f : FoldId) (tile cycle : Nat) (w : OpWord) (feed : Feed) :
    (State.runOp s f tile cycle w feed).cfg = s.cfg ∧ (State.runOp s f tile cycle w feed).kept = s.kept ∧ (State.runOp s f tile cycle w feed).sec = s.sec := by
  unfold State.runOp
  split <;> simp

/-! ## Codes -/

@[simp] theorem State.putPart_settings (s : State) (f : FoldId) (l : Loaded) (c : Cohort) (batch tile part : Nat) (acts : Bool) (a : Nat) (ports : List PortUse) :
    (State.putPart s f l c batch tile part acts a ports).cfg = s.cfg ∧ (State.putPart s f l c batch tile part acts a ports).kept = s.kept ∧ (State.putPart s f l c batch tile part acts a ports).sec = s.sec := by
  unfold State.putPart
  dsimp only
  (repeat' split) <;> simp

@[simp] theorem State.readScores_settings (s : State) (f : FoldId) (l : Loaded) (c : Cohort) (batch out : Nat) :
    (State.readScores s f l c batch out).cfg = s.cfg ∧ (State.readScores s f l c batch out).kept = s.kept ∧ (State.readScores s f l c batch out).sec = s.sec := by
  unfold State.readScores
  dsimp only
  split
  · exact ⟨rfl, rfl, rfl⟩
  · split
    · exact State.modFold_settings _ _ _
    · exact ⟨((State.tileFault_settings _ _ _ _ _).1).trans ((State.modFold_settings _ _ _).1),
    ((State.tileFault_settings _ _ _ _ _).2.1).trans ((State.modFold_settings _ _ _).2.1),
    ((State.tileFault_settings _ _ _ _ _).2.2).trans ((State.modFold_settings _ _ _).2.2)⟩

@[simp] theorem State.takeDie_settings (s : State) (f : FoldId) (port dir : Nat) :
    (State.takeDie s f port dir).cfg = s.cfg ∧ (State.takeDie s f port dir).kept = s.kept ∧ (State.takeDie s f port dir).sec = s.sec := by
  unfold State.takeDie
  simp

@[simp] theorem State.codesOut_settings (s : State) (f : FoldId) (l : Loaded) (port pos batch tile part : Nat) (acts : Bool) :
    (State.codesOut s f l port pos batch tile part acts).cfg = s.cfg ∧ (State.codesOut s f l port pos batch tile part acts).kept = s.kept ∧ (State.codesOut s f l port pos batch tile part acts).sec = s.sec := by
  unfold State.codesOut
  dsimp only
  (repeat' split) <;> simp

@[simp] theorem State.scoresIn_settings (s : State) (f : FoldId) (l : Loaded) (port pos batch out : Nat) :
    (State.scoresIn s f l port pos batch out).cfg = s.cfg ∧ (State.scoresIn s f l port pos batch out).kept = s.kept ∧ (State.scoresIn s f l port pos batch out).sec = s.sec := by
  unfold State.scoresIn
  (repeat' split) <;> simp

@[simp] theorem State.finishCodes_settings (s : State) (f : FoldId) (n : Nat) :
    (State.finishCodes s f n).cfg = s.cfg ∧ (State.finishCodes s f n).kept = s.kept ∧ (State.finishCodes s f n).sec = s.sec := by
  unfold State.finishCodes
  dsimp only
  (repeat' split) <;> simp

/-! ## FrameClose -/

@[simp] theorem State.admitCohort_settings (s : State) (f : FoldId) (c : Cohort) :
    (State.admitCohort s f c).cfg = s.cfg ∧ (State.admitCohort s f c).kept = s.kept ∧ (State.admitCohort s f c).sec = s.sec := by
  unfold State.admitCohort
  simp

@[simp] theorem State.admitAll_settings (s : State) (f : FoldId) :
    (State.admitAll s f).cfg = s.cfg ∧ (State.admitAll s f).kept = s.kept ∧ (State.admitAll s f).sec = s.sec := by
  unfold State.admitAll
  simp

theorem sendClosedLoop_settings (c : Nat) (n : Nat) (s : State) :
    (sendClosedLoop c n s).cfg = s.cfg ∧ (sendClosedLoop c n s).kept = s.kept ∧ (sendClosedLoop c n s).sec = s.sec := by
  induction n generalizing s with
  | zero => exact ⟨rfl, rfl, rfl⟩
  | succ n ih =>
    unfold sendClosedLoop
    (repeat' split) <;> first | (simp; done) | (simp only [ih]; (repeat' split) <;> simp)
@[simp] theorem State.sendClosed_settings (s : State) (c : Nat) :
    (State.sendClosed s c).cfg = s.cfg ∧ (State.sendClosed s c).kept = s.kept ∧ (State.sendClosed s c).sec = s.sec := by
  exact sendClosedLoop_settings _ _ _

@[simp] theorem State.flushMsg_settings (s : State) (c : Nat) :
    (State.flushMsg s c).cfg = s.cfg ∧ (State.flushMsg s c).kept = s.kept ∧ (State.flushMsg s c).sec = s.sec := by
  unfold State.flushMsg
  dsimp only
  (repeat' split) <;> simp

@[simp] theorem State.pushEntry_settings (s : State) (c : Nat) (slot : Bool) (key salt : Bytes) (frame : Nat) (b : Bytes) :
    (State.pushEntry s c slot key salt frame b).cfg = s.cfg ∧ (State.pushEntry s c slot key salt frame b).kept = s.kept ∧ (State.pushEntry s c slot key salt frame b).sec = s.sec := by
  unfold State.pushEntry
  split <;> simp

@[simp] theorem State.flushFold_settings (s : State) (f : FoldId) :
    (State.flushFold s f).cfg = s.cfg ∧ (State.flushFold s f).kept = s.kept ∧ (State.flushFold s f).sec = s.sec := by
  unfold State.flushFold
  simp

@[simp] theorem State.postResult_settings (s : State) (f : FoldId) (cid status event : Nat) (r : Result) (len : Nat) :
    (State.postResult s f cid status event r len).cfg = s.cfg ∧ (State.postResult s f cid status event r len).kept = s.kept ∧ (State.postResult s f cid status event r len).sec = s.sec := by
  unfold State.postResult
  simp

@[simp] theorem State.sendResult_settings (s : State) (f : FoldId) (r : Result) :
    (State.sendResult s f r).cfg = s.cfg ∧ (State.sendResult s f r).kept = s.kept ∧ (State.sendResult s f r).sec = s.sec := by
  unfold State.sendResult
  (repeat' split) <;> simp

@[simp] theorem State.noteSent_settings (s : State) (f : FoldId) :
    (State.noteSent s f).cfg = s.cfg ∧ (State.noteSent s f).kept = s.kept ∧ (State.noteSent s f).sec = s.sec := by
  unfold State.noteSent
  simp

@[simp] theorem State.closeHeader_settings (s : State) (f : FoldId) (tick frame : Nat) (h : RepHdr) (withheld : Bool) :
    (State.closeHeader s f tick frame h withheld).cfg = s.cfg ∧ (State.closeHeader s f tick frame h withheld).kept = s.kept ∧ (State.closeHeader s f tick frame h withheld).sec = s.sec := by
  unfold State.closeHeader
  dsimp only
  (repeat' split) <;> simp

@[simp] theorem State.closeHeaders_settings (s : State) (f : FoldId) (tick n : Nat) (c : Option Cohort) :
    (State.closeHeaders s f tick n c).cfg = s.cfg ∧ (State.closeHeaders s f tick n c).kept = s.kept ∧ (State.closeHeaders s f tick n c).sec = s.sec := by
  unfold State.closeHeaders
  dsimp only
  split
  · simp
  · refine ⟨foldl_cfg _ _ _ ?_, foldl_kept _ _ _ ?_, foldl_sec _ _ _ ?_⟩ <;> intro s a <;> (try dsimp only) <;> (repeat' split) <;> simp

@[simp] theorem State.missInput_settings (s : State) (f : FoldId) (n : Nat) (d : InDecl) :
    (State.missInput s f n d).cfg = s.cfg ∧ (State.missInput s f n d).kept = s.kept ∧ (State.missInput s f n d).sec = s.sec := by
  unfold State.missInput
  simp

@[simp] theorem State.closeArrivals_settings (s : State) (f : FoldId) (n : Nat) :
    (State.closeArrivals s f n).cfg = s.cfg ∧ (State.closeArrivals s f n).kept = s.kept ∧ (State.closeArrivals s f n).sec = s.sec := by
  unfold State.closeArrivals
  simp

@[simp] theorem State.checkPeers_settings (s : State) (f : FoldId) (n : Nat) :
    (State.checkPeers s f n).cfg = s.cfg ∧ (State.checkPeers s f n).kept = s.kept ∧ (State.checkPeers s f n).sec = s.sec := by
  unfold State.checkPeers
  simp

@[simp] theorem State.withholdFrame_settings (s : State) (f : FoldId) (n : Nat) :
    (State.withholdFrame s f n).cfg = s.cfg ∧ (State.withholdFrame s f n).kept = s.kept ∧ (State.withholdFrame s f n).sec = s.sec := by
  unfold State.withholdFrame
  dsimp only
  (repeat' split) <;> simp

@[simp] theorem State.closeRoot_settings (s : State) (f : FoldId) (n : Nat) :
    (State.closeRoot s f n).cfg = s.cfg ∧ (State.closeRoot s f n).kept = s.kept ∧ (State.closeRoot s f n).sec = s.sec := by
  unfold State.closeRoot
  dsimp only
  (repeat' split) <;> simp

@[simp] theorem State.finishWheels_settings (s : State) (f : FoldId) (n : Nat) :
    (State.finishWheels s f n).cfg = s.cfg ∧ (State.finishWheels s f n).kept = s.kept ∧ (State.finishWheels s f n).sec = s.sec := by
  unfold State.finishWheels
  simp

@[simp] theorem State.nextRole_settings (s : State) (f : FoldId) :
    (State.nextRole s f).cfg = s.cfg ∧ (State.nextRole s f).kept = s.kept ∧ (State.nextRole s f).sec = s.sec := by
  unfold State.nextRole
  simp

@[simp] theorem State.closeFrame_settings (s : State) (f : FoldId) :
    (State.closeFrame s f).cfg = s.cfg ∧ (State.closeFrame s f).kept = s.kept ∧ (State.closeFrame s f).sec = s.sec := by
  unfold State.closeFrame
  simp

/-! ## Ports -/

@[simp] theorem State.refuseRecords_settings (s : State) (f : FoldId) (n : Nat) :
    (State.refuseRecords s f n).cfg = s.cfg ∧ (State.refuseRecords s f n).kept = s.kept ∧ (State.refuseRecords s f n).sec = s.sec := by
  unfold State.refuseRecords
  simp

@[simp] theorem State.land_settings (s : State) (f : FoldId) (a : Arrival) :
    (State.land s f a).cfg = s.cfg ∧ (State.land s f a).kept = s.kept ∧ (State.land s f a).sec = s.sec := by
  unfold State.land
  simp

@[simp] theorem State.deliverInput_settings (s : State) (f : FoldId) (i unit : Nat) (pos : Nat × Nat) (recId body : Bytes) (route : Route) :
    (State.deliverInput s f i unit pos recId body route).cfg = s.cfg ∧ (State.deliverInput s f i unit pos recId body route).kept = s.kept ∧ (State.deliverInput s f i unit pos recId body route).sec = s.sec := by
  unfold State.deliverInput
  dsimp only
  (repeat' split) <;> simp

@[simp] theorem State.landAll_settings (s : State) (f : FoldId) (rx : IzrRx) (route : Route) (bs : List Bytes) :
    (State.landAll s f rx route bs).cfg = s.cfg ∧ (State.landAll s f rx route bs).kept = s.kept ∧ (State.landAll s f rx route bs).sec = s.sec := by
  unfold State.landAll
  simp

@[simp] theorem State.deliverImage_settings (s : State) (source pdo : Nat) (recId image : Bytes) :
    (State.deliverImage s source pdo recId image).cfg = s.cfg ∧ (State.deliverImage s source pdo recId image).kept = s.kept ∧ (State.deliverImage s source pdo recId image).sec = s.sec := by
  unfold State.deliverImage
  simp

/-! ## Heath -/

@[simp] theorem State.askKeyUpdates_settings (s : State) :
    (State.askKeyUpdates s).cfg = s.cfg ∧ (State.askKeyUpdates s).kept = s.kept ∧ (State.askKeyUpdates s).sec = s.sec := by
  unfold State.askKeyUpdates
  simp

@[simp] theorem State.stepGtc_settings (s : State) (v : Nat) :
    (State.stepGtc s v).cfg = s.cfg ∧ (State.stepGtc s v).kept = s.kept ∧ (State.stepGtc s v).sec = s.sec := by
  unfold State.stepGtc
  simp

@[simp] theorem State.discipline_settings (s : State) (ps : Int) :
    (State.discipline s ps).cfg = s.cfg ∧ (State.discipline s ps).kept = s.kept ∧ (State.discipline s ps).sec = s.sec := by
  unfold State.discipline
  simp

@[simp] theorem State.alignLoss_settings (s : State) (ps : Int) :
    (State.alignLoss s ps).cfg = s.cfg ∧ (State.alignLoss s ps).kept = s.kept ∧ (State.alignLoss s ps).sec = s.sec := by
  unfold State.alignLoss
  simp

@[simp] theorem State.checkUpstream_settings (s : State) :
    (State.checkUpstream s).cfg = s.cfg ∧ (State.checkUpstream s).kept = s.kept ∧ (State.checkUpstream s).sec = s.sec := by
  unfold State.checkUpstream
  simp

@[simp] theorem State.onTime_settings (s : State) (k : LinkId) (sender reference depth : Nat) :
    (State.onTime s k sender reference depth).cfg = s.cfg ∧ (State.onTime s k sender reference depth).kept = s.kept ∧ (State.onTime s k sender reference depth).sec = s.sec := by
  unfold State.onTime
  simp

@[simp] theorem State.growLinkDown_settings (s : State) (k : LinkId) (spare : Bool) (f : FoldId) :
    (State.growLinkDown s k spare f).cfg = s.cfg ∧ (State.growLinkDown s k spare f).kept = s.kept ∧ (State.growLinkDown s k spare f).sec = s.sec := by
  unfold State.growLinkDown
  simp

@[simp] theorem State.dropLink_settings (s : State) (k : LinkId) (cause : Nat) :
    (State.dropLink s k cause).cfg = s.cfg ∧ (State.dropLink s k cause).kept = s.kept ∧ (State.dropLink s k cause).sec = s.sec := by
  unfold State.dropLink
  dsimp only
  (repeat' split) <;> simp

@[simp] theorem State.growLoss_settings (s : State) (k : LinkId) (pos : Nat) :
    (State.growLoss s k pos).cfg = s.cfg ∧ (State.growLoss s k pos).kept = s.kept ∧ (State.growLoss s k pos).sec = s.sec := by
  unfold State.growLoss
  split <;> simp

@[simp] theorem State.loseFrame_settings (s : State) (k : LinkId) (cause slot : Nat) :
    (State.loseFrame s k cause slot).cfg = s.cfg ∧ (State.loseFrame s k cause slot).kept = s.kept ∧ (State.loseFrame s k cause slot).sec = s.sec := by
  unfold State.loseFrame
  simp

@[simp] theorem State.onHello_settings (s : State) (k : LinkId) (h : Hello) :
    (State.onHello s k h).cfg = s.cfg ∧ (State.onHello s k h).kept = s.kept ∧ (State.onHello s k h).sec = s.sec := by
  unfold State.onHello
  simp

@[simp] theorem State.launchIncomplete_settings (s : State) (f : FoldId) (missing : List Nat) :
    (State.launchIncomplete s f missing).cfg = s.cfg ∧ (State.launchIncomplete s f missing).kept = s.kept ∧ (State.launchIncomplete s f missing).sec = s.sec := by
  unfold State.launchIncomplete
  simp

@[simp] theorem State.onArm_settings (s : State) (origin : Nat) (w : ArmWord) :
    (State.onArm s origin w).cfg = s.cfg ∧ (State.onArm s origin w).kept = s.kept ∧ (State.onArm s origin w).sec = s.sec := by
  unfold State.onArm
  dsimp only
  (repeat' split) <;> simp

@[simp] theorem State.onEpochReq_settings (s : State) (h : RelayHdr) (c u k : Nat) :
    (State.onEpochReq s h c u k).cfg = s.cfg ∧ (State.onEpochReq s h c u k).kept = s.kept ∧ (State.onEpochReq s h c u k).sec = s.sec := by
  unfold State.onEpochReq
  simp

@[simp] theorem State.holdProposal_settings (s : State) (b : MemberBody) :
    (State.holdProposal s b).cfg = s.cfg ∧ (State.holdProposal s b).kept = s.kept ∧ (State.holdProposal s b).sec = s.sec := by
  unfold State.holdProposal
  split <;> simp

@[simp] theorem State.setAck_settings (s : State) (b : MemberBody) (c : Nat) :
    (State.setAck s b c).cfg = s.cfg ∧ (State.setAck s b c).kept = s.kept ∧ (State.setAck s b c).sec = s.sec := by
  unfold State.setAck
  split <;> simp

@[simp] theorem State.onPropose_settings (s : State) (h : RelayHdr) (b : MemberBody) :
    (State.onPropose s h b).cfg = s.cfg ∧ (State.onPropose s h b).kept = s.kept ∧ (State.onPropose s h b).sec = s.sec := by
  unfold State.onPropose
  simp

@[simp] theorem State.onAck_settings (s : State) (h : RelayHdr) (b : MemberBody) :
    (State.onAck s h b).cfg = s.cfg ∧ (State.onAck s h b).kept = s.kept ∧ (State.onAck s h b).sec = s.sec := by
  unfold State.onAck
  simp

@[simp] theorem State.abortEpoch_settings (s : State) :
    (State.abortEpoch s).cfg = s.cfg ∧ (State.abortEpoch s).kept = s.kept ∧ (State.abortEpoch s).sec = s.sec := by
  unfold State.abortEpoch
  split <;> simp

@[simp] theorem State.onAbort_settings (s : State) (h : RelayHdr) (b : MemberBody) :
    (State.onAbort s h b).cfg = s.cfg ∧ (State.onAbort s h b).kept = s.kept ∧ (State.onAbort s h b).sec = s.sec := by
  unfold State.onAbort
  dsimp only
  (repeat' split) <;> simp

@[simp] theorem State.applyLink_settings (s : State) (j : LinkId) :
    (State.applyLink s j).cfg = s.cfg ∧ (State.applyLink s j).kept = s.kept ∧ (State.applyLink s j).sec = s.sec := by
  unfold State.applyLink
  simp

@[simp] theorem State.admitLinks_settings (s : State) (old : BitVec 32) :
    (State.admitLinks s old).cfg = s.cfg ∧ (State.admitLinks s old).kept = s.kept ∧ (State.admitLinks s old).sec = s.sec := by
  unfold State.admitLinks
  dsimp only
  (repeat' split) <;> simp

@[simp] theorem State.applyQuad_settings (s : State) (c : Nat) (q : QuadId) :
    (State.applyQuad s c q).cfg = s.cfg ∧ (State.applyQuad s c q).kept = s.kept ∧ (State.applyQuad s c q).sec = s.sec := by
  unfold State.applyQuad
  simp

@[simp] theorem State.applyStack_settings (s : State) (k : Nat) :
    (State.applyStack s k).cfg = s.cfg ∧ (State.applyStack s k).kept = s.kept ∧ (State.applyStack s k).sec = s.sec := by
  unfold State.applyStack
  (repeat' split) <;> simp

@[simp] theorem unitsFold_settings (g : State → Nat × Nat → State) (l : List (Nat × Nat)) (s : State)
    (hg : ∀ s u, (g s u).cfg = s.cfg ∧ (g s u).kept = s.kept ∧ (g s u).sec = s.sec) :
    (l.foldl g s).cfg = s.cfg ∧ (l.foldl g s).kept = s.kept ∧ (l.foldl g s).sec = s.sec :=
  ⟨foldl_cfg _ _ _ fun s a => (hg s a).1, foldl_kept _ _ _ fun s a => (hg s a).2.1, foldl_sec _ _ _ fun s a => (hg s a).2.2⟩

@[simp] theorem State.applyUnits_settings (s : State) (p : Proposal) :
    (State.applyUnits s p).cfg = s.cfg ∧ (State.applyUnits s p).kept = s.kept ∧ (State.applyUnits s p).sec = s.sec := by
  unfold State.applyUnits
  dsimp only
  exact ⟨((State.admitLinks_settings _ _).1).trans (((foldl_settings _ _ _ fun s u => by (repeat' split) <;> simp).1).trans (((foldl_settings _ _ _ fun s u => by (repeat' split) <;> simp).1).trans ((foldl_settings _ _ _ fun s u => by (repeat' split) <;> simp).1))),
    ((State.admitLinks_settings _ _).2.1).trans (((foldl_settings _ _ _ fun s u => by (repeat' split) <;> simp).2.1).trans (((foldl_settings _ _ _ fun s u => by (repeat' split) <;> simp).2.1).trans ((foldl_settings _ _ _ fun s u => by (repeat' split) <;> simp).2.1))),
    ((State.admitLinks_settings _ _).2.2).trans (((foldl_settings _ _ _ fun s u => by (repeat' split) <;> simp).2.2).trans (((foldl_settings _ _ _ fun s u => by (repeat' split) <;> simp).2.2).trans ((foldl_settings _ _ _ fun s u => by (repeat' split) <;> simp).2.2)))⟩

@[simp] theorem State.remap_settings (s : State) (e : Nat) (f : FoldId) :
    (State.remap s e f).cfg = s.cfg ∧ (State.remap s e f).kept = s.kept ∧ (State.remap s e f).sec = s.sec := by
  unfold State.remap
  split <;> simp

@[simp] theorem State.onLeave_settings (s : State) (h : RelayHdr) (c cause ref : Nat) :
    (State.onLeave s h c cause ref).cfg = s.cfg ∧ (State.onLeave s h c cause ref).kept = s.kept ∧ (State.onLeave s h c cause ref).sec = s.sec := by
  unfold State.onLeave
  simp

@[simp] theorem State.onReplay_settings (s : State) (h : RelayHdr) (f : FoldId) (round step : Nat) :
    (State.onReplay s h f round step).cfg = s.cfg ∧ (State.onReplay s h f round step).kept = s.kept ∧ (State.onReplay s h f round step).sec = s.sec := by
  unfold State.onReplay
  simp

@[simp] theorem State.takeArm_settings (s : State) (h : RelayHdr) (w : SvcWord) :
    (State.takeArm s h w).cfg = s.cfg ∧ (State.takeArm s h w).kept = s.kept ∧ (State.takeArm s h w).sec = s.sec := by
  unfold State.takeArm
  dsimp only
  (repeat' split) <;> simp

@[simp] theorem State.takeWord_settings (s : State) (k : LinkId) (w : SvcWord) :
    (State.takeWord s k w).cfg = s.cfg ∧ (State.takeWord s k w).kept = s.kept ∧ (State.takeWord s k w).sec = s.sec := by
  unfold State.takeWord
  dsimp only
  (repeat' split) <;> simp

@[simp] theorem State.holdPeer_settings (s : State) (sender : Nat) (p : PeerFrame) :
    (State.holdPeer s sender p).cfg = s.cfg ∧ (State.holdPeer s sender p).kept = s.kept ∧ (State.holdPeer s sender p).sec = s.sec := by
  unfold State.holdPeer
  simp

/-! ## Commands -/

@[simp] theorem State.readSource_settings (s : State) (v : FnId) (l : LoadSource) :
    (State.readSource s v l).cfg = s.cfg ∧ (State.readSource s v l).kept = s.kept ∧ (State.readSource s v l).sec = s.sec := by
  unfold State.readSource
  simp

@[simp] theorem State.startBg_settings (s : State) (q : QHdr) (kind : Nat) (l : LoadSource) (target generation : Nat) (fields states : Bool) :
    (State.startBg s q kind l target generation fields states).cfg = s.cfg ∧ (State.startBg s q kind l target generation fields states).kept = s.kept ∧ (State.startBg s q kind l target generation fields states).sec = s.sec := by
  unfold State.startBg
  simp

@[simp] theorem State.endBg_settings (s : State) (f : FoldId) (status event r0 r1 r2 : Nat) :
    (State.endBg s f status event r0 r1 r2).cfg = s.cfg ∧ (State.endBg s f status event r0 r1 r2).kept = s.kept ∧ (State.endBg s f status event r0 r1 r2).sec = s.sec := by
  unfold State.endBg
  split <;> simp

@[simp] theorem State.foldCommand_settings (s : State) (f : FoldId) (pf : Bool) (v : Nat) :
    (State.foldCommand s f pf v).1.cfg = s.cfg ∧ (State.foldCommand s f pf v).1.kept = s.kept ∧ (State.foldCommand s f pf v).1.sec = s.sec := by
  unfold State.foldCommand
  (repeat' split) <;> simp

/-! ## Rings -/

theorem State.entry_settings (s : State) (q : QHdr) (k : State → State)
    (hk : ∀ s, (k s).cfg = s.cfg ∧ (k s).kept = s.kept ∧ (k s).sec = s.sec) :
    (State.entry s q k).cfg = s.cfg ∧ (State.entry s q k).kept = s.kept ∧
      (State.entry s q k).sec = s.sec := by
  unfold State.entry
  dsimp only
  (repeat' split) <;> simp [hk]

@[simp] theorem State.issueRead_settings (s : State) (f : FoldId) (q : QHdr) (addr len resAddr : Nat) :
    (State.issueRead s f q addr len resAddr).cfg = s.cfg ∧ (State.issueRead s f q addr len resAddr).kept = s.kept ∧ (State.issueRead s f q addr len resAddr).sec = s.sec := by
  unfold State.issueRead
  simp

@[simp] theorem State.readError_settings (s : State) (f : FoldId) (r : Read) :
    (State.readError s f r).cfg = s.cfg ∧ (State.readError s f r).kept = s.kept ∧ (State.readError s f r).sec = s.sec := by
  unfold State.readError
  split <;> simp

@[simp] theorem State.landRecord_settings (s : State) (f : FoldId) (r : Read) (b : Bytes) :
    (State.landRecord s f r b).cfg = s.cfg ∧ (State.landRecord s f r b).kept = s.kept ∧ (State.landRecord s f r b).sec = s.sec := by
  unfold State.landRecord
  simp

@[simp] theorem State.mbAnswer_settings (s : State) (fn : FnId) (abort event : Nat) :
    (State.mbAnswer s fn abort event).cfg = s.cfg ∧ (State.mbAnswer s fn abort event).kept = s.kept ∧ (State.mbAnswer s fn abort event).sec = s.sec := by
  unfold State.mbAnswer
  simp

/-! ## Boot -/

@[simp] theorem State.supplyTrip_settings (s : State) (r : Rail) (mv : Nat) :
    (State.supplyTrip s r mv).cfg = s.cfg ∧ (State.supplyTrip s r mv).kept = s.kept ∧ (State.supplyTrip s r mv).sec = s.sec := by
  unfold State.supplyTrip
  simp

@[simp] theorem State.trainLink_settings (s : State) (r : LinkTraining) :
    (State.trainLink s r).cfg = s.cfg ∧ (State.trainLink s r).kept = s.kept ∧ (State.trainLink s r).sec = s.sec := by
  unfold State.trainLink
  dsimp only
  (repeat' split) <;> simp

@[simp] theorem State.hbmFail_settings (s : State) (k : StackId) :
    (State.hbmFail s k).cfg = s.cfg ∧ (State.hbmFail s k).kept = s.kept ∧ (State.hbmFail s k).sec = s.sec := by
  unfold State.hbmFail
  simp

@[simp] theorem State.quadFail_settings (s : State) (q : QuadId) :
    (State.quadFail s q).cfg = s.cfg ∧ (State.quadFail s q).kept = s.kept ∧ (State.quadFail s q).sec = s.sec := by
  unfold State.quadFail
  simp

@[simp] theorem State.armTrip_settings (s : State) (x : Nat × Int) :
    (State.armTrip s x).cfg = s.cfg ∧ (State.armTrip s x).kept = s.kept ∧ (State.armTrip s x).sec = s.sec := by
  unfold State.armTrip
  simp

/-! ## Evidence -/

@[simp] theorem State.ackCommitted_settings (s : State) (p : JPage) :
    (State.ackCommitted s p).cfg = s.cfg ∧ (State.ackCommitted s p).kept = s.kept ∧ (State.ackCommitted s p).sec = s.sec := by
  unfold State.ackCommitted
  (repeat' split) <;> simp

/-! ## Hbm -/

@[simp] theorem State.queueRebuild_settings (s : State) (f : FoldId) (key : Nat) :
    (State.queueRebuild s f key).cfg = s.cfg ∧ (State.queueRebuild s f key).kept = s.kept ∧ (State.queueRebuild s f key).sec = s.sec := by
  unfold State.queueRebuild
  (repeat' split) <;> simp

@[simp] theorem State.modelLost_settings (s : State) (f : FoldId) (stripes : List Nat) :
    (State.modelLost s f stripes).cfg = s.cfg ∧ (State.modelLost s f stripes).kept = s.kept ∧ (State.modelLost s f stripes).sec = s.sec := by
  unfold State.modelLost
  split <;> simp

@[simp] theorem State.loseMembers_settings (s : State) (k : StackId) (f : FoldId) :
    (State.loseMembers s k f).cfg = s.cfg ∧ (State.loseMembers s k f).kept = s.kept ∧ (State.loseMembers s k f).sec = s.sec := by
  unfold State.loseMembers
  simp

@[simp] theorem State.levelStop_settings (s : State) :
    (State.levelStop s).cfg = s.cfg ∧ (State.levelStop s).kept = s.kept ∧ (State.levelStop s).sec = s.sec := by
  unfold State.levelStop
  simp

@[simp] theorem State.loseStack_settings (s : State) (k : StackId) (cause : Nat) :
    (State.loseStack s k cause).cfg = s.cfg ∧ (State.loseStack s k cause).kept = s.kept ∧ (State.loseStack s k cause).sec = s.sec := by
  unfold State.loseStack
  simp

@[simp] theorem State.badMember_settings (s : State) (f : FoldId) (key : Nat) :
    (State.badMember s f key).cfg = s.cfg ∧ (State.badMember s f key).kept = s.kept ∧ (State.badMember s f key).sec = s.sec := by
  unfold State.badMember
  simp

@[simp] theorem State.poisonRead_settings (s : State) (f : FoldId) (k : StackId) (a : Nat) (m : Option Nat) (scratch : Bool) :
    (State.poisonRead s f k a m scratch).cfg = s.cfg ∧ (State.poisonRead s f k a m scratch).kept = s.kept ∧ (State.poisonRead s f k a m scratch).sec = s.sec := by
  unfold State.poisonRead
  split <;> simp

@[simp] theorem State.writeLanding_settings (s : State) (a : Nat) (b : Bytes) :
    (State.writeLanding s a b).cfg = s.cfg ∧ (State.writeLanding s a b).kept = s.kept ∧ (State.writeLanding s a b).sec = s.sec := by
  unfold State.writeLanding
  simp

@[simp] theorem State.readSlot_settings (s : State) (f : FoldId) (l : Loaded) (k : StackId) (j tile i lo a : Nat) (y : Stream) :
    (State.readSlot s f l k j tile i lo a y).cfg = s.cfg ∧ (State.readSlot s f l k j tile i lo a y).kept = s.kept ∧ (State.readSlot s f l k j tile i lo a y).sec = s.sec := by
  unfold State.readSlot
  simp

@[simp] theorem State.writeHbm_settings (s : State) (f : FoldId) (k : StackId) (tile a : Nat) (b : Bytes) (bad : List Nat) :
    (State.writeHbm s f k tile a b bad).cfg = s.cfg ∧ (State.writeHbm s f k tile a b bad).kept = s.kept ∧ (State.writeHbm s f k tile a b bad).sec = s.sec := by
  unfold State.writeHbm
  dsimp only
  (repeat' split) <;> simp

@[simp] theorem State.writeSlot_settings (s : State) (f : FoldId) (l : Loaded) (k : StackId) (j tile i a : Nat) (y : Stream) :
    (State.writeSlot s f l k j tile i a y).cfg = s.cfg ∧ (State.writeSlot s f l k j tile i a y).kept = s.kept ∧ (State.writeSlot s f l k j tile i a y).sec = s.sec := by
  unfold State.writeSlot
  dsimp only
  (repeat' split) <;> simp

@[simp] theorem State.remoteSlot_settings (s : State) (f : FoldId) (l : Loaded) (k : StackId) (j tile i a : Nat) (y : Stream) :
    (State.remoteSlot s f l k j tile i a y).cfg = s.cfg ∧ (State.remoteSlot s f l k j tile i a y).kept = s.kept ∧ (State.remoteSlot s f l k j tile i a y).sec = s.sec := by
  unfold State.remoteSlot
  split <;> simp

/-! ## Grazing -/

@[simp] theorem State.scrubSlot_settings (s : State) (k : StackId) :
    (State.scrubSlot s k).cfg = s.cfg ∧ (State.scrubSlot s k).kept = s.kept ∧ (State.scrubSlot s k).sec = s.sec := by
  unfold State.scrubSlot
  dsimp only
  (repeat' split) <;> simp

@[simp] theorem State.rewriteMember_settings (s : State) (f : FoldId) (key : Nat) :
    (State.rewriteMember s f key).cfg = s.cfg ∧ (State.rewriteMember s f key).kept = s.kept ∧ (State.rewriteMember s f key).sec = s.sec := by
  unfold State.rewriteMember
  simp

@[simp] theorem State.readRestore_settings (s : State) (tile w : Nat) :
    (State.readRestore s tile w).cfg = s.cfg ∧ (State.readRestore s tile w).kept = s.kept ∧ (State.readRestore s tile w).sec = s.sec := by
  unfold State.readRestore
  dsimp only
  (repeat' split) <;> simp

@[simp] theorem State.testQuad_settings (s : State) (q : QuadId) (ok : Bool) :
    (State.testQuad s q ok).cfg = s.cfg ∧ (State.testQuad s q ok).kept = s.kept ∧ (State.testQuad s q ok).sec = s.sec := by
  unfold State.testQuad
  simp

@[simp] theorem State.grazeHbm_settings (s : State) (k : StackId) (testOk : Bool) :
    (State.grazeHbm s k testOk).cfg = s.cfg ∧ (State.grazeHbm s k testOk).kept = s.kept ∧ (State.grazeHbm s k testOk).sec = s.sec := by
  unfold State.grazeHbm
  dsimp only
  (repeat' split) <;> simp

@[simp] theorem State.grazeTile_settings (s : State) (n : Nat) :
    (State.grazeTile s n).cfg = s.cfg ∧ (State.grazeTile s n).kept = s.kept ∧ (State.grazeTile s n).sec = s.sec := by
  unfold State.grazeTile
  dsimp only
  (repeat' split) <;> simp

@[simp] theorem State.grazeLanding_settings (s : State) :
    (State.grazeLanding s).cfg = s.cfg ∧ (State.grazeLanding s).kept = s.kept ∧ (State.grazeLanding s).sec = s.sec := by
  unfold State.grazeLanding
  dsimp only
  (repeat' split) <;> simp

@[simp] theorem State.grazeEngine_settings (s : State) (kind index : Nat) (pass : Bool) :
    (State.grazeEngine s kind index pass).cfg = s.cfg ∧ (State.grazeEngine s kind index pass).kept = s.kept ∧ (State.grazeEngine s kind index pass).sec = s.sec := by
  unfold State.grazeEngine
  simp

@[simp] theorem State.grazeLink_settings (s : State) (k : LinkId) (lanes : Nat) :
    (State.grazeLink s k lanes).cfg = s.cfg ∧ (State.grazeLink s k lanes).kept = s.kept ∧ (State.grazeLink s k lanes).sec = s.sec := by
  unfold State.grazeLink
  simp

@[simp] theorem State.grazeShepherd_settings (s : State) :
    (State.grazeShepherd s).cfg = s.cfg ∧ (State.grazeShepherd s).kept = s.kept ∧ (State.grazeShepherd s).sec = s.sec := by
  unfold State.grazeShepherd
  simp

@[simp] theorem State.rebuiltAll_settings (s : State) (f : FoldId) (st : Nat) :
    (State.rebuiltAll s f st).cfg = s.cfg ∧ (State.rebuiltAll s f st).kept = s.kept ∧ (State.rebuiltAll s f st).sec = s.sec := by
  unfold State.rebuiltAll
  simp

@[simp] theorem State.ceRestart_settings (s : State) (unit : Nat) :
    (State.ceRestart s unit).cfg = s.cfg ∧ (State.ceRestart s unit).kept = s.kept ∧ (State.ceRestart s unit).sec = s.sec := by
  unfold State.ceRestart
  (repeat' split) <;> simp

/-! ## Exchange -/

@[simp] theorem State.sendAll_settings {α : Type} (s : State) (f : FoldId) (wrap : α → Exchanged) (l : List (Nat × α)) :
    (State.sendAll s f wrap l).cfg = s.cfg ∧ (State.sendAll s f wrap l).kept = s.kept ∧ (State.sendAll s f wrap l).sec = s.sec :=
  foldl_settings _ _ _ fun s e => by simp

/-! ## Growing -/

@[simp] theorem State.putQuad_settings (s : State) (f : FoldId) (row quad : Nat) (b : Bytes) :
    (State.putQuad s f row quad b).cfg = s.cfg ∧ (State.putQuad s f row quad b).kept = s.kept ∧ (State.putQuad s f row quad b).sec = s.sec := by
  exact foldl_settings _ _ _ fun s e => by (repeat' split) <;> simp

@[simp] theorem State.takeRow_settings (s : State) (f : FoldId) (l : Loaded) (pass row : Nat) (b : Bytes) :
    (State.takeRow s f l pass row b).cfg = s.cfg ∧ (State.takeRow s f l pass row b).kept = s.kept ∧ (State.takeRow s f l pass row b).sec = s.sec := by
  unfold State.takeRow
  simp

@[simp] theorem State.takeRows_settings (s : State) (f : FoldId) (l : Loaded) (q : QHdr) (pass first : Nat) (data : List Bytes) (done : Nat) :
    (State.takeRows s f l q pass first data done).cfg = s.cfg ∧ (State.takeRows s f l q pass first data done).kept = s.kept ∧ (State.takeRows s f l q pass first data done).sec = s.sec := by
  unfold State.takeRows
  simp

@[simp] theorem State.clearLost_settings (s : State) :
    (State.clearLost s).cfg = s.cfg ∧ (State.clearLost s).kept = s.kept ∧ (State.clearLost s).sec = s.sec := by
  unfold State.clearLost
  simp

@[simp] theorem State.clearExact_settings (s : State) (f : FoldId) :
    (State.clearExact s f).cfg = s.cfg ∧ (State.clearExact s f).kept = s.kept ∧ (State.clearExact s f).sec = s.sec := by
  unfold State.clearExact
  simp

@[simp] theorem State.rerunGradient_settings (s : State) (f : FoldId) (cause : Nat) :
    (State.rerunGradient s f cause).cfg = s.cfg ∧ (State.rerunGradient s f cause).kept = s.kept ∧ (State.rerunGradient s f cause).sec = s.sec := by
  unfold State.rerunGradient
  simp

@[simp] theorem State.judgeGradient_settings (s : State) (f : FoldId) :
    (State.judgeGradient s f).cfg = s.cfg ∧ (State.judgeGradient s f).kept = s.kept ∧ (State.judgeGradient s f).sec = s.sec := by
  unfold State.judgeGradient
  dsimp only
  (repeat' split) <;> simp

@[simp] theorem State.startScoring_settings (s : State) (f : FoldId) :
    (State.startScoring s f).cfg = s.cfg ∧ (State.startScoring s f).kept = s.kept ∧ (State.startScoring s f).sec = s.sec := by
  unfold State.startScoring
  simp

/-! ## Preempt -/

@[simp] theorem State.drainNext_settings (s : State) (f : FoldId) :
    (State.drainNext s f).cfg = s.cfg ∧ (State.drainNext s f).kept = s.kept ∧ (State.drainNext s f).sec = s.sec := by
  unfold State.drainNext
  dsimp only
  (repeat' split) <;> simp

@[simp] theorem State.endDrain_settings (s : State) (f : FoldId) (status : Nat) :
    (State.endDrain s f status).cfg = s.cfg ∧ (State.endDrain s f status).kept = s.kept ∧ (State.endDrain s f status).sec = s.sec := by
  unfold State.endDrain
  simp

@[simp] theorem State.abandonDrain_settings (s : State) (f : FoldId) (stamp : Nat) :
    (State.abandonDrain s f stamp).cfg = s.cfg ∧ (State.abandonDrain s f stamp).kept = s.kept ∧ (State.abandonDrain s f stamp).sec = s.sec := by
  unfold State.abandonDrain
  split <;> simp

@[simp] theorem State.nothingWritten_settings (s : State) (f : FoldId) (stamp gen : Nat) :
    (State.nothingWritten s f stamp gen).cfg = s.cfg ∧ (State.nothingWritten s f stamp gen).kept = s.kept ∧ (State.nothingWritten s f stamp gen).sec = s.sec := by
  unfold State.nothingWritten
  simp

@[simp] theorem State.startDrain_settings (s : State) (f : FoldId) (n : Notice) (tick gen : Nat) :
    (State.startDrain s f n tick gen).cfg = s.cfg ∧ (State.startDrain s f n tick gen).kept = s.kept ∧ (State.startDrain s f n tick gen).sec = s.sec := by
  unfold State.startDrain
  simp

@[simp] theorem State.writeCut_settings (s : State) (f : FoldId) (n : Notice) (tick lbaSize : Nat) :
    (State.writeCut s f n tick lbaSize).cfg = s.cfg ∧ (State.writeCut s f n tick lbaSize).kept = s.kept ∧ (State.writeCut s f n tick lbaSize).sec = s.sec := by
  unfold State.writeCut
  simp

@[simp] theorem State.takeCut_settings (s : State) (f : FoldId) (n : Notice) (lbaSize : Nat) :
    (State.takeCut s f n lbaSize).cfg = s.cfg ∧ (State.takeCut s f n lbaSize).kept = s.kept ∧ (State.takeCut s f n lbaSize).sec = s.sec := by
  unfold State.takeCut
  simp

@[simp] theorem State.drainDone_settings (s : State) (f : FoldId) (d : Drain) :
    (State.drainDone s f d).cfg = s.cfg ∧ (State.drainDone s f d).kept = s.kept ∧ (State.drainDone s f d).sec = s.sec := by
  unfold State.drainDone
  simp

/-! ## RootWheel -/

theorem deliverRecs_settings (f : FoldId) (n : Nat) (s : State) :
    (deliverRecs f n s).cfg = s.cfg ∧ (deliverRecs f n s).kept = s.kept ∧ (deliverRecs f n s).sec = s.sec := by
  induction n generalizing s with
  | zero => exact ⟨rfl, rfl, rfl⟩
  | succ n ih =>
    unfold deliverRecs
    (repeat' split) <;> simp [ih]
@[simp] theorem State.deliverReady_settings (s : State) (f : FoldId) :
    (State.deliverReady s f).cfg = s.cfg ∧ (State.deliverReady s f).kept = s.kept ∧ (State.deliverReady s f).sec = s.sec := by
  unfold State.deliverReady
  split
  · exact deliverRecs_settings _ _ _
  · exact ⟨rfl, rfl, rfl⟩

@[simp] theorem State.tagLeaf_settings (s : State) (f : FoldId) (l : Loaded) (leaf : Nat) :
    (State.tagLeaf s f l leaf).cfg = s.cfg ∧ (State.tagLeaf s f l leaf).kept = s.kept ∧ (State.tagLeaf s f l leaf).sec = s.sec := by
  unfold State.tagLeaf
  simp

@[simp] theorem State.sealLeaf_settings (s : State) (f : FoldId) (leaf : Nat) :
    (State.sealLeaf s f leaf).cfg = s.cfg ∧ (State.sealLeaf s f leaf).kept = s.kept ∧ (State.sealLeaf s f leaf).sec = s.sec := by
  unfold State.sealLeaf
  simp

/-! ## Security -/

@[simp] theorem State.spdmSend_settings (s : State) (fn : FnId) (kind : Nat) (parts : List Bytes) :
    (State.spdmSend s fn kind parts).cfg = s.cfg ∧ (State.spdmSend s fn kind parts).kept = s.kept ∧ (State.spdmSend s fn kind parts).sec = s.sec := by
  unfold State.spdmSend
  simp

@[simp] theorem State.spdmSigned_settings (s : State) (fn : FnId) (kind key : Nat) (parts : List Bytes) :
    (State.spdmSigned s fn kind key parts).cfg = s.cfg ∧ (State.spdmSigned s fn kind key parts).kept = s.kept ∧ (State.spdmSigned s fn kind key parts).sec = s.sec := by
  unfold State.spdmSigned
  simp

@[simp] theorem State.spdmError_settings (s : State) (fn : FnId) (code : Nat) :
    (State.spdmError s fn code).cfg = s.cfg ∧ (State.spdmError s fn code).kept = s.kept ∧ (State.spdmError s fn code).sec = s.sec := by
  unfold State.spdmError
  simp

@[simp] theorem State.modSpdm_settings (s : State) (fn : FnId) (g : Spdm → Spdm) :
    (State.modSpdm s fn g).cfg = s.cfg ∧ (State.modSpdm s fn g).kept = s.kept ∧ (State.modSpdm s fn g).sec = s.sec := by
  unfold State.modSpdm
  simp

end Sys2Proof.Machine
end

