-- ==== Sys2Proof/Laws/Tile.lean ====
section
/-! SUPPORT. What a tile operation can change: the bytes it stores, and that it stores none elsewhere. -/

namespace Sys2Proof.Machine

/-! ## Lengths -/

@[simp] theorem length_le (w n : Nat) : (le w n).length = w := by simp [le]
@[simp] theorem length_padTo (n : Nat) (b : Bytes) : (padTo n b).length = n := by simp [padTo]; omega
@[simp] theorem length_mread (m : SMap Byte) (a n : Nat) : (mread m a n).length = n := by simp [mread]
@[simp] theorem length_insInt (v : Int) (l : List Int) : (insInt v l).length = l.length + 1 := by
  induction l with
  | nil => rfl
  | cons a r ih => simp only [insInt]; split <;> simp [ih]
@[simp] theorem length_sortInts (l : List Int) : (sortInts l).length = l.length := by
  induction l with
  | nil => rfl
  | cons a r ih => simpa [sortInts] using ih
theorem length_flatMap_const {α : Type} (l : List α) (g : α → Bytes) (k : Nat) (h : ∀ a, (g a).length = k) :
    (l.flatMap g).length = k * l.length := by
  induction l with
  | nil => simp
  | cons a r ih => simp [List.flatMap_cons, ih, h, Nat.mul_add]; omega
theorem length_binImage (x : Tile) (u : Nat) : (x.binImage u).length = 3072 := by
  unfold Tile.binImage
  rw [length_flatMap_const _ _ 12 (by intro a; simp)]
  simp
theorem length_tensorBlock (word round block rows kind pass : Nat) (four : Bool) (qs : List QRow) :
    (tensorBlock word round block rows kind pass four qs).length = if four then 2624 else 4672 := by
  cases four <;> simp [tensorBlock]

/-! ## Memory outside a write -/

theorem mget_mdrop_outside {α : Type} (d : α) (m : SMap α) (a b i : Nat) (h : i < a ∨ b ≤ i) : mget d (mdrop m a b) i = mget d m i := by
  induction m with
  | nil => rfl
  | cons e r ih =>
    obtain ⟨j, v⟩ := e
    simp only [mdrop] at ih ⊢
    by_cases hj : j = i
    · subst hj
      rcases h with h | h <;> simp [mget, h]
    · by_cases hk : (decide (j < a) || decide (b ≤ j)) = true
      · rw [List.filter_cons_of_pos (by simpa using hk)]; simp [mget, hj, ih]
      · rw [List.filter_cons_of_neg (by simpa using hk)]; simp [mget, hj, ih]
theorem foldl_mwrite_outside (l : List Nat) (p : Nat → Nat) (g : Nat → Bytes) (a n i : Nat) (m : SMap Byte)
    (hp : ∀ r ∈ l, a ≤ p r ∧ p r + (g r).length ≤ a + n) (h : i < a ∨ a + n ≤ i) :
    mget 0 (l.foldl (fun m r => mwrite m (p r) (g r)) m) i = mget 0 m i := by
  induction l generalizing m with
  | nil => rfl
  | cons r t ih =>
    simp only [List.foldl_cons]
    rw [ih _ (fun r hr => hp r (List.mem_cons_of_mem _ hr)), mget_mwrite_outside]
    have := hp r (List.mem_cons_self ..)
    omega

/-! ## The store frame of an operation -/

@[simp] theorem setLane_mem (x : Tile) (lane : Nat) (v : Nat → BitVec 48) : (x.setLane lane v).mem = x.mem := by simp only [Tile.setLane]
theorem foldl_mem {α : Type} (l : List α) (g : Tile → α → Tile) (h : ∀ y a, (g y a).mem = y.mem) (y : Tile) : (l.foldl g y).mem = y.mem := by
  induction l generalizing y with
  | nil => rfl
  | cons a r ih => simp [List.foldl_cons, ih, h]
@[simp] theorem addBin_mem (x : Tile) (u b : Nat) (g h : Int) : (x.addBin u b g h).mem = x.mem := by simp only [Tile.addBin]
@[simp] theorem pass_mem (x : Tile) (w l : Nat) : (x.pass w l).mem = x.mem := by simp only [Tile.pass]
@[simp] theorem resolve_mem (x : Tile) (a : Nat) : (x.resolve a).mem = x.mem := by simp only [Tile.resolve, setLane_mem]
@[simp] theorem linres_mem (x : Tile) (zs : List Nat) (a : Nat) : (x.linres zs a).mem = x.mem := by
  unfold Tile.linres; split <;> simp only [setLane_mem]
@[simp] theorem setTarget_mem (x : Tile) (us : List Nat) (t : Nat) : (x.setTarget us t).mem = x.mem :=
  foldl_mem us _ (by intro y u; split <;> rfl) x
@[simp] theorem clearBins_mem (x : Tile) (us : List Nat) : (x.clearBins us).mem = x.mem := foldl_mem us _ (by intro y u; rfl) x
@[simp] theorem update_mem (x : Tile) (l : Loaded) (us : List Nat) (b q : Nat) : (x.update l us b q).mem = x.mem :=
  foldl_mem _ _ (by intro y r; exact foldl_mem us _ (by intro z u; split <;> rfl) y) { x with quad := q }
@[simp] theorem sideEntryInto_mem (x : Tile) (l : Loaded) (k : BlockAt) (us : List Nat) (b : Bool) (y : Tile) (i : Nat) :
    (x.sideEntryInto l k us b y i).mem = y.mem := by
  unfold Tile.sideEntryInto
  cases b <;> dsimp only
  all_goals
    refine (apply_ite Tile.mem _ _ _).trans ?_
    rw [foldl_mem us _ (by intro z u; exact (apply_ite Tile.mem _ _ _).trans (by rw [addBin_mem, ite_self])) y]
    simp
@[simp] theorem side_mem (x : Tile) (l : Loaded) (us : List Nat) (b : Nat) : (x.side l us b).mem = x.mem :=
  foldl_mem _ _ (by intro y r; simp) x
@[simp] theorem mergeImages_mem (x : Tile) (k : Int) (us : List Nat) (b : Nat) : (x.mergeImages k us b).mem = x.mem :=
  foldl_mem _ _ (by intro y r; exact foldl_mem _ _ (by intro z i; simp) y) x
@[simp] theorem arm_mem (x : Tile) (d : Nat) : (x.arm d).mem = x.mem := by unfold Tile.arm; split <;> rfl

/-- An operation leaves every byte of its tile store outside the ranges it stores to as it was. -/
theorem tileEffect_mem (l : Loaded) (g : Grow) (feed : Feed) (o : TileOp) (x : Tile) (a : Nat) (h : outsideAll (writesOf l o feed) a) :
    mget 0 (tileEffect l g feed o x).mem a = mget 0 x.mem a := by
  cases o <;> simp [outsideAll, writesOf, TileOp.writes, TileOp.writesAt, TileOp.writesFed] at h <;> simp only [tileEffect]
  all_goals first | with_reducible rfl | simp only [pass_mem, resolve_mem, linres_mem, setLane_mem, setTarget_mem, clearBins_mem, update_mem,
    side_mem, mergeImages_mem, arm_mem] |
    simp only [Tile.ldwin, Tile.ldnode, Tile.ldmask, Tile.ldleaf, Tile.ldact] | skip
  case lstore lane b =>
    rw [Tile.lstore, mget_mwrite_outside]
    rw [length_flatMap_const _ _ 6 (by intro r; simp [fix48])]; simpa using h
  case drain u b =>
    rw [Tile.drain, mget_mwrite_outside]
    rw [length_flatMap_const _ _ 3072 (length_binImage x)]; exact h
  case quant t n =>
    rw [Tile.quantInto, mget_mwrite_outside]
    rw [length_tensorBlock]
    by_cases h1 : t % 2 = 0 <;> by_cases h2 : l.jobOr.gradWidth = 4 <;> simp_all [gradLen, Loaded.g4]
  case gen k n =>
    split
    · rename_i hk
      have h := h hk
      rw [mget_mwrite_outside]
      rw [length_flatMap_const _ _ 2 (by intro r; simp)]
      have : (feedRows feed n).length ≤ feed.rows.length := by simp [feedRows]
      omega
    · rfl
  case best b c =>
    unfold Tile.bestInto
    dsimp only
    split
    · rw [mget_mwrite_outside]; simpa using h
    · rfl
  case part b q =>
    unfold Tile.partInto
    dsimp only
    refine foldl_mwrite_outside _ _ _ (blockFrom l.g4 b).nodes 8192 a _ ?_ h
    intro r hr
    have : r < 4096 := by
      have := List.mem_range.1 hr
      exact Nat.lt_of_lt_of_le this (Nat.min_le_left ..)
    simp; omega
  case sbin b e =>
    rw [mget_mwrite_outside]; simpa [Tile.sbinCodes] using h
  case psort b =>
    rw [Tile.sortInPlace, mget_mwrite_outside]
    rw [length_flatMap_const _ _ 8 (by intro r; simp)]; simpa [Tile.values] using h
  case pmerge b n =>
    rw [Tile.sortInPlace, mget_mwrite_outside]
    rw [length_flatMap_const _ _ 8 (by intro r; simp)]; simp [Tile.values]; omega
  case copy b c n => rw [Tile.copy, mget_mwrite_outside]; simpa using h
  case zero b n => exact mget_mdrop_outside 0 _ _ _ _ h

end Sys2Proof.Machine
end

