-- ==== Sys2Proof/Machine/Observe.lean ====
section
/-! DEFINITION. What a reader of the card sees: the dictionary's values, the BAR0 registers, the LEDs (13, 17, 18). Reads are no rows of the
command table, so nothing here is a command; `State.readEntry` gives the answer of a read and what the read leaves (DESIGN CHOICE, log entry 47). -/

namespace Sys2Proof.Machine

/-! ## Values of the dictionary (13, Tables 13.7 to 13.14) -/

/-- Width in bytes of a type of fixed width. -/
def Ty.width : Ty → Nat
  | .int w => w
  | .os n => n
  | _ => 0
/-- Default of a stored entry that has no field of its own (13, Tables 13.7, 13.8). -/
def State.dfltNum (s : State) (idx sub : Nat) : Nat :=
  let node := s.num 0x2060 1 0xFF
  match idx, sub with
  | 0x1017, 0 => 1000
  | 0x1C12, 0 | 0x1C13, 0 => 1
  | 0x1C12, 1 => 0x1600
  | 0x1C13, 1 => 0x1A00
  | 0x1C32, 1 | 0x1C33, 1 => 2
  | 0x1C32, 2 | 0x1C33, 2 => 10000
  | 0x2031, 0 => 47290
  | 0x2060, 1 => 0xFF
  | 0x2060, 2 => 500000
  | 0x2060, 3 => 2000000
  | 0x2100, 2 => 1
  | _, _ =>
    if sub = 1 ∧ 0x1400 ≤ idx ∧ idx ≤ 0x1403 then 0x200 + (idx - 0x1400) * 0x100 + node
    else if sub = 1 ∧ 0x1800 ≤ idx ∧ idx ≤ 0x1803 then 0x180 + (idx - 0x1800) * 0x100 + node
    else 0
/-- ErrorRegister: bit 0 while a Fold is FAULTED or a quadrant quarantined, bit 7 while a held sealed event is unread by every path. -/
def State.errorRegister (s : State) : Nat :=
  let faulted := allFolds.any (fun f => (s.fold f).st == .faulted) || (List.finRange 4).any fun q => (s.quad q).state == 1
  let old := s.events.sealedNext - s.events.sealedLog.length
  let unread := (List.range s.events.sealedLog.length).any fun i => !s.shep.sealedSeen.contains (old + i)
  b2n faulted + 128 * b2n unread
/-- Communication profile. -/
def State.profValue (s : State) (idx sub : Nat) : Option Bytes := match idx, sub with
  | 0x1000, 0 => some (le 4 0)
  | 0x1001, 0 => some (le 1 s.errorRegister)
  | 0x1008, 0 => some (ascii [0x49, 0x7A, 0x6D, 0x6F, 0x61, 0x72, 0x20, 0x49, 0x5A, 0x39])
  | 0x1009, 0 => some Config.boardRevision
  | 0x100A, 0 => some (Config.softwareVersion s.sec.fwMeas)
  | 0x1010, 1 | 0x1011, 1 => some (le 4 1)
  | 0x1018, 1 => some (le 4 0x005A1C09)
  | 0x1018, 2 => some (le 4 9)
  | 0x1018, 3 => some (le 4 0x00010000)
  | 0x1018, 4 => some (le 4 (s.sec.serial % 2 ^ 32))
  | _, _ => none
/-- Card configuration with fields of its own. -/
def State.cardValue (s : State) (idx sub : Nat) : Option Bytes := match idx, sub with
  | 0x2001, 0 => some (le 8 s.sec.serial)
  | 0x2010, 0 => some (le 4 s.cfg.tickPeriod)
  | 0x2011, 0 => some (le 1 (opCode s.cfg.op))
  | 0x2012, 0 => some (le 1 (opCode s.cfg.opCap))
  | 0x2020, 0 => some (le 8 s.now)
  | 0x2030, 0 => some (le 1 s.cfg.portLayout)
  | 0x2100, 3 => some (padTo 32 s.kept.heathOwner)
  | 0x2100, 4 => some (le 4 s.heath.members.toNat)
  | 0x2100, 5 => some (le 4 s.heath.epoch)
  | 0x2100, 6 => some (le 1 s.heath.depth)
  | 0x2100, 7 => some (le 1 ((s.heath.upstream.map (·.val)).getD 0xFF))
  | 0x2110, 0 => some (padTo 97 s.kept.ownerKey)
  | 0x2111, 0 => some (padTo 97 s.kept.operatorKey)
  | 0x2112, 1 => some (le 8 s.kept.seqOwner)
  | 0x2112, 2 => some (le 8 s.kept.seqOperator)
  | _, _ => if 0x2040 ≤ idx ∧ idx ≤ 0x204F ∧ sub = 1 then some (padTo 6 (Config.mac (idx - 0x2040))) else none
/-- ChannelTable (10, Table 10.4). -/
def ChanCfg.value (c : ChanCfg) (sub : Nat) : Option Bytes := match sub with
  | 1 => some (le 1 c.fold)
  | 2 => some (padTo 97 c.clientKey)
  | 3 => some (padTo 17 c.allowed)
  | 4 => some (padTo 16 c.egressAddr)
  | 5 => some (le 2 c.egressUdp)
  | 6 => some (le 1 c.egressPort)
  | 7 => some (le 4 c.byteBudget)
  | 8 => some (le 4 c.recordQuota)
  | 9 => some (le 1 c.role)
  | 10 => some (le 1 c.input)
  | 11 => some (le 2 c.mtu)
  | _ => none
/-- Digests of a Fold (13, Table 13.9). -/
def Fold.digestValue (x : Fold) (sub : Nat) : Bytes := padTo 32 (match x.load, sub with
  | some l, 1 => l.modelMeas
  | some l, 2 => l.bundleDigest
  | some l, 3 => l.foldMeas
  | some _, 4 => x.grow.grownMeas
  | _, _ => [])
/-- Fold area (13, Table 13.9); HpkePublicKey is the value of iz-hpke. -/
def State.foldValue (s : State) (f : FoldId) (o sub : Nat) : Option Bytes :=
  let x := s.fold f
  let c := s.foldCfg f
  match o, sub with
  | 0, 0 => some (le 1 (stCode x.st))
  | 1, 1 => some (le 10 c.plots.toNat)
  | 1, 2 => some (le 24 c.units.toNat)
  | 2, k => if 1 ≤ k ∧ k ≤ 4 then some (x.digestValue k) else none
  | 3, 0 => some (le 4 ((x.load.map (·.period)).getD 0))
  | 4, 0 => some (le 1 ((x.load.map fun l => opCode l.op).getD 0xFF))
  | 5, 0 => some (le 8 x.run.launchAt)
  | 7, 0 => some (le 1 (b2n ((x.load.map (·.realtime)).getD false) + 2 * b2n x.run.replay + 4 * b2n ((x.load.map (·.growing)).getD false)))
  | 8, 1 => some (le 4 (if x.load.isSome then x.capacity else 0))
  | 8, 2 => some (le 4 ((x.load.map (·.res.pcieRecords)).getD 0))
  | 8, 3 => some (le 4 x.adm.q)
  | 8, 4 => some (le 4 x.freeCredits)
  | 9, 1 => some (le 8 x.frame)
  | 9, 2 => some (le 1 x.grow.phase)
  | 9, 3 => some (le 4 x.grow.round)
  | 9, 4 => some (le 1 x.grow.step)
  | 10, 0 => some (le 2 c.ringPages)
  | 11, 0 => some (le 1 c.dests.toNat)
  | 12, 0 => some (le 2 (s.card * 0x800 + unitFold f))
  | 14, 0 => some (padTo 97 x.keys.hpke)
  | _, _ => none
/-- CheckpointTarget (12, Table 12.3). -/
def CkptTarget.value (c : CkptTarget) (sub : Nat) : Option Bytes := match sub with
  | 1 => some (padTo 16 c.address)
  | 2 => some (le 2 c.tcpPort)
  | 3 => some c.nqn
  | 4 => some (le 4 c.nsid)
  | 5 => some (le 8 c.base)
  | 6 => some (le 8 c.areaLbas)
  | 7 => some (le 1 c.egressPort)
  | 8 => some (le 8 c.ledgerBase)
  | 9 => some (le 8 c.ledgerLbas)
  | _ => none
/-- CheckpointStatus (13, Table 13.13). -/
def Preempt.statusValue (p : Preempt) (sub : Nat) : Option Bytes := match sub with
  | 1 => some (le 4 (p.generation.getD (2 ^ 32 - 1)))
  | 2 => some (le 1 p.status)
  | 3 => some (le 1 p.sections)
  | 4 => some (le 8 p.cutTick)
  | 5 => some (le 4 (p.lastSeq.getD 0))
  | _ => none
/-- LedgerStatus (13, Table 13.11); the latest page's fields are free before the first seal (DESIGN CHOICE, log entry 47). -/
def State.ledgerValue (s : State) (f : FoldId) (sub : Nat) : Option Bytes :=
  let l := (s.fold f).led
  match sub with
  | 1 => some (le 8 (s.latestSeq f))
  | 2 => some (padTo 32 (s.latestOut f))
  | 3 => some (le 2 (s.freeSlots f))
  | 4 | 5 | 6 => some (le 8 ((l.acks.getD (sub - 4) none).getD (2 ^ 64 - 1)))
  | _ => none
/-- Record at a log position, zeros where the log does not hold it (13, R384, R385). -/
def eventAt (log : List Event) (next pos : Nat) : Bytes :=
  if next - log.length ≤ pos ∧ pos < next then ((log[pos - (next - log.length)]?).map eventBytes).getD (List.replicate 32 0)
  else List.replicate 32 0
/-- Event windows of a path, LastRefusal, LedgerStatus (13, Table 13.11). -/
def State.logValue (s : State) (p idx sub : Nat) : Option Bytes :=
  let e := s.events
  let cur := fun (w : Nat) => mget 0 s.shep.cursors (2 * p + w)
  match idx, sub with
  | 0x5000, 1 => some (le 8 e.next)
  | 0x5000, 2 => some (le 8 (cur 0))
  | 0x5000, 3 => some (le 8 (e.next - e.log.length))
  | 0x5100, 1 => some (le 8 e.sealedNext)
  | 0x5100, 2 => some (le 8 (cur 1))
  | 0x5100, 3 => some (le 8 (e.sealedNext - e.sealedLog.length))
  | 0x5001, k => if 1 ≤ k ∧ k ≤ 64 then some (eventAt e.log e.next (cur 0 + k - 1)) else none
  | 0x5101, k => if 1 ≤ k ∧ k ≤ 64 then some (eventAt e.sealedLog e.sealedNext (cur 1 + k - 1)) else none
  | 0x5002, k =>
    if 1 ≤ k ∧ k ≤ 4 then
      let r := mget ⟨0, 0, 0, 0⟩ s.shep.refusals (k - 1)
      some (le 2 r.index ++ le 1 r.sub ++ le 1 0 ++ le 4 r.abort ++ le 8 r.at_)
    else none
  | _, _ => if 0x5200 ≤ idx ∧ idx < 0x5210 then s.ledgerValue ⟨idx % 16, by omega⟩ sub else none
/-- Process data and bindings (13, Table 13.14). -/
def State.processValue (s : State) (idx sub : Nat) : Option Bytes :=
  if idx = 0x6000 then (if 1 ≤ sub ∧ sub ≤ 0x80 then some (mread s.shep.rxImage (8 * (sub - 1)) 8) else none)
  else if idx = 0x6100 then (if 1 ≤ sub ∧ sub ≤ 0x40 then some (mread s.shep.txImage (8 * (sub - 1)) 8) else none)
  else if 0x6200 ≤ idx ∧ idx < 0x6600 then
    let b := mget ⟨0, 0, 0, 0, 0⟩ s.cfg.inBinds (idx - 0x6200)
    match sub with
    | 1 => some (le 1 b.source)
    | 2 => some (le 1 b.pdo)
    | 3 => some (le 2 b.offset)
    | 4 => some (le 2 b.length)
    | 5 => some (le 1 b.kind)
    | _ => none
  else if 0x6600 ≤ idx ∧ idx < 0x6610 then
    let b := (s.foldCfg ⟨idx % 16, by omega⟩).outBind
    match sub with
    | 1 => some (le 1 b.dest)
    | 2 => some (le 1 b.pdo)
    | 3 => some (le 2 b.offset)
    | _ => none
  else none
/-- Telemetry: the snapshot's value, zeros before the first; the Shepherd's own entries as they stand (13, Table 13.10). -/
def State.telValue (s : State) (idx sub : Nat) : Option Bytes :=
  if idx = 0x4200 then some (le 1 (mget 0 s.shep.nodes sub))
  else if idx = 0x4300 then match sub with
    | 1 => some (le 1 (match s.shep.source with | .main => 0 | .poe => 1 | .aux => 2))
    | 2 => some (le 4 s.shep.powerMw)
    | 3 => some (le 4 (Config.framFree s.events.sealedLog.length (b2n s.sd.flight.isSome + b2n s.sd.staged.isSome)))
    | _ => none
  else match mget [] s.shep.snap.vals (idx * 256 + sub) with
    | [] => some (List.replicate (s.telNow idx sub).length 0)
    | v => some v
/-- Highest subindex of a record or array entry (13, Entries, types and access). -/
def topSub (idx : Nat) : Nat := ((List.range 256).filter fun k => (entOf idx k).isSome).getLastD 0
/-- Value of a readable entry as path `p` sees it; an entry with no field of its own has its stored value or its default. -/
def State.readValue (s : State) (p idx sub : Nat) (e : Ent) : Bytes :=
  if sub = 0 && !e.writable && (entOf idx 1).isSome then le 1 (topSub idx)
  else
    let own :=
      if idx < 0x2000 then s.profValue idx sub
      else if idx < 0x2200 then s.cardValue idx sub
      else if idx < 0x2300 then (s.chanCfg (idx - 0x2200)).value sub
      else if 0x3000 ≤ idx ∧ idx < 0x3200 then s.foldValue ⟨(idx - 0x3000) / 0x20 % 16, by omega⟩ ((idx - 0x3000) % 0x20) sub
      else if 0x4000 ≤ idx ∧ idx < 0x5000 then s.telValue idx sub
      else if idx < 0x5800 then s.logValue p idx sub
      else if 0x5810 ≤ idx ∧ idx < 0x5820 then (s.foldCfg ⟨idx % 16, by omega⟩).target.value sub
      else if 0x5820 ≤ idx ∧ idx < 0x5830 then (s.fold ⟨idx % 16, by omega⟩).pre.statusValue sub
      else if 0x6000 ≤ idx then s.processValue idx sub
      else none
    match own with
    | some v => v
    | none => padTo e.ty.width (s.val idx sub (le 8 (s.dfltNum idx sub)))

/-! ## A read as a whole -/

/-- Live entries, which no supply but main power serves (13, Access paths and ordering). -/
def liveEntry (idx sub : Nat) : Bool :=
  idx == 0x2020 || (idx == 0x2100 && decide (4 ≤ sub)) ||
    (decide (0x3000 ≤ idx ∧ idx < 0x3200) && !([1, 10, 11].contains ((idx - 0x3000) % 0x20))) ||
    decide (0x4000 ≤ idx ∧ idx ≤ 0x41FF) || decide (0x5200 ≤ idx ∧ idx ≤ 0x520F) || decide (0x5820 ≤ idx ∧ idx ≤ 0x582F)
/-- WO entries that do not read as zeros (13, Table 13.6). -/
def writeOnly (idx sub : Nat) : Bool :=
  idx == 0x2002 || idx == 0x5800 ||
    (decide (0x3000 ≤ idx ∧ idx < 0x3200) && ((idx - 0x3000) % 0x20 == 6 || ((idx - 0x3000) % 0x20 == 13 && sub == 1)))
/-- The path is served for reads by the supplies present (13, Table 13.4; 17, Corners). -/
def State.readService (s : State) (a : Access) : Bool :=
  s.shep.up && !s.shep.restarting && !((a.path == 1 || a.path == 2) && s.shep.fbPresHigh) &&
    (match s.shep.source with
    | .main => true
    | .poe => a.path != 0
    | .aux => a.path == 2)
/-- What a read answers, abort code and value, and what it leaves: a record of the sealed window that it shows is read, a refusal is the
path's LastRefusal. The token's entry is EAT_READ's (13, R356, R360, R369, R375). -/
def State.readEntry (s : State) (a : Access) (idx sub : Nat) : State × Nat × Bytes :=
  let no := fun (abort : Nat) =>
    (({ s with shep := { s.shep with refusals := mset ⟨0, 0, 0, 0⟩ s.shep.refusals a.path.val ⟨idx, sub, abort, s.now⟩ } } : State), abort, ([] : Bytes))
  if !s.readService a then no 0x08000022
  else if a.path == 3 && !inPrefix (s.val 0x2050 4 (List.replicate 17 0)) a.source then no 0x08000022
  else if a.path == 0 && a.fn != 0 && !vfReach a.fn.val idx sub then no 0x06020000
  else match entOf idx sub with
    | none => no (if indexListed idx then 0x06090011 else 0x06020000)
    | some e =>
      if writeOnly idx sub then no 0x06010001
      else if s.shep.source != .main && liveEntry idx sub then
        (if 0x3000 ≤ idx ∧ idx < 0x3200 ∧ (idx - 0x3000) % 0x20 = 0 then (s, 0, [0]) else no 0x08000022)
      else
        let pos := mget 0 s.shep.cursors (2 * a.path.val + 1) + sub - 1
        let seen := idx == 0x5101 && 1 ≤ sub && pos < s.events.sealedNext && !s.shep.sealedSeen.contains pos
        (if seen then { s with shep := { s.shep with sealedSeen := s.shep.sealedSeen ++ [pos] } } else s, 0, s.readValue a.path.val idx sub e)

/-! ## BAR0 (18, Tables 18.1, 18.2) -/

/-- Bytes of a queue block; reserved bytes are zero. -/
def Queue.block (q : Queue) : Bytes :=
  le 8 q.sqBase ++ le 8 q.cqBase ++ le 1 q.sqLog ++ le 1 q.cqLog ++ le 1 q.vector ++ le 1 (b2n q.enabled) ++
    le 1 (b2n q.enabled + 2 * b2n q.error) ++ le 3 0 ++ le 4 q.sqTail ++ le 4 q.cqHead ++ le 32 0
/-- Byte of a function's BAR0 at an offset; every reserved offset reads zero (18, R474). -/
def State.bar0 (s : State) (v : FnId) (off : Nat) : Byte :=
  let x := s.fn v
  let hdr := ascii [0x49, 0x5A, 0x39, 0x44] ++ le 2 1 ++ le 1 v.val ++ le 1 (if v.val = 0 then 0xFF else v.val - 1) ++ le 8 s.sec.serial ++ le 8 s.now
  if off < 0x18 then hdr.getD off 0
  else if 0x1000 ≤ off ∧ off < 0x1040 then x.q0.block.getD (off - 0x1000) 0
  else if 0x1040 ≤ off ∧ off < 0x1080 then (if v.val = 0 then 0 else x.q1.block.getD (off - 0x1040) 0)
  else if 0x2004 ≤ off ∧ off < 0x2008 then (le 4 x.mbStatus).getD (off - 0x2004) 0
  else if 0x6000 ≤ off ∧ off < 0x8000 then x.mbResp.getD (off - 0x6000) 0
  else 0

/-! ## LEDs (17, Table 17.5, R470) -/

/-- What an LED shows. -/
inductive Led | off | amber | green | green1Hz | greenAmber1Hz | amber1Hz | amber4Hz
  deriving DecidableEq, Repr
/-- PWR. -/
def State.ledPwr (s : State) : Led :=
  if s.shep.supplies = (false, false, false) then .off
  else if !s.power.main then .amber
  else if s.power.halted then .amber4Hz
  else if !s.power.ready && !s.power.recovery then .green1Hz
  else match s.power.level with
    | 3 => .green
    | 2 => .greenAmber1Hz
    | 1 => .amber1Hz
    | _ => .amber4Hz
/-- RUN. -/
def State.ledRun (s : State) : Led :=
  if allFolds.any fun f => (s.fold f).st == .running then .green
  else if s.anyActive then .green1Hz
  else .off
/-- ATTN. -/
def State.ledAttn (s : State) : Led :=
  if bit s.errorRegister 0 then .amber else if bit s.errorRegister 7 then .amber1Hz else .off

end Sys2Proof.Machine
end

