-- ==== Sys2Proof/Tests/Slice0.lean ====
section
/-! SUPPORT. Tests of the model on small states, ill-formed commands that the checks refuse, and for every statement states and operands
that meet its premises. -/

open Sys2Proof Sys2Proof.Machine

namespace Sys2Proof.Tests

set_option Elab.async false

/-! ## States -/

/-- Power of a card in service at level 3. -/
def power : Power :=
  { Power.dflt with
    main := true, booted := true, stileTrained := true, hbmTrained := true, selfTested := true, ready := true, level := 3, perst := false,
    usableW := 600 }
/-- A Shepherd on main power with a field bracket. -/
def shepherd : Shepherd :=
  { Shepherd.dflt with up := true, supplies := (true, true, true), source := .main, fbPresHigh := false, alState := 8, nmt := 5 }
/-- A card in service: supplies, clock, boot, self-test and ownership done; its serial number is 7. -/
def card : State :=
  { State.reset with
    clock := { Clock.dflt with gtc := 2000000, running := true }, power := power, shep := shepherd, kept := ⟨[9], [8], 0, 0, List.replicate 32 5⟩,
    sec := ⟨[], true, [], 0, 7, [], 1, [], 0, [], 0⟩, pcie := { Pcie.dflt with gen := 5, width := 16, cfgReady := true } }
/-- An enabled queue whose tail is one entry ahead. -/
def busyQueue : Queue := { Queue.dflt with enabled := true, sqTail := 1 }
/-- The card with queues of every function enabled and one entry waiting on each. -/
def queued : State := { card with fns := Vector.replicate 17 { Func.dflt with q0 := busyQueue, q1 := busyQueue } }
/-- A Growing job of depth 2, one output, 3 rounds. -/
def job : Job := ⟨0, true, 8, 2, 1, 0, 3, 0, 0, 0, 0, 0, 0, 0, 0, 0, 0, 100, 0, [0], none, none⟩
/-- A Scoring bundle at OP-A and 10,000 counts: one output, one mapping for one card with four quadrants and 256 records. -/
def scoring : Loaded := ⟨[1], [2], [3], [4], [5], .opA, 10000, true, false, false, 0, false, 1, [], none, [], 0,
  ⟨[0], [0], 8, 4, 0, 0, false, 8, 0, [⟨3, 1, 0⟩]⟩, [], [⟨1, 1, 0xF, 0, 1, 1, 256, [0]⟩], [⟨true, [⟨0, [10, 20, 30, 40]⟩]⟩], [], 0, 0⟩
/-- A Growing bundle with that job. -/
def growing : Loaded := { scoring with growing := true, job := some job }
/-- Settings of Fold 0: one plot in each quadrant, one unit on each stack. -/
def plots : FoldCfg := { FoldCfg.dflt with plots := 0x1000010000100001, units := 0x1000001000001000001000001000001000001000001 }
/-- The card whose Fold 0 is `x`, on queues with entries waiting. -/
def withFold (x : Fold) : State :=
  { queued with folds := vset queued.folds 0 x, cfg := { queued.cfg with folds := vset queued.cfg.folds 0 plots } }
/-- A Fold in a state, loaded as `l`. -/
def fold (st : FoldState) (l : Loaded) : Fold := { Fold.dflt with st := st, load := some l }
/-- Header of a queue entry of Fold 0 from its own virtual function. -/
def q0 : QHdr := ⟨1, 5, 0, 0⟩
/-- Header of a queue entry of Fold 0 from the physical function. -/
def p0 : QHdr := ⟨0, 5, 0, 0⟩
/-- Dictionary access by the mailbox of the physical function. -/
def pf : Access := ⟨0, 0, []⟩
/-- A signed object of the card owner over a payload. -/
def sgn (index sub : Nat) (b : Bytes) : Signed := ⟨index, sub, List.replicate 32 5, 1, 0, -35, 300, true, b, [9]⟩
/-- A signed write by the owner. -/
def own (index sub : Nat) (b : Bytes) : WReq := ⟨pf, .signed (sgn index sub b), 0⟩
/-- A plain write. -/
def pln (b : Bytes) : WReq := ⟨pf, .plain b, 0⟩

/-- State after a command that completes. -/
def after (i : Instr) (s : State) : State := match exec i s with
  | .next t => t
  | _ => s
/-- How a command ends: 0 in a next state, 1 in a fault. -/
def ends (i : Instr) (s : State) : Nat := match exec i s with
  | .next _ => 0
  | _ => 1
/-- Codes of the events that wait for a log position. -/
def codes (s : State) : List Nat := s.events.waiting.map (·.code)

/-! ## Premises that are met: the queue, the logs, the rings -/

theorem wit_step : ({ card with pending := [.evidenceRemoved 1, .ready 1 2] } : State).pending = .evidenceRemoved 1 :: [.ready 1 2] ∧
    State.reset.pending = [] := by decide
theorem wit_exec_answers : ∃ t, exec (.pageOpen 1 0) State.reset = .next t := ⟨_, rfl⟩
theorem wit_logs_full : logsBounded { card with events := { Events.dflt with log := List.replicate 65536 ⟨0, 0, 0, 0, false, false, []⟩ } } ∧
    ∃ t, step { card with events := { Events.dflt with log := List.replicate 65536 ⟨0, 0, 0, 0, false, false, []⟩ } } = .next t :=
  ⟨⟨Nat.le_of_eq (List.length_replicate ..), Nat.zero_le _⟩, ⟨_, rfl⟩⟩
theorem wit_off_bus : offBus { card with shep := { Shepherd.dflt with up := true } } ∧
    ∃ t, step { card with shep := { Shepherd.dflt with up := true } } = .next t := ⟨by unfold offBus; decide, ⟨_, rfl⟩⟩
theorem wit_may_not_fault : mayFault (.mainPowerLoss 1) = false := by decide
theorem wit_word : (TileOp.send 65535 (2 ^ 32 - 1) 0 (2 ^ 32 - 1)).wf ∧ (BitVec.ofNat 128 512).toNat / 2 ^ 9 % 2 ^ 7 ≠ 0 := by
  unfold TileOp.wf; decide
theorem wit_clock : card.clock.running = true ∧ State.reset.clock.running = false := by decide
theorem wit_completion : ((queued.fn 1).queue 0).enabled = true ∧ ((queued.fn 1).queue 0).full = false ∧ (queued.fn 1).waitingCqes = [] ∧
    queued.power.gated = false ∧ 3 ≤ queued.pcie.gen ∧ (queued.fn 1).firstWaiting 0 = none ∧ ((card.fn 1).queue 0).enabled = false ∧
    ({ queued with pcie := { queued.pcie with gen := 2 } } : State).pcie.gen < 3 := by decide
theorem wit_full_ring : let s := { card with fns := vset card.fns 1 { Func.dflt with q0 := { busyQueue with cqTail := 15 } } }
    ((s.fn 1).queue 0).enabled = true ∧ ((s.fn 1).queue 0).full = true := by decide
theorem wit_doorbells : let u := queued.tick 2000001
    u.barDead 1 = false ∧ hasQueue 1 1 = true ∧ ((u.fn 1).queue 1).enabled = true ∧ 15 < 2 ^ ((u.fn 1).queue 1).sqLog ∧
    2 ^ ((u.fn 1).queue 1).sqLog ≤ 16 ∧ 15 < 2 ^ ((u.fn 1).queue 1).cqLog ∧ 2 ^ ((u.fn 1).queue 1).cqLog ≤ 16 := by decide
theorem wit_queue_fields : let u := card.tick 1
    u.barDead 1 = false ∧ hasQueue 1 0 = true ∧ ((u.fn 1).queue 0).enabled = false ∧ 4096 % 4096 = 0 := by decide
theorem wit_vector_due : let s := { card with fns := vset card.fns 1 { Func.dflt with msixDue := vset Func.dflt.msixDue 0 true,
                                                                                      lastMsix := vset Func.dflt.lastMsix 0 (some 1998000) } }
    vget ((s.tick 1).fn 1).msixDue 0 = true ∧ vget ((s.tick 1).fn 1).lastMsix 0 = some 1998000 ∧ 1998000 + 2000 ≤ (s.tick 1).now := by decide

/-! ## Premises that are met: queue 0 commands and Fold commands -/

theorem wit_host_commands : let u := queued.tick 2000001
    u.canFetch 1 0 = true ∧ takesCommand u q0 ∧ 8192 % 4096 = 0 ∧ 16777216 ≤ 16777216 := by unfold takesCommand; decide

/-- A sealed page that waits for the host, its certificate chain sent. -/
def paged : Fold := { fold .running scoring with
  led := { Ledger.dflt with ring := [⟨3, [1, 2], [], [], 0, [], false, 0, 0⟩], latest := some (3, []), certSent := [true, false, false] } }
theorem wit_ledger : let u := (withFold paged).tick 2000001
    takesCommand u q0 ∧ (u.fetch 1 0).ackOk 0 0 3 = true ∧ ((u.fetch 1 0).hostObject 0).isSome = true := by unfold takesCommand; decide
theorem wit_create_fold : let u := queued.tick 2000001
    let a := (u.fetch 0 0).admitWrite (accOf p0) (foldIdx 0 1) 1 (.signed (sgn 0x3001 1 (le 10 3))) true
    let b := a.st.admitWrite (accOf p0) (foldIdx 0 1) 2 (.signed { sgn 0x3001 2 (le 24 3) with seq := 2 }) true
    takesCommand u p0 ∧ p0.fn = 0 ∧ a.abort = 0 ∧ b.abort = 0 ∧ (queued.fold 0).st = .empty ∧
      queued.plotsConflict 0 (BitVec.ofNat 80 3) = false ∧ queued.unitsConflict 0 (BitVec.ofNat 192 3) = false := by unfold takesCommand; decide
/-- Fold 1 holds plot 2 and unit 2. -/
def neighbour : State := { queued with cfg := { queued.cfg with folds := vset queued.cfg.folds 1 { FoldCfg.dflt with plots := 4, units := 4 } } }
theorem wit_create_fold_refused : let u := neighbour.tick 2000001
    takesCommand u p0 ∧ p0.fn = 0 ∧ neighbour.plotsConflict 0 (BitVec.ofNat 80 4) = true ∧ neighbour.unitsConflict 0 (BitVec.ofNat 192 4) = true ∧
    ((withFold (fold .loaded scoring)).fold 0).st ≠ .empty := by unfold takesCommand; decide
/-- A load from one extent of host memory. -/
def source : LoadSource := ⟨0, 0, 4096, [⟨4096, 640, 0⟩], 640⟩
/-- An evidence card with an import region. -/
def importing : SdCard := ⟨false, ⟨1, true, true, false, 7, 2048, 3300, 8000, 8000, 0, 0, 0, 0⟩, false, 5, 0⟩
theorem wit_background : let u := queued.tick 2000001
    let w := (withFold (fold .loaded growing)).tick 2000001
    let b := (withFold { fold .stopped growing with bg := some ⟨4, 1, 3, source, 0, 0, false⟩ }).tick 2000001
    (takesCommand u q0 ∧ sourceOk source = true ∧ 2 ≤ u.power.level ∧ (u.fetch 1 0).tdiLocked (accOf q0) (foldIdx 0 6) [] = false ∧
      source.source = 0 ∧ (u.fold 0).st = .empty ∧ (u.fold 0).bg = none) ∧
    (takesCommand w q0 ∧ (w.fetch 1 0).tdiLocked (accOf q0) (foldIdx 0 6) [] = false ∧ (w.fold 0).st = .loaded ∧
      (w.fold 0).isGrowing = true ∧ (w.fold 0).bg = none) ∧
    (takesCommand b q0 ∧ (b.fold 0).st = .stopped ∧ (b.fold 0).bg ≠ none) := by unfold takesCommand; decide
theorem wit_import : let u := { queued with sd := { Evidence.dflt with card := some importing } }
    ((u.tick 2000001).fetch 1 0).importReady = true ∧ sourceOk ⟨1, 14, 0, [], 640⟩ = true ∧ sourceOk ⟨1, 15, 0, [], 640⟩ = false ∧
    sourceOk ⟨0, 0, 4096, [⟨4096, 640, 1⟩], 640⟩ = false ∧ sourceOk ⟨0, 0, 4096, [⟨4096, 63, 0⟩, ⟨8192, 64, 0⟩], 127⟩ = false := by decide
theorem wit_background_busy : let b := (withFold { fold .loaded growing with bg := some ⟨4, 1, 3, source, 0, 0, false⟩ }).tick 2000001
    let e := (withFold { Fold.dflt with bg := some ⟨3, 1, 3, source, 0, 0, false⟩ }).tick 2000001
    takesCommand b q0 ∧ (b.fold 0).st = .loaded ∧ (b.fold 0).bg ≠ none ∧ (e.fold 0).st = .empty ∧ (e.fold 0).bg ≠ none := by
  unfold takesCommand; decide
/-- A re-stage image of two bytes, signed by the owner over its measurement. -/
def restage : RestageImage :=
  ⟨true, [], [], [1, 2], ⟨-35, 0, [9], ascii [0x49, 0x5A, 0x4D, 0x53] ++ modelMeasOf [] [] (digest [1, 2])⟩⟩
/-- The bundle that it belongs to. -/
def restaged : Loaded := { scoring with modelMeas := modelMeasOf [] [] (digest [1, 2]) }
theorem wit_restage_done : let s := withFold { fold .loaded restaged with bg := some ⟨4, 1, 3, source, 0, 0, false⟩ }
    (s.tick 1).bgIs 0 4 = true ∧ ((s.tick 1).fold 0).load = some restaged ∧ restageOk (s.tick 1) restaged restage = true := by
  refine ⟨by decide, rfl, ?_⟩
  have h : ((withFold { fold .loaded restaged with bg := some ⟨4, 1, 3, source, 0, 0, false⟩ }).tick 1).roleKey restage.sig.role = [9] := rfl
  simp [restageOk, h]
  simp [restage, restaged]
/-- The manifest of generation 6 of a job on one card, cut at round 2, its key wrapped under the KEK [1]. -/
def manifest : Bytes := padTo 4096 (ascii [0x52, 0x49, 0x43, 0x4B] ++ le 2 1 ++ le 2 0 ++ le 4 6 ++ le 1 0 ++ le 1 1 ++ le 1 0 ++ le 1 1 ++
  padTo 32 [1] ++ padTo 32 [2] ++ le 8 9000 ++ le 4 2 ++ le 2 0 ++ le 1 0 ++ le 25 0 ++ (digest [1]).take 8)
/-- The shard of the only card. -/
def shard : Shard := ⟨1, [⟨0, manifest, true, [true, true, true, false, false]⟩], [], [], [], 0, 1, [], [], []⟩
/-- The Fold that restores it. -/
def restoring : State := withFold { fold .loaded growing with
  bg := some ⟨0x0A, 1, 3, ⟨2, 0, 0, [], 0⟩, 0, 6, false⟩, keys := { FoldKeys.dflt with kek := some [1] } }
theorem wit_restore_done : ((restoring.tick 1).fold 0).load = some growing ∧ restoreCheck (restoring.tick 1) 0 growing 6 shard = 0 ∧
    (ownHead shard (card.card - (shapeOf ((restoring.tick 1).jobSet 0)).1)).isSome = true ∧ fld manifest 88 4 = 2 := by decide +kernel
theorem wit_launch : let s := withFold (fold .loaded scoring)
    let u := s.tick 2000001
    let o := own (foldIdx 0 5) 0 (le 8 9000000)
    let q := sgn (foldIdx 0 5) 0 (le 8 3000001)
    (admits u (foldIdx 0 5) 0 o ∧ u.launchRefusal 0 false 9000000 = none) ∧
    takesCommand u q0 ∧ ((u.fetch 1 0).admitWrite (accOf q0) (foldIdx 0 5) 0 (.signed q) true).abort = 0 ∧ 2 ≤ u.power.level ∧
    u.launchRefusal 0 true 3000001 = none := by unfold admits takesCommand boxAnswers; decide
theorem wit_fold_commands : let u := fun st => (withFold (fold st scoring)).tick 2000001
    (∀ v : Fin 5, v ≠ 0 → ctlPasses (u .running) 6 (.dict 0 (own (foldIdx 0 6) 0 (le 1 v.val)))) ∧
    ctlPasses (u .draining) 6 (.queue q0 (sgn (foldIdx 0 6) 0 (le 1 2))) ∧ ((u .running).fold 0).st = .running ∧
    ((u .draining).fold 0).st = .draining ∧ ctlPasses (u .stopped) 6 (.queue q0 (sgn (foldIdx 0 6) 0 (le 1 3))) ∧
    (∀ v : Fin 5, v ≠ 0 → ctlPasses (u .stopped) 6 (.dict 0 (own (foldIdx 0 6) 0 (le 1 v.val)))) ∧ (u .stopped).power.halted = false := by
  unfold ctlPasses takesCommand admits boxAnswers; decide
/-- The card after a trip, Fold 0 loaded, its dictionary still answering. -/
def halted : State := { withFold (fold .loaded scoring) with power := { power with halted := true, level := 0 } }
theorem wit_halted_reset : ctlPasses (halted.tick 2000001) 6 (.dict 0 (own (foldIdx 0 6) 0 (le 1 4))) ∧ (halted.tick 2000001).power.halted = true := by
  unfold ctlPasses admits boxAnswers; decide

/-! ## Premises that are met: dictionary writes -/

theorem wit_stored_entries : let u := card.tick 2000001
    (admits u 0x2040 1 (pln [0, 0, 0, 0]) ∨ admits u 0x1017 0 (pln [232, 3])) ∧ plainEntry 0x1017 0 = true ∧
    admits u 0x2100 1 (own 0x2100 1 [0]) ∧
    admits u 0x2010 0 (own 0x2010 0 (le 4 10000)) ∧ admits u 0x2011 0 (own 0x2011 0 [0]) ∧ opOfCode (leNat [0]) = some .opA ∧
    opCode card.cfg.opCap ≤ leNat [0] ∧ admits u 0x2030 0 (own 0x2030 0 [1]) ∧
    admits u 0x1010 1 (own 0x1010 1 [115, 97, 118, 101]) ∧ admits u 0x1011 1 (own 0x1011 1 [108, 111, 97, 100]) := by
  unfold admits boxAnswers; decide
theorem wit_point_over_cap : let s := { card with cfg := { card.cfg with opCap := .opB } }
    admits (s.tick 1) 0x2011 0 (own 0x2011 0 [0]) ∧ leNat [0] < opCode s.cfg.opCap := by unfold admits boxAnswers; decide
/-- The card on PoE alone. -/
def onPoe : State := { card with shep := { shepherd with supplies := (false, true, false), source := .poe } }
/-- Access over EtherCAT. -/
def coe : Access := ⟨1, 0, []⟩
theorem wit_refused : ((card.tick 2000001).admitWrite pf 0x2010 0 (.plain [1]) false).abort = 0x06070010 ∧
    ((card.tick 2000001).admitWrite pf 0x22FF 3 (.plain []) false).abort ≠ 0 ∧ boxAnswers (card.tick 2000001) pf ∧
    (onPoe.tick 1).writeService coe = 1 ∧ ((onPoe.tick 1).admitWrite coe 0x1017 0 (.plain [232, 3]) false).abort = 0 ∧
    plainEntry 0x1017 0 = true := by unfold boxAnswers; decide
set_option maxRecDepth 4000 in
theorem wit_owner_key : let u := card.tick 2000001
    admits u 0x2110 0 (own 0x2110 0 (List.replicate 97 1)) ∧ allZero (List.replicate 97 1) = false ∧
    admits u 0x2110 0 (own 0x2110 0 (List.replicate 97 0)) ∧ allZero (List.replicate 97 0) = true ∧ (∀ f, (card.fold f).st = .empty) ∧
    card.kept.ownerKey.isEmpty = false ∧
    admits ((withFold (fold .loaded scoring)).tick 1) 0x2110 0 (own 0x2110 0 (List.replicate 97 0)) ∧
    ((withFold (fold .loaded scoring)).fold 0).st ≠ .empty := by unfold admits boxAnswers; decide
set_option maxRecDepth 2000 in
theorem wit_owner_kek : let s := withFold { fold .loaded scoring with keys := { FoldKeys.dflt with hpke := [4] } }
    let k : KekSeal := ⟨[4], ascii [0x49, 0x5A, 0x43, 0x4B] ++ scoring.foldMeas, [6]⟩
    admits (s.tick 1) 0x5830 0 (own 0x5830 0 (List.replicate 145 1)) ∧ (s.fold 0).load = some scoring ∧ (s.fold 0).keys.hpke.isEmpty = false ∧
    k.recipient = (s.fold 0).keys.hpke ∧ k.info = ascii [0x49, 0x5A, 0x43, 0x4B] ++ scoring.foldMeas := by unfold admits boxAnswers; decide
theorem wit_fold_configuration : let u := card.tick 2000001
    let s := { card with cfg := { card.cfg with channels := [(0, { ChanCfg.dflt with fold := 2 })] } }
    admits u 0x2200 1 (own 0x2200 1 [255]) ∧ admits u 0x22FF 1 (own 0x22FF 1 [0]) ∧ card.chanFold 255 = none ∧ s.chanFold 0 = some 2 ∧
    admits (s.tick 1) 0x2200 1 (own 0x2200 1 [255]) ∧
    admits (withFold (fold .loaded scoring)) 0x300A 0 (own 0x300A 0 (le 2 8)) ∧ leNat (le 2 8) ≤ scoring.res.ringMax ∧
    admits (withFold (fold .loaded scoring)) 0x300A 0 (own 0x300A 0 (le 2 9)) ∧ scoring.res.ringMax < leNat (le 2 9) := by
  unfold admits boxAnswers; decide
theorem wit_masks :
    admits (neighbour.tick 1) 0x3001 1 (own 0x3001 1 (le 10 3)) ∧ (∀ g, g ≠ 0 → (neighbour.foldCfg g).plots &&& BitVec.ofNat 80 3 = 0) ∧
    admits (neighbour.tick 1) 0x3001 1 (own 0x3001 1 (le 10 4)) ∧ (neighbour.foldCfg 1).plots &&& BitVec.ofNat 80 4 ≠ 0 ∧
    admits (neighbour.tick 1) 0x3001 2 (own 0x3001 2 (le 24 3)) ∧ (∀ g, g ≠ 0 → (neighbour.foldCfg g).units &&& BitVec.ofNat 192 3 = 0) ∧
    admits (neighbour.tick 1) 0x3001 2 (own 0x3001 2 (le 24 4)) ∧ (neighbour.foldCfg 1).units &&& BitVec.ofNat 192 4 ≠ 0 := by
  unfold admits boxAnswers; decide
theorem wit_unbound : let u := card.tick 2000001
    admits u 0x6200 2 (own 0x6200 2 [1]) ∧ ((mget ⟨0, 0, 0, 0, 0⟩ card.cfg.inBinds 0).write 2 [1]).source = 0 ∧
    admits u 0x660F 3 (own 0x660F 3 (le 2 9)) ∧ ((card.foldCfg 15).outBind.write 3 (le 2 9)).dest = 0 := by unfold admits boxAnswers; decide
/-- Fold 0's input 3 at bytes 1,016 to 1,023 of the RxPDO, Fold 1's input 1 at bytes 0 to 7, and Fold 1's result at byte 100 of the TxPDO. -/
def bound : State :=
  let s := withFold (fold .loaded scoring)
  { s with cfg := { s.cfg with inBinds := [(3, ⟨0, 0, 1016, 8, 0⟩), (65, ⟨1, 0, 0, 8, 0⟩)],
                               folds := vset s.cfg.folds 1 { FoldCfg.dflt with outBind := ⟨1, 0, 100⟩ } } }
theorem wit_input_ranges : let b := (mget ⟨0, 0, 0, 0, 0⟩ bound.cfg.inBinds 3).write 1 [1]
    admits (bound.tick 1) 0x6203 1 (own 0x6203 1 [1]) ∧ b = ⟨1, 0, 1016, 8, 0⟩ ∧ b.source ≠ 0 ∧ (bound.fold 0).load = some scoring ∧
    (∃ d ∈ scoring.res.inputs, d.number = 3) ∧ b.pdoOk = true ∧ b.offset + b.length ≤ 1024 ∧
    (∀ e ∈ bound.cfg.inBinds, e.1 / 64 ≠ 0 → e.2.source = b.source → e.2.pdo = b.pdo → overlaps b.offset b.length e.2.offset e.2.length = false) := by
  unfold admits boxAnswers; decide
theorem wit_input_refusals : let s := { bound with cfg := { bound.cfg with inBinds := [(3, ⟨0, 0, 4, 8, 0⟩), (4, ⟨1, 0, 1017, 8, 0⟩), (65, ⟨1, 0, 0, 8, 0⟩)] } }
    let b := (mget ⟨0, 0, 0, 0, 0⟩ s.cfg.inBinds 3).write 1 [1]
    admits (s.tick 1) 0x6203 1 (own 0x6203 1 [1]) ∧ b.source = 1 ∧ b.pdoOk = true ∧ (65, (⟨1, 0, 0, 8, 0⟩ : InBind)) ∈ s.cfg.inBinds ∧
    overlaps b.offset b.length 0 8 = true ∧ admits (s.tick 1) 0x6204 1 (own 0x6204 1 [1]) ∧ (∀ d ∈ scoring.res.inputs, d.number ≠ 4) ∧
    (1024 < 1017 + 8) := by unfold admits boxAnswers; decide
theorem wit_result_ranges : let b := (bound.foldCfg 0).outBind.write 1 [1]
    let c := ((⟨0, 0, 100⟩ : OutBind)).write 1 [1]
    admits (bound.tick 1) 0x6600 1 (own 0x6600 1 [1]) ∧ b.dest ≠ 0 ∧ b.offset + (bound.fold 0).fieldLen ≤ 512 ∧
    (∀ g, g ≠ 0 → (bound.foldCfg g).outBind.dest = b.dest → (b.dest = 1 ∨ (bound.foldCfg g).outBind.pdo = b.pdo) →
      overlaps b.offset (bound.fold 0).fieldLen (bound.foldCfg g).outBind.offset (bound.fold g).fieldLen = false) ∧
    (bound.foldCfg 1).outBind.dest = c.dest ∧ overlaps c.offset (bound.fold 0).fieldLen 100 (bound.fold 1).fieldLen = true ∧
    512 < 500 + (bound.fold 0).fieldLen := by unfold admits boxAnswers; decide
theorem wit_resets : let u := card.tick 2000001
    let a := (withFold (fold .running scoring)).tick 2000001
    (∀ v ∈ [1, 2, 0x10, 0x13], admits u 0x2002 0 (own 0x2002 0 (le 1 v))) ∧ u.anyActive = false ∧ u.power.halted = false ∧
    admits a 0x2002 0 (own 0x2002 0 [1]) ∧ a.anyActive = true ∧ (∀ f ∈ u.foldsIn 3, isActive (card.fold f).st = false) ∧
    0 ∈ a.foldsIn 3 ∧ isActive ((withFold (fold .running scoring)).fold 0).st = true := by
  unfold admits boxAnswers; decide

/-! ## Premises that are met: power, boot, pins -/

theorem wit_power_up :
    let on := { card with power := { Power.dflt with main := true } }
    let boot := { on with power := { on.power with booted := true }, clock := { Clock.dflt with running := true } }
    (State.reset.tick 1).shep.up = false ∧
    ({ card with power := Power.dflt } : State).power.main = false ∧ ({ card with power := Power.dflt } : State).shep.deferred = [] ∧
    (on.power.main = true ∧ ({ on with clock := Clock.dflt } : State).clock.running = false ∧ on.power.halted = false) ∧
    (boot.power.booted = true ∧ boot.power.stileTrained = false ∧ boot.power.halted = false ∧ boot.power.hbmTrained = false ∧
      boot.power.selfTested = false) := by decide
theorem wit_stile_training :
    let s := { card with power := { power with stileTrained := false, ready := false },
                         cfg := { card.cfg with vals := mset [] card.cfg.vals (0x2100 * 256 + 2) [2] } }
    s.topology ≠ 1 ∧ cablePartner s.topology s.card 0 ≠ none ∧ s.power.stileTrained = false ∧
    ({ power with ready := false } : Power).ready = false ∧ cableLength (some (le 2 300)) = some 300 ∧ cableLength (some (le 2 301)) = none ∧
    cableLength none = none := by decide
theorem wit_ready : let s := { card with power := { power with ready := false } }
    (s.tick 1).power.booted = true ∧ (s.tick 1).power.ready = false ∧ (s.tick 1).power.halted = false ∧ (s.tick 1).power.selfTested = true ∧
    (s.tick 1).power.hbmTrained = true ∧ (s.tick 1).power.stileTrained = true ∧ (s.tick 1).topology = 1 ∧ (s.tick 1).windowClosed 9500 = true := by decide
/-- A firmware set signed under key 6. -/
def firmware : FwSet := ⟨[1], [2], [3], [4], [6], [6], [digest [2], digest [3], digest [4]], 1⟩
/-- One that does not verify. -/
def tampered : FwSet := { firmware with svn := 0 }
/-- The card before its boot, fused for key 6 and SVN 1, a recovery set on its evidence card. -/
def booting : State :=
  { card with power := { power with booted := false, ready := false }, clock := { Clock.dflt with gtc := 1, running := true },
              sec := { card.sec with fwKeyDigest := digest [6], minSvn := 1 },
              sd := { Evidence.dflt with card := some { importing with label := { importing.label with recovery := true } } } }
theorem wit_sets : (booting.tick 5).setVerifies firmware = true ∧ (booting.tick 5).setVerifies tampered = false ∧ (booting.tick 5).sdRecovery = true ∧
    (card.tick 5).sdRecovery = false := by
  refine ⟨?_, ?_, by decide, by decide⟩
  · show (digest [6] == digest [6] && ([6] : Bytes) == [6] && decide (1 ≤ 1) && _ == [digest [2], digest [3], digest [4]]) = true
    simp [firmware]
  · show (digest [6] == digest [6] && ([6] : Bytes) == [6] && decide (1 ≤ 0) && _) = false
    simp
theorem wit_boot : let s := { card with power := { power with booted := false, ready := false }, clock := { Clock.dflt with gtc := 1, running := true } }
    (s.tick 5).power.main = true ∧ (s.tick 5).clock.running = true ∧ (s.tick 5).power.booted = false ∧ (s.tick 5).power.halted = false ∧
    ({ s with power := { s.power with recovery := true } } : State).power.recovery = true ∧ (s.tick 5).power.recovery = false ∧
    (List.replicate 8176 (0 : Byte)).length ≤ 8176 ∧ 134217728 - 8176 + 8176 ≤ 134217728 ∧ 8176 < (List.replicate 8177 (0 : Byte)).length ∧
    134217728 < 134217727 + [(1 : Byte), 2].length ∧ (s.tick 5).barDead 1 = false ∧ (1 : FnId) ≠ 0 := by
  refine ⟨by decide, by decide, by decide, by decide, by decide, by decide, by rw [List.length_replicate], by decide,
    by rw [List.length_replicate]; decide, by decide, by decide, by decide⟩
theorem wit_supplies : let u := card.tick 1
    u.shep.up = true ∧ (false || false || true) = true ∧ u.power.main = true ∧ card.shep.supplies.2.1 = true ∧
    ({ card with shep := { shepherd with supplies := (true, false, true) } } : State).shep.supplies.2.1 = false ∧
    ({ card with shep := { shepherd with supplies := (true, false, false) } } : State).shep.supplies.2.2 = false ∧
    ({ card with shep := { shepherd with restarting := true, fieldBefore := (8, 5) } } : State).shep.fieldBefore.2 ≠ 0 ∧
    ({ card with shep := { shepherd with restarting := true, fieldBefore := (8, 0) } } : State).shep.fieldBefore.2 = 0 := by decide
theorem wit_pins : let u := card.tick 1
    u.power.perst = false ∧ u.power.main = true ∧ u.power.halted = false ∧ (State.reset.tick 1).power.main = false ∧ (16 : Nat) ∈ [1, 4, 8, 16] ∧
    u.pcie.gen ≠ 0 ∧ (u.pcie.gen ≠ 6 ∨ u.pcie.width ≠ 16) ∧
    ((withFold { Fold.dflt with bg := some ⟨3, 1, 3, source, 0, 0, false⟩ }).fold 0).bg = some ⟨3, 1, 3, source, 0, 0, false⟩ := by decide
theorem wit_trips : let u := card.tick 1
    u.power.main = true ∧ u.power.halted = false ∧ 799 < tripMv .core u.cfg.op ∧ 387 < warnMv .hbmVddq u.cfg.op ∧
    opCapW u.cfg.op * 1000 < 600001 ∧
    (({ card with power := { power with tripAt := some 2010000 } } : State).tick 2010000).power.tripAt = some 2010000 ∧
    2010000 ≤ (({ card with power := { power with tripAt := some 2010000 } } : State).tick 2010000).now ∧
    (∃ x ∈ [((0 : Nat), (1050 : Int))], sensorOk [(0, 1050)] x = true ∧ 1050 ≤ x.2) ∧
    (∀ x ∈ [((0 : Nat), (1049 : Int))], sensorOk [(0, 1049)] x = true ∧ x.2 < 1050) := by decide
theorem wit_bracket : let off := { card with shep := { Shepherd.dflt with up := true } }
    (off.tick 1).shep.fbPresHigh = true ∧ (off.tick 1).shep.restarting = false ∧
    (127 < (off.tick 1).canNode) ∧ (card.tick 1).shep.fbPresHigh = false ∧
    1 ≤ ({ off with cfg := { off.cfg with vals := mset [] off.cfg.vals (0x2060 * 256 + 1) [127] } } : State).canNode ∧
    ({ off with cfg := { off.cfg with vals := mset [] off.cfg.vals (0x2060 * 256 + 1) [127] } } : State).canNode ≤ 127 ∧
    (card.tick 1).shep.nmt ≠ 0 ∧ (card.tick 1).num 0x2060 4 0 = 0 ∧ (card.tick 1).num 0x1017 0 1000 ≠ 0 ∧
    0 < portCount card.cfg.portLayout ∧ cageOf card.cfg.portLayout 0 = 0 := by decide
theorem wit_tokens :
    let s := { withFold (fold .loaded scoring) with shep := { shepherd with eatNonces := [(0, [1, 2])], segs := [⟨1, 0, 0x5000, 2, 0⟩] } }
    (s.tick 1).writeService pf = 2 ∧ boxAnswers (s.tick 1) pf ∧ pf.path ≠ 3 ∧ pf.fn = 0 ∧ mget [] (s.tick 1).shep.eatNonces 0 = ([1, 2] : Bytes) ∧
    ((s.tick 1).fold 0).load.isSome = true ∧ mget [] (s.tick 1).shep.eatNonces 1 = [] ∧ (s.tick 1).shep.up = true ∧
    (s.tick 1).shep.restarting = false ∧ (s.tick 1).clock.running = true ∧ (s.tick 1).snapDue = true := by
  unfold boxAnswers; decide

/-! ## Premises that are met: records, notices, rows -/

/-- A running Scoring Fold whose frame 0 is open, under mapping 1, with a share of four. -/
def running : Fold := { fold .running scoring with
  run := { Run.dflt with launchAt := 1990000, cutoffOk := true, started := true, opened := 1, closed := false, mapping := some 1 }
  adm := { Admit.dflt with q := 4, qp := 4 } }
/-- The same Fold at the boundary after frame 0. -/
def atEnd : Fold := { running with run := { running.run with closed := true } }
/-- A running Growing Fold at a boundary, in a role of its pass. -/
def grows (role : Nat) : Fold := { fold .running growing with
  run := { Run.dflt with launchAt := 1990000, cutoffOk := true, started := true, opened := 1, mapping := some 1, role := role } }
/-- A STOP notice for Fold 0, Sequence 1, issued at 2,000,000 with Deadline 5,000,000. -/
def notice : Bytes := [0, 0, 0, 0] ++ le 4 1 ++ le 8 2000000 ++ le 8 5000000 ++ le 8 0
/-- The same as CONTINUE. -/
def contNotice : Bytes := [0, 1, 0, 0] ++ le 4 1 ++ le 8 2000000 ++ le 8 5000000 ++ le 8 0
/-- Fold 0 in a state with a drain. -/
def draining : State := withFold { running with pre := { Preempt.dflt with drain := some ⟨false, 1, 0, 2000000, 0, 0, 0, 2, 0, 1, 1, 5000000, [], []⟩ } }
theorem wit_notice : let u := (withFold running).tick 2000001
    let d := draining.tick 2000001
    admits u 0x5800 0 (own 0x5800 0 notice) ∧ (decodeNotice notice).foldId = some 0 ∧ u.noticeOk 0 notice = true ∧ noticeGood u 0 notice ∧
    admits u 0x5800 0 (own 0x5800 0 (le 32 0)) ∧ (decodeNotice (le 32 0)).foldId = some 0 ∧ u.noticeOk 0 (le 32 0) = false ∧
    admits d 0x5800 0 (own 0x5800 0 (contNotice)) ∧ (decodeNotice contNotice).foldId = some 0 ∧ d.noticeOk 0 contNotice = true ∧
    (decodeNotice contNotice).mode = 1 ∧ (d.fold 0).pre.drain.isSome = true := by
  unfold noticeGood admits boxAnswers; decide
theorem wit_notice_queue : let u := (withFold running).tick 2000001
    let d := draining.tick 2000001
    takesCommand u q0 ∧ ((u.fetch 1 0).admitWrite (accOf q0) 0x5800 0 (.signed (sgn 0x5800 0 notice)) true).abort = 0 ∧ noticeGood u 0 notice ∧
    ((u.fetch 1 0).admitWrite (accOf q0) 0x5800 0 (.signed (sgn 0x5800 0 (le 32 0))) true).abort = 0 ∧ u.noticeOk 0 (le 32 0) = false ∧
    takesCommand d q0 ∧ ((d.fetch 1 0).admitWrite (accOf q0) 0x5800 0 (.signed (sgn 0x5800 0 contNotice)) true).abort = 0 ∧
    d.noticeOk 0 contNotice = true ∧ (decodeNotice contNotice).mode = 1 ∧ (d.fold 0).pre.drain.isSome = true := by
  unfold noticeGood takesCommand; decide
/-- Header of a message on channel 3: type, Sequence, entries, length. -/
def hdr (typ sq count len : Nat) : IzrHdr := ⟨0x495A, 1, typ, false, 0, 3, count, sq, len, 0⟩
/-- The message with a payload, sealed under key 1 and salt 2. -/
def msg (h : IzrHdr) (b : Bytes) : IzrRx :=
  ⟨0, true, false, true, 47290, [10], 0, 9000, h, ⟨[1], izrNonce [2] h.seq, izrHdrBytes h, b⟩⟩
/-- Channel 3 keyed for Fold 0 under a role, last Sequence 6. -/
def channel (role : Nat) (x : Fold) : State :=
  let s := withFold x
  { s with cfg := { s.cfg with channels := [(3, { ChanCfg.dflt with fold := 0, role := role, byteBudget := 100000, clientKey := [7] })] },
           chans := [(3, { Chan.dflt with inSeq := 6, inKey := vset Chan.dflt.inKey 0 [1], salt := vset Chan.dflt.salt 0 [2] })] }
theorem wit_notice_izr : let rx := msg (hdr 4 7 0 32) notice
    let v := ((channel 2 running).tick 2000001).rxFrame rx
    v.izrLive rx = true ∧ v.izrCause rx = none ∧ rx.hdr.typ = 4 ∧ v.izrOpen rx = .ok notice ∧ v.chanFold 3 = some 0 ∧
    (sgn 0x5800 0 notice).size ≤ 4096 ∧ v.sigOk 0x5800 0 1 (sgn 0x5800 0 notice) = true ∧ noticeGood v 0 notice ∧
    v.sigOk 0x5800 0 1 (sgn 0x5800 0 (le 32 0)) = true ∧ v.noticeOk 0 (le 32 0) = false ∧
    v.sigOk 0x5800 0 1 { sgn 0x5800 0 notice with seq := 0 } = false := by
  unfold noticeGood; exact ⟨by decide, by decide, rfl, rfl, by decide, by decide, by decide, by decide, by decide, by decide, by decide⟩
theorem wit_record : let u := (withFold running).tick 2000001
    let g := (withFold (grows 3)).tick 2000001
    takesEntry u q0 ∧ running.load = some scoring ∧ running.live = true ∧ running.growingNow = false ∧ running.recordPlace = true ∧
    running.adm.reads.length + running.adm.stamped < running.adm.qp ∧ 8192 % 8 = 0 ∧ 8196 % 8 ≠ 0 ∧ bodyLen scoring + 32 ≤ 42 ∧
    41 < bodyLen scoring + 32 ∧ takesEntry g q0 ∧ (grows 3).growingNow = true ∧ (grows 3).live = true ∧ (fold .loaded scoring).live = false ∧
    takesEntry ((withFold (fold .loaded scoring)).tick 1) q0 ∧
    ({ running with adm := { Admit.dflt with qp := 1, stamped := 1 } } : Fold).adm.qp ≤ 0 + 1 ∧ u.power.gated = false := by
  unfold takesEntry; decide
/-- The Fold with a record read outstanding, and a load that runs for function 1. -/
def reading : State := withFold { running with adm := { running.adm with reads := [⟨4, 8192, 0, none⟩] }, bg := some ⟨3, 1, 3, source, 0, 0, false⟩ }
theorem wit_read : let u := reading.tick 1
    u.findRead 0 4 = some ⟨4, 8192, 0, none⟩ ∧ (u.fold 0).bg = some ⟨3, 1, 3, source, 0, 0, false⟩ ∧ u.canFetch 1 0 = true ∧ u.canFetch1 1 = true ∧
      ReadResult.unsupported ∈ [ReadResult.poisoned, .unsupported, .completerAbort] ∧ running.frameAt 1995000 = running.frame ∧
      running.frameAt 2000000 ≠ running.frame := by decide
/-- A replay Fold after a header of frame 5, which completed WITHHELD or not. -/
def replays (k : Bool) : Fold := { running with run := { running.run with replay := true }, rep := ⟨none, [], 1, some (5, 0, k)⟩ }
/-- A header of frame 5 that expects the most records there can be. -/
def header : Bytes := le 8 5 ++ le 8 0 ++ le 4 (2 ^ 32 - 1) ++ le 44 0
theorem wit_replay_header : let u := (withFold (replays true)).tick 1
    let h := decodeReplayHdr header
    header.length = 64 ∧ takesEntry u q0 ∧ (replays true).st = .running ∧ running.run.replay = false ∧ (replays true).run.replay = true ∧ h.rsvd = 0 ∧
    h.origFrame = 5 ∧ h.recordCount = 2 ^ 32 - 1 ∧ (replays true).headerBusy = false ∧ (replays true).rep.prev = some (5, 0, true) ∧
    ({ replays true with rep := ⟨some (h, 0, 1), [], 1, none⟩ } : Fold).headerBusy = true ∧ (replays false).rep.prev = some (5, 0, false) ∧
    (decodeReplayHdr (le 63 0 ++ [1])).rsvd ≠ 0 ∧ (decodeReplayHdr (le 64 0)).origFrame < 5 ∧ (fold .draining scoring).st ≠ .running := by
  unfold takesEntry; decide
/-- A Growing Fold in the frame that takes rows of pass 1. -/
def taking : Fold := { grows 3 with run := { (grows 3).run with closed := false } }
theorem wit_rows : let u := (withFold taking).tick 1
    let b : Bytes := [2, 0, 1, 2, 1, 0, 3]
    takesEntry u q0 ∧ taking.load = some growing ∧ taking.live = true ∧ taking.growingNow = true ∧ taking.run.closed = false ∧
    taking.grow.rowsThisFrame < growing.res.ingestRows ∧ taking.grow.rowsCid = none ∧ rowsIn 2 b = some [[1, 2], [3]] ∧ b.length = 7 ∧
    rowsIn 3 b = none ∧ rowsIn 1 b = none ∧ taking.run.role = ingestRole 1 ∧ taking.run.role ≠ ingestRole 0 ∧ taking.grow.inOrder 1 4096 = true ∧
    taking.grow.inOrder 1 1 = false ∧ running.growingNow = false ∧ running.grow.rowsCid = none ∧ u.power.halted = false := by
  unfold takesEntry; decide

/-! ## Premises that are met: ports and field buses -/

/-- Channel 3 in a role, after the frame of a message has come. -/
def heard (role : Nat) (x : Fold) (t : Nat) (rx : IzrRx) : State := ((channel role x).tick t).rxFrame rx
theorem wit_izr_data : let rx := msg (hdr 0 7 1 5) (be 2 3 ++ [1, 2, 3])
    let u := heard 0 running 1995000 rx
    u.izrLive rx = true ∧ u.izrCause rx = none ∧ rx.hdr.typ = 0 ∧ u.izrOpen rx = .ok (be 2 3 ++ [1, 2, 3]) ∧ u.chanFold 3 = some 0 ∧
    izrEntries 6 (be 2 3 ++ [1, 2, 3]) = some [[1, 2, 3]] ∧ (u.chanCfg 3).role ≠ 1 ∧ (u.fold 0).takesAt u.now = true ∧
    ((heard 0 (fold .loaded scoring) 1995000 rx).fold 0).takesAt 2000000 = false ∧ ((heard 1 running 1995000 rx).chanCfg 3).role = 1 ∧
    (heard 1 running 1995000 rx).izrCause rx = none :=
  ⟨by decide, by decide, rfl, rfl, by decide, by decide, by decide, by decide, by decide, by decide, by decide⟩
theorem wit_izr_bad_tag : let rx := { msg (hdr 0 7 1 5) (be 2 3 ++ [1, 2, 3]) with box := ⟨[9], [], [], []⟩ }
    (heard 0 running 1995000 rx).izrLive rx = true ∧ (heard 0 running 1995000 rx).izrCause rx = none ∧
    (heard 0 running 1995000 rx).izrOpen rx = .error 6 := ⟨by decide, by decide, rfl⟩
theorem wit_izr_old : let rx := msg (hdr 0 6 1 5) (be 2 3 ++ [1, 2, 3])
    (heard 0 running 1995000 rx).izrCause rx = none ∧ (heard 0 running 1995000 rx).izrOpen rx = .error 7 := ⟨by decide, rfl⟩
/-- An offer of new keys for channel 3, 97 bytes of encapsulated key. -/
def offer : HpkeOffer := ⟨true, true, List.replicate 97 1, [4], [7], hpkeInfo [3] 3 false, [1], [3], [2]⟩
/-- The message that carries it. -/
def offered : IzrRx :=
  ⟨0, true, false, true, 47290, [10], 0, 9000, hdr 2 7 0 97, ⟨[1], izrNonce [2] 7, izrHdrBytes (hdr 2 7 0 97) ++ offer.enc, []⟩⟩
theorem wit_key_offer : let u := ((channel 0 { running with keys := { FoldKeys.dflt with hpke := [4] } }).tick 2000001).rxFrame offered
    u.izrLive offered = true ∧ u.izrCause offered = none ∧ offered.hdr.typ = 2 ∧ u.chanFold 3 = some 0 ∧ offer.enc.length = 97 ∧
    u.offerOpens 0 offered offer = true ∧ offerTagOk offered offer = true ∧ (u.chan 3).inSeq < 7 ∧
    u.izrCause (msg { hdr 0 7 1 5 with magic := 0 } []) = some 1 := by decide
theorem wit_field : let u := card.tick 1
    u.fieldUp = true ∧ u.shep.nmt = 5 ∧ u.shep.alState = 8 ∧ u.shep.nmt ≠ 0 ∧
    ({ card with shep := { shepherd with alState := 4 } } : State).shep.alState = 4 ∧ (∀ n, NmtCmd.resetNode ≠ .lssNodeId n) ∧ 1 ≤ 127 ∧
    u.ecatUp = true ∧ ({ card with shep := { shepherd with fbPresHigh := true } } : State).fieldUp = false ∧
    ({ card with shep := { shepherd with source := .aux } } : State).ecatUp = false ∧ ({ card with shep := { shepherd with nmt := 0 } } : State).shep.nmt = 0 := by
  refine ⟨by decide, by decide, by decide, by decide, by decide, by intro n; simp, by decide, by decide, by decide, by decide, by decide⟩
theorem wit_ports : let s := { card with ports := vset card.ports 0 { Port.dflt with up := true, lldpNext := 2000001, neighbour := some ⟨[1], [], [], 2000001⟩ } }
    (s.port 0).up = true ∧ 0 < portCount s.cfg.portLayout ∧ (s.port 0).lldpNext ≤ (s.tick 2000001).now ∧
    (s.port 0).neighbour = some ⟨[1], [], [], 2000001⟩ ∧ s.power.gated = false := by decide

/-! ## Premises that are met: the Heath -/

/-- The card with a stored value of a plain entry. -/
def stored (s : State) (i sub : Nat) (b : Bytes) : State := { s with cfg := { s.cfg with vals := mset [] s.cfg.vals (i * 256 + sub) b } }
/-- An attested link in a test state. -/
def attested : Link := { Link.dflt with state := 3, partner := 1, helloOk := true, attested := true, keys := vset Link.dflt.keys 0 [1] }
/-- Card 1 of a Heath of two cards, link 0 carrying, card 0 the coordinator. -/
def second : State :=
  let s := stored (stored queued 0x2100 1 [1]) 0x2100 2 [2]
  { s with links := vset s.links 0 attested, heath := { Heath.dflt with members := 3 } }
theorem wit_gtc : let s := stored (stored card 0x2021 0 [1]) 0x2032 0 [2]
    let x := { s with folds := vset s.folds 0 running }
    (s.tick 1).awake = true ∧ (s.tick 1).clock.running = true ∧ (s.tick 1).card = 0 ∧ (s.tick 1).num 0x2021 0 0 = 1 ∧
    (s.tick 1).num 0x2032 0 0 = 2 ∧ (s.tick 1).anyActive = false ∧ (x.tick 1).anyActive = true ∧ second.card ≠ 0 ∧
    ((stored card 0x2021 0 [2]).tick 1).num 0x2021 0 0 = 2 ∧ (s.tick 1).ecatUp = true ∧ s.cfg.tickPeriod = 10000 ∧
    (second.link 0).carries = true ∧ (second.link 1).carries = false := by decide
theorem wit_time : let v := ((second.tick 1).modLink 0 fun x => { x with timeInterval := some ((second.tick 1).now / 65536), depth := some 0 }).reselect
    v.heath.upstream = some 0 ∧ 4 < ((2000000 : Int) + 240 - (second.tick 1).now).natAbs ∧ (second.tick 1).heath.members ≠ 0 ∧
    (second.tick 1).heath.alignLost = false ∧
    ((({ second with links := vset second.links 1 { attested with depth := some 0, timeInterval := some 30 } } : State).modLink 0 fun x =>
      { x with timeInterval := some 30, depth := some 5 }).reselect).heath.upstream ≠ some 0 := by decide
theorem wit_launch_agreed : let x := { fold .armed scoring with run := { Run.dflt with launchAt := 2500001 } }
    let s := withFold x
    s.power.halted = false ∧ ((s.tick 2000001).fold 0).st = .armed ∧ ((s.tick 1).fold 0).run.cutoffOk = false ∧
    2500001 ≤ (s.tick 2000001).now + 500000 ∧ s.now + 500000 < 2500001 ∧ s.missingWords 0 = [] ∧ (s.findMapping 0).isSome = true ∧
    (withFold { x with load := some { scoring with maps := [] } }).findMapping 0 = none ∧
    (withFold { x with run := { x.run with job := (0, 2) } }).missingWords 0 ≠ [] := by decide
/-- An arm word for Fold 0 whose halves carry Sequences 4 and 5. -/
def armed (abort : Bool) (names : Nat) : ArmWord := ⟨0, false, abort, 2500001, [2], 4, names, 5⟩
theorem wit_words : let h : RelayHdr := ⟨0, 9, 0, 4⟩
    let x := { fold .armed scoring with run := { Run.dflt with launchAt := 2500001, job := (0, 2) } }
    let s := { second with folds := vset second.folds 0 x }
    let seen := { s with heath := { s.heath with seen := [(0, 4), (0, 5)] } }
    s.awake = true ∧ s.freshWord { h with seq := (armed true 4).armASeq } = true ∧ (armed true 4).armASeq = (armed true 4).bNamesSeq ∧
    (armed false 9).armASeq ≠ (armed false 9).bNamesSeq ∧ seen.freshWord { h with seq := 4 } = false ∧ seen.freshWord { h with seq := 5 } = false ∧
    (s.fold 0).st = .armed ∧ s.now < (s.fold 0).run.launchAt ∧ (armed true 4).launchAt = (s.fold 0).run.launchAt ∧
    (s.fold 0).inJob h.origin = true := by decide
/-- A card outside any Heath whose link 0 is in test. -/
def alone : State := { second with heath := Heath.dflt, links := vset second.links 0 { attested with state := 2 } }
/-- Attestation that succeeds, with the peer's GTC or without. -/
def peerAtt (g : Option Nat) : PeerAtt := ⟨true, second.kept.heathOwner, 0, [1], [2], g⟩
theorem wit_links : cablePartner second.topology second.card 0 = some (0, false) ∧ (second.link 1).state = 0 ∧ second.awake = true ∧
    cableLength (some (le 2 300)) = some 300 ∧ 2 ≤ (second.link 0).state ∧ (second.link 0).outOfUse = false ∧ (second.link 0).helloOk = true ∧
    (second.link 0).carries = true ∧ (second.link 0).tested = false ∧ (second.topology + 1) ≠ second.topology ∧
    ({ attested with attested := false } : Link).attested = false ∧ padTo 32 (peerAtt none).owner = padTo 32 second.kept.heathOwner ∧
    (peerAtt none).key.isEmpty = false ∧ second.newcomer = false ∧ alone.newcomer = true ∧ (peerAtt (some 9)).peerGtc = some 9 ∧
    padTo 32 [1] ≠ padTo 32 second.kept.heathOwner ∧ second.power.booted = true ∧ (second.link 0).state ≠ 0 := by decide
theorem wit_tested : let w := after (.linkTestDone 2000001 0 true) alone
    (alone.tick 2000001).newcomer = true ∧ (∀ j, (w.link j).carries = true → (w.link j).tested = true) ∧ w.heath.joining = true := by decide +kernel
theorem wit_silent_link : let s := fun i => { second with links := vset second.links 0 { attested with timeInterval := some i } }
    ((s 27).tick 1).power.booted = true ∧ (((s 27).tick 1).link 0).timeInterval = some 27 ∧ 27 + 3 ≤ ((s 27).tick 1).now / 65536 ∧
    ((s 28).tick 1).now / 65536 < 28 + 3 := by decide
/-- A proposal of epoch 4 at 2,800,000 for cards 0 to 2, of one unit of card 2, acknowledged by card 1. -/
def proposal : Proposal := ⟨4, 2800000, 7, [(2, 0)], 2, false, false⟩
/-- Card 1 with a proposal, and with epochs that it has seen aborted. -/
def proposed (p : Option Proposal) (l : List (Nat × Nat)) : State := { second with heath := { second.heath with proposal := p, abortLog := l } }
theorem wit_epochs : let s := proposed (some proposal) []
    let b : MemberBody := ⟨4, 2800000, 7, 2, 0⟩
    s.awake = true ∧ s.freshWord ⟨0, 9, 0, 4⟩ = true ∧ s.heath.proposal = some proposal ∧ proposal.committed = false ∧ proposal.names b = true ∧
    s.coordinator ≠ s.card ∧ proposal.e ≤ s.now + 1000000 ∧ (s.memberSet ||| proposal.set) &&& ~~~proposal.acks ≠ 0 ∧
    (s.memberSet ||| proposal.set) &&& ~~~({ proposal with acks := 7 } : Proposal).acks = 0 ∧
    s.now + 1000000 < ({ proposal with e := 3000001 } : Proposal).e ∧
    ({ proposal with e := 2750000 } : Proposal).e ≤ s.now + 750000 ∧ s.now + 750000 < ({ proposal with e := 2750001 } : Proposal).e ∧
    ({ proposal with e := 2000000, committed := true } : Proposal).e ≤ s.now ∧ s.now < ({ proposal with e := 2000001 } : Proposal).e ∧
    s.heath.requests = [] ∧ (proposed none [(4, 2800000)]).heath.proposal = none ∧ (4, 2800000) ∈ (proposed none [(4, 2800000)]).heath.abortLog ∧
    (4, 2800000) ∉ (proposed none []).heath.abortLog := by decide
/-- Card 0 of a Heath of two cards, the coordinator. -/
def first (p : Option Proposal) : State :=
  { stored card 0x2100 2 [2] with heath := { Heath.dflt with members := 3, proposal := p }, links := vset card.links 0 attested }
theorem wit_coordinator : let s := first (some ⟨4, 0, 7, [], 0, false, false⟩)
    s.coordinator = s.card ∧ s.heath.members ≠ 0 ∧ s.heath.proposal.isSome = true ∧ (1, 0, 1) ∉ s.heath.requests ∧
    s.freshWord ⟨0, 9, 1, 4⟩ = true ∧ (first none).coordinator = (first none).card ∧ (first none).heath.proposal = none ∧
    (first none).heath.requests = [] ∧ 1 < (first none).topology ∧ (first none).freshWord ⟨0, 9, 1, 4⟩ = true := by decide
theorem wit_leave : second.memberSet.getLsbD 0 = true ∧ (0 : Nat) ≠ second.card ∧ second.awake = true ∧ second.freshWord ⟨0, 9, 0, 4⟩ = true ∧
    second.memberSet.getLsbD 7 = false ∧ second.countsMember 7 = false ∧
    (let x := { grows 8 with run := { (grows 8).run with job := (0, 2), started := true }, grow := { Grow.dflt with phase := 1, step := 1 } }
     x.inStep = true ∧ x.inJob 0 = true ∧ x.inJob 2 = false ∧ x.grow.round = 0 ∧ x.grow.step = 1) ∧ running.inStep = false := by decide
/-- A sealed Stile frame of slot 5 under key 1, with the symbol errors of its codewords. -/
def frame (errs : List Nat) (valid : Bool) : StileRx :=
  ⟨errs, 1, 0x10, valid, false, 0, 0, 5, 0, ⟨[1], stileNonce [] 5, stileHeader 0x10 valid false 0 5 0, List.replicate 8 0⟩, []⟩
theorem wit_stile : second.awake = true ∧ 2 ≤ (second.link 0).state ∧ (second.link 0).outOfUse = false ∧ 240 ≤ second.now ∧
    (second.link 0).rxSlot ≠ some (slotAt (second.now - 240)) ∧
    ({ attested with rxSlot := some (slotAt (second.now - 240)) } : Link).rxSlot = some (slotAt (second.now - 240)) ∧
    (∃ n ∈ (frame [7, 8] true).errors, 7 < n) ∧ (∀ n ∈ (frame [7, 7] true).errors, n ≤ 7) ∧ second.linkOwner 0 (slotAt (second.now - 240) % 64) = none ∧
    (second.link 0).lossInterval ≠ some (second.now / 65536) ∧
    ({ attested with lossInterval := some (2000000 / 65536) } : Link).lossInterval = some (second.now / 65536) ∧ (second.link 0).attested = true ∧
    openBox (vget (second.link 0).keys 0) (stileNonce (vget (second.link 0).salts 0) 5) (stileHeader 0x10 true false 0 5 0) (frame [] true).box =
      some (List.replicate 8 0) ∧
    openBox [9] (stileNonce (vget (second.link 0).salts 0) 5) (stileHeader 0x10 true false 0 5 0) (frame [] true).box = none ∧
    (frame [] true).payloadValid = true ∧ (frame [] false).payloadValid = false ∧ 3 ≤ (second.link 0).state ∧ (alone.link 0).state = 2 := by decide
theorem wit_stile_slot : let s := { second with folds := vset second.folds 0 { fold .running scoring with load := some { scoring with slots := [⟨5, 0, 5, 0⟩] } } }
    second.awake = true ∧ second.power.gated = false ∧ 2 ≤ (second.link 0).state ∧ (second.link 0).outOfUse = false ∧
    (second.link 0).sentSlot ≠ some (slotAt second.now) ∧
    ({ attested with sentSlot := some 78125 } : Link).sentSlot = some (slotAt second.now) ∧ (alone.link 0).state ≠ 3 ∧
    second.linkOwner 0 (second.now * 5 / 128 % 64) = none ∧ (s.tick 2000128).linkOwner 0 ((s.tick 2000128).now * 5 / 128 % 64) = none ∧
    (s.link 0).state = 3 ∧ (s.link 0).peerq = [] ∧ (s.linkOwner 0 5).isSome = true ∧ (s.tick (78149 * 128 / 5 + 1)).now * 5 / 128 % 64 = 5 := by decide

/-! ## Premises that are met: growing -/

/-- The card whose Fold 0 grows, with one change of its progress. -/
def grow (role : Nat) (g : Grow) : Fold := { grows role with grow := g }
/-- A CONTINUE drain of generation 1 that reads node bank 1 and has two sections written. -/
def drain : Drain := ⟨false, 1, 0, 2000000, 0, 0, 0, 2, 0, 1, 1, 5000000, [], []⟩
theorem wit_step_start : let x := grow 22 { Grow.dflt with between := true, step := 1 }
    let y := { x with pre := { Preempt.dflt with drain := some drain } }
    let u := (withFold x).tick 2000001
    let v := (withFold y).tick 2000001
    (atGrowBoundary u 0 ∧ atGrowBoundary v 0) ∧ x.stoppedAt x.run.opened = false ∧ x.run.role = 22 ∧ x.grow.between = true ∧
    x.grow.cls < x.job.outputs ∧ x.cutDue = false ∧ x.mustWait = false ∧ x.grow.round < x.job.rounds ∧
    x.job.rounds ≤ (grow 22 { Grow.dflt with between := true, round := 3 }).grow.round ∧
    ({ x with pre := { Preempt.dflt with waited := 1 } } : Fold).pre.waited ≠ 0 ∧
    y.stoppedAt y.run.opened = false ∧ y.cutDue = false ∧ y.mustWait = true := by unfold atGrowBoundary; decide
theorem wit_recomputed : let x := grow 24 { Grow.dflt with between := true, phase := 1 }
    atGrowBoundary ((withFold x).tick 2000001) 0 ∧ x.stoppedAt x.run.opened = false ∧ x.run.role = 24 ∧
    ({ x with run := { x.run with pos := x.segLen 24 } } : Fold).segmentOver = true := by unfold atGrowBoundary; decide
/-- Sums of 2^47 in output 0. -/
def spills : Grow := { Grow.dflt with scales := [⟨1, 1, 2 ^ 47, 0, 0, 0, 0, 0⟩] }
/-- A change of progress merged with nothing, at a barrier. -/
def absorbed (g : Grow) (c : Bool) : Grow := (g.absorb c (g.report 0 c)).closeHead false
theorem wit_barrier : let x := grow 7 { Grow.dflt with twoPass := true }
    let u := fun y => (withFold y).tick 2000001
    (∀ y ∈ [x, grow 7 { Grow.dflt with miss := some 3 }, grow 7 spills, grow 7 Grow.dflt, grows 6], atGrowBoundary (u y) 0 ∧ y.growingNow = true ∧
      y.live = true ∧ y.run.idle = false ∧ ((u y).exchange 0 mergeGrad (·.card) (y.grow.report 0 true) []).isSome = true) ∧
    (u x).power.halted = false ∧ (grows 6).run.role = 6 ∧ (grows 6).grow.passDone = false ∧ x.run.role = 7 ∧ x.run.pos = 0 ∧ x.grow.step = 0 ∧
    x.grow.cls = 0 ∧ x.grow.barrierDone = false ∧ x.job.kind ≠ 2 ∧ x.grow.twoPass = true ∧ (absorbed Grow.dflt true).miss = none ∧
    (absorbed Grow.dflt true).overflow = false ∧ (absorbed { Grow.dflt with miss := some 3 } true).miss ≠ none ∧
    (absorbed spills true).overflow = true := by unfold atGrowBoundary; decide
theorem wit_exchange_and_boundary : let x := grow 7 Grow.dflt
    let y := grow 8 { Grow.dflt with step := 1, replayCause := some 2 }
    let z := { x with run := { x.run with job := (0, 2) } }
    atGrowBoundary ((withFold x).tick 2000001) 0 ∧ atGrowBoundary ((withFold y).tick 2000001) 0 ∧ x.grow.exchanged = false ∧ 7 ≤ x.run.role ∧
    (((withFold x).tick 2000001).exchange 0 (mergeSplit x.job 0) (·.card) (x.splitReport 0) []).isSome = true ∧
    (((withFold z).tick 2000001).exchange 0 (mergeSplit z.job 0) (·.card) (z.splitReport 0) []).isNone = true ∧
    x.run.role ≤ 20 ∧ x.segLen x.run.role ≤ x.run.pos ∧ x.grow.replayCause = none ∧ x.grow.step + 1 < x.job.depth ∧
    y.segLen y.run.role ≤ y.run.pos ∧ y.grow.replayCause = some 2 ∧ y.job.depth ≤ y.grow.step + 1 ∧
    (let k := { x with load := some { growing with segs := [⟨true, [⟨7, [0, 0, 0, 0]⟩, ⟨7, [0, 0, 0, 0]⟩]⟩], maps := [⟨1, 1, 0xF, 0, 1, 1, 256, List.replicate 32 0⟩] } }
     k.run.pos < k.segLen 7 ∧ atGrowBoundary ((withFold k).tick 2000001) 0) := by
  unfold atGrowBoundary; decide
theorem wit_exchange_steps : ExStep.swap 1 ∈ exSteps 2 0 ∧ ExStep.hand 0 ∈ exSteps 3 2 ∧ ExStep.copyOf 0 ∈ exSteps 3 2 := by decide
theorem wit_round : let x := grow 22 { Grow.dflt with between := true, cls := 1 }
    let y := grow 22 { Grow.dflt with between := true, cls := 1, history := [⟨0, 0, 1, 1, 1, 1, false, false, true, false⟩] }
    let z := { y with load := some { growing with job := some { job with rerun := false } } }
    atGrowBoundary ((withFold x).tick 2000001) 0 ∧ atGrowBoundary ((withFold y).tick 2000001) 0 ∧ x.job.outputs ≤ x.grow.cls ∧
    coarseTensors x.job x.grow = [] ∧ y.job.rerun = true ∧ coarseTensors y.job y.grow ≠ [] ∧ z.job.rerun = false ∧ coarseTensors z.job z.grow ≠ [] ∧
    (grow 22 { Grow.dflt with between := true }).grow.cls < x.job.outputs := by unfold atGrowBoundary; decide
theorem wit_ingest_and_reshard : let u := fun r => (withFold (grows r)).tick 2000001
    (∀ r ∈ [2, 3, 4, 21], atGrowBoundary (u r) 0 ∧ (grows r).run.opened ≠ 0) ∧ (grows 4).segmentOver = true ∧
    (∀ l : Bool, ((u 3).exchange 0 mergeIngest (·.card) ⟨0, l, 5⟩ []).map (·.1.last) = some l) ∧
    ((withFold { grows 3 with run := { (grows 3).run with job := (0, 2) } }).exchange 0 mergeIngest (·.card) ⟨0, true, 5⟩ []).isNone = true ∧
    ((u 4).exchange 0 mergeSample (·.card) ⟨0, []⟩ []).isSome = true ∧ growing.jobOr.sampleMax < 101 ∧
    (grows 21).segLen 21 ≤ (grows 21).run.pos ∧ (grows 21).stoppedAt (grows 21).run.opened = false ∧ (grows 21).load = some growing := by
  unfold atGrowBoundary; decide

/-! ## Premises that are met: frames, results, pages -/

/-- An ARMED Fold past its cut-off whose launch has come. -/
def launching (l : Loaded) : Fold := { fold .armed l with run := { Run.dflt with launchAt := 2000001, cutoffOk := true } }
theorem wit_frames : let u := (withFold (launching scoring)).tick 2000001
    let v := (withFold (launching { scoring with maps := [] })).tick 2000001
    u.power.halted = false ∧ (u.fold 0).st = .armed ∧ (u.fold 0).run.cutoffOk = true ∧ (u.fold 0).run.aborted = false ∧
    (u.fold 0).run.launchAt ≤ u.now ∧ (u.findMapping 0).isSome = true ∧ v.findMapping 0 = none ∧
    atEnd.live = true ∧ atEnd.run.started = true ∧ atEnd.run.closed = true ∧ atEnd.segmentOver = false ∧
    atEnd.tickOf atEnd.run.opened ≤ ((withFold atEnd).tick 2000001).now ∧ running.run.closed = false ∧
    running.tickOf running.run.opened ≤ ((withFold running).tick 2000001).now ∧
    ((withFold running).tick 1).now = 2000000 ∧ running.tickOf 2 = 2010000 ∧ (fold .stopped scoring).live = false := by decide
/-- The running Fold after frame 0, quadrant 0 finished in the predicted cycle, quadrant 1 in another. -/
def finished : Fold := { atEnd with run := { atEnd.run with finish := vset (vset atEnd.run.finish 0 10) 1 21 } }
/-- The card with a context of tile 0 that has not ended. -/
def working : State :=
  let s := withFold running
  let x := s.tile 0
  s.setTile 0 { x with ctxs := vset x.ctxs 0 { Ctx.dflt with ended := false } }
/-- The Fold under a mapping of quadrant 0 alone. -/
def quarter : Fold := { finished with load := some { scoring with maps := [⟨1, 1, 1, 0, 1, 1, 256, [0]⟩] } }
theorem wit_predicted : finished.mapEntry = some ⟨1, 1, 0xF, 0, 1, 1, 256, [0]⟩ ∧
    (∀ q ∈ [(0 : QuadId), 1], bit 0xF q.val = true ∧ 0 < ((withFold finished).foldCfg 0).plotsIn q.val ∧
      vget finished.run.precise q = false ∧ vget finished.run.overrun q = false ∧ (withFold finished).quadHealthy q = true) ∧
    finished.live = true ∧ finished.run.idle = false ∧ vget finished.run.finish 0 = finished.predictedFor 0 ∧
    vget finished.run.finish 1 ≠ finished.predictedFor 1 ∧ (withFold finished).quadIn 0 0 = true ∧ (withFold finished).quadIn 0 1 = true ∧
    (withFold quarter).quadIn 0 1 = false ∧
    ({ withFold finished with quads := vset queued.quads 0 { queued.quad 0 with state := 1 } } : State).quadHealthy 0 = false := by decide
set_option maxRecDepth 4000 in
theorem wit_budget : let u := working.tick 2010000
    u.power.halted = false ∧ running.live = true ∧ running.run.closed = false ∧ running.run.started = true ∧ running.run.idle = false ∧
    vget running.run.overrun 0 = false ∧ vget running.run.precise 0 = false ∧ u.quadBusy 0 0 = true ∧ u.quadBusy 0 1 = false ∧ u.quadIn 0 0 = true ∧ u.quadHealthy 0 = true ∧
    running.tickOf running.frame + ceilDiv (budget running.period scoring.op * (opRatio scoring.op).2) (opRatio scoring.op).1 ≤ u.now := by decide
/-- A clean result of frame 3 for command 5, and one whose values are poisoned. -/
def result (bad : Bool) : Result := ⟨3, 0, 1, .pcie 5 4096, [1, 2], [3], 0, bad⟩
/-- A record of channel 3's client that has landed in a frame, and the closed frame that it waits for. -/
def landed (n : Nat) : Arrival := ⟨n, 1995000, 0x110, (0, 0), [1], some 3, [1, 2], .izr 3 false [1] [2], none, false, none⟩
/-- A closed frame whose records are not admitted yet. -/
def cohort : Cohort := ⟨0, 1990000, [], 0, [], 0, none, false, 0, 4, [], [], []⟩
theorem wit_admission : let s := withFold { atEnd with pipe := [cohort], adm := { atEnd.adm with arrivals := [landed 0, landed 1] } }
    (s.tick 1).power.halted = false ∧ (∃ c ∈ (s.fold 0).pipe, c.admitted = false) ∧ ((s.fold 0).pipe[0]?) = some cohort ∧
    (((after (.admission 2000001 0) s).fold 0).adm.arrivals = [landed 1]) ∧ (halted.tick 1).power.halted = true := by decide +kernel
theorem wit_drain : let x := { running with res := { Results.dflt with egress := [result false] } }
    let s := withFold x
    (s.fold 0).res.egress = result false :: [] ∧ s.sinkOpen 0 (result false) = true ∧
    (∀ z ∈ [({ s with pcie := { s.pcie with gen := 2 } } : State), { s with power := { s.power with perst := true } },
      { s with fns := vset s.fns 1 { s.fn 1 with tdi := .error } }, { s with fns := vset s.fns 1 { s.fn 1 with q1 := { busyQueue with cqTail := 15 } } },
      { s with fns := vset s.fns 1 Func.dflt }, { s with power := { s.power with gated := true } }], z.sinkOpen 0 (result false) = false) ∧
    s.power.gated = false ∧ (result true).status = 0 ∧ (result true).poisoned = true ∧ (result false).poisoned = false ∧ running.res.egress = [] := by decide
theorem wit_izr_sink : let s := channel 0 running
    let r : Result := { result false with route := .izr 3 false [1] [2] }
    (s.chanCfg 3).egressPort = 0 ∧ (s.port 0).up = false ∧ s.sinkOpen 0 r = false ∧ portCount 0 ≤ (2 : PortId).val ∧
    ({ s with ports := vset s.ports 0 { Port.dflt with up := true } } : State).sinkOpen 0 r = true ∧
    ({ s with ports := vset s.ports 0 { Port.dflt with up := true, pausedUntil := 2000001 } } : State).sinkOpen 0 r = false := by decide
/-- A page of the frames from 0 on that has closed with frame 0. -/
def closing : OpenPage := ⟨0, 0, 1990000, false, [], [[1]], [], [], some 0, false⟩
/-- The card with Fold 0 and its settings. -/
def setFold (x : Fold) (c : FoldCfg) : State :=
  { queued with folds := vset queued.folds 0 x, cfg := { queued.cfg with folds := vset queued.cfg.folds 0 c } }
theorem wit_pages : let full := setFold atEnd { plots with ringPages := 0 }
    let x := { atEnd with led := { Ledger.dflt with closing := [closing] } }
    let y := { running with led := { Ledger.dflt with ring := [⟨4, [], [], [], 0, [], false, 0, 0⟩] } }
    let z := setFold y { plots with dests := 3 }
    ((withFold atEnd).tick 2000001).atBoundary 0 = true ∧ atEnd.led.page = none ∧ atEnd.stoppedAt atEnd.run.opened = false ∧
    ((withFold atEnd).tick 2000001).freeSlots 0 ≠ 0 ∧ (full.tick 2000001).freeSlots 0 = 0 ∧ (full.tick 2000001).atBoundary 0 = true ∧
    (withFold running).atBoundary 0 = false ∧ x.led.closing = closing :: [] ∧ ({ atEnd with led := { Ledger.dflt with page := some { closing with last := none } } } : Fold).led.page = some { closing with last := none } ∧ x.sealDue 0 = false ∧ x.load = some scoring ∧
    x.sealDue 3000000 = true ∧ (card.tick 3000000).power.halted = false ∧ atEnd.led.closing = [] ∧ atEnd.led.ring = [] ∧ ((withFold { atEnd with led := { Ledger.dflt with ring := [⟨4, [], [], [], 0, [], false, 0, 0⟩] } }).tick 1).freeSlots 0 ≠ 0 ∧
    ((0 : BitVec 8)).getLsbD 1 = false ∧ ((z.tick 1).foldCfg 0).dests.getLsbD 1 = true := by decide

/-! ## Premises that are met: tiles, slots, wheels -/

/-- The running card whose tile 0 has one operation word and a context that is to issue it. -/
def onTile (w : BitVec 128) (x : Tile) : State :=
  (withFold running).setTile 0 { x with prog := [w], ctxs := vset x.ctxs 0 { Ctx.dflt with ended := false } }
/-- No data from a stream. -/
def quiet : Feed := ⟨[], 0, 0, []⟩
/-- A tile whose store holds bytes 7, 8 and 9 at address 100 and whose lanes 1 and 2 hold 5 and 6 in row 3. -/
def held : Tile := { Tile.dflt with mem := [(100, 7), (101, 8), (102, 9)], acc := [(3 * 16 + 1, 5), (3 * 16 + 2, 6)] }
set_option maxRecDepth 8000 in
theorem wit_operation_issues : opIssues ((onTile 0x00000000000000000000000200010021 held).tick 2000001) 0 0 quiet 0 scoring ⟨false, .ladd 1 2⟩ ∧
    SMap.wf 0 held.mem ∧ SMap.wf 0 held.acc ∧ held.mem.length = 3 ∧
    ((withFold running).tick 2000001).issues 0 0 quiet = none := by unfold opIssues; decide
set_option maxRecDepth 4000 in
theorem wit_operation_send : opIssues ((onTile 0x00000003000000500000006400010052 held).tick 2000001) 0 0 quiet 0 scoring ⟨false, .send 1 100 80 3⟩ ∧
    (((onTile 0 held).tick 2000001).foldCfg 0).tiles[1]? ≠ none ∧ (((onTile 0 held).tick 2000001).foldCfg 0).tiles[9999]? = none := by
  unfold opIssues; decide
set_option maxRecDepth 8000 in
theorem wit_operation_fault : let u := (onTile 0x0000000300000000000FFFFE00000051 held).tick 2000001
    u.issues 0 0 quiet = some (0, ⟨false, .zero 0xFFFFE 3⟩) ∧ (u.fold 0).load = some scoring ∧
    badAddress scoring (.zero 0xFFFFE 3) quiet = some 0xFFFFE := by decide
/-- A stream of a kind from or to stack address `a`, its ring at `p`, one part of 3 bytes. -/
def stream (kind a p : Nat) : Stream := ⟨⟨if kind = 0 then a else p, if kind = 0 then p else a, 3, 2, kind, 0, 0, 0, 2⟩, 2, 0, 0, []⟩
/-- The running card whose Fold owns position 1 of stack 0 for a kind, with such a stream on tile 0. -/
def slottedAt (kind a p : Nat) : State :=
  let s := withFold { running with load := some { scoring with slots := [⟨0, 0, 1, kind⟩] } }
  s.setTile 0 { held with streams := [stream kind a p] }
/-- The same with its ring at byte 100 of the tile. -/
def slotted (kind a : Nat) : State := slottedAt kind a 100
set_option maxRecDepth 8000 in
theorem wit_slot_moves : let l := fun k => { scoring with slots := [⟨0, 0, 1, k⟩] }
    (∀ k ∈ [0, 1, 2], ∀ p ∈ [100, 2 ^ 20 + 8], slotMoves ((slottedAt k 4096 p).tick 2000001) 0 0 1 0 0 4096 (l k) k (stream k 4096 p)) ∧
    ringInLanding (stream 0 4096 100).desc = false ∧ ringInLanding (stream 0 4096 (2 ^ 20 + 8)).desc = true ∧
    ringInLanding (stream 1 4096 (2 ^ 20 + 8)).desc = true ∧ ((slotted 0 4096).hbm 0).lost = false ∧
    ((slotted 0 4096).hbm 0).poisonIn 4096 3 = [] ∧
    ((slotted 1 (2 ^ 30)).tick 2000001).slotRuns 0 1 = true ∧ ((slotted 1 (2 ^ 30)).tick 2000001).inController 0 0 1 < 256 ∧
    ((slotted 1 (2 ^ 30)).tick 2000001).slotStream 0 0 1 1 1 (cycleOf75 (l 1).op 128) = some (0, 0) ∧
    (((slotted 1 (2 ^ 30)).tick 2000001).foldCfg 0).hbmAddr 0 (stream 1 (2 ^ 30) 100).part.1 = none ∧
    ((withFold atEnd).tick 1).slotRuns 0 1 = false ∧ slotPosition 2 = some 2 ∧ (l 1).hbmKind 0 2 = none := by
  refine ⟨?_, by decide, by decide, by decide, by decide, by decide, by decide, by decide, by decide, by decide, by decide, by decide, by decide⟩
  intro k h p hp
  simp only [List.mem_cons, List.not_mem_nil, or_false] at h hp
  rcases h with rfl | rfl | rfl <;> rcases hp with rfl | rfl <;>
    refine ⟨by decide, by decide, by decide, ⟨1, by decide, by decide, by decide⟩, by decide, by decide⟩
theorem wit_slot_full : let s := { slotted 1 4096 with hbms := vset queued.hbms 0 { Stack.dflt with outstanding := List.replicate 256 (75 * 2000000) } }
    256 ≤ s.inController 0 0 1 := by decide +kernel
set_option maxRecDepth 8000 in
theorem wit_slot_readable (m : Option Nat) : ((slotted 0 4096).tick 2000001).unreadable 0 0 m = false := by
  cases m with
  | none => decide
  | some e => show (false || ([].contains e || [].contains e)) = false; rfl
set_option maxRecDepth 8000 in
theorem wit_slot_payload : let s := slotted 2 4096
    let u := { s with links := vset s.links 0 { Link.dflt with landed := [(100, [1, 2])] } }
    u.payloadOf (100 % 2 ^ 32) = some [1, 2] ∧ s.payloadOf (100 % 2 ^ 32) = none := by decide
/-- A closed frame without records, admitted. -/
def admittedCohort : Cohort := { cohort with admitted := true }
/-- The running card whose Fold owns position 5 of a wheel's instance 0, with records one frame back. -/
def wheeled (res : Nat) : State :=
  withFold { running with load := some { scoring with slots := [⟨res, 0, 5, 0⟩] }, run := { running.run with opened := 2 },
                          pipe := [admittedCohort] }
set_option maxRecDepth 8000 in
theorem wit_positions : let l := fun r => { scoring with slots := [⟨r, 0, 5, 0⟩] }
    positionRuns ((wheeled 1).tick 2000001) 0 (l 1) .binning 0 5 (.bin 0) ∧ positionRuns ((wheeled 3).tick 2000001) 0 (l 3) .sha3 0 5 (.tag 0) ∧
    positionRuns ((wheeled 4).tick 2000001) 0 (l 4) .dieToDie 0 5 (.codesOut 0 0 0 false) ∧
    positionRuns ((wheeled 2).tick 2000001) 0 (l 2) .aes 0 5 (.encrypt 0) ∧ positionRuns ((wheeled 2).tick 2000001) 0 (l 2) .pcieFetch 0 0 .fetch ∧
    ((wheeled 4).fold 0).cohort 1 = some admittedCohort ∧ ((wheeled 4).foldCfg 0).tiles.findIdx? (· == 0) = some 0 ∧
    ((wheeled 1).tick 2000001).wheelOwner .binning 0 6 = none ∧ ((withFold atEnd).tick 1).wheelsRun 0 = false := by unfold positionRuns; decide
set_option maxRecDepth 8000 in
theorem wit_batch_place (h : Config.fileOf [2] 1 0 = some 0) (g : Config.codesAt [2] 1 0 0 0 false + 32768 ≤ 2 ^ 20) :
    ((wheeled 4).tick 2000007).dieFree 0 0 5 0 = true ∧ (quadOfTile 0).val = 0 ∧ cohort.binnedBatch 0 = true ∧
    ((wheeled 4).tick 2000007).codesPlace 0 { scoring with slots := [⟨4, 0, 5, 0⟩] } 0 0 0 false = some (Config.codesAt [2] 1 0 0 0 false) ∧
    ((wheeled 4).tick 2000008).dieFree 0 0 5 0 = false ∧ ((wheeled 4).tick 2000007).codesPlace 0 scoring 700 0 0 false = none ∧
    (quadOfTile 0).val ≠ 1 := by
  refine ⟨by decide, by decide, by decide, ?_, by decide, by decide, by decide⟩
  exact if_pos ⟨h, by decide, by decide, g⟩
set_option maxRecDepth 8000 in
theorem wit_score_place (h : Config.scoresAt [2] 1 0 0 0 = (0, 64)) :
    Config.scoresAt scoring.bundleDigest (((withFold running).fold 0).mapEntry.map (·.id) |>.getD 0) 0 0 0 = (0, 64) ∧
    ((withFold running).foldCfg 0).tiles[0]? = some 0 ∧ ((wheeled 4).tick 2000007).dieFree 0 0 5 1 = true ∧ 0 < scoring.outputCount ∧
    touched (held).poison [(64 % (2 ^ 20 - 1536), 1536)] = [] ∧
    (({ wheeled 4 with folds := vset queued.folds 0 { (wheeled 4).fold 0 with run := { ((wheeled 4).fold 0).run with opened := 3 } } } : State).fold 0).cohort 2 =
      some admittedCohort := ⟨h, by decide, by decide, by decide, by decide, by decide⟩

/-! ## Premises that are met: checkpoints, evidence, grazing -/

/-- A STOP notice whose cut falls on 2,000,000. -/
def cutNow : Notice := ⟨true, 1, 1000000, 5000000⟩
theorem wit_cut : let x := { atEnd with pre := { Preempt.dflt with notice := some cutNow } }
    let y := { grow 22 { Grow.dflt with between := true, round := 1 } with pre := { Preempt.dflt with notice := some cutNow } }
    let z := { y with pre := { Preempt.dflt with notice := some { cutNow with issueAt := 1000001 } } }
    ((withFold x).tick 2000001).atBoundary 0 = true ∧ x.st = .running ∧ x.growingNow = false ∧ scoringCut x cutNow ≤ x.boundaryTick ∧
    ((withFold y).tick 2000001).atBoundary 0 = true ∧ y.st = .running ∧ y.growingNow = true ∧ y.cutDue = true ∧
    ((withFold z).tick 2000001).atBoundary 0 = true ∧ z.cutDue = false ∧ (withFold running).atBoundary 0 = false ∧
    y.dueNotice = some cutNow ∧ z.dueNotice = none ∧
    ({ z with pre := { z.pre with conts := [{ cutNow with stop := false }] } } : Fold).dueNotice = some { cutNow with stop := false } := by decide
theorem wit_sections : let u := fun d => (withFold { grows 22 with pre := { Preempt.dflt with drain := some d } }).tick 2000001
    (u drain).power.halted = false ∧ (u drain).now < drain.deadline ∧ drain.written < 5 ∧ ({ drain with written := 5 } : Drain).written = 5 ∧
    ({ drain with deadline := 2000000 } : Drain).deadline ≤ (u drain).now ∧ drain.stop = false ∧ ({ drain with stop := true } : Drain).stop = true ∧
    (running.pre.drain = none) := by decide
/-- A Fold with a checkpoint write of one LBA at 40 and its Flush on the wire. -/
def storing (d : Option Drain) (up : Bool) : State :=
  withFold { grows 22 with pre := { Preempt.dflt with drain := d }, file := ⟨up, [⟨true, 40, [1]⟩, ⟨true, 0, []⟩], []⟩ }
theorem wit_store_error : let u := (storing (some drain) true).tick 2000001
    (u.fold 0).file.failed 40 = some ⟨true, 40, [1]⟩ ∧ (u.fold 0).file.failed 41 = some ⟨true, 0, []⟩ ∧
    (running.file.failed 40 = none) ∧ u.power.halted = false ∧ u.power.gated = false ∧ u.mayReissue 0 ⟨true, 0, []⟩ = true ∧
    ((storing none true).tick 1).mayReissue 0 ⟨true, 0, []⟩ = false ∧ ((storing none true).tick 1).mayReissue 0 ⟨false, 0, []⟩ = true ∧
    ((storing (some drain) true).tick 5000000).mayReissue 0 ⟨true, 0, []⟩ = false := by decide +kernel
theorem wit_deadline : let n : Notice := ⟨true, 1, 1990000, 2000000⟩
    let x := { fold .draining scoring with pre := { Preempt.dflt with notice := some n } }
    x.pre.drain = none ∧ x.pre.notice = some n ∧ n.stop = true ∧ n.deadline ≤ ((withFold x).tick 2000001).now ∧ x.st = .draining ∧
    x.growingNow = false := by decide
/-- A label of a journal bound to serial number 7. -/
def label : SdLabel := ⟨1, true, false, false, 7, 2048, 3300, 0, 0, 0, 0, 0, 0⟩
/-- A card with that label in block 0, or in block 2,047 alone. -/
def medium (cap : SdCapacity) (first : Bool) : SdMedium :=
  ⟨cap, false, if first then labelBytes label else List.replicate 512 0, if first then [] else labelBytes label, false, 5, 0⟩
/-- The card as used. -/
def sdCard : SdCard := ⟨false, label, false, 5, 0⟩
set_option maxRecDepth 100000 in
theorem wit_medium : sdCardOf (medium .sdhc true) = some sdCard ∧ sdCardOf (medium .sdhc false) = some sdCard ∧ sdCardOf (medium .sdsc true) = none ∧
    sdCardOf { medium .sdhc true with block0 := [] } = none := by decide +kernel
/-- The card with a page in flight in a phase of its writing. -/
def writing (ph : Nat) : State :=
  { card with sd := { Evidence.dflt with flight := some ⟨0, 0, 0, 1, 0, [1], none, true⟩, phase := ph, rewriting := true, card := some sdCard, journal := true } }
theorem wit_journal : ((writing 1).tick 1).sd.flight = some ⟨0, 0, 0, 1, 0, [1], none, true⟩ ∧ ((writing 1).tick 1).sd.phase = 1 ∧
    ((writing 2).tick 1).sd.phase = 2 ∧ (writing 2).sd.rewriting = true ∧
    ((writing 1).tick 1).power.halted = false ∧ ((writing 1).tick 1).power.gated = false ∧ (writing 1).sd.card ≠ none ∧ card.sd.card = none ∧
    (card.tick 1).power.main = true ∧ (State.reset.tick 1).power.main = false ∧ card.sd.flight = none ∧ (writing 0).sd.phase = 0 := by decide
theorem wit_rewrite : let s := { writing 0 with sd := { (writing 0).sd with card := none } }
    let e : Evidence := { s.sd with card := some sdCard, nextJ := 5, written := 33 * 512 * 5 }
    s.sd.flight.isSome = true ∧ s.journalOk sdCard = true ∧ 33 * (5 + 1) ≤ sdCard.label.journalBlocks ∧ e.life < 100 ∧ s.power.booted = true := by decide
theorem wit_batch : let e : Event := ⟨1000000, 0x10, 0, 0x0907, true, false, []⟩
    let s := { writing 1 with events := { Events.dflt with sealedLog := [e], sealedNext := 1 } }
    (s.tick 1001000000).batchReady = true ∧ (s.tick 1001000000).sd.phase ≠ 0 ∧ (card.tick 1001000000).batchReady = false := by decide
theorem wit_grazing : let s := { withFold (fold .loaded scoring) with hbms := vset card.hbms 0 { Stack.dflt with writeBack := some 4, rebuilds := [⟨0, 16, 5, true⟩] } }
    let x := s.setTile 0 { s.tile 0 with restore := [(3, [1])] }
    (s.tick 1).power.halted = false ∧ (s.tick 1).power.booted = true ∧ ((s.tick 1).hbm 0).lost = false ∧ ((s.tick 1).hbm 0).writeBack = some 4 ∧
    (x.tick 1).quadHealthy (quadOfTile 0) = true ∧ ((x.tick 1).tile 0).scrub.2 = none ∧ ((x.tick 1).tile 0).restore = (3, [1]) :: [] ∧
    (x.tick 1).reservedNow 0 = true ∧
    ((s.tick 1).hbm 0).rebuilds.find? (fun e => e.fold == (0 : FoldId).val && e.begun) = some ⟨0, 16, 5, true⟩ ∧
    ((s.tick 1).hbm 1).rebuilds.find? (fun e => e.fold == (0 : FoldId).val && e.begun) = none ∧ ((s.tick 1).quad 0).failed = false ∧
    (State.reset.tick 1).power.booted = false ∧ (State.reset.tick 1).power.halted = false := by decide
theorem wit_grazing_work : let s := { card with hbms := vset card.hbms 0 { Stack.dflt with rebuilds := [⟨0, 16, 5, false⟩] } }
    let own := withFold { running with load := some { scoring with slots := [⟨0, 0, 1, 1⟩, ⟨0, 0, 2, 3⟩, ⟨1, 0, 3, 0⟩, ⟨5, 0, 4, 0⟩] } }
    ((s.tick 1).hbm 0).writeBack = none ∧ ((s.tick 1).hbm 0).rebuilds.find? (fun r => decide (r.due ≤ (s.tick 1).now)) = some ⟨0, 16, 5, false⟩ ∧
    own.hbmGrazes 0 1 = false ∧ own.hbmGrazes 0 2 = true ∧ own.hbmGrazes 0 3 = true ∧ own.engineFree 1 3 = false ∧ own.engineFree 1 4 = true ∧
    own.mayRetrain 0 = false ∧ card.portFree 0 = true ∧ (channel 0 running).portFree 0 = false ∧
    ({ card with hbms := vset card.hbms 0 { Stack.dflt with lost := true } } : State).hbms[0].lost = true ∧
    (withFold running).reservedNow 0 = false ∧ (withFold running).reservedNow 639 = true := by decide
theorem wit_quadrant_refusals : ({ card with quads := vset card.quads 0 { card.quad 0 with failed := true } } : State).quads[0].failed = true ∧
    (0 : Nat) < 1 ∧ (3 : Nat) < 4 := by decide
/-- The card with 1,001 corrected words of stack 0 in the running interval. -/
def corrected : State := { card with hbms := vset card.hbms 0 { Stack.dflt with ceWindow := 1001 } }
theorem wit_correction_rate : (((corrected.tick 1000000000).events.ceLast.find? fun e => e.1 == 0x60).elim
      (1000000000 ≤ (corrected.tick 1000000000).now) fun e => e.2 + 1000000000 ≤ (corrected.tick 1000000000).now) ∧
    (((corrected.tick 999999999).events.ceLast.find? fun e => e.1 == 0x60).elim ((corrected.tick 999999999).now < 1000000000)
      fun e => (corrected.tick 999999999).now < e.2 + 1000000000) ∧
    1000 < (corrected.tick 1).ceCount 0x60 ∧ (corrected.tick 1).ceCount 0x61 ≤ 1000 := by
  refine ⟨?_, ?_, by decide, by decide⟩
  · show 1000000000 ≤ (corrected.tick 1000000000).now
    decide
  · show (corrected.tick 999999999).now < 1000000000
    decide

/-! ## Premises that are met: attestation -/

/-- The card whose function 1 is in an SPDM state with a session key, an IDE key and a TDI state; Fold 0 is loaded. -/
def attests (st : Nat) (session : Bytes) (ide : Bytes) (tdi : Tdi) : State :=
  let s := withFold (fold .loaded scoring)
  { s with fns := vset s.fns 1 { Func.dflt with spdm := ⟨st, session⟩, ideKey := ide, tdi := tdi, tdiNonce := [3] } }
theorem wit_spdm : ((attests 3 [] [] .unlocked).tick 1).answers = true ∧ ((attests 3 [] [] .unlocked).tick 1).power.gated = false ∧
    (∀ st ∈ [0, 1, 2, 3], (((attests st [1] [] .unlocked).tick 1).fn 1).spdm = ⟨st, [1]⟩) ∧ (((attests 3 [] [] .unlocked).tick 1).fn 1).spdm.session = [] ∧
    (((attests 3 [] [] .unlocked).tick 1).leafKey 1).isSome = true ∧ ((attests 3 [] [] .unlocked).tick 1).chainOf 1 ≠ none ∧
    ((attests 3 [] [] .unlocked).tick 1).measurement 1 4 [] = some [3] ∧ (⟨true, true, true, true, false⟩ : SpdmAlgs) ≠ ⟨true, true, true, true, true⟩ := by
  refine ⟨by decide, by decide, by decide, by decide, by decide, ?_, by decide, by decide⟩
  rw [State.chainOf, if_neg (by decide), show ((attests 3 [] [] .unlocked).tick 1).attested 1 = some 0 by decide]
  exact Option.some_ne_none _
theorem wit_interface : foldOfFn 1 = some 0 ∧ (((attests 3 [1] [2] .unlocked).tick 1).fn 1).spdm.session ≠ [] ∧
    (((attests 3 [1] [2] .unlocked).tick 1).fn 1).ideKey ≠ [] ∧ (((attests 3 [1] [] .unlocked).tick 1).fn 1).ideKey = [] ∧
    (((attests 3 [1] [2] .unlocked).tick 1).fn 1).tdi = .unlocked ∧ (((attests 3 [1] [2] .locked).tick 1).fn 1).tdi = .locked ∧
    (((attests 3 [1] [2] .unlocked).tick 1).fold 0).st ∈ [FoldState.loaded, .stopped, .armed] ∧
    (((attests 3 [1] [2] .unlocked).tick 1).fold 0).load = some scoring ∧ ((3 :: []) : Bytes) ≠ [4] := by decide

/-! ## Premises that are met: a load -/

/-- A feature of one byte, a result graph of it with one output. -/
def graph : Bytes := [1, 0, 0, 0, 0, 0, 1, 0] ++ List.replicate 56 0 ++ [0, 0, 0x11, 0, 8, 0, 0, 0]
/-- Entry of a mapping without a quadrant for a card count and a variant. -/
def entryFor (n v : Nat) : Bytes := [0, 0, BitVec.ofNat 8 n, 0, BitVec.ofNat 8 v] ++ List.replicate 75 0
/-- The mappings that every bundle needs beside those of its quadrants: every card count, and its spares. -/
def spareEntries : List Bytes := (List.range 32).flatMap fun i => (0 :: (sparedLinks (shapeFor (i + 1))).map (0x20 + ·)).map (entryFor (i + 1))
/-- A block of 80 bytes at its place. -/
theorem slice_entry (l : List Bytes) (h : ∀ e ∈ l, e.length = 80) (i : Nat) (hi : i < l.length) : slice l.flatten (80 * i) 80 = l[i] := by
  induction l generalizing i with
  | nil => simp at hi
  | cons e r ih =>
    have he : e.length = 80 := h e (List.mem_cons_self ..)
    cases i with
    | zero => simp [slice, ← he]
    | succ k =>
      have := ih (fun x hx => h x (List.mem_cons_of_mem _ hx)) k (by simpa using hi)
      rw [List.getElem_cons_succ, ← this]
      simp [slice, List.drop_append, he, List.drop_eq_nil_of_le (show e.length ≤ 80 * (k + 1) by omega), show 80 * (k + 1) - 80 = 80 * k by omega]
theorem slice_entries (l : List Bytes) (h : ∀ e ∈ l, e.length = 80) {α : Type} (g : Bytes → α) :
    (List.range l.length).map (fun i => g (slice l.flatten (80 * i) 80)) = l.map g := by
  apply List.ext_getElem (by simp)
  intro i h1 h2
  simp only [List.getElem_map, List.getElem_range]
  rw [slice_entry l h i (by simpa using h1)]
theorem spare_lengths : (∀ e ∈ spareEntries, e.length = 80) ∧ spareEntries.length = 106 := by decide +kernel
theorem spare_length : spareEntries.flatten.length = 8480 := by decide +kernel
theorem spare_mappings : decodeMappings spareEntries.flatten = spareEntries.map decodeMapping ∧
    ((List.range (spareEntries.flatten.length / 80)).all fun i => mappingOk (slice spareEntries.flatten (80 * i) 80)) = true := by
  have h {α : Type} (g : Bytes → α) := slice_entries spareEntries spare_lengths.1 g
  simp only [spare_lengths.2] at h
  rw [decodeMappings, spare_length]
  refine ⟨h decodeMapping, ?_⟩
  have e := congrArg (·.all id) (h mappingOk)
  simp only [List.all_map, Function.id_comp] at e
  exact e.trans (by decide +kernel)
theorem spare_set : mapSetOk (decodeResources (List.replicate 38 0 ++ [8, 0] ++ List.replicate 24 0)) (spareEntries.map decodeMapping) = true := by decide +kernel
/-- A bundle without a quadrant, its measurement, digest and signature payload as given. -/
def bundleWith (m d p : Bytes) : Bundle :=
  ⟨⟨true, 1, false, false, 0, 10000, 40960, m, d, 0⟩,
   [⟨1, 4096, 0, 0⟩, ⟨2, 4096, 72, 0⟩, ⟨3, 8192, 0, 0⟩, ⟨0x10, 8192, 64, 0⟩, ⟨0x11, 12288, 0, 0⟩, ⟨0x12, 12288, 8480, 0⟩, ⟨0x13, 24576, 0, 0⟩,
    ⟨0x14, 24576, 0, 0⟩, ⟨0x1F, 24576, 100, 0⟩],
   [], graph, [], ⟨true, 1, 0, 0, 0, 0, 0, 0, 0, 0⟩, List.replicate 38 0 ++ [8, 0] ++ List.replicate 24 0, [], spareEntries.flatten, [], [], [],
   ⟨-35, 0, [9], p⟩⟩
/-- The same bundle with its own measurement, digest and signature. -/
def bundle : Bundle :=
  let m := bundleMeas (bundleWith [] [] [])
  let d := bundleDigestOf (bundleWith m [] [])
  bundleWith m d (sigPayload (bundleWith m d []))
/-- The card whose Fold 0 loads. -/
def loading : State := { queued with folds := vset queued.folds 0 { Fold.dflt with bg := some ⟨3, 1, 3, source, 0, 0, false⟩ } }
theorem wit_layout : layoutOk bundle = true := by
  have hm : bundle.mappings = spareEntries.flatten := rfl
  have hr : bundle.resources = List.replicate 38 0 ++ [8, 0] ++ List.replicate 24 0 := rfl
  simp only [layoutOk, Bool.and_eq_true, hm, hr, spare_mappings.1]
  exact ⟨⟨⟨⟨⟨⟨⟨⟨⟨by decide +kernel, by decide +kernel⟩, by decide +kernel⟩, by decide +kernel⟩, by decide +kernel⟩, by decide +kernel⟩,
    spare_mappings.2⟩, by decide +kernel⟩, spare_set⟩, by decide +kernel⟩
theorem bundle_measurement (m d p : Bytes) : bundleMeas (bundleWith m d p) = bundleMeas (bundleWith [] [] []) := by
  unfold bundleMeas bundleWith; rfl
theorem bundle_digest (m d p : Bytes) : bundleDigestOf (bundleWith m d p) = bundleDigestOf (bundleWith m [] []) := by
  unfold bundleDigestOf bundleSections bundleWith; rfl
theorem bundle_digests : digestsOk bundle = true := by
  unfold digestsOk bundle
  simp only [sigPayload, bundle_measurement, bundle_digest _ (bundleDigestOf _)]
  simp [bundleWith, Bool.and_self]
theorem wit_load : (loading.tick 1).bgIs 0 3 = true ∧ loadCheck (loading.tick 1) 0 bundle = .ok (loadedOf (loading.tick 1) bundle .opA) := by
  refine ⟨by decide, ?_⟩
  unfold loadCheck
  rw [wit_layout, show signatureOk (loading.tick 1) bundle = true by decide, bundle_digests, show opOfCode bundle.hdr.op = some .opA by decide,
    show periodOk bundle.hdr.period = true by decide]
  simp only [Bool.not_true, Bool.false_eq_true, if_false, show predictionsOk (decodeSegs (bundle.segments.length + 1) bundle.segments)
      (budget bundle.hdr.period .opA) = true by decide,
    show resourcesMatch ((loading.tick 1).foldCfg 0) (decodeResources bundle.resources) = true by decide,
    show slotConflict (loading.tick 1) 0 (decodeSlots bundle.slotPlan) = none by decide,
    show placementOk (loadedOf (loading.tick 1) bundle .opA) = true by decide]

/-! ## Ill-formed operands -/

theorem wf_count : (Instr.mainPowerLoss (2 ^ 64 - 1)).wf = true ∧ (Instr.mainPowerLoss (2 ^ 64)).wf = false := by decide
theorem wf_command_id : (Instr.identify 1 ⟨0, 2 ^ 16, 0, 0⟩ 0).wf = false ∧ (Instr.identify 1 ⟨0, 5, 0, 2 ^ 68⟩ 0).wf = false ∧
    (Instr.identify 1 p0 (2 ^ 64)).wf = false ∧ (Instr.identify 1 p0 4096).wf = true := by decide
theorem wf_place : (Instr.dictionaryWrite 1 (2 ^ 16) 0 (pln [])).wf = false ∧ (Instr.dictionaryWrite 1 0 (2 ^ 8) (pln [])).wf = false := by decide
theorem wf_signed : (Instr.tickPeriodWrite 1 ⟨pf, .signed { sgn 0x2010 0 [] with seq := 2 ^ 64 }, 0⟩).wf = false ∧
    (Instr.stop 1 (.queue q0 { sgn 0x3009 0 [] with role := 256 })).wf = false ∧ (Instr.stop 1 (.dict 0 (own (2 ^ 16) 0 []))).wf = false := by decide
theorem wf_value : (Instr.warmReset 1 (pln (List.replicate 4097 0))).wf = false := by
  show (fits 64 1 && (fits 32 0 && decide ((List.replicate 4097 (0 : Byte)).length ≤ 4096))) = false
  rw [List.length_replicate]
  decide
theorem wf_reserved : (Instr.warmReset 1 ⟨pf, .plain [1], 2 ^ 32⟩).wf = false ∧
    (Instr.loadBundle 1 q0 { source with extents := [⟨4096, 640, 2 ^ 32⟩] }).wf = false ∧ (Instr.recoveryBoot 1 ⟨0, 2 ^ 32⟩ firmware).wf = false ∧
    (Instr.recoveryChunk 1 ⟨0, 2 ^ 32⟩ 0 []).wf = false := by decide
theorem wf_recovery_chunk : (Instr.recoveryChunk 1 ⟨0, 0⟩ (2 ^ 32) []).wf = false ∧ (Instr.recoveryChunk 1 ⟨0, 0⟩ 0 (List.replicate 8177 0)).wf = false := by
  refine ⟨by decide, ?_⟩
  show (fits 64 1 && (fits 32 0 && fits 32 0 && decide ((List.replicate 8177 (0 : Byte)).length ≤ 8176))) = false
  rw [List.length_replicate]
  decide
theorem wf_buffer : (Instr.ledgerRead 1 q0 4096 (2 ^ 32) 0).wf = false ∧ (Instr.rows 1 q0 4096 64 (2 ^ 64) 1 0 []).wf = false ∧
    (Instr.loadBundle 1 q0 { source with total := 2 ^ 64 }).wf = false := by decide
theorem wf_izr : (Instr.izrData 1 (msg { hdr 0 1 1 1 with version := 16 } [])).wf = false ∧
    (Instr.izrData 1 (msg { hdr 0 1 1 1 with length := 2 ^ 32 } [])).wf = false ∧
    (Instr.preemptNotice 1 (.izr (msg { hdr 4 1 1 1 with count := 2 ^ 16 } []) (sgn 0x5800 0 []))).wf = false := by decide
theorem wf_heath_words : (Instr.timeWord 1 0 (2 ^ 64) 0 0).wf = false ∧ (Instr.timeWord 1 0 0 256 0).wf = false ∧
    (Instr.timeWord 1 0 0 0 256).wf = false ∧ (Instr.armWord 1 ⟨0, 256, 0, 0⟩ ⟨0, false, false, 0, [], 0, 0, 0⟩).wf = false ∧
    (Instr.epochReq 1 ⟨0, 0, 0, 0⟩ 256 0 0).wf = false ∧ (Instr.epochReq 1 ⟨0, 0, 0, 0⟩ 0 (2 ^ 16) 0).wf = false ∧
    (Instr.epochReq 1 ⟨0, 0, 0, 0⟩ 0 0 256).wf = false ∧ (Instr.leave 1 ⟨0, 0, 0, 0⟩ 0 0 (2 ^ 64)).wf = false ∧
    (Instr.replayWord 1 ⟨0, 0, 256, 0⟩ 0 0 0).wf = false ∧ (Instr.replayWord 1 ⟨0, 0, 0, 0⟩ 0 (2 ^ 32) 0).wf = false ∧
    (Instr.replayWord 1 ⟨0, 0, 0, 0⟩ 0 0 256).wf = false := by decide
theorem wf_words : (Instr.leave 1 ⟨0, 256, 0, 0⟩ 0 0 0).wf = false ∧ (Instr.leave 1 ⟨0, 0, 0, 2 ^ 32⟩ 0 0 0).wf = false ∧
    (Instr.memberAck 1 ⟨0, 9, 0, 4⟩ ⟨2 ^ 32, 0, 0, 0, 0⟩).wf = false ∧ (Instr.memberAck 1 ⟨0, 9, 0, 4⟩ ⟨4, 0, 0, 2 ^ 16, 0⟩).wf = false := by decide
theorem wf_queue_field : (Instr.queueEnable 1 1 0 (.sqLog 256)).wf = false ∧ (Instr.queueEnable 1 1 0 (.vector (2 ^ 16))).wf = false ∧
    (Instr.queueEnable 1 1 0 (.sqBase (2 ^ 64))).wf = false ∧ (Instr.sqTailDoorbell 1 1 0 (2 ^ 32)).wf = false ∧
    (Instr.cqHeadDoorbell 1 1 0 (2 ^ 32)).wf = false := by decide
theorem wf_entries : (Instr.record 1 q0 (2 ^ 64) 1 8 42).wf = false ∧ (Instr.record 1 q0 8 1 8 (2 ^ 32)).wf = false ∧
    (Instr.recordReadComplete 1 0 (2 ^ 16) .poisoned).wf = false ∧ (Instr.replayHeader 1 q0 (le 63 0)).wf = false ∧
    (Instr.rows 1 q0 8 8 1 (2 ^ 32) 1 []).wf = false ∧ (Instr.createFold 1 p0 (sgn (2 ^ 16) 1 []) (sgn 0x3001 2 [])).wf = false ∧
    (Instr.restore 1 ⟨1, 2 ^ 16, 0, 0⟩ 0 0).wf = false ∧ (Instr.ledgerAck 1 ⟨1, 2 ^ 16, 0, 0⟩ 0).wf = false := by decide
theorem wf_places : (Instr.channelTableWrite 1 256 0 (pln [])).wf = false ∧ (Instr.plotMaskWrite 1 0 256 (pln [])).wf = false ∧
    (Instr.inputBindingWrite 1 0 256 1 (pln [])).wf = false ∧ (Instr.resultBindingWrite 1 0 256 (pln [])).wf = false ∧
    (Instr.segmentedTransferTimeout 1 pf (2 ^ 16) 0).wf = false := by decide
theorem wf_measured : (Instr.supplyWarn 1 .core (2 ^ 16)).wf = false ∧ (Instr.supplyTrip 1 .core (2 ^ 16)).wf = false ∧
    (Instr.filestoreError 1 0 ⟨2 ^ 16, true⟩ 0).wf = false ∧ (Instr.filestoreError 1 0 ⟨0, true⟩ (2 ^ 64)).wf = false := by decide
theorem wf_places_of_the_card : (Instr.scheduledOperation 1 640 0 quiet).wf = false ∧ (Instr.grazingSlot 1 (.tile 640)).wf = false ∧
    (Instr.rootWheelPosition 1 .binning 0 64 (.bin 0)).wf = false ∧ (Instr.rootWheelPosition 1 .dieToDie 0 0 (.codesOut 0 640 0 false)).wf = false ∧
    (Instr.eccCeRate 1 2048).wf = false ∧ (Instr.quadrantFailure 1 0 256).wf = false := by decide

/-! ## Operation words (19, Tables 19.10 and 19.11) -/

theorem test_word_ldwin : decodeOp 0x00000000000000800000100000010010 = some ⟨false, .ldwin 1 0x1000 128⟩ := by decide
theorem test_word_pass_last : decodeOp 0x00000000000000000000000100000113 = some ⟨true, .pass 0 1⟩ := by decide
theorem test_word_lstore : decodeOp 0x0000000000000000000FFA0000070024 = some ⟨false, .lstore 7 0xFFA00⟩ := by decide
theorem test_word_update : decodeOp 0x000000000000000300004000000F0032 = some ⟨false, .update 0xF 0x4000 3⟩ := by decide
theorem test_word_zero : decodeOp 0x00000003000000000000006400000051 = some ⟨false, .zero 0x64 3⟩ := by decide
theorem test_word_copy : decodeOp 0x00000003000000500000006400000050 = some ⟨false, .copy 0x64 0x50 3⟩ := by decide
theorem test_word_fend : decodeOp 0x00000000000000000000000000000063 = some ⟨false, .fend⟩ := by decide
theorem test_word_unlisted : decodeOp 0x00000000000000000000000000000018 = none := by decide
theorem test_word_reserved : decodeOp 0x00000000000000000000000000000263 = none := by decide
theorem test_table_gives_no_words : decodeTableWord 32 5 = none ∧ (card.withFetchWord 32 5).pending = [] := by decide

/-! ## Numbers: the worked examples of 02, 04, 05 and 07 -/

theorem test_budgets : budget 10000 .opA = 15960 ∧ budget 10000 .opB = 12461 ∧ budget 10000 .opC = 8963 := by decide
theorem test_scale_of_round_six : scaleOf 15151505 (codeLimit false 8) = (119304, 0) ∧ scaleWord (119304, 0) = 0x01D20800 := by decide
theorem test_hessian_scale : scaleOf 4194304 (codeLimit true 8) = (16514, 0) ∧ scaleWord (16514, 0) = 0x00408200 := by decide
theorem test_codes : quant 298260 119304 = 2 ∧ quant 417564 119304 = 4 ∧ quant (-298260) 119304 = -2 ∧ quant 15211259 119304 = 127 ∧
    escapes (quant 15211260 119304) 127 = true ∧ quant (-16000000) 119304 = -134 := by decide
theorem test_side_list_entry : sideEntry 0x7F3 18500000 = 0x00100011A49A07F3 := by decide
theorem test_coarse : coarse 2400000 40265318 = true ∧ quant 2400000 317050 = 8 := by decide
theorem test_logistic_gradient : lossGH 2 0 [0] 0 1 = (-8388608, 4194304) := by decide +kernel
theorem test_reciprocal : tableV 0 = 1069563840 ∧ recipIter (2 ^ 30) 1069563840 = 1073725567 ∧ recipIter (2 ^ 30) 1073725567 = 2 ^ 30 := by decide
theorem test_split_gain : lambdaC 16777216 16514 = 1016 ∧ splitGain 9000 120000 (-5000) 80000 1016 = 58872191 := by decide
theorem test_leaf_value : leafValue 1677722 9000 119304 16514 121016 (2 ^ 40) = -901410 := by decide
theorem test_crc : crc32c [0x31, 0x32, 0x33, 0x34, 0x35, 0x36, 0x37, 0x38, 0x39] = 0xE3069283 := by decide +kernel
theorem test_digest : (digest []).take 4 = [0xA7, 0xFF, 0xC6, 0xF8] := by decide +kernel

/-- The cut table of the feature "amount". -/
def amount : CutTable := ⟨0, 3, 0, 0, [(0x4059000000000000, false), (0x406F400000000000, false), (0x406F400000000000, true), (0x408F440000000000, false)]⟩
theorem test_amount_codes : (let code := fun n => countPassed amount (srcVal 3 (le 8 n)).1 0
    code 0x4058FF5C28F5C28F = 0 ∧ code 0x4059000000000000 = 1 ∧ code 0x406F400000000000 = 2 ∧ code 0x406F400000000001 = 3 ∧
    code 0x8000000000000000 = 0 ∧ code 0x7FF0000000000000 = 4) ∧ missingCode 4 = 0xF := by decide +kernel

/-! ## One step -/

theorem test_idle (s : State) (h : s.pending = []) : step s = .next s := by
  unfold step; rw [h]
theorem test_front_first : (match step { card with pending := [.mainPowerLoss 2000005, .ready 2000006 1] } with
    | .next t => t.pending
    | _ => []) = [.ready 2000006 1] := by decide +kernel
theorem test_reset : (State.reset.fold 3).st = .empty ∧ State.reset.cfg.tickPeriod = 10000 ∧ State.reset.cfg.portLayout = 3 ∧
    (State.reset.foldCfg 0).ringPages = 8 ∧ (State.reset.chanCfg 9).mtu = 1500 ∧ State.reset.out = [] := by decide +kernel
theorem test_tick_period : (after (.tickPeriodWrite 2000001 (own 0x2010 0 (le 4 20000))) card).cfg.tickPeriod = 20000 := by decide +kernel
theorem test_unsigned_refused : ((after (.launch 2000001 false (.dict 0 (pln (le 8 4000000)))) (withFold (fold .loaded scoring))).fold 0).st =
    .loaded := by decide +kernel
theorem test_plain_entry : (after (.dictionaryWrite 2000001 0x1017 0 (pln [232, 3])) card).num 0x1017 0 0 = 1000 := by decide +kernel
theorem test_owner_locked_release : codes (after (.ownershipRelease 2000001 (own 0x2110 0 (List.replicate 97 0))) (withFold (fold .loaded scoring))) = [] ∧
    (after (.ownershipRelease 2000001 (own 0x2110 0 (List.replicate 97 0))) (withFold (fold .loaded scoring))).kept.ownerKey = [9] := by decide +kernel
theorem test_launch : (let s := withFold { fold .loaded scoring with led := Ledger.dflt }
    let t := after (.launch 2000001 false (.dict 0 (own 0x3005 0 (le 8 4000000)))) s
    ((t.fold 0).st, (t.fold 0).run.launchAt)) = (.armed, 4000000) := by decide +kernel
theorem test_launch_too_late : ((after (.launch 2000001 false (.dict 0 (own 0x3005 0 (le 8 3000000)))) (withFold (fold .loaded scoring))).fold 0).st =
    .loaded := by decide +kernel
theorem test_force_stop : ((after (.forceStop 2000001 (.dict 0 (own 0x3006 0 [2]))) (withFold running)).fold 0).st = .stopped := by decide +kernel
theorem test_unload : ((after (.unload 2000001 (.dict 0 (own 0x3006 0 [3]))) (withFold (fold .stopped scoring))).fold 0).st = .empty := by decide +kernel
theorem test_warm_reset : (let t := after (.warmReset 2000001 (own 0x2002 0 [1])) (withFold (fold .loaded scoring))
    ((t.fold 0).st, t.power.ready)) = (.empty, false) := by decide +kernel
theorem test_main_power_loss : (after (.mainPowerLoss 2000001) (withFold running)).power.main = false := by decide +kernel
theorem test_pll : (after (.pllLock 1 true) { card with power := { Power.dflt with main := true }, clock := Clock.dflt }).clock.running = true := by
  decide +kernel
theorem test_perst : (after (.perstAssert 2000001) card).power.perst = true := by decide +kernel
theorem test_core_trip : (after (.supplyTrip 2000001 .core 700) card).power.halted = true ∧
    (after (.supplyTrip 2000001 .core 2000) card).power.halted = false := by decide +kernel
theorem test_fold_start : ((after (.foldStart 2000001 0) (withFold (launching scoring))).fold 0).st = .running := by decide +kernel
theorem test_frame_close : ((after (.frameClose 2000001 0) (withFold running)).fold 0).run.closed = true ∧
    ((after (.frameClose 1999999 0) (withFold running)).fold 0).run.closed = true := by decide +kernel
theorem test_divergence : codes ((withFold finished).compareQuad 0 1) = [0x0301] ∧ codes ((withFold finished).compareQuad 0 0) = [] := by
  decide +kernel
theorem test_ladd : ((after (.scheduledOperation 2000001 0 0 quiet) (onTile 0x00000000000000000000000200010021 held)).tile 0).accOf 3 1 = 11 := by
  decide +kernel
theorem test_ladd_wraps : ((after (.scheduledOperation 2000001 0 0 quiet) (onTile 0x00000000000000000000000200010021
    { held with acc := [(49, 0xFFFFFFFFFFFF), (50, 6)] })).tile 0).accOf 3 1 = 5 := by decide +kernel
theorem test_zero : tileBytes (after (.scheduledOperation 2000001 0 0 quiet) (onTile 0x00000002000000000000006400000051 held)) 0 100 3 = [0, 0, 9] := by
  decide +kernel
theorem test_copy : tileBytes (after (.scheduledOperation 2000001 0 0 quiet) (onTile 0x00000003000000500000006400000050 held)) 0 80 3 = [7, 8, 9] := by
  decide +kernel
theorem test_send : tileBytes (after (.scheduledOperation 2000001 0 0 quiet) (onTile 0x00000003000000500000006400010052 held)) 1 80 3 = [7, 8, 9] := by
  decide +kernel
theorem test_beyond_the_store : ends (.scheduledOperation 2000001 0 0 quiet) (onTile 0x0000000300000000000FFFFE00000051 held) = 1 := by decide +kernel
theorem test_write_slot : mread ((after (.hbmSlot 2000001 0 0 1) (slotted 1 4096)).hbm 0).mem 4096 3 = [7, 8, 9] := by decide +kernel
theorem test_slot_outside : ends (.hbmSlot 2000001 0 0 1) (slotted 1 (2 ^ 30)) = 1 := by decide +kernel
theorem test_record : ((after (.record 2000001 q0 8192 (bodyLen scoring + 32) 4096 64) (withFold running)).fold 0).adm.reads.length = 1 := by decide +kernel
theorem test_step_boundary : ((after (.levelStepBoundary 2000001 0) (withFold (grow 7 Grow.dflt))).fold 0).grow.step = 1 := by decide +kernel
theorem test_replay : ((after (.levelStepBoundary 2000001 0) (withFold (grow 8 { Grow.dflt with step := 1, replayCause := some 2 }))).fold 0).grow.inReplay =
    true := by decide +kernel
theorem test_page_open : ((after (.pageOpen 2000001 0) (withFold atEnd)).fold 0).led.nextSeq = 1 := by decide +kernel
theorem test_no_slot : codes (after (.pageOpen 2000001 0) (setFold atEnd { plots with ringPages := 0 })) = [0x0602] := by decide +kernel
theorem test_notice_taken : ((after (.preemptNotice 2000001 (.dict (own 0x5800 0 notice))) (withFold running)).fold 0).pre.lastSeq = some 1 := by decide +kernel
theorem test_journal : (after (.journalCommitBusyEnd 2000001) (writing 2)).sd.nextJ = 1 := by decide +kernel
theorem test_evidence_removed : codes (after (.evidenceRemoved 2000001) (writing 2)) = [0x0A05] := by decide +kernel
theorem test_correction_rate : codes (after (.eccCeRate 1000000000 0x60) corrected) = [0x0502] := by decide +kernel
theorem test_quadrant_failure : (let t := after (.quadrantFailure 2000001 1 1) card
    ((t.quad 1).failed, (t.hbm 2).lost, (t.hbm 3).lost, (t.hbm 4).lost)) = (true, true, true, false) := by decide +kernel
theorem test_spdm_version : ((after (.spdmGetVersion 2000001 1) (attests 0 [] [] .unlocked)).fn 1).spdm.state = 1 := by decide +kernel
theorem test_spdm_order : ((after (.spdmGetCapabilities 2000001 1) (attests 0 [] [] .unlocked)).fn 1).spdm.state = 0 := by decide +kernel
theorem test_start_interface : ((after (.startInterfaceRequest 2000001 1 [3]) (attests 3 [1] [2] .locked)).fn 1).tdi = .run ∧
    ((after (.startInterfaceRequest 2000001 1 [4]) (attests 3 [1] [2] .locked)).fn 1).tdi = .locked := by decide +kernel
theorem test_link_down : ((after (.linkDown 2000001 0 1) second).link 0).state = 0 := by decide +kernel
theorem test_pause : (let s := { card with ports := vset card.ports 0 { Port.dflt with up := true } }
    ((after (.pauseFrame 2000001 0 .clause31 0 64) s).port 0).pausedUntil) = 2000065 := by decide +kernel
theorem test_nmt : (after (.nmtCommand 2000001 .stop) card).shep.nmt = 4 := by decide +kernel
theorem test_bracket_out : (after (.fbPresChange 2000001 true) card).shep.alState = 1 := by decide +kernel
theorem test_doorbell : ((after (.sqTailDoorbell 2000001 1 0 2) queued).fn 1).q0.sqTail = 2 := by decide +kernel
theorem test_function_level_reset : ((after (.functionLevelReset 2000001 1) queued).fn 1).q0.enabled = false ∧
    ((after (.functionLevelReset 2000001 1) queued).fn 2).q0.enabled = true := by decide +kernel
theorem test_drain_deadline : ((after (.noticeDeadline 5000000 0) (withFold { grows 22 with pre := { Preempt.dflt with drain := some drain } })).fold 0).pre.status =
    5 := by decide +kernel

end Sys2Proof.Tests
end

section
/-! SUPPORT. Rules of the shared operations that the proofs below cite: what a Fold holds after its state has moved, which events an
operation adds, which parts of the card the words of the Heath and the events of departure change. -/

namespace Sys2Proof.Machine

/-! ## Frames, composed -/

theorem State.fold_of_folds {s t : State} (h : t.folds = s.folds) (g : FoldId) : t.fold g = s.fold g := by simp [State.fold, h]
theorem othersSame.trans {f : FoldId} {s t w : State} (h : othersSame f s t) (h' : othersSame f t w) : othersSame f s w :=
  fun g hg => (h' g hg).trans (h g hg)
theorem storesSame.trans {s t w : State} (h : storesSame s t) (h' : storesSame t w) : storesSame s w := by
  obtain ⟨htiles, hhbms, hchans⟩ := h
  obtain ⟨htiles', hhbms', hchans'⟩ := h'
  exact ⟨htiles'.trans htiles, hhbms'.trans hhbms, hchans'.trans hchans⟩
theorem othersSame_tick (s : State) (t : Nat) (f : FoldId) : othersSame f s (s.tick t) := fun g _ => by simp
theorem storesSame_tick (s : State) (t : Nat) : storesSame s (s.tick t) := by simp [storesSame]
/-- What every step of a loop over the state keeps, the loop keeps. -/
theorem foldl_view {α β : Type} (view : State → β) (op : State → α → State) (h : ∀ s a, view (op s a) = view s) (l : List α) (s : State) :
    view (l.foldl op s) = view s := by
  induction l generalizing s with
  | nil => rfl
  | cons a l ih => rw [List.foldl_cons, ih, h]

/-! ## A Fold after its state has moved -/

@[simp] theorem State.setSt_same (s : State) (f : FoldId) (st : FoldState) : (s.setSt f st).fold f = { s.fold f with st := st } := by
  unfold State.setSt
  split
  · next h => subst h; rfl
  · simp
@[simp] theorem State.setSt_other (s : State) (f g : FoldId) (st : FoldState) (h : g ≠ f) : (s.setSt f st).fold g = s.fold g := by
  unfold State.setSt
  split
  · rfl
  · simp [h]

/-! ## Events that wait for their position (14) -/

/-- An event of this code waits for its position in the log. -/
def State.reports (s : State) (code : Nat) : Prop := ∃ e ∈ s.events.waiting, e.code = code

@[simp] theorem State.reports_emit_same (s : State) (unit code : Nat) (d : Bytes) : (s.emit unit code d).reports code := by
  simp [State.reports, State.emit, State.emitAt]
theorem State.reports_emit {s : State} {code : Nat} (h : s.reports code) (unit c : Nat) (d : Bytes) : (s.emit unit c d).reports code := by
  obtain ⟨e, he, hc⟩ := h
  exact ⟨e, by simp [State.emit, State.emitAt, he], hc⟩
/-- Events stay in wait where the collector is not touched. -/
theorem State.reports_congr {s t : State} (h : t.events = s.events) (code : Nat) : t.reports code ↔ s.reports code := by
  simp [State.reports, h]
@[simp] theorem State.reports_modFold (s : State) (f : FoldId) (g : Fold → Fold) (code : Nat) :
    (s.modFold f g).reports code ↔ s.reports code := State.reports_congr (by simp) code
@[simp] theorem State.reports_setSt (s : State) (f : FoldId) (st : FoldState) (code : Nat) :
    (s.setSt f st).reports code ↔ s.reports code := State.reports_congr (by simp) code

/-! ## Words on the links (11, Table 11.3) -/

theorem State.queueWord_rest (s : State) (w : SvcWord) (copies : Nat) (skip : Option LinkId) :
    s.queueWord w copies skip = { s with links := (s.queueWord w copies skip).links } := by
  unfold State.queueWord
  generalize List.finRange 16 = l
  induction l generalizing s with
  | nil => rfl
  | cons k l ih =>
    rw [List.foldl_cons, ih]
    split <;> rfl
/-- A queued word changes nothing of a link but what it still has to send. -/
theorem State.queueWord_link (s : State) (w : SvcWord) (copies : Nat) (skip : Option LinkId) (j : LinkId) :
    ((s.queueWord w copies skip).link j).depth = (s.link j).depth ∧
    ((s.queueWord w copies skip).link j).timeInterval = (s.link j).timeInterval := by
  unfold State.queueWord
  have h := foldl_view (fun s => ((s.link j).depth, (s.link j).timeInterval)) (fun s (k : LinkId) =>
    if (s.link k).carries && skip != some k then s.modLink k fun x => { x with sendq := x.sendq ++ [(w, copies)] } else s)
    (fun s k => by
      split
      · by_cases hk : j = k
        · subst hk; simp
        · simp [hk]
      · rfl) (List.finRange 16) s
  exact Prod.mk.inj h
theorem State.flood_rest (s : State) (typ : Nat) (body : Bytes) :
    s.flood typ body = { s with
      heath := { s.heath with seq := s.heath.seq + 1, seen := (s.card, s.heath.seq) :: s.heath.seen }
      links := (s.flood typ body).links } := by
  unfold State.flood
  exact State.queueWord_rest _ _ _ _
@[simp] theorem State.flood_frame (s : State) (typ : Nat) (body : Bytes) :
    (s.flood typ body).folds = s.folds ∧ (s.flood typ body).tiles = s.tiles ∧ (s.flood typ body).hbms = s.hbms ∧
    (s.flood typ body).chans = s.chans ∧ (s.flood typ body).clock = s.clock ∧ (s.flood typ body).events = s.events ∧
    (s.flood typ body).heath.alignLost = s.heath.alignLost ∧ (s.flood typ body).heath.reference = s.heath.reference := by
  rw [State.flood_rest]
  exact ⟨rfl, rfl, rfl, rfl, rfl, rfl, rfl, rfl⟩
theorem State.flood_link (s : State) (typ : Nat) (body : Bytes) (j : LinkId) :
    ((s.flood typ body).link j).depth = (s.link j).depth ∧ ((s.flood typ body).link j).timeInterval = (s.link j).timeInterval :=
  State.queueWord_link _ _ _ _ _
/-- A relayed word changes the links and what the card has seen. -/
@[simp] theorem State.relay_frame (s : State) (h : RelayHdr) (typ : Nat) (body : Bytes) :
    (s.relay h typ body).folds = s.folds ∧ (s.relay h typ body).tiles = s.tiles ∧ (s.relay h typ body).hbms = s.hbms ∧
    (s.relay h typ body).chans = s.chans ∧ (s.relay h typ body).clock = s.clock := by
  unfold State.relay
  dsimp only
  split
  · exact ⟨rfl, rfl, rfl, rfl, rfl⟩
  · rw [State.queueWord_rest]
    exact ⟨rfl, rfl, rfl, rfl, rfl⟩
theorem State.reselect_rest (s : State) :
    s.reselect = { s with heath := { s.heath with
      reference := s.reselect.heath.reference, upstream := s.reselect.heath.upstream, depth := s.reselect.heath.depth } } := by
  unfold State.reselect
  dsimp only
  split
  · rfl
  · split <;> rfl
@[simp] theorem State.reselect_frame (s : State) :
    s.reselect.clock = s.clock ∧ s.reselect.tiles = s.tiles ∧ s.reselect.hbms = s.hbms ∧ s.reselect.chans = s.chans ∧
    (∀ j, s.reselect.link j = s.link j) ∧ s.reselect.heath.members = s.heath.members ∧ s.reselect.heath.alignLost = s.heath.alignLost := by
  rw [State.reselect_rest]
  exact ⟨rfl, rfl, rfl, rfl, fun _ => rfl, rfl, rfl⟩
theorem State.askKeyUpdates_rest (s : State) : s.askKeyUpdates = { s with links := s.askKeyUpdates.links } := by
  unfold State.askKeyUpdates
  generalize List.finRange 16 = l
  induction l generalizing s with
  | nil => rfl
  | cons k l ih =>
    rw [List.foldl_cons, ih]
    split <;> rfl

end Sys2Proof.Machine
end

section
/-! PROOFS. FOLD_START, FRAME_OPEN and FRAME_CLOSE (02, R42, R43; 10, R270; 08, R209). -/

namespace Sys2Proof.Machine

/-! ## The mapping put in force -/

theorem State.loadIdle_folds (s : State) (f : FoldId) (m : Nat) : (s.loadIdle f m).folds = s.folds := by
  unfold State.loadIdle
  split
  · rfl
  · exact foldl_view State.folds _ (fun s p => by split <;> rfl) _ s
theorem State.switchBanks_folds (s : State) (f : FoldId) : (s.switchBanks f).folds = s.folds := by
  unfold State.switchBanks
  exact foldl_view State.folds _ (fun s t => by split <;> rfl) _ s
@[simp] theorem State.loadIdle_fold (s : State) (f g : FoldId) (m : Nat) : (s.loadIdle f m).fold g = s.fold g :=
  State.fold_of_folds (s.loadIdle_folds f m) g
@[simp] theorem State.switchBanks_fold (s : State) (f g : FoldId) : (s.switchBanks f).fold g = s.fold g :=
  State.fold_of_folds (s.switchBanks_folds f) g
@[simp] theorem State.installMapping_same (s : State) (f : FoldId) (m : Nat) :
    (s.installMapping f m).fold f = { s.fold f with run := { (s.fold f).run with mapping := some m, nextMapping := none } } := by
  simp [State.installMapping]
@[simp] theorem State.installMapping_other (s : State) (f g : FoldId) (m : Nat) (h : g ≠ f) : (s.installMapping f m).fold g = s.fold g := by
  simp [State.installMapping, h]

/-! ## FOLD_START -/

/-- The card at LaunchAt, before frame zero opens. -/
theorem State.startedFold (s : State) (f : FoldId) (m : Nat) {v : State} (hv : v = ((s.installMapping f m).setSt f .running).runFold f) :
    (v.fold f).st = .running ∧ (v.fold f).run.mapping = some m ∧ (v.fold f).res = (s.fold f).res ∧ othersSame f s v := by
  subst hv
  refine ⟨?_, ?_, ?_, fun g hg => ?_⟩ <;> simp [State.runFold, *]
theorem exec_foldStart_due {t : Nat} {f : FoldId} {s u : State} (hu : s.tick t = u) (hp : u.power.halted = false)
    (hst : (u.fold f).st = .armed) (hc : (u.fold f).run.cutoffOk = true) (ha : (u.fold f).run.aborted = false)
    (hl : (u.fold f).run.launchAt ≤ u.now) :
    (∀ m, u.findMapping f = some m → exec (.foldStart t f) s =
      .next ((((u.installMapping f m.id).setSt f .running).runFold f).openFrame f 0)) ∧
    (u.findMapping f = none → exec (.foldStart t f) s = .next ((u.setSt f .running).noMapping f)) := by
  show (∀ m, _ → execFoldStart t f s = _) ∧ (_ → execFoldStart t f s = _)
  simp only [execFoldStart, hu]
  rw [if_neg (by simp [hp, hst, hc, ha, hl])]
  exact ⟨fun m hm => by rw [hm], fun hm => by rw [hm]⟩
theorem exec_foldStart_early {t : Nat} {f : FoldId} {s u : State} (hu : s.tick t = u)
    (h : u.power.halted = true ∨ (u.fold f).st ≠ .armed ∨ (u.fold f).run.cutoffOk = false ∨ (u.fold f).run.aborted = true ∨
      u.now < (u.fold f).run.launchAt) : exec (.foldStart t f) s = .next u := by
  show execFoldStart t f s = _
  simp only [execFoldStart, hu]
  rw [if_pos (by simpa [or_assoc] using h)]

/-! ## FRAME_OPEN and FRAME_CLOSE -/

theorem exec_frameOpen_due {t : Nat} {f : FoldId} {s u : State} (hu : s.tick t = u) (hp : u.power.halted = false)
    (hl : (u.fold f).live = true) (hs : (u.fold f).run.started = true) (hc : (u.fold f).run.closed = true)
    (ho : (u.fold f).segmentOver = false) (ht : (u.fold f).tickOf (u.fold f).run.opened ≤ u.now) :
    exec (.frameOpen t f) s = .next ((u.openFrame f (u.fold f).run.opened).settle f) := by
  show execFrameOpen t f s = _
  simp only [execFrameOpen, hu]
  rw [if_neg (by simp [hp, hl, hs, hc, ho, ht])]
theorem exec_frameClose_due {t : Nat} {f : FoldId} {s u : State} (hu : s.tick t = u) (hp : u.power.halted = false)
    (hl : (u.fold f).live = true) (hs : (u.fold f).run.started = true) (hc : (u.fold f).run.closed = false)
    (ht : (u.fold f).tickOf (u.fold f).run.opened ≤ u.now) : exec (.frameClose t f) s = .next ((u.closeFrame f).settle f) := by
  show execFrameClose t f s = _
  simp only [execFrameClose, hu]
  rw [if_neg (by simp [hp, hl, hs, hc, ht])]
theorem exec_frame_early {t : Nat} {f : FoldId} {s u : State} (hu : s.tick t = u)
    (h : u.power.halted = true ∨ (u.fold f).live = false ∨ u.now < (u.fold f).tickOf (u.fold f).run.opened) :
    exec (.frameOpen t f) s = .next u ∧ exec (.frameClose t f) s = .next u := by
  constructor
  · show execFrameOpen t f s = _
    simp only [execFrameOpen, hu]
    rw [if_pos (by rcases h with h | h | h <;> simp [h])]
  · show execFrameClose t f s = _
    simp only [execFrameClose, hu]
    rw [if_pos (by rcases h with h | h | h <;> simp [h])]

/-! ## The shares of a frame (10, R270) -/

theorem State.startContexts_folds (s : State) (f : FoldId) : (s.startContexts f).folds = s.folds := by
  unfold State.startContexts
  dsimp only
  split
  · split
    · rfl
    · exact foldl_view State.folds _ (fun _ _ => by rfl) _ s
  · rfl
theorem State.queuePeers_folds (s : State) (f : FoldId) (n : Nat) : (s.queuePeers f n).folds = s.folds := by
  unfold State.queuePeers
  dsimp only
  split
  · rfl
  · exact foldl_view State.folds _ (fun s k => by split <;> rfl) _ s
/-- The tick that opens a frame changes the peer set of the Fold and nothing else. -/
theorem State.turnPeers_fold (s : State) (f : FoldId) (tick : Nat) :
    (∃ ns ls, (s.turnPeers f tick).fold f = { s.fold f with run := { (s.fold f).run with neighbours := ns, leaving := ls } }) ∧
    othersSame f s (s.turnPeers f tick) := by
  unfold State.turnPeers
  dsimp only
  split
  · exact ⟨⟨_, _, rfl⟩, fun g _ => rfl⟩
  · exact ⟨⟨_, _, State.modFold_same _ _ _⟩, fun g hg => State.modFold_other _ _ _ _ hg⟩
/-- Quota and shares of the frame are those of the Fold before its peers turned: the peer set does not enter them. -/
theorem State.beginFrame_fold (s : State) (f : FoldId) (n : Nat) (hl : (s.fold f).live = true) :
    (∃ ns ls, (s.beginFrame f n).fold f =
      { s.fold f with run := { (s.fold f).run with neighbours := ns, leaving := ls } }.begin n
        ((s.fold f).quotaAt ((s.fold f).stoppedAt n)) ((s.fold f).pcieShare n ((s.fold f).quotaAt ((s.fold f).stoppedAt n)))
        ((s.fold f).quotaAt ((s.fold f).stoppedAt n) - (s.fold f).pcieShare n ((s.fold f).quotaAt ((s.fold f).stoppedAt n)))) ∧
    othersSame f s (s.beginFrame f n) := by
  obtain ⟨⟨ns, ls, hv⟩, ho⟩ : (∃ ns ls, (if n = 0 then s else s.turnPeers f ((s.fold f).tickOf n)).fold f =
      { s.fold f with run := { (s.fold f).run with neighbours := ns, leaving := ls } }) ∧
      othersSame f s (if n = 0 then s else s.turnPeers f ((s.fold f).tickOf n)) := by
    split
    · exact ⟨⟨_, _, rfl⟩, fun g _ => rfl⟩
    · exact State.turnPeers_fold s f _
  have hfolds : ∀ (v : State) g, ((v.startContexts f).queuePeers f n).fold g = v.fold g := fun v g =>
    State.fold_of_folds ((State.queuePeers_folds _ f n).trans (State.startContexts_folds v f)) g
  unfold State.beginFrame
  simp only [hl, Bool.not_true, Bool.false_eq_true, if_false]
  refine ⟨⟨ns, ls, ?_⟩, fun g hg => ?_⟩
  · rw [hfolds, State.modFold_same, hv]
    rfl
  · rw [hfolds, State.modFold_other _ _ _ _ hg, ho g hg]

/-- Settles O46: each of the three commands by whether its tick has come, the shares of a frame by what opening it writes. -/
theorem foldsStartAndOpenTheirFrames : Obligations.FoldsStartAndOpenTheirFrames := by
  refine ⟨fun t f s u x hu hx => ?_, fun f n q qp s x hx hl hq hqp => ?_⟩
  · subst hx
    refine ⟨fun hp hst hc ha hla => ⟨fun m hm => ?_, fun hm => ?_⟩, exec_foldStart_early hu,
      fun hp hl hs hc ho ht => exec_frameOpen_due hu hp hl hs hc ho ht,
      fun hp hl hs hc ht => exec_frameClose_due hu hp hl hs hc ht, exec_frame_early hu⟩
    · obtain ⟨hrun, hmap, hres, hothers⟩ := State.startedFold u f m.id rfl
      refine ⟨_, rfl, hrun, hmap, ?_, ?_, ?_⟩
      · rw [Fold.freeCredits, hres]
      · exact (hu ▸ othersSame_tick s t f).trans hothers
      · exact (exec_foldStart_due hu hp hst hc ha hla).1 m hm
    · exact (exec_foldStart_due hu hp hst hc ha hla).2 hm
  · subst hx hq hqp
    obtain ⟨⟨ns, ls, hb⟩, ho⟩ := State.beginFrame_fold s f n hl
    exact ⟨by rw [hb]; rfl, by rw [hb]; rfl, by rw [hb]; rfl, ho⟩

end Sys2Proof.Machine
end

section
/-! PROOFS. RECORD_READ_COMPLETE and COMPLETION_TIMEOUT (02, R37; 08, R210; 18, R490, Table 18.8). -/

namespace Sys2Proof.Machine

/-! ## A Fold after a read that failed -/

/-- The read is no longer outstanding and its credit is back. -/
def Fold.dropRead (x : Fold) (d : Read) : Fold :=
  { x with adm := { x.adm with reads := x.adm.reads.filter (fun y => y.n != d.n) }, res := { x.res with taken := x.res.taken - 1 } }
/-- A read of a replay Fold gives its place back too (log entry 25). -/
def Fold.failRead (x : Fold) (d : Read) : Fold := match d.orig with
  | none => x.dropRead d
  | some o => giveBack o (x.dropRead d)

theorem State.setFold_setFold (s : State) (f : FoldId) (x y : Fold) : (s.setFold f x).setFold f y = s.setFold f y := by
  have h : vset (vset s.folds f x) f y = vset s.folds f y := Vector.set_set ..
  simp only [State.setFold, h]
theorem State.postRecord_fold (s : State) (f g : FoldId) (cid st ev fr len : Nat) : (s.postRecord f cid st ev fr len).fold g = s.fold g := by
  simp [State.postRecord]
/-- A read that fails changes its Fold alone, and completes READ_ERROR. -/
theorem State.readError_eq (s : State) (f : FoldId) (d : Read) :
    s.readError f d = (s.setFold f ((s.fold f).failRead d)).postRecord f d.cid 0x21 0 0 0 := by
  unfold State.readError Fold.failRead
  cases hd : d.orig with
  | none => rfl
  | some o =>
    show State.postRecord (((s.setFold f ((s.fold f).dropRead d)).modFold f (giveBack o))) f d.cid 0x21 0 0 0 = _
    rw [State.modFold, State.setFold_same, State.setFold_setFold]
theorem State.readError_fold (s : State) (f : FoldId) (d : Read) : (s.readError f d).fold f = (s.fold f).failRead d := by
  rw [State.readError_eq, State.postRecord_fold, State.setFold_same]
theorem State.readError_frame (s : State) (f : FoldId) (d : Read) :
    othersSame f s (s.readError f d) ∧ storesSame s (s.readError f d) ∧ (s.readError f d).pcie = s.pcie := by
  rw [State.readError_eq]
  refine ⟨fun g hg => ?_, ?_, ?_⟩
  · rw [State.postRecord_fold, State.setFold_other _ _ _ _ hg]
  · simp [storesSame, State.postRecord]
  · simp [State.postRecord]
theorem State.readError_returns (s : State) (f : FoldId) (d : Read) :
    ((s.readError f d).fold f).res.taken = (s.fold f).res.taken - 1 ∧
    (d.orig = none → (s.readError f d).fold f = (s.fold f).dropRead d) ∧
    (∀ o, d.orig = some o → ((s.readError f d).fold f).rep.cur =
      (s.fold f).rep.cur.map fun c => if c.2.1 = o.hid then (c.1, c.2.1, c.2.2 - 1) else c) := by
  rw [State.readError_fold]
  refine ⟨?_, fun hd => ?_, fun o hd => ?_⟩
  · cases hd : d.orig <;> simp [Fold.failRead, Fold.dropRead, giveBack, hd]
  · simp [Fold.failRead, hd]
  · simp [Fold.failRead, Fold.dropRead, giveBack, hd]

/-! ## The ends of a record read -/

theorem exec_read_data {t : Nat} {f : FoldId} {cid : Nat} {d : Read} {s u : State} (hu : s.tick t = u) (hd : u.findRead f cid = some d)
    (b : Bytes) : exec (.recordReadComplete t f cid (.data b)) s = .next (u.landRecord f d b) := by
  show execRecordReadComplete t f cid (.data b) s = _
  simp only [execRecordReadComplete, hu, hd]
/-- Advisory Non-Fatal is set for a poisoned completion only (18, Table 18.8). -/
theorem exec_read_failed {t : Nat} {f : FoldId} {cid : Nat} {d : Read} {s u : State} (hu : s.tick t = u) (hd : u.findRead f cid = some d)
    {r : ReadResult} (hr : r ∈ [ReadResult.poisoned, .unsupported, .completerAbort]) :
    exec (.recordReadComplete t f cid r) s = .next { u.readError f d with
      pcie := { u.pcie with aerAdvisory := u.pcie.aerAdvisory || r == .poisoned } } := by
  have hquiet : u.readError f d = { u.readError f d with pcie := { u.pcie with aerAdvisory := u.pcie.aerAdvisory || false } } := by
    rw [Bool.or_false]
    exact congrArg (fun p => { u.readError f d with pcie := p }) (State.readError_frame u f d).2.2
  show execRecordReadComplete t f cid r s = _
  simp only [List.mem_cons, List.not_mem_nil, or_false] at hr
  obtain rfl | rfl | rfl := hr
  · simp [execRecordReadComplete, hu, hd]
  · simp only [execRecordReadComplete, hu, hd]
    exact congrArg Host.Outcome.next hquiet
  · simp only [execRecordReadComplete, hu, hd]
    exact congrArg Host.Outcome.next hquiet
theorem exec_timeout_record {t : Nat} {f : FoldId} {cid : Nat} {d : Read} {s u : State} (hu : s.tick t = u)
    (hd : u.findRead f cid = some d) :
    exec (.completionTimeout t (.record f cid)) s = .next { u.readError f d with pcie := { u.pcie with aerAdvisory := true } } := by
  show execCompletionTimeout t (.record f cid) s = _
  simp only [execCompletionTimeout, hu, hd]

/-! ## The other reads that reach the completion timeout -/

theorem exec_timeout_ring (t : Nat) (v : FnId) (n : Fin 2) (s : State) : exec (.completionTimeout t (.ring v n)) s =
    .next { (s.tick t).modFn v fun x => x.setQueue n.val { x.queue n.val with error := true } with
      pcie := { (s.tick t).pcie with aerTimeout := true } } := rfl
theorem exec_timeout_extent {t : Nat} {f : FoldId} {b : Background} {s u : State} (hu : s.tick t = u) (hb : (u.fold f).bg = some b)
    (ho : b.orphan = false) (v : FnId) (hv : v.val = b.fn) :
    exec (.completionTimeout t (.extent f)) s = .next { (u.setFold f { u.fold f with bg := none }).post v ⟨0, b.cid, 0xC, 0, 0, 0, 0⟩ with
      pcie := { u.pcie with aerTimeout := true } } := by
  have hfn : (⟨b.fn % 17, by omega⟩ : FnId) = v := Fin.ext (by simp only; omega)
  show execCompletionTimeout t (.extent f) s = _
  simp only [execCompletionTimeout, hu, State.endBg, hb, ho, Bool.false_eq_true, if_false, hfn]
  rfl
theorem exec_timeout_object {t : Nat} {q : QHdr} {s u : State} (hu : s.tick t = u) (hq : u.canFetch q.fn 0 = true) :
    exec (.completionTimeout t (.object q)) s =
      .next { (u.fetch q.fn 0).complete q 0xC 0 0 0 0 with pcie := { u.pcie with aerTimeout := true } } := by
  show execCompletionTimeout t (.object q) s = _
  simp [execCompletionTimeout, hu, hq]
theorem exec_timeout_rows {t : Nat} {q : QHdr} {s u : State} (hu : s.tick t = u) (hq : u.canFetch1 q.fn = true) :
    exec (.completionTimeout t (.rows q)) s =
      .next { (u.fetch q.fn 1).complete1 q 0x21 0 0 0 0 with pcie := { u.pcie with aerAdvisory := true } } := by
  show execCompletionTimeout t (.rows q) s = _
  simp [execCompletionTimeout, hu, hq]

/-- Settles O32: every end of a read by its own rule, and the rule of a failed read by what it leaves in the Fold. -/
theorem readsEndInAStampOrAnError : Obligations.ReadsEndInAStampOrAnError := by
  refine ⟨fun t f cid d s u x hu hx hd => ⟨fun b => ?_, fun r hr => ⟨_, exec_read_failed hu hd hr, rfl⟩, exec_timeout_record hu hd⟩,
    fun s f d => ?_, fun t v n s u hu => ?_, fun t f b s u hu hb ho hfn => ?_, fun t q s u hu hq => exec_timeout_object hu hq,
    fun t q s u hu hq => exec_timeout_rows hu hq⟩
  · have hland : (u.landRecord f d b).fold f = _ := State.modFold_same u f _
    refine ⟨_, exec_read_data hu hd b, ?_, ?_⟩
    · rw [hland]; rfl
    · rw [hland, hx]
  · obtain ⟨hothers, hstores, _⟩ := State.readError_frame s f d
    obtain ⟨htaken, hplain, hreplay⟩ := State.readError_returns s f d
    exact ⟨htaken, hothers, hstores, hplain, hreplay, by rw [State.readError_fold, State.readError_eq]⟩
  · subst hu
    exact exec_timeout_ring t v n s
  · refine ⟨_, ⟨b.fn, hfn⟩, rfl, exec_timeout_extent hu hb ho _ rfl, rfl, ?_⟩
    subst hu
    show ((((s.tick t).setFold f _).post _ _).fold f) = _
    simp

end Sys2Proof.Machine
end

section
/-! PROOFS. The entries that are only stored, the period, the operating point, the layout and the parameters (13, Tables 13.5 to 13.8). -/

namespace Sys2Proof.Machine

/-! ## A write that every check admits -/

theorem admitWrite_payload (s : State) (a : Access) (i u : Nat) (d : WData) (c : Bool) :
    (s.admitWrite a i u d c).value = payloadOf d := by
  rw [State.admitWrite_value]
  cases d <;> rfl
/-- An admitted write is its entry's commit on the payload, then the answer. -/
theorem dictWrite_of_admits {u : State} {i sub : Nat} {r : WReq} (h : admits u i sub r) (commit : State → Bytes → State × Nat × Nat) :
    u.dictWrite i sub r commit =
      (commit (u.admitWrite r.acc i sub r.data false).st (payloadOf r.data)).1.answer r.acc i sub
        (commit (u.admitWrite r.acc i sub r.data false).st (payloadOf r.data)).2.1
        (commit (u.admitWrite r.acc i sub r.data false).st (payloadOf r.data)).2.2 [] := by
  obtain ⟨hservice, habort, hrsvd, hbox⟩ := h
  rw [State.dictWrite_admitted u i sub r commit hservice habort hrsvd hbox, admitWrite_payload]
/-- An admitted write whose commit accepts in every state of the same configuration: the commit runs on a card of which the checks have
left everything but AuthSeq and events as it was. -/
theorem dictWrite_accepted {s u : State} {t i sub : Nat} {r : WReq} (hu : s.tick t = u) (h : admits u i sub r)
    {commit : State → Bytes → State × Nat × Nat} {after : State → State}
    (hc : ∀ v : State, v.cfg = s.cfg → commit v (payloadOf r.data) = (after v, 0, 0)) :
    ∃ v : State, v.cfg = s.cfg ∧ v.shep = s.shep ∧ cardSame s v ∧ u.dictWrite i sub r commit = (after v).answer r.acc i sub 0 0 [] := by
  have hcfg : (u.admitWrite r.acc i sub r.data false).st.cfg = s.cfg := by subst hu; simp
  refine ⟨_, hcfg, ?_, ?_, ?_⟩
  · subst hu; simp
  · subst hu; simp [cardSame]
  · rw [dictWrite_of_admits h, hc _ hcfg]
theorem cardSame_answer {s w : State} (h : cardSame s w) (a : Access) (i u c e : Nat) (b : Bytes) : cardSame s (w.answer a i u c e b) := by
  simpa [cardSame] using h
theorem answer_port (s : State) (a : Access) (i u c e : Nat) (b : Bytes) (p : PortId) : (s.answer a i u c e b).port p = s.port p := by
  simp

/-! ## Commits and what they leave -/

theorem opOfCode_of_lt {n : Nat} {p : OpPoint} (h : n < opCode p) : ∃ q, opOfCode n = some q := by
  have hn : n = 0 ∨ n = 1 := by cases p <;> simp [opCode] at h <;> omega
  rcases hn with rfl | rfl
  · exact ⟨_, rfl⟩
  · exact ⟨_, rfl⟩
theorem State.commitEntry_plain (s : State) (a : Access) {i sub : Nat} (v : Bytes) (h : plainEntry i sub = true) :
    s.commitEntry a i sub v = (s.setVal i sub v, 0, 0) := by
  simp only [plainEntry, Bool.or_eq_true, beq_iff_eq, decide_eq_true_eq, Bool.and_eq_true] at h
  unfold State.commitEntry
  repeat rw [if_neg (by omega)]
  rfl
theorem State.commitEntry_index (s : State) (a : Access) (v : Bytes) : s.commitEntry a 0x2100 1 v = (s.commitIndex v, 0, 0) := by
  simp [State.commitEntry, okC]
/-- The layout's ports, unpaused, up where the layout has them and their cage is up. -/
theorem State.commitLayout_port (s : State) (v : Bytes) (p : PortId) :
    (s.commitLayout v).1.port p = { s.port p with
      pausedUntil := 0, up := decide (p.val < portCount (leNat v)) && s.cageUp (cageOf (leNat v) p.val) } := by
  simp [State.commitLayout, okC, State.port, vget]

/-! ## The entries -/

theorem storedEntry_holds {s u : State} {t i sub : Nat} {r : WReq} (hu : s.tick t = u) (h : admits u i sub r)
    (hi : plainEntry i sub = true) : ∃ w, exec (.dictionaryWrite t i sub r) s = .next w ∧
      w.cfg = { s.cfg with vals := mset [] s.cfg.vals (i * 256 + sub) (payloadOf r.data) } ∧ w.shep = s.shep ∧ cardSame s w := by
  subst hu
  obtain ⟨v, hcfg, hshep, hsame, hw⟩ := dictWrite_accepted rfl h fun v _ => State.commitEntry_plain v r.acc (payloadOf r.data) hi
  refine ⟨_, congrArg Host.Outcome.next hw, ?_, ?_, by apply cardSame_answer; exact hsame⟩
  · simp [State.setVal, hcfg]
  · simpa [State.setVal] using hshep
theorem heathIndex_holds {s u : State} {t : Nat} {r : WReq} (hu : s.tick t = u) (h : admits u 0x2100 1 r) :
    ∃ w, exec (.dictionaryWrite t 0x2100 1 r) s = .next w ∧
      w.cfg = { s.cfg with vals := mset [] s.cfg.vals (0x2100 * 256 + 1) (payloadOf r.data) } ∧ w.shep = s.shep ∧
      w.heath = { s.heath with lostQuads := s.heath.lostQuads.map fun e => if e.1 = s.card then (leNat (payloadOf r.data), e.2) else e } ∧
      cardSame s { w with heath := s.heath } := by
  subst hu
  obtain ⟨v, hcfg, hshep, hsame, hw⟩ := dictWrite_accepted rfl h fun v _ => State.commitEntry_index v r.acc (payloadOf r.data)
  have hcard : v.card = s.card := by simp [State.card, State.num, State.val, hcfg]
  obtain ⟨hfolds, htiles, hhbms, hquads, hlinks, hports, hheath, hsec, hchans⟩ := hsame
  refine ⟨_, congrArg Host.Outcome.next hw, ?_, ?_, ?_, ?_⟩
  · simp [State.commitIndex, State.setVal, hcfg]
  · simpa [State.commitIndex, State.setVal] using hshep
  · simp [State.commitIndex, State.setVal, hcard, hheath]
  · simp [cardSame, State.commitIndex, State.setVal, *]
theorem tickPeriod_holds {s u : State} {t : Nat} {r : WReq} (hu : s.tick t = u) (h : admits u 0x2010 0 r) :
    ∃ w, exec (.tickPeriodWrite t r) s = .next w ∧ w.cfg = { s.cfg with tickPeriod := leNat (payloadOf r.data) } ∧
      w.shep = s.shep ∧ cardSame s w := by
  subst hu
  obtain ⟨v, hcfg, hshep, hsame, hw⟩ := dictWrite_accepted (commit := State.commitPeriod) rfl h fun v _ => rfl
  refine ⟨_, congrArg Host.Outcome.next hw, ?_, ?_, by apply cardSame_answer; exact hsame⟩
  · simp [hcfg]
  · simpa using hshep
theorem operatingPoint_holds {s u : State} {t : Nat} {r : WReq} {p : OpPoint} (hu : s.tick t = u) (h : admits u 0x2011 0 r)
    (hp : opOfCode (leNat (payloadOf r.data)) = some p) (hcap : opCode s.cfg.opCap ≤ leNat (payloadOf r.data)) :
    ∃ w, exec (.operatingPointWrite t r) s = .next w ∧ w.cfg = { s.cfg with op := p } ∧ w.shep = s.shep ∧ cardSame s w := by
  subst hu
  have hc (v : State) (hv : v.cfg = s.cfg) :
      v.commitOp (payloadOf r.data) = ({ v with cfg := { v.cfg with op := p } }, 0, 0) := by
    simp [State.commitOp, okC, hp, hv, Nat.not_lt.2 hcap]
  obtain ⟨v, hcfg, hshep, hsame, hw⟩ := dictWrite_accepted rfl h hc
  refine ⟨_, congrArg Host.Outcome.next hw, ?_, ?_, by apply cardSame_answer; exact hsame⟩
  · simp [hcfg]
  · simpa using hshep
theorem operatingPoint_capped {s u : State} {t : Nat} {r : WReq} (hu : s.tick t = u) (h : admits u 0x2011 0 r)
    (hcap : leNat (payloadOf r.data) < opCode s.cfg.opCap) : exec (.operatingPointWrite t r) s =
      .next ((u.admitWrite r.acc 0x2011 0 r.data false).st.answer r.acc 0x2011 0 0x06040043 0 []) := by
  subst hu
  obtain ⟨q, hq⟩ := opOfCode_of_lt hcap
  show Host.Outcome.next ((s.tick t).dictWrite 0x2011 0 r State.commitOp) = _
  rw [dictWrite_of_admits h]
  simp [State.commitOp, noC, hq, hcap]
theorem portLayout_holds {s u : State} {t n : Nat} {r : WReq} (hu : s.tick t = u) (h : admits u 0x2030 0 r)
    (hn : leNat (payloadOf r.data) = n) : ∃ w, exec (.portLayoutWrite t r) s = .next w ∧
      w.cfg = { s.cfg with portLayout := n } ∧ w.shep = s.shep ∧ cardSame s { w with ports := s.ports } ∧
      (∀ p : PortId, w.port p = { s.port p with
        pausedUntil := 0, up := decide (p.val < portCount n) && s.cageUp (cageOf n p.val) }) := by
  subst hu hn
  obtain ⟨v, hcfg, hshep, hsame, hw⟩ := dictWrite_accepted (commit := State.commitLayout) rfl h fun v _ => rfl
  obtain ⟨hfolds, htiles, hhbms, hquads, hlinks, hports, hheath, hsec, hchans⟩ := hsame
  have hport : v.port = s.port := by funext p; simp [State.port, hports]
  have hcage : v.cageUp = s.cageUp := by funext c; simp [State.cageUp, hcfg, hport]
  refine ⟨_, congrArg Host.Outcome.next hw, ?_, ?_, ?_, fun p => ?_⟩
  · simp [hcfg]
  · simpa using hshep
  · simp [cardSame, *]
  · have hp := State.commitLayout_port v (payloadOf r.data) p
    rw [hcage, hport] at hp
    exact (answer_port ..).trans hp
theorem parameters_stored {s u : State} {t : Nat} {r : WReq} (hu : s.tick t = u) (h : admits u 0x1010 1 r) :
    ∃ w, exec (.storeParameters t r) s = .next w ∧ w.cfg = s.cfg ∧ w.shep = { s.shep with stored := s.cfg } ∧ cardSame s w := by
  subst hu
  obtain ⟨v, hcfg, hshep, hsame, hw⟩ := dictWrite_accepted (commit := fun s _ => s.commitStore) rfl h fun v _ => rfl
  refine ⟨_, congrArg Host.Outcome.next hw, ?_, ?_, by apply cardSame_answer; exact hsame⟩
  · simpa using hcfg
  · simp [hcfg, hshep]
theorem defaults_marked {s u : State} {t : Nat} {r : WReq} (hu : s.tick t = u) (h : admits u 0x1011 1 r) :
    ∃ w, exec (.restoreDefaults t r) s = .next w ∧ w.cfg = s.cfg ∧ w.shep = { s.shep with restore := true } ∧ cardSame s w := by
  subst hu
  obtain ⟨v, hcfg, hshep, hsame, hw⟩ := dictWrite_accepted (commit := fun s _ => s.commitRestore) rfl h fun v _ => rfl
  refine ⟨_, congrArg Host.Outcome.next hw, ?_, ?_, by apply cardSame_answer; exact hsame⟩
  · simpa using hcfg
  · simp [hshep]

/-- Settles O17, entry by entry. -/
theorem storedEntriesHoldWhatIsWritten : Obligations.StoredEntriesHoldWhatIsWritten := fun _ _ _ _ hu =>
  ⟨fun _ _ h hi => storedEntry_holds hu h hi, fun h => heathIndex_holds hu h, fun h => tickPeriod_holds hu h,
    fun _ h hp hcap => operatingPoint_holds hu h hp hcap, fun h hcap => operatingPoint_capped hu h hcap,
    fun _ h hn => portLayout_holds hu h hn, fun h => parameters_stored hu h, fun h => defaults_marked hu h⟩

end Sys2Proof.Machine
end

section
/-! PROOFS. LAUNCH by dictionary and by queue (02, R40; 13, R379, R380; 18, R486). -/

namespace Sys2Proof.Machine

/-! ## The commit of LaunchAt -/

/-- A LaunchAt with no ground of refusal: the Fold's state fits and the lead is kept (02, R40). -/
theorem State.launch_inTime {s : State} {f : FoldId} {rep : Bool} {n : Nat} {l : Loaded} (hl : (s.fold f).load = some l)
    (h : s.launchRefusal f rep n = none) :
    ((s.fold f).st = .loaded ∨ (s.fold f).st = .stopped) ∧ s.now + 1000000 ≤ n := by
  constructor
  · by_contra hst
    rw [not_or] at hst
    simp [State.launchRefusal, hl, hst] at h
  · by_contra hn
    rw [not_le] at hn
    simp only [State.launchRefusal, hl, hn, if_true] at h
    repeat' split at h
    all_goals cases h
/-- The card takes the Fold's operating point where no other Fold is active (13, Corners). -/
def State.takeOp (s : State) (f : FoldId) (op : OpPoint) : State :=
  if s.otherActive f then s else { s with cfg := { s.cfg with op := op } }
theorem State.takeOp_rest (s : State) (f : FoldId) (op : OpPoint) :
    s.takeOp f op = { s with cfg := if s.otherActive f then s.cfg else { s.cfg with op := op } } := by
  unfold State.takeOp
  split <;> rfl
/-- The operating point does not enter what an armed Fold holds. -/
theorem armedFold_takeOp (s : State) (f : FoldId) (op : OpPoint) (rep : Bool) (n : Nat) :
    armedFold (s.takeOp f op) f rep n = armedFold s f rep n := by
  unfold State.takeOp
  split <;> rfl
theorem State.launchCommit_accepted {s : State} {f : FoldId} {rep : Bool} {v : Bytes} {l : Loaded} (hl : (s.fold f).load = some l)
    (h : s.launchRefusal f rep (leNat v) = none) :
    s.launchCommit f rep v = (((s.takeOp f l.op).setFold f (armedFold s f rep (leNat v))).setSt f .armed, 0, 0) := by
  rw [← armedFold_takeOp s f l.op]
  simp only [State.launchCommit, h, hl, State.takeOp]
/-- What an accepted LaunchAt leaves: the Fold armed, the operating point, and everything else of Folds and stores as before. -/
theorem State.launchCommit_leaves {s : State} {f : FoldId} {rep : Bool} {v : Bytes} {l : Loaded} (hl : (s.fold f).load = some l)
    (h : s.launchRefusal f rep (leNat v) = none) :
    (s.launchCommit f rep v).1.fold f = { armedFold s f rep (leNat v) with st := .armed } ∧
    (s.launchCommit f rep v).1.cfg = (if s.otherActive f then s.cfg else { s.cfg with op := l.op }) ∧
    othersSame f s (s.launchCommit f rep v).1 ∧ storesSame s (s.launchCommit f rep v).1 := by
  rw [State.launchCommit_accepted hl h, State.takeOp_rest]
  refine ⟨by simp, by simp, fun g hg => ?_, by simp [storesSame]⟩
  simp only [State.setSt_other _ _ _ _ hg, State.setFold_other _ _ _ _ hg]
  rfl

/-! ## The two paths -/

theorem exec_launch_dict {t : Nat} {rep : Bool} {f : FoldId} {r : WReq} {s u : State} (hu : s.tick t = u) (h : admits u (foldIdx f 5) 0 r)
    {c : State × Nat × Nat} (hc : (u.admitWrite r.acc (foldIdx f 5) 0 r.data false).st.launchCommit f false (payloadOf r.data) = c) :
    exec (.launch t rep (.dict f r)) s = .next (c.1.answer r.acc (foldIdx f 5) 0 c.2.1 c.2.2 []) := by
  show Host.Outcome.next ((s.tick t).dictWrite (foldIdx f 5) 0 r fun s v => s.launchCommit f false v) = _
  rw [hu, dictWrite_of_admits h, hc]
/-- A command that passes the checks of every command runs on the card with its entry fetched (18, R478, R480, R483). -/
theorem State.command_taken {t : Nat} {q : QHdr} {s u : State} (hu : s.tick t = u) (h : takesCommand u q) (early : Bool)
    (k : State → State) : s.command t q false early k = .next (k (u.fetch q.fn 0)) := by
  obtain ⟨hfetch, hrsvd, hfn, hready⟩ := h
  have hreach : (q.fn != 0 && q.fn != vfOf q.fold) = false := by rcases hfn with h | h <;> simp [h]
  simp [State.command, hu, hfetch, hrsvd, hready, hreach]
theorem exec_launch_queue {t : Nat} {rep : Bool} {q : QHdr} {o : Signed} {s u : State} (hu : s.tick t = u) (h : ctlPasses u 5 (.queue q o))
    (hlevel : 2 ≤ u.power.level) {c : State × Nat × Nat}
    (hc : ((u.fetch q.fn 0).admitWrite (accOf q) (foldIdx q.fold 5) 0 (.signed o) true).st.launchCommit q.fold rep o.payload = c) :
    exec (.launch t rep (.queue q o)) s =
      .next (c.1.complete q (statusOf c.2.1 c.2.2 false) c.2.2 (if c.2.1 = 0 then leNat o.payload else 0) 0 0) := by
  obtain ⟨htakes, habort⟩ := h
  have hup : ¬ (u.fetch q.fn 0).power.level < 2 := by simp; omega
  show execLaunch t rep (.queue q o) s = _
  simp only [execLaunch, State.command_taken hu htakes, hup, if_false, State.signedCommand, habort, ne_eq, not_true_eq_false,
    admitWrite_payload, payloadOf, hc]
/-- On both paths an admitted LAUNCH is the commit of LaunchAt on a card of which the way there has changed queues, AuthSeq and events
alone, and the answer changes no Fold, store or entry. -/
theorem exec_launch_commits {t : Nat} {rep : Bool} {src : CtlSrc} {s u : State} (hu : s.tick t = u) (hpass : ctlPasses u 5 src)
    (hlevel : ∀ q o, src = .queue q o → 2 ≤ u.power.level) (hform : ∀ f r, src = .dict f r → rep = false) :
    ∃ fns kept events, ∃ v w : State, v = { u with fns := fns, kept := kept, events := events } ∧ exec (.launch t rep src) s = .next w ∧
      (∀ g, w.fold g = (v.launchCommit (ctlFold src) rep (ctlValue src)).1.fold g) ∧
      w.cfg = (v.launchCommit (ctlFold src) rep (ctlValue src)).1.cfg ∧ storesSame (v.launchCommit (ctlFold src) rep (ctlValue src)).1 w := by
  cases src with
  | dict f r =>
    obtain rfl := hform f r rfl
    refine ⟨_, _, _, _, _, State.admitWrite_rest u r.acc (foldIdx f 5) 0 r.data false, exec_launch_dict hu hpass rfl, ?_, ?_, ?_⟩ <;>
      simp [storesSame, ctlFold, ctlValue]
  | queue q o =>
    refine ⟨_, _, _, _, _, State.admitWrite_rest (u.fetch q.fn 0) (accOf q) (foldIdx q.fold 5) 0 (.signed o) true,
      exec_launch_queue hu hpass (hlevel q o rfl) rfl, ?_, ?_, ?_⟩ <;>
      simp [storesSame, ctlFold, ctlValue]

/-- Settles O15: the commit of LaunchAt on either path, which arms the Fold, takes its operating point and leaves the rest. -/
theorem launchArmsTheFold : Obligations.LaunchArmsTheFold := by
  intro t rep src l s u f hf hu hpass hlevel hform hl hok
  subst hf
  obtain ⟨hst, hlead⟩ := State.launch_inTime hl hok
  refine ⟨hst, hlead, ?_⟩
  obtain ⟨fns, kept, events, v, w, hv, hexec, hfold, hcfg, hstores⟩ := exec_launch_commits hu hpass hlevel hform
  -- neither the grounds of refusal nor what an armed Fold holds read the queues, AuthSeq or events
  have hokv : v.launchRefusal (ctlFold src) rep (leNat (ctlValue src)) = none := by rw [hv]; exact hok
  have hlv : (v.fold (ctlFold src)).load = some l := by rw [hv]; exact hl
  obtain ⟨harmed, hop, hothers, hkeeps⟩ := State.launchCommit_leaves hlv hokv
  have hx : w.fold (ctlFold src) = { armedFold u (ctlFold src) rep (leNat (ctlValue src)) with st := .armed } := by
    rw [hfold, harmed, hv]; rfl
  refine ⟨w, hexec, ?_⟩
  rw [hx]
  refine ⟨rfl, rfl, rfl, rfl, rfl, hl, ?_, rfl, rfl, rfl, rfl, rfl, ?_, ?_, ?_, ?_⟩
  · simp [armedFold, State.genesis, hl]
  · subst hu; simp [armedFold]
  · rw [hcfg, hop, hv]; subst hu; simp [State.otherActive, State.fold]
  · have hs : othersSame (ctlFold src) s v := by
      rw [hv, ← hu]; exact othersSame_tick s t _
    exact fun g hg => (hfold g).trans (((hs.trans hothers)) g hg)
  · have hs : storesSame s v := by
      rw [hv, ← hu]; exact storesSame_tick s t
    exact (hs.trans hkeeps).trans hstores

end Sys2Proof.Machine
end

section
/-! PROOFS. ARM_CUTOFF and ARM_WORD (02, R42; 11, R295). -/

namespace Sys2Proof.Machine

/-! ## A launch that is called off -/

/-- LAUNCH_INCOMPLETE: the Fold is back in LOADED with its run aborted, the event is reported, and nothing else of Folds and stores
changes. -/
theorem State.launchIncomplete_leaves (s : State) (f : FoldId) (missing : List Nat) :
    (s.launchIncomplete f missing).fold f = { s.fold f with st := .loaded, run := { (s.fold f).run with aborted := true } } ∧
    (s.launchIncomplete f missing).reports 0x0102 ∧ othersSame f s (s.launchIncomplete f missing) ∧
    storesSame s (s.launchIncomplete f missing) := by
  unfold State.launchIncomplete State.disarm
  dsimp only
  refine ⟨by simp, by simp, fun g hg => by simp [hg], by simp [storesSame]⟩

/-! ## ARM_CUTOFF -/

theorem exec_armCutoff_early {t : Nat} {f : FoldId} {s u : State} (hu : s.tick t = u) (h : u.now + 500000 < (u.fold f).run.launchAt) :
    exec (.armCutoff t f) s = .next u := by
  show execArmCutoff t f s = _
  simp [execArmCutoff, hu, h]
theorem exec_armCutoff_due {t : Nat} {f : FoldId} {s u : State} (hu : s.tick t = u) (hp : u.power.halted = false)
    (hst : (u.fold f).st = .armed) (hc : (u.fold f).run.cutoffOk = false) (h : (u.fold f).run.launchAt ≤ u.now + 500000) :
    (u.missingWords f = [] → (u.findMapping f).isSome = true → exec (.armCutoff t f) s =
      .next (u.modFold f fun y => { y with run := { y.run with cutoffOk := true } })) ∧
    ((u.missingWords f ≠ [] ∨ u.findMapping f = none) → exec (.armCutoff t f) s = .next (u.launchIncomplete f (u.missingWords f))) := by
  show (_ → _ → execArmCutoff t f s = _) ∧ (_ → execArmCutoff t f s = _)
  simp only [execArmCutoff, hu]
  rw [if_neg (by simp [hp, hst, hc, h])]
  refine ⟨fun hm hmap => by simp [hm, hmap], fun hno => if_neg ?_⟩
  rcases hno with hm | hmap
  · simp [hm]
  · simp [hmap]

/-! ## ARM_WORD -/

/-- Both halves of an arm word are relayed, each where it is fresh. -/
def State.relayHalves (s : State) (h : RelayHdr) (w : ArmWord) : State :=
  let s' := if s.freshWord { h with seq := w.armASeq } then s.relay { h with seq := w.armASeq } 4 (armABody w) else s
  if s'.freshWord { h with seq := w.bSeq } then s'.relay { h with seq := w.bSeq } 5 (armBBody w) else s'
theorem State.relayHalves_frame (s : State) (h : RelayHdr) (w : ArmWord) :
    (s.relayHalves h w).folds = s.folds ∧ storesSame s (s.relayHalves h w) ∧ (s.relayHalves h w).cfg = s.cfg ∧
    (s.relayHalves h w).now = s.now := by
  unfold State.relayHalves
  dsimp only
  split <;> split <;> simp [storesSame, State.now]
theorem State.relayHalves_seen {s : State} {h : RelayHdr} {w : ArmWord} (ha : s.freshWord { h with seq := w.armASeq } = false)
    (hb : s.freshWord { h with seq := w.bSeq } = false) : s.relayHalves h w = s := by
  simp [State.relayHalves, ha, hb]
/-- The halves are relayed; a fresh ARM_A that its ARM_B names makes them a whole word. -/
theorem exec_armWord {t : Nat} {h : RelayHdr} {a : ArmWord} {s u : State} (hu : s.tick t = u) (hw : u.awake = true) :
    exec (.armWord t h a) s = .next (if u.freshWord { h with seq := a.armASeq } && a.armASeq == a.bNamesSeq
      then (u.relayHalves h a).onArm h.origin a else u.relayHalves h a) := by
  show execArmWord t h a s = _
  simp only [execArmWord, hu, hw, Bool.not_true, Bool.false_eq_true, if_false, State.relayHalves]
/-- A whole arm word is held for its Fold under its origin in place of an earlier one. -/
def Fold.holdWord (x : Fold) (origin : Nat) (w : ArmWord) : Fold :=
  { x with run := { x.run with armWords := (origin, w) :: x.run.armWords.filter (fun e => e.1 != origin) } }
/-- The abort word of a job member for the launch at hand, in time. -/
def State.callsOff (s : State) (origin : Nat) (w : ArmWord) : Prop :=
  w.abort = true ∧ (s.fold w.fold).st = .armed ∧ s.now < (s.fold w.fold).run.launchAt ∧ w.launchAt = (s.fold w.fold).run.launchAt ∧
  (s.fold w.fold).inJob origin = true
theorem State.onArm_calledOff {s : State} {origin : Nat} {w : ArmWord} (h : s.callsOff origin w) :
    s.onArm origin w = (s.modFold w.fold (Fold.holdWord · origin w)).launchIncomplete w.fold [origin] := by
  obtain ⟨habort, hst, hnow, hat, hjob⟩ := h
  unfold State.onArm
  exact if_pos (by simpa [habort, hst, hnow, hat, Fold.inJob] using hjob)
theorem State.onArm_held {s : State} {origin : Nat} {w : ArmWord} (h : ¬ s.callsOff origin w) :
    s.onArm origin w = s.modFold w.fold (Fold.holdWord · origin w) := by
  unfold State.onArm
  refine if_neg fun hall => h ?_
  simpa [State.callsOff, Fold.inJob, and_assoc] using hall
/-- A whole arm word changes its own Fold alone: the word is held, and where it calls the launch off the Fold goes back. -/
theorem State.onArm_leaves (s : State) (origin : Nat) (w : ArmWord) :
    ((s.onArm origin w).fold w.fold).run.armWords = (origin, w) :: (s.fold w.fold).run.armWords.filter (fun e => e.1 != origin) ∧
    othersSame w.fold s (s.onArm origin w) ∧ storesSame s (s.onArm origin w) ∧
    (¬ s.callsOff origin w → ((s.onArm origin w).fold w.fold).st = (s.fold w.fold).st) ∧
    (s.callsOff origin w → ((s.onArm origin w).fold w.fold).st = .loaded ∧ ((s.onArm origin w).fold w.fold).run.aborted = true ∧
      (s.onArm origin w).reports 0x0102) := by
  by_cases h : s.callsOff origin w
  · obtain ⟨hfold, hreports, hothers, hstores⟩ :=
      (s.modFold w.fold (Fold.holdWord · origin w)).launchIncomplete_leaves w.fold [origin]
    rw [State.onArm_calledOff h, hfold]
    refine ⟨by simp [Fold.holdWord], fun g hg => ?_, ?_, fun hno => absurd h hno, fun _ => ⟨rfl, rfl, hreports⟩⟩
    · rw [hothers g hg, State.modFold_other _ _ _ _ hg]
    · simpa [storesSame] using hstores
  · rw [State.onArm_held h]
    exact ⟨by simp [Fold.holdWord], fun g hg => State.modFold_other _ _ _ _ hg, by simp [storesSame],
      fun _ => by simp [Fold.holdWord], fun hyes => absurd hyes h⟩

/-- Settles O39: the cut-off by the words it finds missing, an arm word by whether its halves are fresh and match. -/
theorem launchesAreAgreed : Obligations.LaunchesAreAgreed := by
  refine ⟨fun t f s u hu hp hst hc => ⟨exec_armCutoff_early hu, fun hdue => ?_⟩, fun t h a s u hu hw => ?_⟩
  · obtain ⟨hagreed, hmissing⟩ := exec_armCutoff_due hu hp hst hc hdue
    refine ⟨hagreed, fun hno => ?_⟩
    obtain ⟨hfold, hreports, hothers, hstores⟩ := u.launchIncomplete_leaves f (u.missingWords f)
    refine ⟨_, hmissing hno, ?_, ?_, ?_, hreports, ?_, ?_, ?_⟩
    · rw [hfold]
    · rw [hfold]
    · subst hu; rw [hfold]; simp
    · exact (hu ▸ othersSame_tick s t f).trans hothers
    · exact (hu ▸ storesSame_tick s t).trans hstores
    · subst hu; simp
  · obtain ⟨hfolds, hstores, hcfg, hnow⟩ := u.relayHalves_frame h a
    have hfold (g : FoldId) : (u.relayHalves h a).fold g = s.fold g := by
      subst hu; rw [State.fold_of_folds hfolds]; simp
    have hstores' : storesSame s (u.relayHalves h a) := (hu ▸ storesSame_tick s t).trans hstores
    have hcfg' : (u.relayHalves h a).cfg = s.cfg := by subst hu; simpa using hcfg
    rw [exec_armWord hu hw]
    refine ⟨fun ha hb => ?_, fun hne => ⟨_, rfl, ?_⟩, fun ha heq => ⟨_, rfl, ?_⟩⟩
    · rw [ha, State.relayHalves_seen ha hb]
      rfl
    · rw [if_neg (by simp [hne])]
      exact ⟨by subst hu; simpa using hfolds, hstores', hcfg'⟩
    · rw [if_pos (by simp [ha, ← heq])]
      obtain ⟨hwords, hothers, hkeeps, hheld, hoff⟩ := (u.relayHalves h a).onArm_leaves h.origin a
      refine ⟨?_, ?_, hstores'.trans hkeeps, by simpa using hcfg', fun habort => ?_, fun habort hst hlt hat hjob => hoff ?_⟩
      · rw [hwords, hfold]
      · exact fun g hg => (hothers g hg).trans (hfold g)
      · rw [hheld (by simp [State.callsOff, habort]), hfold]
      · simp only [State.callsOff, hfold, hnow]
        exact ⟨habort, hst, hlt, hat, hjob⟩

end Sys2Proof.Machine
end

section
/-! PROOFS. Slewing, PTP, SYNC0 and TIME words (02, R28 to R31; 11, R301). -/

namespace Sys2Proof.Machine

/-! ## Slewing (02, R28) -/

/-- What the clock has slewed is no longer left to slew. -/
theorem Clock.advance_slew (c : Clock) (t : Nat) : (c.advance t).slew.natAbs + c.slewed (max c.gtc t) = c.slew.natAbs := by
  have hle : c.slewed (max c.gtc t) ≤ c.slew.natAbs := Nat.min_le_left _ _
  simp only [Clock.advance]
  split <;> omega
theorem Clock.slewed_rate (c : Clock) (g : Nat) : 10000 * c.slewed g ≤ g - c.slewAt := by
  have h : c.slewed g ≤ (g - c.slewAt) / 10000 := Nat.min_le_right _ _
  omega

/-! ## Steps (02, R28) -/

/-- A step loads the GTC and touches no Fold, store or entry. -/
theorem State.stepGtc_leaves (s : State) (v : Nat) :
    (s.stepGtc v).now = v ∧ (s.stepGtc v).clock.slew = s.clock.slew ∧ (s.stepGtc v).clock.offsetPs = s.clock.offsetPs ∧
    (s.stepGtc v).folds = s.folds ∧ storesSame s (s.stepGtc v) := by
  unfold State.stepGtc
  split
  · next h => exact ⟨h.symm, rfl, rfl, rfl, rfl, rfl, rfl⟩
  · rw [State.askKeyUpdates_rest]
    exact ⟨rfl, rfl, rfl, rfl, rfl, rfl, rfl⟩

/-! ## PTP and SYNC0 (02, R29, R30) -/

theorem exec_ptp {t : Nat} {p : PortId} {ps : Int} {s u : State} (hu : s.tick t = u) (hw : u.awake = true) (hr : u.clock.running = true) :
    (u.card = 0 → u.num 0x2021 0 0 = 1 → u.num 0x2032 0 0 = p.val → exec (.ptpEventMessage t p ps) s = .next (u.discipline ps)) ∧
    (u.card ≠ 0 ∨ u.num 0x2021 0 0 ≠ 1 ∨ u.num 0x2032 0 0 ≠ p.val → exec (.ptpEventMessage t p ps) s = .next u) := by
  show (_ → _ → _ → execPtpEventMessage t p ps s = _) ∧ (_ → execPtpEventMessage t p ps s = _)
  simp only [execPtpEventMessage, hu]
  refine ⟨fun hcard hsrc hport => if_neg (by simp [hw, hr, hcard, hsrc, hport]), fun h => if_pos ?_⟩
  rcases h with h | h | h <;> simp [h]
theorem exec_sync0 {t c : Nat} {ps : Int} {s u : State} (hu : s.tick t = u) (hw : u.awake = true) (hr : u.clock.running = true)
    (he : u.ecatUp = true) :
    (u.card = 0 → u.num 0x2021 0 0 = 2 →
      (c = u.cfg.tickPeriod → exec (.sync0 t c ps) s = .next { u with clock := ({ u.clock with
        sync0Locked := true, sync0Cycle := c, offsetPs := ps }).setSlew (tickDistance u.now c) }) ∧
      (c ≠ u.cfg.tickPeriod → exec (.sync0 t c ps) s = .next { u with clock := { u.clock with sync0Locked := false, sync0Cycle := c } })) ∧
    (u.card ≠ 0 ∨ u.num 0x2021 0 0 ≠ 2 → exec (.sync0 t c ps) s = .next u) := by
  show (_ → _ → (_ → execSync0 t c ps s = _) ∧ (_ → execSync0 t c ps s = _)) ∧ (_ → execSync0 t c ps s = _)
  simp only [execSync0, hu]
  refine ⟨fun hcard hsrc => ?_, fun h => if_pos ?_⟩
  · rw [if_neg (by simp [hw, hr, he, hcard, hsrc])]
    exact ⟨fun hc => if_neg (not_not.2 hc), fun hc => if_pos hc⟩
  · rcases h with h | h <;> simp [h]

/-! ## The loss of alignment (11, R302) -/

/-- What a departed peer leaves of the card outside its Folds, queues and events. -/
theorem State.departFor_frame (s : State) (f : FoldId) (c cond : Nat) :
    (s.departFor f c cond).tiles = s.tiles ∧ (s.departFor f c cond).hbms = s.hbms ∧ (s.departFor f c cond).chans = s.chans ∧
    (s.departFor f c cond).clock = s.clock ∧ (s.departFor f c cond).links = s.links ∧ (s.departFor f c cond).heath = s.heath := by
  unfold State.departFor State.startDraining
  dsimp only
  split_ifs <;> simp
theorem State.departFor_reports {s : State} {code : Nat} (h : s.reports code) (f : FoldId) (c cond : Nat) :
    (s.departFor f c cond).reports code := by
  unfold State.departFor State.startDraining
  dsimp only
  split_ifs <;> simp [State.reports_emit, h]
/-- Every Growing run of the card ends with the loss of its alignment (11, R318). -/
def State.endGrowingRuns (s : State) : State := allFolds.foldl (fun s f => if (s.fold f).growingNow then s.departFor f s.card 3 else s) s
theorem State.endGrowingRuns_frame (s : State) :
    s.endGrowingRuns.tiles = s.tiles ∧ s.endGrowingRuns.hbms = s.hbms ∧ s.endGrowingRuns.chans = s.chans ∧
    s.endGrowingRuns.clock = s.clock ∧ s.endGrowingRuns.links = s.links ∧ s.endGrowingRuns.heath = s.heath := by
  have h := foldl_view (fun s => (s.tiles, s.hbms, s.chans, s.clock, s.links, s.heath))
    (fun s f => if (s.fold f).growingNow then s.departFor f s.card 3 else s)
    (fun s f => by split <;> simp [State.departFor_frame]) allFolds s
  simpa only [Prod.mk.injEq, State.endGrowingRuns] using h
theorem State.endGrowingRuns_reports {s : State} {code : Nat} (h : s.reports code) : s.endGrowingRuns.reports code := by
  refine List.foldlRecOn (motive := (State.reports · code)) _ _ h fun v hv f _ => ?_
  split
  · exact State.departFor_reports hv f _ 3
  · exact hv
/-- The first loss of alignment of a member (02, R31; 11, R315). -/
theorem State.alignLoss_first {s : State} (ps : Int) (hlost : s.heath.alignLost = false) (hm : s.heath.members ≠ 0) :
    ∃ typ body, s.alignLoss ps = ((({ s with heath := { s.heath with alignLost := true } } : State).emit 2 0x0103
      (le 8 (wrap 64 ps))).endGrowingRuns).flood typ body := by
  unfold State.alignLoss
  rw [if_neg (by simpa [hlost] using hm)]
  exact ⟨_, _, rfl⟩
theorem State.alignLoss_again {s : State} (ps : Int) (h : s.heath.alignLost = true ∨ s.heath.members = 0) : s.alignLoss ps = s := by
  unfold State.alignLoss
  exact if_pos (by simpa using h)
/-- The stores, the clock, the time reference and what the links say of time are as before. -/
def timeKept (s w : State) : Prop :=
  storesSame s w ∧ w.clock = s.clock ∧ w.heath.reference = s.heath.reference ∧
  ∀ j, (w.link j).depth = (s.link j).depth ∧ (w.link j).timeInterval = (s.link j).timeInterval
theorem timeKept.refl (s : State) : timeKept s s := ⟨⟨rfl, rfl, rfl⟩, rfl, rfl, fun _ => ⟨rfl, rfl⟩⟩
/-- A loss of alignment moves neither the clock nor the reference; a member has it noted, and its first one is reported. -/
theorem State.alignLoss_leaves (s : State) (ps : Int) :
    timeKept s (s.alignLoss ps) ∧
    (s.heath.members ≠ 0 → (s.alignLoss ps).heath.alignLost = true ∧ (s.heath.alignLost = false → (s.alignLoss ps).reports 0x0103)) := by
  by_cases h : s.heath.alignLost = true ∨ s.heath.members = 0
  · rw [State.alignLoss_again ps h]
    refine ⟨timeKept.refl s, fun hm => ?_⟩
    have hlost := h.resolve_right hm
    exact ⟨hlost, fun hno => by simp [hlost] at hno⟩
  · rw [not_or, Bool.not_eq_true] at h
    obtain ⟨hlost, hm⟩ := h
    obtain ⟨typ, body, heq⟩ := State.alignLoss_first ps hlost hm
    generalize hv : ({ s with heath := { s.heath with alignLost := true } } : State).emit 2 0x0103 (le 8 (wrap 64 ps)) = v at heq
    obtain ⟨htiles, hhbms, hchans, hclock, hlinks, hheath⟩ := v.endGrowingRuns_frame
    have hrep : v.endGrowingRuns.reports 0x0103 := State.endGrowingRuns_reports (by rw [← hv]; simp)
    rw [heq]
    generalize v.endGrowingRuns = d at *
    have hlink (j : LinkId) : d.link j = s.link j := by simp [State.link, hlinks, ← hv]
    refine ⟨⟨?_, ?_, ?_, fun j => ?_⟩, fun _ => ⟨?_, fun _ => ?_⟩⟩
    · simp [storesSame, htiles, hhbms, hchans, ← hv]
    · simp [hclock, ← hv]
    · simp [hheath, ← hv]
    · rw [← hlink]
      exact State.flood_link d typ body j
    · simp [hheath, ← hv]
    · exact (State.reports_congr (by simp) _).2 hrep
theorem State.checkUpstream_kept (s : State) : timeKept s s.checkUpstream := by
  unfold State.checkUpstream
  split
  · exact timeKept.refl s
  · exact (s.alignLoss_leaves _).1
theorem timeKept.now {s w : State} (h : timeKept s w) : w.now = s.now := congrArg Clock.gtc h.2.1

/-! ## TIME words (11, R301) -/

/-- The interval and the depth of a TIME word's link, and the upstream chosen with them. -/
def State.noteTime (s : State) (k : LinkId) (d : Nat) : State :=
  (s.modLink k fun x => { x with timeInterval := some (s.now / 65536), depth := some d }).reselect
theorem State.noteTime_leaves (s : State) (k : LinkId) (d : Nat) :
    storesSame s (s.noteTime k d) ∧ (s.noteTime k d).clock = s.clock ∧ (s.noteTime k d).heath.members = s.heath.members ∧
    (s.noteTime k d).heath.alignLost = s.heath.alignLost ∧
    (s.noteTime k d).link k = { s.link k with timeInterval := some (s.now / 65536), depth := some d } := by
  unfold State.noteTime
  exact ⟨by simp [storesSame], by simp, by simp, by simp, by simp⟩
/-- The offset to the upstream is left to slew, and its reference is this card's. -/
def State.follow (s : State) (off : Int) (r : Nat) : State :=
  { s with clock := { s.clock.setSlew off with offsetPs := off * 1000 }, heath := { s.heath with reference := r } }
theorem State.onTime_silent {s : State} {k : LinkId} (h : (s.link k).carries = false) (sender r d : Nat) : s.onTime k sender r d = s := by
  simp [State.onTime, h]
theorem State.onTime_other {s : State} {k : LinkId} (h : (s.link k).carries = true) (sender : Nat) (r d : Nat)
    (hup : (s.noteTime k d).heath.upstream ≠ some k) : s.onTime k sender r d = (s.noteTime k d).checkUpstream := by
  unfold State.onTime
  rw [if_neg (by simp [h])]
  exact if_pos hup
/-- A TIME word of the upstream: followed, and an offset above 4 counts is a loss of alignment. -/
theorem State.onTime_upstream {s : State} {k : LinkId} (h : (s.link k).carries = true) (sender : Nat) (r d : Nat)
    (hup : (s.noteTime k d).heath.upstream = some k) {off : Int} (hoff : (sender : Int) + 240 - (s.noteTime k d).now = off) :
    s.onTime k sender r d = if 4 < off.natAbs then ((s.noteTime k d).follow off r).alignLoss (off * 1000)
      else ((s.noteTime k d).follow off r).checkUpstream := by
  unfold State.onTime
  rw [if_neg (by simp [h]), ← hoff]
  exact if_neg (not_not.2 hup)

/-- What a TIME word of a carrying link leaves, from the upstream and from another link (11, R301). -/
theorem State.onTime_leaves {s : State} {k : LinkId} (h : (s.link k).carries = true) (sender r d : Nat) :
    ((s.onTime k sender r d).link k).depth = some d ∧ ((s.onTime k sender r d).link k).timeInterval = some (s.now / 65536) ∧
    (s.onTime k sender r d).now = s.now ∧ storesSame s (s.onTime k sender r d) ∧
    ((s.noteTime k d).heath.upstream = some k →
      (s.onTime k sender r d).clock.slew = (sender : Int) + 240 - s.now ∧ (s.onTime k sender r d).heath.reference = r ∧
      (4 < ((sender : Int) + 240 - s.now).natAbs → s.heath.members ≠ 0 → (s.onTime k sender r d).heath.alignLost = true ∧
        (s.heath.alignLost = false → (s.onTime k sender r d).reports 0x0103))) ∧
    ((s.noteTime k d).heath.upstream ≠ some k → (s.onTime k sender r d).clock = s.clock) := by
  obtain ⟨hstores, hclock, hmembers, hlost, hlink⟩ := s.noteTime_leaves k d
  have hnow : (s.noteTime k d).now = s.now := congrArg Clock.gtc hclock
  by_cases hup : (s.noteTime k d).heath.upstream = some k
  · have heq := State.onTime_upstream h sender r d hup rfl
    rw [hnow] at heq
    generalize (sender : Int) + 240 - s.now = off at heq ⊢
    generalize s.onTime k sender r d = w at heq ⊢
    obtain ⟨⟨hkeeps, hclock', href, hlinks⟩, hloss⟩ : timeKept ((s.noteTime k d).follow off r) w ∧
        (4 < off.natAbs → s.heath.members ≠ 0 → w.heath.alignLost = true ∧ (s.heath.alignLost = false → w.reports 0x0103)) := by
      split at heq
      · obtain ⟨hkept, hmember⟩ := ((s.noteTime k d).follow off r).alignLoss_leaves (off * 1000)
        rw [heq, ← hmembers, ← hlost]
        exact ⟨hkept, fun _ => hmember⟩
      · next hsmall => exact ⟨heq ▸ State.checkUpstream_kept _, fun hbig => absurd hbig hsmall⟩
    obtain ⟨hdepth, hinterval⟩ := hlinks k
    refine ⟨hdepth.trans (congrArg Link.depth hlink), hinterval.trans (congrArg Link.timeInterval hlink),
      (congrArg Clock.gtc hclock').trans hnow, hstores.trans hkeeps, fun _ => ⟨congrArg Clock.slew hclock', href, hloss⟩,
      fun hno => absurd hup hno⟩
  · obtain ⟨hkeeps, hclock', _, hlinks⟩ := (s.noteTime k d).checkUpstream_kept
    rw [State.onTime_other h sender r d hup]
    obtain ⟨hdepth, hinterval⟩ := hlinks k
    exact ⟨hdepth.trans (congrArg Link.depth hlink), hinterval.trans (congrArg Link.timeInterval hlink),
      (congrArg Clock.gtc hclock').trans hnow, hstores.trans hkeeps, fun hyes => absurd hyes hup, fun _ => hclock'.trans hclock⟩

/-- Settles O38: the clock by its own arithmetic, PTP and SYNC0 by who asks, a TIME word by whether its link is the upstream. -/
theorem theGtcIsDisciplined : Obligations.TheGtcIsDisciplined := by
  refine ⟨fun c t => ⟨c.advance_slew t, c.slewed_rate _⟩, fun t p ps s u hu hw hr => ?_, fun t c ps s u hu hw hr he => ?_,
    fun t sender r d k s u v hu hw => ?_⟩
  · obtain ⟨hmine, hother⟩ := exec_ptp (p := p) (ps := ps) hu hw hr
    refine ⟨fun hcard hsrc hport => ⟨fun hactive => ?_, fun hquiet => ?_⟩, hother⟩
    · rw [hmine hcard hsrc hport, State.discipline, if_pos hactive]
    · rw [hmine hcard hsrc hport, State.discipline, if_neg (by simp [hquiet])]
      obtain ⟨hnow, hslew, hoff, hfolds, hstores⟩ := State.stepGtc_leaves { u with clock := { u.clock with offsetPs := ps, slew := 0 } }
        ((u.now : Int) + ps / 1000).toNat
      refine ⟨_, rfl, hnow, hslew, hoff, ?_, ?_, ?_⟩
      · subst hu; simpa using hfolds
      · subst hu; simp
      · exact (hu ▸ storesSame_tick s t).trans hstores
  · have hcfg : u.cfg = s.cfg := by subst hu; simp
    rw [← hcfg]
    exact exec_sync0 hu hw hr he
  · have hexec : exec (.timeWord t k sender r d) s = .next (u.onTime k sender r d) := by
      show execTimeWord t k sender r d s = _
      simp [execTimeWord, hu, hw]
    rw [hexec]
    refine ⟨fun hc => by rw [State.onTime_silent hc], fun hc hv => ?_⟩
    obtain rfl : u.noteTime k d = v := hv
    obtain ⟨hdepth, hinterval, hnow, hstores, hfollow, hother⟩ := State.onTime_leaves hc sender r d
    refine ⟨_, rfl, hdepth, hinterval, hnow, ?_, ?_, hfollow, hother⟩
    · subst hu; simp
    · exact (hu ▸ storesSame_tick s t).trans hstores

end Sys2Proof.Machine
end

section
/-! PROOFS. REPLAY_HEADER (03, R63, R68, Table 3.3; 18, R494). -/

namespace Sys2Proof.Machine

/-! ## The bytes of a header (03, Table 3.3) -/

theorem leNat_lt (b : Bytes) : leNat b < 256 ^ b.length := by
  induction b with
  | nil => decide
  | cons a r ih =>
    have ha : a.toNat < 256 := a.isLt
    rw [leNat, List.length_cons, Nat.pow_succ]
    omega
theorem length_slice {b : Bytes} {off len : Nat} (h : off + len ≤ b.length) : (slice b off len).length = len := by
  rw [slice, List.length_take, List.length_drop]
  omega
theorem padTo_length (b : Bytes) : padTo b.length b = b := by simp [padTo]
/-- A header holds its fields at the places of Table 3.3: LateSet has all its 64 bits there, ExpectedRoot all its 32 bytes. -/
theorem decodeReplayHdr_fields {b : Bytes} (hb : b.length = 64) :
    (decodeReplayHdr b).origFrame = leNat (slice b 0 8) ∧ (decodeReplayHdr b).origStamp = leNat (slice b 8 8) ∧
    (decodeReplayHdr b).recordCount = leNat (slice b 16 4) ∧ (decodeReplayHdr b).lateSet.toNat = leNat (slice b 20 8) ∧
    (decodeReplayHdr b).expectedRoot = slice b 28 32 ∧ (decodeReplayHdr b).rsvd = leNat (slice b 60 4) := by
  have hlate : leNat (slice b 20 8) < 2 ^ 64 := by
    have h := leNat_lt (slice b 20 8)
    rwa [length_slice (by omega)] at h
  have hroot : padTo 32 (slice b 28 32) = slice b 28 32 := by
    have h := padTo_length (slice b 28 32)
    rwa [length_slice (by omega)] at h
  exact ⟨rfl, rfl, rfl, Nat.mod_eq_of_lt hlate, hroot, rfl⟩

/-! ## A queue 1 entry that passes the checks of every entry (18) -/

theorem foldOf_vfOf (f : FoldId) : foldOf (vfOf f) = f := Fin.ext (by simp only [foldOf, vfOf]; omega)
theorem State.entry_taken {u : State} {q : QHdr} (h : takesEntry u q) (k : State → State) : u.entry q k = k (u.fetch q.fn 1) := by
  obtain ⟨_, hrsvd, hfn, hready⟩ := h
  simp [State.entry, hrsvd, ← hfn, hready]

/-! ## The order of the headers (03, R68) -/

theorem Fold.headerOrder_broken {x : Fold} {p i n : Nat} {k : Bool} (hp : x.rep.prev = some (p, i, k)) (h : n < p ∨ n = p ∧ k = false) :
    x.headerOrder n = some p := by
  simp only [Fold.headerOrder, hp]
  exact if_pos h
theorem Fold.headerOrder_kept {x : Fold} {n : Nat} (h : ∀ p i k, x.rep.prev = some (p, i, k) → p < n ∨ p = n ∧ k = true) :
    x.headerOrder n = none := by
  unfold Fold.headerOrder
  split
  · next p i k hp =>
    refine if_neg fun hbroken => ?_
    rcases h p i k hp with hlt | ⟨heq, hk⟩
    · omega
    · rcases hbroken with hlt | ⟨_, hk'⟩
      · omega
      · simp [hk] at hk'
  · rfl

/-! ## REPLAY_HEADER -/

/-- The Fold with a header of its own opened, no record of it fetched yet, and the next header's predecessor (18, R494). -/
def Fold.openHeader (x : Fold) (h : ReplayHdr) (cid : Nat) : Fold :=
  { x with rep := { cur := some (h, x.rep.nextId, 0), hdrs := x.rep.hdrs ++ [⟨x.rep.nextId, h, cid, [], x.frame⟩],
                    nextId := x.rep.nextId + 1, prev := some (h.origFrame, x.rep.nextId, false) } }
/-- What a header does to a card `v` that has fetched it for a RUNNING Fold `x`. -/
def State.takeHeader (v : State) (q : QHdr) (x : Fold) (h : ReplayHdr) : State :=
  if x.run.replay = false then v.complete1 q 1 0 0 0 0
  else if h.rsvd ≠ 0 then v.complete1 q 2 0 0 0 0
  else if x.headerBusy = true then v.complete1 q 0x24 0 0 0 0
  else match x.headerOrder h.origFrame with
    | some p => (v.emit (unitFold q.fold) 0x030E (le 8 h.origFrame ++ le 8 p)).complete1 q 0x24 0x030E 0 0 0
    | none => v.setFold q.fold (x.openHeader h q.cid)

section
variable {t : Nat} {q : QHdr} {s u : State} (b : Bytes)

theorem exec_replayHeader_stays (hu : s.tick t = u) (hq : takesEntry u q) (hst : (u.fold q.fold).st ≠ .running) :
    exec (.replayHeader t q b) s = .next u := by
  obtain ⟨hfetch, _, hfn, hready⟩ := hq
  have hf : foldOf q.fn = q.fold := by rw [hfn, foldOf_vfOf]
  show execReplayHeader t q b s = _
  simp [execReplayHeader, hu, hfetch, hready, hf, hst]
theorem exec_replayHeader_running (hu : s.tick t = u) (hq : takesEntry u q) (hst : (u.fold q.fold).st = .running) :
    exec (.replayHeader t q b) s = .next ((u.fetch q.fn 1).takeHeader q (u.fold q.fold) (decodeReplayHdr b)) := by
  have hentry := State.entry_taken hq
  obtain ⟨hfetch, _, hfn, _⟩ := hq
  have hf : foldOf q.fn = q.fold := by rw [hfn, foldOf_vfOf]
  have hfold : (u.fetch q.fn 1).fold q.fold = u.fold q.fold := by simp
  show execReplayHeader t q b s = _
  simp only [execReplayHeader, hu, hfetch, hf, hst, hentry, State.modFold, hfold, State.takeHeader, Fold.openHeader, bne_self_eq_false,
    Bool.and_false, Bool.not_true, Bool.false_eq_true, if_false, Bool.not_eq_true'] <;> rfl
end

section
variable (v : State) (q : QHdr) {x : Fold} {h : ReplayHdr}

theorem State.takeHeader_plain (hr : x.run.replay = false) : v.takeHeader q x h = v.complete1 q 1 0 0 0 0 := if_pos hr
theorem State.takeHeader_reserved (hr : x.run.replay = true) (hz : h.rsvd ≠ 0) : v.takeHeader q x h = v.complete1 q 2 0 0 0 0 := by
  simp [State.takeHeader, hr, hz]
theorem State.takeHeader_busy (hr : x.run.replay = true) (hz : h.rsvd = 0) (hb : x.headerBusy = true) :
    v.takeHeader q x h = v.complete1 q 0x24 0 0 0 0 := by
  simp [State.takeHeader, hr, hz, hb]
theorem State.takeHeader_disordered {p : Nat} (hr : x.run.replay = true) (hz : h.rsvd = 0) (hb : x.headerBusy = false)
    (ho : x.headerOrder h.origFrame = some p) : v.takeHeader q x h =
      (v.emit (unitFold q.fold) 0x030E (le 8 h.origFrame ++ le 8 p)).complete1 q 0x24 0x030E 0 0 0 := by
  simp [State.takeHeader, hr, hz, hb, ho]
theorem State.takeHeader_ordered (hr : x.run.replay = true) (hz : h.rsvd = 0) (hb : x.headerBusy = false)
    (ho : x.headerOrder h.origFrame = none) : v.takeHeader q x h = v.setFold q.fold (x.openHeader h q.cid) := by
  simp [State.takeHeader, hr, hz, hb, ho]
end

/-- Settles O33: the fields by their places, the command by whether the Fold runs, then check by check. -/
theorem replayHeadersComeInOrder : Obligations.ReplayHeadersComeInOrder := by
  refine ⟨fun b hb => decodeReplayHdr_fields hb, fun t q b h s u v x hu hv hq hx hh => ?_⟩
  subst hv hx hh
  have hrun := exec_replayHeader_running b hu hq
  refine ⟨exec_replayHeader_stays b hu hq, fun hst hr => ?_, fun hst hr hz => ?_, fun hst hr hz hb => ?_,
    fun hst hr hz hb => ⟨fun p i k hp hbroken => ?_, fun hkept => ?_⟩⟩
  · rw [hrun hst, State.takeHeader_plain _ q hr]
  · rw [hrun hst, State.takeHeader_reserved _ q hr hz]
  · rw [hrun hst, State.takeHeader_busy _ q hr hz hb]
  · rw [hrun hst, State.takeHeader_disordered _ q hr hz hb (Fold.headerOrder_broken hp hbroken)]
  · rw [hrun hst, State.takeHeader_ordered _ q hr hz hb (Fold.headerOrder_kept hkept)]
    rfl

end Sys2Proof.Machine
end

section
/-! PROOFS. Which operations leave the tiles and the bytes of the stacks alone: what a tile operation reports, what its Fold records, and
how a Fold that faults is taken down (09, Table 9.1; 14, Table 14.6). -/

namespace Sys2Proof.Machine

/-- The tiles and the bytes of the stacks. -/
def State.memory (s : State) : SMap Tile × (StackId → SMap Byte) := (s.tiles, fun k => (s.hbm k).mem)

theorem State.memory_of_parts {s t : State} (htiles : t.tiles = s.tiles) (hhbms : t.hbms = s.hbms) : t.memory = s.memory := by
  simp [State.memory, State.hbm, htiles, hhbms]
theorem State.tile_of_memory {s t : State} (h : t.memory = s.memory) (d : Nat) : t.tile d = s.tile d := by
  simp [State.tile, (Prod.mk.inj h).1]
theorem State.hbm_mem_of_memory {s t : State} (h : t.memory = s.memory) (k : StackId) : (t.hbm k).mem = (s.hbm k).mem :=
  congrFun (Prod.mk.inj h).2 k
/-- A loop over steps that leave the tiles and the stacks alone leaves them alone. -/
@[simp] theorem foldl_memory {α : Type} (op : State → α → State) (l : List α) (s : State) (h : ∀ s a, (op s a).memory = s.memory) :
    (l.foldl op s).memory = s.memory := foldl_view State.memory op h l s

/-! ## Parts, events, completions -/

section
variable (s : State)

@[simp] theorem State.tick_memory (t : Nat) : (s.tick t).memory = s.memory := State.memory_of_parts (by simp) (by simp)
@[simp] theorem State.modFold_memory (f : FoldId) (g : Fold → Fold) : (s.modFold f g).memory = s.memory := rfl
@[simp] theorem State.modQuad_memory (q : QuadId) (g : Quad → Quad) : (s.modQuad q g).memory = s.memory := rfl
@[simp] theorem State.setChan_memory (c : Nat) (x : Chan) : (s.setChan c x).memory = s.memory := rfl
@[simp] theorem State.send_memory (o : Output) : (s.send o).memory = s.memory := State.memory_of_parts (by simp) (by simp)
@[simp] theorem State.emit_memory (unit code : Nat) (d : Bytes) : (s.emit unit code d).memory = s.memory := rfl
@[simp] theorem State.post_memory (v : FnId) (c : Cqe) : (s.post v c).memory = s.memory := State.memory_of_parts (by simp) (by simp)
@[simp] theorem State.updateLevel_memory : s.updateLevel.memory = s.memory := State.memory_of_parts (by simp) (by simp)
@[simp] theorem State.setSt_memory (f : FoldId) (st : FoldState) : (s.setSt f st).memory = s.memory :=
  State.memory_of_parts (by simp) (by simp)
@[simp] theorem State.flood_memory (typ : Nat) (body : Bytes) : (s.flood typ body).memory = s.memory :=
  State.memory_of_parts (by simp) (by simp)
/-- A stack keeps its bytes where what changes of it is something else. -/
theorem State.modHbm_memory (k : StackId) (g : Stack → Stack) (h : (g (s.hbm k)).mem = (s.hbm k).mem) :
    (s.modHbm k g).memory = s.memory := by
  refine Prod.ext (by simp [State.memory]) (funext fun j => ?_)
  show ((s.modHbm k g).hbm j).mem = (s.hbm j).mem
  by_cases hj : j = k
  · subst hj; simpa using h
  · simp [hj]

/-! ## The journal and the file store (12, 16) -/

@[simp] theorem State.choosePage_memory : s.choosePage.memory = s.memory := by
  unfold State.choosePage
  dsimp only
  (repeat' split) <;> rfl
@[simp] theorem State.bindLabel_memory : s.bindLabel.memory = s.memory := by
  unfold State.bindLabel
  (repeat' split)
  · rfl
  · rfl
  · exact (State.send_memory _ _).trans (State.send_memory _ _)
@[simp] theorem State.sendPage_memory : s.sendPage.memory = s.memory := by
  unfold State.sendPage
  split
  · rfl
  · exact (State.send_memory _ _).trans s.bindLabel_memory
@[simp] theorem State.advanceJournal_memory : s.advanceJournal.memory = s.memory := by
  unfold State.advanceJournal
  dsimp only
  (repeat' split)
  · rfl
  · exact s.choosePage_memory
  · exact (State.sendPage_memory _).trans s.choosePage_memory
@[simp] theorem State.fileIssue_memory (f : FoldId) (c : FileCmd) : (s.fileIssue f c).memory = s.memory := by
  unfold State.fileIssue State.fileSend State.fileConnect
  split <;> simp
@[simp] theorem State.fileQueue_memory (f : FoldId) (cs : List FileCmd) : (s.fileQueue f cs).memory = s.memory := by
  simp [State.fileQueue, State.filePump, State.fileTake]

/-! ## Pages (09) -/

@[simp] theorem State.exportFile_memory (f : FoldId) (p : Page) (tags : Bool) : (s.exportFile f p tags).memory = s.memory := by
  unfold State.exportFile
  dsimp only
  split <;> simp
@[simp] theorem State.sealPage_memory (f : FoldId) (p : OpenPage) (n : Nat) : (s.sealPage f p n).memory = s.memory := by
  unfold State.sealPage
  dsimp only
  (repeat' split) <;> simp
@[simp] theorem State.sealClosing_memory (f : FoldId) (n : Nat) : (s.sealClosing f n).memory = s.memory := by
  unfold State.sealClosing
  split <;> simp
@[simp] theorem State.closePage_memory (f : FoldId) (n : Nat) (final : Bool) : (s.closePage f n final).memory = s.memory := by
  unfold State.closePage
  split <;> rfl
@[simp] theorem State.openPage_memory (f : FoldId) (n : Nat) : (s.openPage f n).memory = s.memory := by
  unfold State.openPage
  dsimp only
  split <;> rfl
@[simp] theorem State.enterCohort_memory (f : FoldId) (c : Cohort) (d : Bool) : (s.enterCohort f c d).memory = s.memory := by
  unfold State.enterCohort State.sealBefore
  (repeat' split) <;> simp
@[simp] theorem State.finalPage_memory (f : FoldId) (n : Nat) : (s.finalPage f n).memory = s.memory := by
  simp [State.finalPage]
@[simp] theorem State.splitPage_memory (f : FoldId) (n : Nat) : (s.splitPage f n).memory = s.memory := by
  unfold State.splitPage
  dsimp only
  (repeat' split) <;> simp
@[simp] theorem State.cutAttempt_memory (f : FoldId) (n : Nat) : (s.cutAttempt f n).memory = s.memory := by
  unfold State.cutAttempt
  split <;> simp [State.endAttempt, State.appendAll]

/-! ## What a Fold held when it faults (09, Table 9.1) -/

@[simp] theorem State.postRecord_memory (f : FoldId) (cid status event frame len : Nat) :
    (s.postRecord f cid status event frame len).memory = s.memory := by simp [State.postRecord]
@[simp] theorem dropResult_memory (f : FoldId) (status : Nat) (r : Result) : (dropResult s f status r).memory = s.memory := by
  unfold dropResult
  split <;> simp
@[simp] theorem State.dropResults_memory (f : FoldId) (status : Nat) (p : Result → Bool) :
    (s.dropResults f status p).memory = s.memory := by simp [State.dropResults]
@[simp] theorem State.dropCohort_memory (f : FoldId) (status : Nat) (c : Cohort) : (s.dropCohort f status c).memory = s.memory :=
  foldl_memory _ _ _ fun s r => by split <;> simp
@[simp] theorem State.dropReads_memory (f : FoldId) (status : Nat) : (s.dropReads f status).memory = s.memory := by
  simp [State.dropReads]
@[simp] theorem State.endCohorts_memory (f : FoldId) (held : List Nat) (cs : List Cohort) :
    (s.endCohorts f held cs).memory = s.memory := by simp [State.endCohorts]
@[simp] theorem State.endRun_memory (f : FoldId) : (s.endRun f).memory = s.memory := by simp [State.endRun]
@[simp] theorem State.zeroChans_memory (f : FoldId) : (s.zeroChans f).memory = s.memory :=
  foldl_memory _ _ _ fun _ _ => rfl
@[simp] theorem State.faultFold_memory (f : FoldId) (cause frame : Nat) : (s.faultFold f cause frame).memory = s.memory := by
  simp [State.faultFold, State.recountCredits]

/-! ## Quarantine (14, R410) -/

@[simp] theorem State.tryPropose_memory : s.tryPropose.memory = s.memory := by
  unfold State.tryPropose
  dsimp only
  (repeat' split)
  · rfl
  · rfl
  · exact foldl_memory _ _ _ fun s u => by simp
@[simp] theorem State.requestEpoch_memory (unit : Nat) : (s.requestEpoch unit).memory = s.memory := by
  unfold State.requestEpoch
  split
  · exact State.tryPropose_memory _
  · simp
@[simp] theorem State.dropQuad_memory (q : QuadId) : (s.dropQuad q).memory = s.memory :=
  foldl_memory _ _ _ fun s f => by dsimp only; split <;> rfl
@[simp] theorem State.quarantine_memory (q : QuadId) (cause count : Nat) : (s.quarantine q cause count).memory = s.memory := by
  simp [State.quarantine]
@[simp] theorem State.countFault_memory (q : QuadId) (code stamp : Nat) : (s.countFault q code stamp).memory = s.memory := by
  unfold State.countFault
  dsimp only
  split <;> simp

/-! ## What an operation reports (14, Table 14.6) -/

@[simp] theorem State.frameFault_memory (f : FoldId) (code : Nat) : (s.frameFault f code).memory = s.memory := by
  unfold State.frameFault State.stepFault State.markReplay State.causeFrame
  dsimp only
  (repeat' split) <;> simp
@[simp] theorem State.tileFault_memory (f : FoldId) (tile code : Nat) (info : Bytes) : (s.tileFault f tile code info).memory = s.memory := by
  simp [State.tileFault]
/-- A word that waits for its copy is noted at its stack, whose bytes stay. -/
@[simp] theorem State.askRestore_memory (f : FoldId) (tile w : Nat) : (s.askRestore f tile w).memory = s.memory := by
  unfold State.askRestore
  dsimp only
  split
  · rfl
  · exact State.modHbm_memory _ _ _ (by split <;> rfl)
@[simp] theorem State.reportParity_memory (f : FoldId) (tile : Nat) (x : Tile) (o : TileOp) (feed : Feed) :
    (s.reportParity f tile x o feed).memory = s.memory := by
  unfold State.reportParity
  dsimp only
  (repeat' split) <;> simp
@[simp] theorem State.reportOp_memory (f : FoldId) (tile : Nat) (x : Tile) (l : Loaded) (o : TileOp) (feed : Feed) :
    (s.reportOp f tile x l o feed).memory = s.memory := by
  unfold State.reportOp
  dsimp only
  (repeat' split) <;> simp
@[simp] theorem State.rebuildMargins_memory (f : FoldId) (l : Loaded) (x : Tile) (o : TileOp) :
    (s.rebuildMargins f l x o).memory = s.memory := by
  unfold State.rebuildMargins
  (repeat' split)
  · rfl
  · exact foldl_memory _ _ _ fun s r => rfl
  · rfl
end

end Sys2Proof.Machine
end

section
/-! PROOFS. SCHEDULED_OPERATION, what it stores (05, R132; 19, Table 19.11). -/

namespace Sys2Proof.Machine

/-! ## A tile after it is written -/

/-- A tile that is written reads as written; the empty tile is no entry, so it is left out. -/
theorem State.setTile_same (s : State) (n : Nat) {x : Tile} (h : x ≠ Tile.dflt) : (s.setTile n x).tile n = x :=
  mget_mset_ne Tile.dflt s.tiles n x h
theorem State.setTile_other (s : State) {n d : Nat} (x : Tile) (h : d ≠ n) : (s.setTile n x).tile d = s.tile d :=
  mget_mset_other Tile.dflt s.tiles n d x h
theorem State.setTile_memory {s t : State} (h : t.memory = s.memory) (n : Nat) (x : Tile) :
    (t.setTile n x).memory = (s.setTile n x).memory := by
  obtain ⟨htiles, hhbms⟩ := Prod.mk.inj h
  refine Prod.ext ?_ hhbms
  show mset Tile.dflt t.tiles n x = mset Tile.dflt s.tiles n x
  rw [htiles]
theorem State.setTile_hbm_mem (s : State) (n : Nat) (x : Tile) (k : StackId) : ((s.setTile n x).hbm k).mem = (s.hbm k).mem := rfl
/-- A tile written with the store that it had leaves the store of every tile as it was. -/
theorem State.setTile_store_kept (s : State) {n : Nat} {x : Tile} (hx : x ≠ Tile.dflt) (hmem : x.mem = (s.tile n).mem) (d : Nat) :
    ((s.setTile n x).tile d).mem = (s.tile d).mem := by
  by_cases hd : d = n
  · subst hd; rw [s.setTile_same d hx, hmem]
  · rw [s.setTile_other x hd]

/-! ## The tile that issues -/

/-- Giving a buffer back touches the streams alone. -/
theorem Tile.giveBack_rest (x : Tile) (l : Loaded) (w : OpWord) (feed : Feed) (e : Nat) :
    x.giveBack l w feed e = { x with streams := (x.giveBack l w feed e).streams } := by
  unfold Tile.giveBack
  split
  · rfl
  · split
    · rfl
    · split <;> rfl
/-- The store, the accumulators and the bins of a tile that issues are those that the effect leaves. -/
theorem Tile.issueOp_data (x : Tile) (l : Loaded) (g : Grow) (cycle : Nat) (w : OpWord) (feed : Feed) (stop : Bool) :
    (x.issueOp l g cycle w feed stop).mem = (tileEffect l g feed w.op x).mem ∧
    (x.issueOp l g cycle w feed stop).acc = (tileEffect l g feed w.op x).acc ∧
    (x.issueOp l g cycle w feed stop).binsG = (tileEffect l g feed w.op x).binsG ∧
    (x.issueOp l g cycle w feed stop).binsH = (tileEffect l g feed w.op x).binsH := by
  unfold Tile.issueOp
  dsimp only
  rw [Tile.giveBack_rest]
  exact ⟨rfl, rfl, rfl, rfl⟩
/-- The context that issued is not at rest: its next operation waits for a later cycle. -/
theorem Tile.issueOp_ne_dflt (x : Tile) (l : Loaded) (g : Grow) (cycle : Nat) (w : OpWord) (feed : Feed) (stop : Bool) :
    x.issueOp l g cycle w feed stop ≠ Tile.dflt := by
  intro h
  have hready : (vget (x.issueOp l g cycle w feed stop).ctxs (ctxOf cycle)).readyAt = 0 := by
    rw [h]
    simp [Tile.dflt, vget, Vector.get, Ctx.dflt]
  simp only [Tile.issueOp, vget_vset_same, Ctx.after] at hready
  split at hready <;> omega
/-- The tile of a slot after it issued a word. -/
def State.issued (s : State) (f : FoldId) (l : Loaded) (tile cycle : Nat) (w : OpWord) (feed : Feed) : Tile :=
  (s.tile tile).issueOp l (s.fold f).grow cycle w feed (!(partly (s.tile tile).poison (writesOf l w.op feed)).isEmpty)
theorem State.issued_ne_dflt (s : State) (f : FoldId) (l : Loaded) (tile cycle : Nat) (w : OpWord) (feed : Feed) :
    s.issued f l tile cycle w feed ≠ Tile.dflt := (s.tile tile).issueOp_ne_dflt _ _ _ _ _ _

/-! ## What SEND leaves in the tile that it names -/

/-- A tile after `n` bytes from address `b` of tile `x` came to its address `c`, sent by an operation that retires in cycle `e`. -/
def Tile.receive (y x : Tile) (b c n e : Nat) : Tile :=
  let z := ({ y with mem := mwrite y.mem c (mread x.mem b n) }).settleWords [(c, n)] (copiedPoison x.poison b c n)
  { z with inflight := z.inflight ++ [(c, n, e + 24)], ports := z.ports ++ [⟨e + 25 - ceilDiv n 512, e + 24, c, n⟩] }
@[simp] theorem Tile.receive_mem (y x : Tile) (b c n e : Nat) : (y.receive x b c n e).mem = mwrite y.mem c (mread x.mem b n) := rfl
theorem Tile.receive_ne_dflt (y x : Tile) (b c n e : Nat) : y.receive x b c n e ≠ Tile.dflt := by
  intro h
  have hnil : (y.receive x b c n e).inflight = [] := by rw [h]; rfl
  simp [Tile.receive] at hnil
theorem State.sendTo_plain (s : State) (f : FoldId) (x : Tile) {o : TileOp} (e : Nat) (h : ∀ k b c n, o ≠ .send k b c n) :
    s.sendTo f x o e = s := by
  unfold State.sendTo
  split
  · next k b c n => exact absurd rfl (h k b c n)
  · rfl
theorem State.sendTo_missing (s : State) {f : FoldId} (x : Tile) {k : Nat} (b c n e : Nat) (h : (s.foldCfg f).tiles[k]? = none) :
    s.sendTo f x (.send k b c n) e = s := by
  unfold State.sendTo
  dsimp only
  rw [h]
theorem State.sendTo_found (s : State) {f : FoldId} (x : Tile) {k d : Nat} (b c n e : Nat) (h : (s.foldCfg f).tiles[k]? = some d) :
    s.sendTo f x (.send k b c n) e = s.setTile d ((s.tile d).receive x b c n e) := by
  unfold State.sendTo
  dsimp only
  rw [h]
  rfl

/-! ## The tiles and the stacks after an operation -/

section
variable {s : State} {f : FoldId} {l : Loaded} {tile cycle : Nat} {w : OpWord} {feed : Feed}

/-- Of the tiles and the stacks an operation changes its own tile, then what it sends. -/
theorem State.runOp_memory (hl : (s.fold f).load = some l) :
    ∃ t : State, t.memory = (s.setTile tile (s.issued f l tile cycle w feed)).memory ∧ t.foldCfg f = s.foldCfg f ∧
      (s.runOp f tile cycle w feed).memory =
        (t.sendTo f (s.tile tile) w.op ((s.tile tile).retires l w.op feed cycle)).memory := by
  simp only [State.runOp, hl]
  refine ⟨_, ?_, ?_, State.reportOp_memory _ _ _ _ _ _ _⟩
  · rw [State.rebuildMargins_memory, State.modFold_memory]
    rfl
  · simp [State.foldCfg]
theorem State.runOp_memory_plain (hl : (s.fold f).load = some l) (hw : ∀ k b c n, w.op ≠ .send k b c n) :
    (s.runOp f tile cycle w feed).memory = (s.setTile tile (s.issued f l tile cycle w feed)).memory := by
  obtain ⟨t, ht, _, hrun⟩ := State.runOp_memory (tile := tile) (cycle := cycle) (w := w) (feed := feed) hl
  rw [hrun, t.sendTo_plain f _ _ hw, ht]
theorem State.runOp_memory_unsent {k b c n : Nat} (hl : (s.fold f).load = some l) (hw : w.op = .send k b c n)
    (hk : (s.foldCfg f).tiles[k]? = none) :
    (s.runOp f tile cycle w feed).memory = (s.setTile tile (s.issued f l tile cycle w feed)).memory := by
  obtain ⟨t, ht, hcfg, hrun⟩ := State.runOp_memory (tile := tile) (cycle := cycle) (w := w) (feed := feed) hl
  rw [hrun, hw, t.sendTo_missing _ b c n _ (hcfg ▸ hk), ht]
theorem State.runOp_memory_sent {k b c n d : Nat} (hl : (s.fold f).load = some l) (hw : w.op = .send k b c n)
    (hk : (s.foldCfg f).tiles[k]? = some d) :
    (s.runOp f tile cycle w feed).memory = ((s.setTile tile (s.issued f l tile cycle w feed)).setTile d
      (((s.setTile tile (s.issued f l tile cycle w feed)).tile d).receive (s.tile tile) b c n
        ((s.tile tile).retires l w.op feed cycle))).memory := by
  obtain ⟨t, ht, hcfg, hrun⟩ := State.runOp_memory (tile := tile) (cycle := cycle) (w := w) (feed := feed) hl
  rw [hrun, hw, t.sendTo_found _ b c n _ (hcfg ▸ hk), State.tile_of_memory ht d]
  exact State.setTile_memory ht d _

/-- An operation other than SEND leaves every tile but its own as it was, and its own as issuing leaves it. -/
theorem State.runOp_tile_plain (hl : (s.fold f).load = some l) (hw : ∀ k b c n, w.op ≠ .send k b c n) :
    (s.runOp f tile cycle w feed).tile tile = s.issued f l tile cycle w feed ∧
    ∀ d, d ≠ tile → (s.runOp f tile cycle w feed).tile d = s.tile d := by
  have hrun := State.runOp_memory_plain (tile := tile) (cycle := cycle) (feed := feed) hl hw
  refine ⟨?_, fun d hd => ?_⟩
  · rw [State.tile_of_memory hrun, State.setTile_same _ _ (s.issued_ne_dflt _ _ _ _ _ _)]
  · rw [State.tile_of_memory hrun, State.setTile_other _ _ hd]
/-- SEND leaves the store of its own tile as it was. -/
theorem State.issued_send_mem {k b c n : Nat} (hw : w.op = .send k b c n) : (s.issued f l tile cycle w feed).mem = (s.tile tile).mem := by
  rw [State.issued, (Tile.issueOp_data ..).1, hw]
  rfl
theorem State.runOp_store_unsent {k b c n : Nat} (hl : (s.fold f).load = some l) (hw : w.op = .send k b c n)
    (hk : (s.foldCfg f).tiles[k]? = none) (e : Nat) : ((s.runOp f tile cycle w feed).tile e).mem = (s.tile e).mem := by
  rw [State.tile_of_memory (State.runOp_memory_unsent hl hw hk), s.setTile_store_kept (s.issued_ne_dflt _ _ _ _ _ _) (State.issued_send_mem hw)]
/-- SEND stores its source bytes in the tile that it names and nothing in any other. -/
theorem State.runOp_store_sent {k b c n d : Nat} (hl : (s.fold f).load = some l) (hw : w.op = .send k b c n)
    (hk : (s.foldCfg f).tiles[k]? = some d) :
    ((s.runOp f tile cycle w feed).tile d).mem = mwrite (s.tile d).mem c (mread (s.tile tile).mem b n) ∧
    ∀ e, e ≠ d → ((s.runOp f tile cycle w feed).tile e).mem = (s.tile e).mem := by
  have hrun := State.runOp_memory_sent (tile := tile) (cycle := cycle) (feed := feed) hl hw hk
  have hown := s.setTile_store_kept (n := tile) (s.issued_ne_dflt f l tile cycle w feed)
    (State.issued_send_mem hw)
  refine ⟨?_, fun e he => ?_⟩
  · rw [State.tile_of_memory hrun, State.setTile_same _ _ (Tile.receive_ne_dflt _ _ _ _ _ _), Tile.receive_mem, hown]
  · rw [State.tile_of_memory hrun, State.setTile_other _ _ he, hown]
/-- No operation stores to a stack. -/
theorem State.runOp_stack (hl : (s.fold f).load = some l) (k : StackId) : ((s.runOp f tile cycle w feed).hbm k).mem = (s.hbm k).mem := by
  obtain ⟨t, ht, _, hrun⟩ := State.runOp_memory (tile := tile) (cycle := cycle) (w := w) (feed := feed) hl
  rw [State.hbm_mem_of_memory hrun]
  refine Eq.trans ?_ (State.hbm_mem_of_memory ht k)
  unfold State.sendTo
  (repeat' split) <;> rfl
end

/-! ## SCHEDULED_OPERATION -/

section
variable {t tile cycle : Nat} {feed : Feed} {s u : State} {f : FoldId} {l : Loaded} {w : OpWord}

theorem exec_scheduledOperation_idle (hu : s.tick t = u) (hi : u.issues tile cycle feed = none) :
    exec (.scheduledOperation t tile cycle feed) s = .next u := by
  show execScheduledOperation t tile cycle feed s = _
  simp only [execScheduledOperation, hu, hi]
theorem exec_scheduledOperation_outside {a : Nat} (hu : s.tick t = u) (hi : u.issues tile cycle feed = some (f, w))
    (hl : (u.fold f).load = some l) (ha : badAddress l w.op feed = some a) :
    exec (.scheduledOperation t tile cycle feed) s = .fault (.tileStoreAddress tile a) := by
  show execScheduledOperation t tile cycle feed s = _
  simp only [execScheduledOperation, hu, hi, hl, Option.bind_some, ha]
theorem exec_scheduledOperation_issues (hu : s.tick t = u) (h : opIssues u tile cycle feed f l w) :
    exec (.scheduledOperation t tile cycle feed) s = .next (u.runOp f tile cycle w feed) := by
  obtain ⟨hi, hl, ha⟩ := h
  show execScheduledOperation t tile cycle feed s = _
  simp only [execScheduledOperation, hu, hi, hl, Option.bind_some, ha]
end

/-- Settles O51: the slot by what it issues, the operation by whether it is SEND, SEND by whether the Fold has the tile it names. -/
theorem tileOperationsStoreOnlyWhereTheySay : Obligations.TileOperationsStoreOnlyWhereTheySay := by
  intro t tile cycle feed s u hu
  refine ⟨exec_scheduledOperation_idle hu, fun f l w a hi hl ha => exec_scheduledOperation_outside hu hi hl ha, fun f l w h => ?_⟩
  have hexec := exec_scheduledOperation_issues hu h
  obtain ⟨_, hl, _⟩ := h
  have hmem : u.memory = s.memory := hu ▸ s.tick_memory t
  have htile := State.tile_of_memory hmem
  refine ⟨_, hexec, fun k => (State.runOp_stack hl k).trans (State.hbm_mem_of_memory hmem k), by simp [← hu], fun hw => ?_,
    fun k b c n hw => ⟨fun d hk => ?_, fun hk e => ?_⟩⟩
  · obtain ⟨hown, hother⟩ := State.runOp_tile_plain (tile := tile) (cycle := cycle) (feed := feed) hl hw
    refine ⟨fun a ha => ?_, fun d hd => (hother d hd).trans (htile d)⟩
    rw [hown, State.issued, (Tile.issueOp_data ..).1, tileEffect_mem _ _ _ _ _ _ ha, htile]
  · obtain ⟨hsent, hother⟩ := State.runOp_store_sent (tile := tile) (cycle := cycle) (feed := feed) hl hw hk
    rw [htile, htile] at hsent
    refine ⟨fun i hi hwf => ?_, fun a ha => ?_, fun e he => (hother e he).trans (by rw [htile])⟩
    · rw [hsent, mget_mwrite_inside _ _ _ _ hwf (by simpa using hi)]
      simp [mread]
    · rw [hsent, mget_mwrite_outside _ _ _ _ (by simpa using ha)]
  · rw [State.runOp_store_unsent hl hw hk, htile]

end Sys2Proof.Machine
end

section
/-! PROOFS. SCHEDULED_OPERATION, what the accumulator, bin, copy and zero operations leave (05, R116, Table 5.4; 19, Table 19.11). -/

namespace Sys2Proof.Machine

/-! ## Numbers and runs of equal length in bytes -/

theorem leNat_le (w n : Nat) : leNat (le w n) = n % 256 ^ w := by
  induction w generalizing n with
  | zero => simp [le, leNat, Nat.mod_one]
  | succ w ih =>
    have hcons : le (w + 1) n = BitVec.ofNat 8 n :: le w (n / 256) := by
      simp [le, List.range_succ_eq_map, Nat.pow_succ', Nat.div_div_eq_div_mul]
    rw [hcons, leNat, ih, Nat.pow_succ', Nat.mod_mul, BitVec.toNat_ofNat]
/-- FIX48 holds every bit of an accumulator. -/
theorem ofNat_leNat_fix48 (v : BitVec 48) : BitVec.ofNat 48 (leNat (fix48 v)) = v := by
  have hv : v.toNat % 256 ^ 6 = v.toNat := Nat.mod_eq_of_lt v.isLt
  rw [fix48, leNat_le, hv, BitVec.ofNat_toNat, BitVec.setWidth_eq]
/-- The `i`-th of the runs of `k` bytes that make up a byte string. -/
theorem slice_flatMap {α : Type} (l : List α) (g : α → Bytes) {k : Nat} (hg : ∀ a, (g a).length = k) (i : Nat) (hi : i < l.length) :
    slice (l.flatMap g) (k * i) k = g l[i] := by
  induction l generalizing i with
  | nil => simp at hi
  | cons a l ih =>
    cases i with
    | zero => simp [slice, ← hg a]
    | succ i =>
      have hskip : k * (i + 1) = (g a).length + k * i := by rw [hg, Nat.mul_add, Nat.mul_one, Nat.add_comm]
      rw [List.getElem_cons_succ, ← ih i (by simpa using hi), slice, slice, List.flatMap_cons, hskip, List.drop_length_add_append]

/-! ## Reads after runs of writes -/

/-- Reading a part of what was written. -/
theorem mread_mwrite_part (m : SMap Byte) (a off n : Nat) (b : Bytes) (hm : SMap.wf 0 m) (h : off + n ≤ b.length) :
    mread (mwrite m a b) (a + off) n = slice b off n := by
  apply List.ext_getElem
  · rw [length_mread, length_slice h]
  · intro i hi _
    have hi : i < n := by simpa using hi
    have hread := mget_mwrite_inside m a (off + i) b hm (by omega)
    simpa [mread, slice, Nat.add_assoc] using hread
theorem foldl_mset_wf {α : Type} [DecidableEq α] (d : α) (key : Nat → Nat) (v : Nat → α) (l : List Nat) (m : SMap α) (hm : SMap.wf d m) :
    SMap.wf d (l.foldl (fun m r => mset d m (key r) (v r)) m) := by
  induction l generalizing m with
  | nil => exact hm
  | cons r l ih => exact ih _ (mset_wf d m (key r) (v r) hm)
/-- Values written one by one at keys that differ read as written. -/
theorem mget_foldl_mset {α : Type} [DecidableEq α] (d : α) (key : Nat → Nat) (v : Nat → α) (hkey : key.Injective) (m : SMap α)
    (hm : SMap.wf d m) {n r : Nat} (hr : r < n) : mget d ((List.range n).foldl (fun m r => mset d m (key r) (v r)) m) (key r) = v r := by
  induction n with
  | zero => omega
  | succ n ih =>
    rw [List.range_succ, List.foldl_append, List.foldl_cons, List.foldl_nil]
    by_cases h : r = n
    · subst h; exact mget_mset_same d _ _ _ (foldl_mset_wf d key v _ m hm)
    · rw [mget_mset_other d _ _ _ _ (hkey.ne h), ih (by omega)]
/-- A key of the dropped range reads as the default. -/
theorem mget_mdrop_inside {α : Type} (d : α) (m : SMap α) {a b i : Nat} (ha : a ≤ i) (hb : i < b) : mget d (mdrop m a b) i = d :=
  mget_absent d _ i fun e he hi => by
    have hkept := (List.mem_filter.1 he).2
    simp only [hi, Bool.or_eq_true, decide_eq_true_eq] at hkept
    omega
theorem mread_mdrop (m : SMap Byte) (a n : Nat) : mread (mdrop m a (a + n)) a n = List.replicate n 0 := by
  refine List.eq_replicate_iff.2 ⟨by simp, fun b hb => ?_⟩
  obtain ⟨i, hi, rfl⟩ := List.mem_map.1 hb
  exact mget_mdrop_inside 0 m (by omega) (by simpa using hi)

/-! ## Accumulators (05, R116) -/

theorem Tile.accOf_congr {x y : Tile} (h : x.acc = y.acc) (r lane : Nat) : x.accOf r lane = y.accOf r lane := by simp [Tile.accOf, h]
theorem Tile.scoreAt_congr {x y : Tile} (h : x.mem = y.mem) (a r : Nat) : x.scoreAt a r = y.scoreAt a r := by simp [Tile.scoreAt, h]
/-- A written lane reads as written in all 256 rows. -/
theorem Tile.setLane_accOf (x : Tile) (lane : Nat) (v : Nat → BitVec 48) (hx : SMap.wf 0 x.acc) {r : Nat} (hr : r < 256) :
    (x.setLane lane v).accOf r lane = v r := by
  have hkey : (fun r => r * 16 + lane % 16).Injective := fun i j h => by dsimp only at h; omega
  unfold Tile.setLane Tile.accOf
  dsimp only
  exact mget_foldl_mset 0 _ v hkey x.acc hx hr
/-- A stored lane reads back as the scores of a batch. -/
theorem Tile.lstore_scoreAt (x : Tile) (lane a : Nat) (hx : SMap.wf 0 x.mem) {r : Nat} (hr : r < 256) :
    (x.lstore lane a).scoreAt a r = x.accOf r lane := by
  have hlen : ∀ r, (fix48 (x.accOf r lane)).length = 6 := fun r => by simp [fix48]
  have hbytes : mread (x.lstore lane a).mem (a + 6 * r) 6 = fix48 (x.accOf r lane) := by
    rw [Tile.lstore, mread_mwrite_part _ _ _ _ _ hx (by rw [length_flatMap_const _ _ 6 hlen, List.length_range]; omega),
      slice_flatMap _ _ hlen r (by simpa using hr), List.getElem_range]
  rw [Tile.scoreAt, hbytes, ofNat_leNat_fix48]

/-! ## Bins (05, Table 5.4) -/

/-- A bin reads zero after CLEAR where its unit is named, or where it read zero before. -/
theorem Tile.clearBins_zero (us : List Nat) (x : Tile) {u i : Nat} (hi : i < 256)
    (h : u ∈ us ∨ mget 0 x.binsG (256 * u + i) = 0 ∧ mget 0 x.binsH (256 * u + i) = 0) :
    mget 0 (x.clearBins us).binsG (256 * u + i) = 0 ∧ mget 0 (x.clearBins us).binsH (256 * u + i) = 0 := by
  induction us generalizing x with
  | nil => simpa [Tile.clearBins] using h
  | cons k us ih =>
    refine ih _ ?_
    by_cases hk : u = k
    · subst hk
      exact .inr ⟨mget_mdrop_inside 0 _ (by omega) (by omega), mget_mdrop_inside 0 _ (by omega) (by omega)⟩
    · have hout : 256 * u + i < k * 256 ∨ k * 256 + 256 ≤ 256 * u + i := by omega
      rcases h with h | ⟨hg, hh⟩
      · exact .inl ((List.mem_cons.1 h).resolve_left hk)
      · exact .inr ⟨(mget_mdrop_outside 0 _ _ _ _ hout).trans hg, (mget_mdrop_outside 0 _ _ _ _ hout).trans hh⟩
theorem mem_unitsOf {m k : Nat} (hk : k < 4) (hm : bit m k = true) : k ∈ unitsOf m := List.mem_filter.2 ⟨List.mem_range.2 hk, hm⟩

/-! ## The tile after the slot -/

section
variable {s : State} {f : FoldId} {l : Loaded} {w : OpWord} {o : TileOp} (tile cycle : Nat) (feed : Feed)

/-- Store, accumulators and bins after an operation other than SEND are those that its effect leaves. -/
theorem State.runOp_data (hl : (s.fold f).load = some l) (hw : w.op = o) (ho : ∀ k b c n, o ≠ .send k b c n) :
    ((s.runOp f tile cycle w feed).tile tile).mem = (tileEffect l (s.fold f).grow feed o (s.tile tile)).mem ∧
    ((s.runOp f tile cycle w feed).tile tile).acc = (tileEffect l (s.fold f).grow feed o (s.tile tile)).acc ∧
    ((s.runOp f tile cycle w feed).tile tile).binsG = (tileEffect l (s.fold f).grow feed o (s.tile tile)).binsG ∧
    ((s.runOp f tile cycle w feed).tile tile).binsH = (tileEffect l (s.fold f).grow feed o (s.tile tile)).binsH := by
  subst hw
  rw [(State.runOp_tile_plain hl ho).1]
  exact Tile.issueOp_data ..
/-- An operation whose effect is to write a lane leaves the values it writes in the 256 rows of that lane. -/
theorem State.runOp_lane {a : Nat} {v : Nat → BitVec 48} (hl : (s.fold f).load = some l) (hw : w.op = o) (ho : ∀ k b c n, o ≠ .send k b c n)
    (heffect : tileEffect l (s.fold f).grow feed o (s.tile tile) = (s.tile tile).setLane a v) (hwf : SMap.wf 0 (s.tile tile).acc)
    {r : Nat} (hr : r < 256) : ((s.runOp f tile cycle w feed).tile tile).accOf r a = v r := by
  obtain ⟨_, hacc, _, _⟩ := State.runOp_data tile cycle feed hl hw ho
  rw [Tile.accOf_congr (hacc.trans (congrArg Tile.acc heffect)), Tile.setLane_accOf _ _ _ hwf hr]
end

/-- Settles O53: the tile after the slot by the effect of its operation, the effect by what it writes. -/
theorem tileOperationsCompute : Obligations.TileOperationsCompute := by
  intro t tile cycle feed s u f l w x hu h hx hmem hacc
  have hexec := exec_scheduledOperation_issues hu h
  obtain ⟨_, hl, _⟩ := h
  have hs : s.tile tile = x := by rw [← hx, ← hu, State.tile_of_memory (s.tick_memory t)]
  subst hx
  refine ⟨_, hexec, fun a hw r hr => ?lclr, fun a b hw r hr => ?ladd, fun a b hw r hr => ?lload, fun a b hw r hr => ?laddm,
    fun a b hw r hr => ?lstore, fun m hw k i hk hm hi => ?clear, fun b c n hw => ?copy, fun b n hw => ?zero⟩
  case lclr | ladd | lload | laddm => exact State.runOp_lane tile cycle feed hl hw (by simp) rfl hacc hr
  case lstore =>
    obtain ⟨hstore, _, _, _⟩ := State.runOp_data tile cycle feed hl hw (by simp)
    rw [Tile.scoreAt_congr hstore]
    exact Tile.lstore_scoreAt _ a b hmem hr
  case clear =>
    obtain ⟨_, _, hG, hH⟩ := State.runOp_data tile cycle feed hl hw (by simp)
    rw [hG, hH]
    exact Tile.clearBins_zero _ _ hi (.inl (mem_unitsOf hk hm))
  case copy =>
    obtain ⟨hstore, _, _, _⟩ := State.runOp_data tile cycle feed hl hw (by simp)
    have hread := mread_mwrite (u.tile tile).mem c (mread (u.tile tile).mem b n) hmem
    rw [length_mread] at hread
    rw [tileBytes, tileBytes, hstore, hs]
    exact hread
  case zero =>
    obtain ⟨hstore, _, _, _⟩ := State.runOp_data tile cycle feed hl hw (by simp)
    rw [tileBytes, hstore]
    exact mread_mdrop _ b n

end Sys2Proof.Machine
end

section
/-! PROOFS. ROOT_WHEEL_POSITION (02, R38; 06, R151, R152, R157; 08, R204). -/

namespace Sys2Proof.Machine

/-! ## The cohort that a job works on -/

/-- The cohort of a frame after a change that leaves its number and its admission is the changed cohort. -/
theorem Fold.modCohort_cohort (x : Fold) (back : Nat) {g : Cohort → Cohort} (hframe : ∀ c, (g c).frame = c.frame)
    (hadm : ∀ c, (g c).admitted = c.admitted) : (x.modCohort back g).cohort back = (x.cohort back).map g := by
  show (x.pipe.map _).find? (fun c => c.frame + back == x.frame && c.admitted) = (x.pipe.find? _).map g
  have hsame : ((fun c => c.frame + back == x.frame && c.admitted) ∘ fun c => if c.frame + back = x.frame && c.admitted then g c else c) =
      fun c => c.frame + back == x.frame && c.admitted := by
    funext c
    simp only [Function.comp_apply]
    split <;> simp [hframe, hadm]
  rw [List.find?_map, hsame]
  cases hfind : x.pipe.find? fun c => c.frame + back == x.frame && c.admitted with
  | none => rfl
  | some c => exact congrArg some (if_pos (List.find?_some hfind))
/-- A record read after its change is the changed record. -/
theorem Cohort.modRec_same (c : Cohort) (leaf : Nat) (g : Rec → Rec) : (c.modRec leaf g).recs[leaf]? = c.recs[leaf]?.map g := by
  simp [Cohort.modRec]

/-! ## Slots of the die-to-die wheel (08, R204) -/

section
variable (s : State) (f : FoldId) (port dir : Nat)

theorem State.takeDie_tile (tile : Nat) : (s.takeDie f port dir).tile tile = s.tile tile := rfl
theorem State.takeDie_batchOf (l : Loaded) (tile : Nat) (acts : Bool) (c : Cohort) (b : Nat) :
    (s.takeDie f port dir).batchOf f l tile acts c b = s.batchOf f l tile acts c b := by
  have hcfg : (s.takeDie f port dir).foldCfg f = s.foldCfg f := by simp [State.takeDie]
  unfold State.batchOf
  rw [hcfg]
theorem State.takeDie_othersSame : othersSame f s (s.takeDie f port dir) := fun _ hg => State.modFold_other _ _ _ _ hg
theorem State.takeDie_fold : (s.takeDie f port dir).fold f = { s.fold f with run := { (s.fold f).run with
    dieSlots := mset 0 (s.fold f).run.dieSlots (2 * port + dir) ((s.dieSlot f).getD 0 + 1) } } := State.modFold_same _ _ _
end
/-- A slot that is taken is free no more, as long as time and the Fold's run stand. -/
theorem State.dieFree_taken {s v : State} {f : FoldId} {port dir : Nat} (pos : Nat) (hnow : v.now = s.now)
    (hload : (v.fold f).load = (s.fold f).load) (hrun : (v.fold f).run = ((s.takeDie f port dir).fold f).run) : v.dieFree f port pos dir = false := by
  rw [State.takeDie_fold] at hrun
  have hlaunch : (v.fold f).run.launchAt = (s.fold f).run.launchAt := by rw [hrun]
  have hopened : (v.fold f).run.opened = (s.fold f).run.opened := by rw [hrun]
  have hslot : v.dieSlot f = s.dieSlot f := by
    unfold State.dieSlot Fold.tickOf Fold.frame Fold.period
    rw [hnow, hload, hlaunch, hopened]
  rw [State.dieFree, hslot, hrun]
  cases s.dieSlot f with
  | none => rfl
  | some n => simp [mget_mset_ne]

/-! ## Codes outwards (06, R151, R152) -/

section
variable (s : State) {f : FoldId} {l : Loaded} {c : Cohort} {b tile part : Nat} {acts : Bool} {a : Nat} {p : PortUse}

/-- A part that takes a port of its tile is written there. -/
theorem State.putPart_mem : ((s.putPart f l c b tile part acts a [p]).tile tile).mem =
    mwrite (s.tile tile).mem (a + 2048 * part) (slice (s.batchOf f l tile acts c b) (2048 * part) 2048) :=
  congrArg Tile.mem (State.setTile_same _ _ fun h => by simpa [Tile.dflt] using congrArg Tile.ports h)
theorem State.putPart_tile_other : ∀ d, d ≠ tile → (s.putPart f l c b tile part acts a [p]).tile d = s.tile d := fun _ hd =>
  State.setTile_other _ _ hd
theorem State.putPart_fold : (s.putPart f l c b tile part acts a [p]).fold f = { s.fold f with pipe := (s.fold f).pipe.map fun d =>
    if d.frame = c.frame then { d with moved := (b, tile, part, acts) :: d.moved } else d } := State.modFold_same _ _ _
theorem State.putPart_othersSame : othersSame f s (s.putPart f l c b tile part acts a [p]) := fun _ hg =>
  State.modFold_other _ _ _ _ hg
theorem State.putPart_moved : ∀ d ∈ ((s.putPart f l c b tile part acts a [p]).fold f).pipe, d.frame = c.frame →
    (b, tile, part, acts) ∈ d.moved := by
  intro d hd hframe
  rw [State.putPart_fold] at hd
  obtain ⟨e, _, rfl⟩ := List.mem_map.1 hd
  split at hframe
  · next h => simp [h]
  · next h => exact absurd hframe h
end

section
variable {s : State} {f : FoldId} {l : Loaded} {c : Cohort} {port pos b tile part : Nat} {acts : Bool}

theorem State.codesOut_idle (hc : (s.fold f).cohort 1 = some c) (h : port ≠ (quadOfTile tile).val ∨ s.dieFree f port pos 0 = false ∨
    c.binnedBatch b = false ∨ s.codesPlace f l tile c.frame b acts = none) : s.codesOut f l port pos b tile part acts = s := by
  simp only [State.codesOut, hc]
  rcases h with h | h | h | h <;> simp [h]
theorem State.codesOut_moves {a : Nat} (hc : (s.fold f).cohort 1 = some c) (hq : port = (quadOfTile tile).val)
    (hd : s.dieFree f port pos 0 = true) (hb : c.binnedBatch b = true) (ha : s.codesPlace f l tile c.frame b acts = some a) :
    ∃ p, s.codesOut f l port pos b tile part acts = (s.takeDie f port 0).putPart f l c b tile part acts a [p] := by
  simp only [State.codesOut, hc, ha]
  exact ⟨_, if_neg (by simp [hq ▸ hd, hb, hq])⟩
end

/-! ## Scores inwards (06, R157) -/

/-- A cohort after an output of a batch of frame `n` is read back, row by row; the cohort of another frame is as it was. -/
def Cohort.withScores (n b o : Nat) (score : Nat → BitVec 48) (d : Cohort) : Cohort :=
  if d.frame = n then { d with
    recs := d.recs.zipIdx.map fun e => if e.2 / 256 = b then { e.1 with scores := mset 0 e.1.scores o (score (e.2 % 256)) } else e.1,
    read := (b, o) :: d.read } else d

section
variable {s : State} {f : FoldId} {l : Loaded} {c : Cohort} {port pos b o rel a tile : Nat}

theorem State.readScores_clean (hat : Config.scoresAt l.bundleDigest (((s.fold f).mapEntry.map (·.id)).getD 0) c.frame b o = (rel, a))
    (htile : (s.foldCfg f).tiles[rel]? = some tile) (hclean : touched (s.tile tile).poison [(a % (2 ^ 20 - 1536), 1536)] = []) :
    s.readScores f l c b o = s.modFold f fun y =>
      { y with pipe := y.pipe.map (Cohort.withScores c.frame b o ((s.tile tile).scoreAt (a % (2 ^ 20 - 1536)))) } := by
  unfold State.readScores
  simp only [hat, htile, hclean]
  rfl
theorem State.scoresIn_idle (hc : (s.fold f).cohort 2 = some c) (h : s.dieFree f port pos 1 = false ∨ l.outputCount ≤ o) :
    s.scoresIn f l port pos b o = s := by
  simp only [State.scoresIn, hc]
  exact if_pos (by simpa using h)
theorem State.scoresIn_reads (hc : (s.fold f).cohort 2 = some c) (hd : s.dieFree f port pos 1 = true) (ho : o < l.outputCount) :
    s.scoresIn f l port pos b o = (s.takeDie f port 1).readScores f l c b o := by
  simp only [State.scoresIn, hc]
  exact if_neg (by simpa [hd] using ho)
end

/-! ## ROOT_WHEEL_POSITION -/

/-- What a position does for a job of the Fold that owns it. -/
def State.wheelJob (s : State) (f : FoldId) (l : Loaded) (inst pos : Nat) : WheelJob → State
  | .bin leaf => s.modFold f fun x => x.binLeaf l leaf
  | .hashIn leaf => s.modFold f fun x => x.modCohort 1 fun c => c.modRec leaf fun r => { r with hashIn := true }
  | .codesOut b tile part acts => s.codesOut f l inst pos b tile part acts
  | .scoresIn b o => s.scoresIn f l inst pos b o
  | .tag leaf => s.tagLeaf f l leaf
  | .encrypt leaf => s.sealLeaf f leaf
  | .fetch => s

section
variable {t inst pos : Nat} {w : Wheel} {job : WheelJob} {s u : State} {f : FoldId} {l : Loaded}

theorem exec_rootWheelPosition_free (hu : s.tick t = u) (h : u.wheelOwner w inst pos = none) :
    exec (.rootWheelPosition t w inst pos job) s = .next u := by
  show execRootWheelPosition t w inst pos job s = _
  simp only [execRootWheelPosition, hu, h]
theorem exec_rootWheelPosition_stands (hu : s.tick t = u) (ho : u.wheelOwner w inst pos = some f)
    (h : wheelOf job ≠ w ∨ u.wheelsRun f = false) : exec (.rootWheelPosition t w inst pos job) s = .next u := by
  show execRootWheelPosition t w inst pos job s = _
  simp only [execRootWheelPosition, hu, ho]
  cases (u.fold f).load with
  | none => rfl
  | some l => exact if_pos (by simpa using h)
theorem exec_rootWheelPosition_runs (hu : s.tick t = u) (h : positionRuns u f l w inst pos job) :
    exec (.rootWheelPosition t w inst pos job) s = .next (u.wheelJob f l inst pos job) := by
  obtain ⟨ho, hl, hw, hr⟩ := h
  show execRootWheelPosition t w inst pos job s = _
  simp only [execRootWheelPosition, hu, ho, hl]
  rw [if_neg (by simp [hw, hr])]
  cases job <;> rfl
end

/-! ## What the jobs leave -/

section
variable (u : State) (f : FoldId) (l : Loaded) (inst pos : Nat)

/-- HASH marks its record of the frame before, and leaves the stores and the other Folds. -/
theorem State.wheelJob_hashIn (leaf : Nat) : storesSame u (u.wheelJob f l inst pos (.hashIn leaf)) ∧
    othersSame f u (u.wheelJob f l inst pos (.hashIn leaf)) ∧
    ∀ r, (((u.wheelJob f l inst pos (.hashIn leaf)).fold f).cohort 1).bind (·.recs[leaf]?) = some r → r.hashIn = true := by
  refine ⟨⟨rfl, rfl, rfl⟩, fun g hg => State.modFold_other _ _ _ _ hg, fun r hr => ?_⟩
  have hmark := (u.fold f).modCohort_cohort 1 (g := fun c => c.modRec leaf fun r => { r with hashIn := true }) (fun _ => rfl) (fun _ => rfl)
  rw [State.wheelJob, State.modFold_same, hmark, Option.bind_map] at hr
  obtain ⟨c, _, hrec⟩ := Option.bind_eq_some_iff.1 hr
  obtain ⟨r, _, rfl⟩ := Option.map_eq_some_iff.1 ((c.modRec_same leaf _).symm.trans hrec)
  rfl
variable {u f l inst pos} {c : Cohort} {b a tile : Nat}

/-- CODES with its slot free, its batch binned and its tile in the file: the part in the tile, the slot taken. -/
theorem State.wheelJob_codesOut {part : Nat} {acts : Bool} (hc : (u.fold f).cohort 1 = some c) (hq : inst = (quadOfTile tile).val)
    (hd : u.dieFree f inst pos 0 = true) (hb : c.binnedBatch b = true) (ha : u.codesPlace f l tile c.frame b acts = some a) {v : State}
    (hv : v = u.wheelJob f l inst pos (.codesOut b tile part acts)) :
    (v.tile tile).mem = mwrite (u.tile tile).mem (a + 2048 * part) (slice (u.batchOf f l tile acts c b) (2048 * part) 2048) ∧
    (∀ d, d ≠ tile → v.tile d = u.tile d) ∧ v.hbms = u.hbms ∧ othersSame f u v ∧ v.cfg = u.cfg ∧
    (∀ d ∈ (v.fold f).pipe, d.frame = c.frame → (b, tile, part, acts) ∈ d.moved) ∧ v.dieFree f inst pos 0 = false := by
  obtain ⟨p, hmoves⟩ := State.codesOut_moves (part := part) hc hq hd hb ha
  rw [State.wheelJob, hmoves] at hv
  subst hv
  refine ⟨?_, State.putPart_tile_other _, rfl, ?_, rfl, State.putPart_moved _, State.dieFree_taken (s := u) pos rfl ?_ ?_⟩
  · rw [State.putPart_mem, State.takeDie_tile, State.takeDie_batchOf]
  · exact (State.takeDie_othersSame u f inst 0).trans (State.putPart_othersSame _)
  · rw [State.putPart_fold, State.takeDie_fold]
  · rw [State.putPart_fold]
/-- SCORES with its slot free and no poison in the words it reads: the scores of the rows of the batch, two frames back. -/
theorem State.wheelJob_scoresIn {o rel : Nat} (hc : (u.fold f).cohort 2 = some c) (hd : u.dieFree f inst pos 1 = true)
    (ho : o < l.outputCount) (hat : Config.scoresAt l.bundleDigest (((u.fold f).mapEntry.map (·.id)).getD 0) c.frame b o = (rel, a))
    (htile : (u.foldCfg f).tiles[rel]? = some tile) (hclean : touched (u.tile tile).poison [(a % (2 ^ 20 - 1536), 1536)] = []) {v : State}
    (hv : v = u.wheelJob f l inst pos (.scoresIn b o)) : storesSame u v ∧ othersSame f u v ∧ v.cfg = u.cfg ∧
    (v.fold f).pipe = (u.fold f).pipe.map (Cohort.withScores c.frame b o ((u.tile tile).scoreAt (a % (2 ^ 20 - 1536)))) := by
  have hmap : ((u.takeDie f inst 1).fold f).mapEntry = (u.fold f).mapEntry := by rw [State.takeDie_fold]; rfl
  have hread := State.readScores_clean (s := u.takeDie f inst 1) (f := f) (hmap ▸ hat) htile hclean
  rw [State.wheelJob, State.scoresIn_reads hc hd ho, hread] at hv
  subst hv
  refine ⟨⟨rfl, rfl, rfl⟩, fun g hg => ?_, rfl, ?_⟩
  · rw [State.modFold_other _ _ _ _ hg, State.takeDie_othersSame u f inst 1 g hg]
  · rw [State.modFold_same, State.takeDie_fold]
    rfl
end

/-- Settles O55: the position by its owner, the owner's job by its kind, CODES and SCORES by whether the slot carries them. -/
theorem wheelPositionsWorkForTheirOwner : Obligations.WheelPositionsWorkForTheirOwner := by
  intro t w inst pos job s u hu
  refine ⟨fun h => ?idle, fun f l hruns => ?_⟩
  case idle =>
    rcases h with h | ⟨f, ho, h⟩
    · exact exec_rootWheelPosition_free hu h
    · exact exec_rootWheelPosition_stands hu ho h
  have hexec := exec_rootWheelPosition_runs hu hruns
  have hothers : othersSame f s u := hu ▸ othersSame_tick s t f
  have hstores : storesSame s u := hu ▸ storesSame_tick s t
  have hhbms : u.hbms = s.hbms := by rw [← hu]; simp
  have htile : ∀ d, u.tile d = s.tile d := fun d => by rw [← hu]; simp
  have hcfg : u.cfg = s.cfg := by rw [← hu]; simp
  refine ⟨fun leaf hj => ?bin, fun leaf hj => ?hash, fun b tile part acts c hj hc => ⟨fun h => ?codesIdle, fun a hq hd hb ha => ?codes⟩,
    fun b o c rel a tile hj hc hat htile => ⟨fun h => ?scoresIdle, fun hd ho hclean => ?scores⟩, fun leaf hj => ?tag, fun leaf hj => ?encrypt,
    fun hj => ?fetch⟩ <;> subst hj
  case bin | tag | encrypt | fetch => exact hexec
  case hash =>
    obtain ⟨hst, hot, hmark⟩ := State.wheelJob_hashIn u f l inst pos leaf
    exact ⟨_, hexec, hstores.trans hst, hothers.trans hot, fun _ _ _ => hmark⟩
  case codesIdle => exact hexec.trans (congrArg Host.Outcome.next (State.codesOut_idle hc h))
  case codes =>
    obtain ⟨hmem, hrest, hstacks, hot, hset, hmoved, htaken⟩ := State.wheelJob_codesOut hc hq hd hb ha rfl
    exact ⟨_, hexec, htile tile ▸ hmem, fun d hne => (hrest d hne).trans (htile d), hstacks.trans hhbms, hothers.trans hot,
      hset.trans hcfg, hmoved, htaken⟩
  case scoresIdle => exact hexec.trans (congrArg Host.Outcome.next (State.scoresIn_idle hc h))
  case scores =>
    obtain ⟨hst, hot, hset, hpipe⟩ := State.wheelJob_scoresIn hc hd ho hat htile hclean rfl
    exact ⟨_, hexec, hstores.trans hst, hothers.trans hot, hset.trans hcfg, hpipe⟩

end Sys2Proof.Machine
end

section
/-! PROOFS. GRADIENT_BARRIER at a SCALE_MISS and RESHARD do not leave every other Fold as before: the page that they seal wakes the journal
of the evidence card, which then takes the next object of any Fold (09, R249; 16, R450). -/

namespace Sys2Proof.Machine

/-! ## The next page of the journal (16, The journal) -/

/-- The next object of the journal is the certificate chain of Fold 0: it is free, no batch of sealed events waits, and Fold 0 exports to
the evidence card, which has not had the chain (09, R249). -/
def State.journalAwaitsChain (s : State) : Prop :=
  s.sd.phase = 0 ∧ s.sd.flight = none ∧ s.sd.staged = none ∧ s.sd.chunks = [] ∧ s.sd.batchDue = false ∧ s.batchWaiting = [] ∧
  (s.fold 0).load.isSome = true ∧ (s.foldCfg 0).dests.getLsbD 2 = true ∧ (s.fold 0).led.certSent[2]? = some false
/-- The journal has taken the certificate chain of Fold 0. -/
def State.chainTaken (s : State) : Prop := (s.fold 0).led.certSent[2]? = some true

theorem allFolds_findSome_first {β : Type} {g : FoldId → Option β} {y : β} (h : g 0 = some y) : allFolds.findSome? g = some y := by
  rw [show allFolds = 0 :: (List.finRange 15).map Fin.succ from List.finRange_succ, List.findSome?_cons, h]
theorem State.foldObject_chain {s : State} (h : s.journalAwaitsChain) : ∃ cs x, s.foldObject 0 = some (cs, x) ∧
    x.led.certSent[2]? = some true := by
  obtain ⟨-, -, -, -, -, -, hload, hdest, hcert⟩ := h
  obtain ⟨l, hl⟩ := Option.isSome_iff_exists.mp hload
  refine ⟨_, _, by simp only [State.foldObject, hl, hdest, List.getD, hcert]; rfl, ?_⟩
  obtain ⟨hlen, -⟩ := List.getElem?_eq_some_iff.mp hcert
  simp [hlen]
theorem State.choosePage_chainTaken {s : State} (h : s.journalAwaitsChain) : s.choosePage.chainTaken := by
  obtain ⟨cs, x, hobj, hcert⟩ := State.foldObject_chain h
  obtain ⟨-, -, hstaged, hchunks, hbatch, hwaiting, -⟩ := h
  have hfirst := allFolds_findSome_first (g := fun f => (s.foldObject f).map fun o => (f, o)) (by rw [hobj]; rfl)
  have hready : s.batchReady = false := by rw [State.batchReady, hwaiting]
  simp only [State.choosePage, hstaged, hbatch, hready, hchunks, hfirst]
  cases cs <;> simpa [State.chainTaken, State.fold, State.setFold] using hcert
theorem State.sendPage_folds (s : State) : s.sendPage.folds = s.folds := by
  unfold State.sendPage State.bindLabel
  (repeat' split) <;> simp
theorem State.advanceJournal_chainTaken {s : State} (h : s.journalAwaitsChain) : s.advanceJournal.chainTaken := by
  have hchosen := State.choosePage_chainTaken h
  obtain ⟨hphase, hflight, -⟩ := h
  simp only [State.advanceJournal, hphase, hflight]
  split
  · contradiction
  · split
    · exact hchosen
    · rwa [State.chainTaken, State.fold_of_folds (State.sendPage_folds _)]

/-! ## What leaves the journal as it is -/

section
variable {s t : State} {f : FoldId}

theorem State.journalAwaitsChain_congr (hsd : t.sd = s.sd) (hev : t.batchWaiting = s.batchWaiting) (hfold : t.fold 0 = s.fold 0)
    (hcfg : t.cfg = s.cfg) : t.journalAwaitsChain ↔ s.journalAwaitsChain := by
  simp [State.journalAwaitsChain, hsd, hev, hfold, State.foldCfg, hcfg]
theorem State.journalAwaitsChain_modFold (hf : f ≠ 0) (g : Fold → Fold) : (s.modFold f g).journalAwaitsChain ↔ s.journalAwaitsChain :=
  State.journalAwaitsChain_congr (by simp) rfl (State.modFold_other _ _ _ _ hf.symm) (by simp)
theorem State.journalAwaitsChain_emitAt (stamp unit code : Nat) (fo : Bool) (d : Bytes) :
    (s.emitAt stamp unit code fo d).journalAwaitsChain ↔ s.journalAwaitsChain :=
  State.journalAwaitsChain_congr (by simp) rfl (by simp) (by simp)
theorem State.chainTaken_congr (h : t.fold 0 = s.fold 0) : t.chainTaken ↔ s.chainTaken := by simp [State.chainTaken, h]
theorem State.chainTaken_modFold (hf : f ≠ 0) (g : Fold → Fold) : (s.modFold f g).chainTaken ↔ s.chainTaken :=
  State.chainTaken_congr (State.modFold_other _ _ _ _ hf.symm)
theorem State.chainTaken_emitAt (stamp unit code : Nat) (fo : Bool) (d : Bytes) :
    (s.emitAt stamp unit code fo d).chainTaken ↔ s.chainTaken := State.chainTaken_congr (by simp)
theorem State.openPage_othersSame (n : Nat) : othersSame f s (s.openPage f n) := by
  intro g hg
  unfold State.openPage
  dsimp only
  split <;> simp [hg]

/-! ## The page of another Fold (09, R246, R247) -/

/-- Fold `f`, which is not Fold 0, holds an open Growing page that is sealed when it closes, and the seal finds the journal waiting. -/
def State.sealWakes (s : State) (f : FoldId) : Prop :=
  f ≠ 0 ∧ (s.fold f).load.isSome = true ∧ (s.fold f).led.page.map (·.growing) = some true ∧ s.power.halted = false ∧
  (s.foldCfg f).dests.getLsbD 1 = false ∧ s.journalAwaitsChain
theorem State.sealWakes_emitAt (stamp unit code : Nat) (fo : Bool) (d : Bytes) :
    (s.emitAt stamp unit code fo d).sealWakes f ↔ s.sealWakes f := by
  simp [State.sealWakes, State.journalAwaitsChain_emitAt]
theorem State.exportFile_unnamed {p : Page} {tags : Bool} (h : (s.foldCfg f).dests.getLsbD 1 = false) : s.exportFile f p tags = s := by
  rw [State.exportFile, h]
  rfl
theorem State.sealPage_chainTaken {p : OpenPage} {n : Nat} (hf : f ≠ 0) (hload : (s.fold f).load.isSome = true)
    (hpower : s.power.halted = false) (hfile : (s.foldCfg f).dests.getLsbD 1 = false) (h : s.journalAwaitsChain) :
    (s.sealPage f p n).chainTaken := by
  obtain ⟨l, hl⟩ := Option.isSome_iff_exists.mp hload
  simp only [State.sealPage, hl, hpower]
  refine State.advanceJournal_chainTaken ?_
  rw [State.exportFile_unnamed (by simpa using hfile)]
  exact (State.journalAwaitsChain_modFold hf _).mpr h
/-- Where an earlier page still waits for its seal, that one is sealed; one page is sealed in either case. -/
theorem State.closeAndSeal_chainTaken (h : s.sealWakes f) (n m : Nat) (final : Bool) :
    ((s.closePage f n final).sealClosing f m).chainTaken := by
  obtain ⟨hf, hload, hopen, hpower, hfile, hjournal⟩ := h
  obtain ⟨p, hpage, -⟩ := Option.map_eq_some_iff.mp hopen
  simp only [State.closePage, hpage, State.sealClosing, State.modFold_same]
  split
  case h_1 hnone => simp at hnone
  case h_2 =>
    rw [State.chainTaken_modFold hf]
    exact State.sealPage_chainTaken hf (by simpa using hload) (by simpa using hpower) (by simpa using hfile)
      ((State.journalAwaitsChain_modFold hf _).mpr hjournal)
theorem State.endPage_chainTaken (h : s.sealWakes f) (n : Nat) (final : Bool) : (s.endPage f n final).chainTaken := by
  obtain ⟨-, -, hopen, -⟩ := id h
  obtain ⟨p, hpage, hgrowing⟩ := Option.map_eq_some_iff.mp hopen
  simp only [State.endPage, hpage, hgrowing]
  exact State.closeAndSeal_chainTaken h _ _ _
/-- The open page of Fold `f` is one that `sealWakes` names, and closes when the attempt in progress ends: the attempt's entries would take
it past 4,096, the last frame is not its first, and a slot for the next page is free (09, R246). -/
def State.splitWakes (s : State) (f : FoldId) : Prop :=
  s.sealWakes f ∧ ((s.fold f).led.page.all fun p => decide (p.first < (s.fold f).run.opened - 1) && (s.fold f).entriesOver p 0) = true ∧
  0 < s.freeSlots f
theorem State.splitWakes_emitAt (stamp unit code : Nat) (fo : Bool) (d : Bytes) :
    (s.emitAt stamp unit code fo d).splitWakes f ↔ s.splitWakes f := by
  simp [State.splitWakes, State.sealWakes_emitAt, State.freeSlots]
theorem State.endAttempt_chainTaken (h : s.splitWakes f) : (s.endAttempt f ((s.fold f).run.opened - 1)).chainTaken := by
  obtain ⟨hseal, hover, hfree⟩ := h
  obtain ⟨hf, -, hopen, -⟩ := id hseal
  obtain ⟨p, hpage, hgrowing⟩ := Option.map_eq_some_iff.mp hopen
  obtain ⟨hfirst, hentries⟩ : p.first < (s.fold f).run.opened - 1 ∧ (s.fold f).entriesOver p 0 = true := by simpa [hpage] using hover
  rw [State.endAttempt, State.appendAll, State.chainTaken_modFold hf]
  simp only [State.splitPage, hpage, hgrowing, hfirst, hentries, hfree]
  exact (State.chainTaken_congr (State.openPage_othersSame _ 0 hf.symm)).mpr (State.closeAndSeal_chainTaken hseal _ _ _)
theorem Ledger.append_growing (l : Ledger) (frame : Nat) (e : Bytes) :
    (l.append frame e).page.map (·.growing) = l.page.map (·.growing) := by
  unfold Ledger.append Ledger.modPage
  split
  · rfl
  · cases l.page <;> rfl
theorem State.sealWakes_append (frame : Nat) (e : Bytes) (h : s.sealWakes f) : (s.appendAll f frame [e]).sealWakes f := by
  obtain ⟨hf, hload, hopen, hpower, hfile, hjournal⟩ := h
  refine ⟨hf, ?_, ?_, ?_, ?_, (State.journalAwaitsChain_modFold hf _).mpr hjournal⟩
  · simpa [State.appendAll] using hload
  · simpa [State.appendAll, Ledger.append_growing] using hopen
  · simpa [State.appendAll] using hpower
  · simpa [State.appendAll] using hfile

/-! ## The gradient step that runs again (04, R97) -/

theorem State.rerunGradient_chainTaken {cause : Nat} (h : s.splitWakes f) : (s.rerunGradient f cause).chainTaken := by
  obtain ⟨⟨hf, -⟩, -⟩ := id h
  rw [State.rerunGradient, State.chainTaken_modFold hf]
  simpa using State.endAttempt_chainTaken ((State.splitWakes_emitAt (s.fold f).boundaryTick (unitFold f) 0x0406 false
    (le 4 (s.fold f).grow.round ++ le 2 cause)).mpr h)
theorem State.judgeGradient_chainTaken (hmiss : (s.fold f).grow.miss.isSome = true) (h : s.splitWakes f) :
    (s.judgeGradient f).chainTaken := by
  obtain ⟨b, hb⟩ := Option.isSome_iff_exists.mp hmiss
  simp only [State.judgeGradient, hb, Option.isSome_some, Bool.true_or, if_true]
  have hmissed := (State.splitWakes_emitAt (s.fold f).boundaryTick (unitFold f) 0x0401 false (le 4 (s.fold f).grow.round ++ le 8 b)).mpr h
  refine State.rerunGradient_chainTaken ?_
  split
  · exact (State.splitWakes_emitAt _ _ _ _ _).mpr hmissed
  · exact hmissed
theorem exec_gradientBarrier_closing {t : Nat} {p : List GradReport} {r : GradReport} {l : List (Nat × GradReport)} {u : State}
    (hu : s.tick t = u) (hpower : u.power.halted = false) (hlive : (u.fold f).live = true) (hidle : (u.fold f).run.idle = false)
    (hb : atGrowBoundary u f)
    (hrole : (u.fold f).run.role = 7) (hpos : (u.fold f).run.pos = 0) (hstep : (u.fold f).grow.step = 0) (hcls : (u.fold f).grow.cls = 0)
    (hdone : (u.fold f).grow.barrierDone = false)
    (hex : u.exchange f mergeGrad (·.card) ((u.fold f).grow.report u.card true) p = some (r, l)) :
    exec (.gradientBarrier t f p) s = .next ((((u.sendAll f Exchanged.grad l).clearExact f).modFold f fun y =>
      { y with grow := ((u.fold f).grow.absorb true r).closeHead ((u.fold f).job.kind == 2) }).judgeGradient f) := by
  have hgrows : (u.fold f).growingNow = true := (Bool.and_eq_true_iff.mp hb).2
  show execGradientBarrier t f p s = _
  simp only [execGradientBarrier, hu]
  rw [if_neg (by simp [hpower, hlive, hgrows, hidle])]
  rw [atGrowBoundary] at hb
  simp [hb, hrole, hpos, hstep, hcls, hdone, hex]

/-! ## RESHARD (07, R186) -/

theorem exec_reshard_chainTaken {t : Nat} {u : State} (hu : s.tick t = u) (hb : atGrowBoundary u f) (hrole : (u.fold f).run.role = 21)
    (hpos : (u.fold f).segLen 21 ≤ (u.fold f).run.pos) (hstop : (u.fold f).stoppedAt (u.fold f).run.opened = false) (h : u.sealWakes f) :
    ∃ w, exec (.reshard t f) s = .next w ∧ w.chainTaken := by
  obtain ⟨hf, hload, -⟩ := id h
  obtain ⟨l, hl⟩ := Option.isSome_iff_exists.mp hload
  rw [atGrowBoundary] at hb
  refine ⟨_, by
    show execReshard t f s = _
    simp only [execReshard, hu, hl]
    rw [if_neg (by simp [hb, hrole, hpos, hstop])], ?_⟩
  rw [State.chainTaken_emitAt, State.startScoring, State.chainTaken_modFold hf, State.chainTaken_modFold hf]
  exact State.endPage_chainTaken (State.sealWakes_append _ _ h) _ _
end

/-! ## The card of the two refutations -/

/-- A Growing bundle at OP-A and 10,000 counts whose job has some number of outputs, without tables, slots or mappings. -/
def bareBundle (outputs : Nat) : Loaded := ⟨[1], [2], [3], [4], [5], .opA, 10000, true, true, false, 0, false, 1, [],
  some { Job.zero with outputs := outputs }, [], 0, ⟨[], [], 0, 0, 0, 0, false, 0, 0, []⟩, [], [], [], [], 0, 0⟩
/-- A running Fold with that bundle after its second frame, in a role, with an open page that started at frame 0. -/
def secondFold (role : Nat) (outputs : Nat) (entries : List Bytes) (g : Grow) : Fold :=
  { Fold.dflt with
    st := .running, load := some (bareBundle outputs), grow := g
    run := { Run.dflt with launchAt := 1990000, cutoffOk := true, started := true, opened := 2, role := role }
    led := { Ledger.dflt with nextSeq := 1, page := some ⟨0, 0, 1990000, true, [], entries, [], [], none, false⟩ } }
/-- The card at the tick that opens frame 2 of its Fold 1, which is `x`; its Fold 0 is loaded and exports to the evidence card alone. -/
def twoFolds (x : Fold) : State :=
  { State.reset with
    clock := { Clock.dflt with gtc := 2010000, running := true }
    power := { Power.dflt with main := true, booted := true, ready := true }
    folds := vset (vset State.reset.folds 0 { Fold.dflt with st := .loaded, load := some (bareBundle 1) }) 1 x
    cfg := { Settings.dflt with folds := vset Settings.dflt.folds 0 { FoldCfg.dflt with dests := 4 } } }
theorem twoFolds_not_chainTaken (x : Fold) : ¬ (twoFolds x).chainTaken := by
  simp [State.chainTaken, twoFolds, State.fold, Fold.dflt, Ledger.dflt]
/-- The other Fold's chain going out is no part of a frame in which every other Fold is as before. -/
theorem othersSame_not_chainTaken {x : Fold} {w : State} (h : othersSame 1 (twoFolds x) w) : ¬ w.chainTaken := fun hw =>
  twoFolds_not_chainTaken x ((State.chainTaken_congr (h 0 (by decide))).mp hw)

/-- Fold 1 behind a gradient step with a SCALE_MISS in block 3, its page holding the entries of an earlier attempt: 2,049 outputs each. -/
def missed : Fold := secondFold 7 2049 (List.replicate 2049 []) { Grow.dflt with miss := some 3 }

/-- Refutes O44: at a SCALE_MISS the gradient step of Fold 1 runs again, the entries of the attempt close and seal the page that they would
overfill, and the journal, which is free, takes the certificate chain of Fold 0, so that Fold 0 is not as before. -/
theorem not_levelStepsStartAndClose : ¬ Obligations.LevelStepsStartAndClose := by
  unfold Obligations.LevelStepsStartAndClose
  rintro ⟨-, hbarrier, -⟩
  have hb : atGrowBoundary ((twoFolds missed).tick 2010000) 1 := by unfold atGrowBoundary; decide
  have hex : ((twoFolds missed).tick 2010000).exchange 1 mergeGrad (·.card)
      (missed.grow.report ((twoFolds missed).tick 2010000).card true) [] =
    some (missed.grow.report ((twoFolds missed).tick 2010000).card true, []) := rfl
  obtain ⟨-, hclosing⟩ := hbarrier 2010000 1 [] [] _ true (twoFolds missed) _ _ _ _ rfl rfl (by decide) (by decide) (by decide) (by decide)
    hex rfl rfl
  obtain ⟨-, -, hmissed⟩ := hclosing rfl hb (by decide) (by decide) (by decide) (by decide) (by decide)
  obtain ⟨w, hw, -, -, -, -, -, -, -, hothers, -⟩ := hmissed (.inl (by decide))
  have hexec := exec_gradientBarrier_closing (f := 1) (s := twoFolds missed) rfl (by decide) (by decide) (by decide) hb (by decide)
    (by decide) (by decide) (by decide) (by decide) hex
  obtain rfl := Host.Outcome.next.inj (hexec.symm.trans hw)
  exact othersSame_not_chainTaken hothers (State.judgeGradient_chainTaken (by decide +kernel) (by
    unfold State.splitWakes State.sealWakes State.journalAwaitsChain; decide +kernel))

/-- Refutes O45: RESHARD seals the open page of Fold 1, and the journal, which is free, takes the certificate chain of Fold 0 and marks it
as taken, so that Fold 0 is not as before. -/
theorem not_roundsIngestAndReshardEnd : ¬ Obligations.RoundsIngestAndReshardEnd := by
  unfold Obligations.RoundsIngestAndReshardEnd
  rintro ⟨-, -, -, hreshard⟩
  have hb : atGrowBoundary ((twoFolds (secondFold 21 1 [] Grow.dflt)).tick 2010000) 1 := by unfold atGrowBoundary; decide
  obtain ⟨w, hw, -, -, -, -, -, -, -, hothers, -⟩ := hreshard 2010000 1 _ (twoFolds (secondFold 21 1 [] Grow.dflt)) _ _ rfl rfl rfl hb
    (by decide) (by decide) (by decide)
  obtain ⟨v, hv, htaken⟩ := exec_reshard_chainTaken rfl hb (by decide) (by decide) (by decide)
    (by unfold State.sealWakes State.journalAwaitsChain; decide)
  cases hw.symm.trans hv
  exact othersSame_not_chainTaken hothers htaken

end Sys2Proof.Machine
end

section
/-! PROOFS. Which operations leave the stacks alone: what a tile or a frame that faults reports and how its Fold is taken down (09, Table
9.1; 14, Table 14.6). -/

namespace Sys2Proof.Machine

@[simp] theorem foldl_hbms {α : Type} (op : State → α → State) (l : List α) (s : State) (h : ∀ s a, (op s a).hbms = s.hbms) :
    (l.foldl op s).hbms = s.hbms := foldl_view State.hbms op h l s

section
variable (s : State)

/-! ## The journal and the file store (12, 16) -/

@[simp] theorem State.choosePage_hbms : s.choosePage.hbms = s.hbms := by
  unfold State.choosePage
  dsimp only
  (repeat' split) <;> rfl
@[simp] theorem State.bindLabel_hbms : s.bindLabel.hbms = s.hbms := by
  unfold State.bindLabel
  (repeat' split) <;> simp
@[simp] theorem State.sendPage_hbms : s.sendPage.hbms = s.hbms := by
  unfold State.sendPage
  split <;> simp
@[simp] theorem State.advanceJournal_hbms : s.advanceJournal.hbms = s.hbms := by
  unfold State.advanceJournal
  dsimp only
  (repeat' split) <;> simp
@[simp] theorem State.fileQueue_hbms (f : FoldId) (cs : List FileCmd) : (s.fileQueue f cs).hbms = s.hbms := by
  simp only [State.fileQueue, State.filePump, State.fileTake]
  rw [foldl_hbms]
  · simp
  · intro v c
    unfold State.fileIssue State.fileSend State.fileConnect
    split <;> simp

/-! ## Pages (09) -/

@[simp] theorem State.exportFile_hbms (f : FoldId) (p : Page) (tags : Bool) : (s.exportFile f p tags).hbms = s.hbms := by
  unfold State.exportFile
  dsimp only
  split <;> simp
@[simp] theorem State.sealPage_hbms (f : FoldId) (p : OpenPage) (n : Nat) : (s.sealPage f p n).hbms = s.hbms := by
  unfold State.sealPage
  dsimp only
  (repeat' split) <;> simp
@[simp] theorem State.sealClosing_hbms (f : FoldId) (n : Nat) : (s.sealClosing f n).hbms = s.hbms := by
  unfold State.sealClosing
  split <;> simp
@[simp] theorem State.closePage_hbms (f : FoldId) (n : Nat) (final : Bool) : (s.closePage f n final).hbms = s.hbms := by
  unfold State.closePage
  split <;> rfl
@[simp] theorem State.openPage_hbms (f : FoldId) (n : Nat) : (s.openPage f n).hbms = s.hbms := by
  unfold State.openPage
  dsimp only
  split <;> rfl
@[simp] theorem State.enterCohort_hbms (f : FoldId) (c : Cohort) (d : Bool) : (s.enterCohort f c d).hbms = s.hbms := by
  unfold State.enterCohort State.sealBefore
  (repeat' split) <;> simp
@[simp] theorem State.cutAttempt_hbms (f : FoldId) (n : Nat) : (s.cutAttempt f n).hbms = s.hbms := by
  unfold State.cutAttempt State.endAttempt State.appendAll State.splitPage
  dsimp only
  (repeat' split) <;> simp

/-! ## What a Fold held when it faults (09, Table 9.1) -/

@[simp] theorem State.dropResults_hbms (f : FoldId) (status : Nat) (p : Result → Bool) : (s.dropResults f status p).hbms = s.hbms := by
  unfold State.dropResults
  dsimp only
  rw [foldl_hbms]
  · simp
  · intro v r
    unfold dropResult
    split <;> simp [State.postRecord]
@[simp] theorem State.dropCohort_hbms (f : FoldId) (status : Nat) (c : Cohort) : (s.dropCohort f status c).hbms = s.hbms :=
  foldl_hbms _ _ _ fun s r => by split <;> simp [State.postRecord]
@[simp] theorem State.endRun_hbms (f : FoldId) : (s.endRun f).hbms = s.hbms := by
  simp [State.endRun, State.finalPage, State.dropReads, State.postRecord]
@[simp] theorem State.faultFold_hbms (f : FoldId) (cause frame : Nat) : (s.faultFold f cause frame).hbms = s.hbms := by
  simp [State.faultFold, State.recountCredits, State.endCohorts, State.zeroChans]

/-! ## Quarantine and reports (14, R410, Table 14.6) -/

@[simp] theorem State.tryPropose_hbms : s.tryPropose.hbms = s.hbms := by
  unfold State.tryPropose
  dsimp only
  (repeat' split) <;> simp
@[simp] theorem State.requestEpoch_hbms (unit : Nat) : (s.requestEpoch unit).hbms = s.hbms := by
  unfold State.requestEpoch
  split <;> simp
@[simp] theorem State.countFault_hbms (q : QuadId) (code stamp : Nat) : (s.countFault q code stamp).hbms = s.hbms := by
  unfold State.countFault State.quarantine State.dropQuad
  dsimp only
  split
  · simp only [State.updateLevel_frame]
    rw [foldl_hbms]
    · simp
    · intro v f
      split <;> simp
  · simp
@[simp] theorem State.frameFault_hbms (f : FoldId) (code : Nat) : (s.frameFault f code).hbms = s.hbms := by
  unfold State.frameFault State.stepFault State.markReplay State.causeFrame
  dsimp only
  (repeat' split) <;> simp
@[simp] theorem State.tileFault_hbms (f : FoldId) (tile code : Nat) (info : Bytes) : (s.tileFault f tile code info).hbms = s.hbms := by
  simp [State.tileFault]
end

end Sys2Proof.Machine
end

section
/-! PROOFS. HBM_SLOT (08, R194, R200 to R202): what a slot is taken for, what a read slot, a write slot and a remote slot leave in tiles, landing
SRAM and stacks. -/

namespace Sys2Proof.Machine

/-! ## A tile with an armed stream -/

/-- The empty tile has no stream. -/
theorem Tile.ne_dflt_of_streams {x : Tile} (h : x.streams ≠ []) : x ≠ Tile.dflt := fun hx => h (by rw [hx]; rfl)
/-- A tile whose stream has spent a credit is not the empty tile. -/
theorem Tile.putStream_ne_dflt {x z : Tile} {i : Nat} {y : Stream} (hy : x.streams[i]? = some y) (hz : z.streams = x.streams) (w : Stream) :
    z.putStream i w ≠ Tile.dflt := by
  refine Tile.ne_dflt_of_streams fun hnil => ?_
  have hx : x.streams = [] := by simpa [Tile.putStream, hz] using hnil
  simp [hx] at hy

/-! ## Landing SRAM -/

/-- The pieces of a slot's bytes written one after the other to landing SRAM (05, R128; log entry 63). -/
def State.landPieces (s : State) (ps : List (Nat × Nat × Nat)) (b : Bytes) : State :=
  ps.foldl (fun v p => v.writeLanding (p.1 - 2 ^ 20) (slice b p.2.1 p.2.2)) s
/-- Nothing but landing SRAM changes. -/
theorem State.landPieces_rest (s : State) (ps : List (Nat × Nat × Nat)) (b : Bytes) :
    s.landPieces ps b = { s with power := (s.landPieces ps b).power } := by
  unfold State.landPieces
  induction ps generalizing s with
  | nil => rfl
  | cons p ps ih => rw [List.foldl_cons, ih]; rfl
/-- Landing SRAM holds each piece at its place of the ring. -/
theorem State.landPieces_landing (s : State) (ps : List (Nat × Nat × Nat)) (b : Bytes) :
    (s.landPieces ps b).power.landing = ps.foldl (fun z p => mwrite z (p.1 - 2 ^ 20) (slice b p.2.1 p.2.2)) s.power.landing :=
  (List.foldl_hom (fun v : State => v.power.landing) fun _ _ => rfl).symm
@[simp] theorem State.landPieces_frame (s : State) (ps : List (Nat × Nat × Nat)) (b : Bytes) :
    (s.landPieces ps b).folds = s.folds ∧ (s.landPieces ps b).tiles = s.tiles ∧ (s.landPieces ps b).hbms = s.hbms ∧
    (s.landPieces ps b).cfg = s.cfg ∧ (s.landPieces ps b).out = s.out ∧ (∀ h, (s.landPieces ps b).hbm h = s.hbm h) ∧
    (∀ g, (s.landPieces ps b).fold g = s.fold g) ∧ (∀ d, (s.landPieces ps b).tile d = s.tile d) := by
  rw [State.landPieces_rest]
  exact ⟨rfl, rfl, rfl, rfl, rfl, fun _ => rfl, fun _ => rfl, fun _ => rfl⟩

/-! ## A read slot -/

/-- Bytes that a read slot takes: those of the model-store member at the Fold's address, or the stack's own (08, R194, R215). -/
def State.slotData (s : State) (f : FoldId) (k : StackId) (lo a n : Nat) : Bytes := match Config.modelMember f.val k.val lo with
  | some e => slice (padTo 2048 (mget [] (s.fold f).store.members e)) (lo % 2048) n
  | none => mread (s.hbm k).mem a n

@[simp] theorem Stream.spend_desc (y : Stream) (cyc : Nat) (back : List Nat) : (y.spend cyc back).desc = y.desc := rfl
/-- A source that reads still reads once tiles, landing SRAM and the stack's counters have changed. -/
theorem State.readable_after {s v : State} {f : FoldId} {k : StackId} {m : Option Nat} (hm : s.unreadable f k m = false)
    (hhbm : v.hbm k = s.hbm k) (hfold : v.fold f = s.fold f) (tile : Nat) (z : Tile) {g : Stack → Stack} (hg : ∀ h, (g h).lost = h.lost) :
    (!((v.setTile tile z).modHbm k g).unreadable f k m) = true := by
  simpa [State.unreadable, hhbm, hfold, hg] using hm

section
variable {s : State} {f : FoldId} {l : Loaded} {k : StackId} {j tile i lo a : Nat} {y : Stream} (hlost : (s.hbm k).lost = false)
  (hreadable : s.unreadable f k (Config.modelMember f.val k.val lo) = false) (hpoison : (s.hbm k).poisonIn a y.part.2 = [])
  (hy : (s.tile tile).streams[i]? = some y)
include hlost hreadable hpoison hy

/-- A clean read to a ring in the tile store writes the tile and the stack's counters. -/
theorem State.readSlot_toTile (hring : ringInLanding y.desc = false) :
    ∃ (z : Tile) (g : Stack → Stack), z ≠ Tile.dflt ∧ (∀ h, (g h).mem = h.mem) ∧
      z.mem = y.pieces.foldl (fun w p => mwrite w p.1 (slice (s.slotData f k lo a y.part.2) p.2.1 p.2.2)) (s.tile tile).mem ∧
      s.readSlot f l k j tile i lo a y = (s.setTile tile z).modHbm k g := by
  unfold State.readSlot
  simp only [hlost, hring, hpoison, Stream.spend_desc, Bool.false_eq_true, if_false, List.isEmpty_nil, Bool.true_and]
  refine ⟨_, _, ?_, ?_, ?_, if_pos (State.readable_after hreadable rfl rfl tile _ ?_)⟩
  · exact Tile.putStream_ne_dflt hy (by rfl) _
  · exact fun h => rfl
  · rfl
  · exact fun h => rfl

/-- A clean read to a ring in landing SRAM writes the SRAM, the tile's stream and the stack's counters. -/
theorem State.readSlot_toLanding (hring : ringInLanding y.desc = true) :
    ∃ (z : Tile) (g : Stack → Stack), z ≠ Tile.dflt ∧ (∀ h, (g h).mem = h.mem) ∧ z.mem = (s.tile tile).mem ∧
      s.readSlot f l k j tile i lo a y =
        ((s.landPieces y.pieces (s.slotData f k lo a y.part.2)).setTile tile z).modHbm k g := by
  unfold State.readSlot
  simp only [hlost, hring, hpoison, Stream.spend_desc, Bool.false_eq_true, if_false, if_true, List.isEmpty_nil, Bool.true_and]
  refine ⟨_, _, ?_, ?_, ?_, if_pos (State.readable_after (v := s.landPieces y.pieces (s.slotData f k lo a y.part.2)) hreadable
    (by simp) (by simp) tile _ ?_)⟩
  · exact Tile.putStream_ne_dflt hy (by rfl) _
  · exact fun h => rfl
  · rfl
  · exact fun h => rfl
end

/-! ## A write to a stack -/

theorem State.modHbm_write_mem (s : State) (k : StackId) (a : Nat) (b : Bytes) (bad : List Nat) :
    ((s.modHbm k fun h => h.write a b bad).hbm k).mem = mwrite (s.hbm k).mem a b := by
  rw [State.modHbm_same]
  rfl
/-- Of the tiles and the bytes of the stacks, a write to a stack changes what is written, whatever it meets there. -/
theorem State.writeHbm_memory (s : State) (f : FoldId) (k : StackId) (tile a : Nat) (b : Bytes) (bad : List Nat) :
    (s.writeHbm f k tile a b bad).memory = (s.modHbm k fun h => h.write a b bad).memory := by
  unfold State.writeHbm
  dsimp only
  split <;> simp

/-- What a slot that writes bytes to a stack leaves: the bytes at the stack's address, every other byte of every stack, every store of a tile
and the configuration as they were. -/
def storedAt (s w : State) (k : StackId) (a : Nat) (b : Bytes) : Prop :=
  (w.hbm k).mem = mwrite (s.hbm k).mem a b ∧ (∀ h, h ≠ k → (w.hbm h).mem = (s.hbm h).mem) ∧ (∀ d, (w.tile d).mem = (s.tile d).mem) ∧
  w.cfg = s.cfg

/-- A write to a stack, after which the tiles and stacks are those of `s` but for the stream of a tile. -/
theorem State.writeHbm_stored {s v : State} {tile : Nat} {z : Tile} (hv : v.memory = (s.setTile tile z).memory) (hcfg : v.cfg = s.cfg)
    (hz : z ≠ Tile.dflt) (hmem : z.mem = (s.tile tile).mem) (f : FoldId) (k : StackId) (a : Nat) (b : Bytes) (bad : List Nat) :
    storedAt s (v.writeHbm f k tile a b bad) k a b := by
  have hw := v.writeHbm_memory f k tile a b bad
  have hstack := fun h => State.hbm_mem_of_memory hv h
  refine ⟨?_, fun h hh => ?_, fun d => ?_, by simp [hcfg]⟩
  · rw [State.hbm_mem_of_memory hw, State.modHbm_write_mem, hstack]
    rfl
  · rw [State.hbm_mem_of_memory hw, State.modHbm_other _ _ _ _ hh, hstack]
    rfl
  · rw [State.tile_of_memory hw]
    show (v.tile d).mem = _
    rw [State.tile_of_memory hv, s.setTile_store_kept hz hmem]

/-! ## A write slot and a remote slot -/

/-- Bytes of a stream's ring that a write slot sends (08, R194; log entry 63). -/
def State.ringBytes (s : State) (tile : Nat) (y : Stream) : Bytes := y.pieces.flatMap fun p =>
  if ringInLanding y.desc = true then mread s.power.landing (p.1 - 2 ^ 20) p.2.2 else mread (s.tile tile).mem p.1 p.2.2

/-- The first poisoned word of a ring is reported as a fault of its tile (14, R399). -/
def State.reportPoison (s : State) (f : FoldId) (tile : Nat) (ws : List Nat) : State := match ws with
  | [] => s
  | w :: _ => s.tileFault f tile 0x0304 (le 7 (8 * w))
section
variable (s : State) (f : FoldId) (tile : Nat) (ws : List Nat)
@[simp] theorem State.reportPoison_hbms : (s.reportPoison f tile ws).hbms = s.hbms := by cases ws <;> simp [State.reportPoison]
@[simp] theorem State.reportPoison_cfg : (s.reportPoison f tile ws).cfg = s.cfg := by cases ws <;> simp [State.reportPoison]
@[simp] theorem State.reportPoison_memory : (s.reportPoison f tile ws).memory = s.memory := by cases ws <;> simp [State.reportPoison]
end

/-- Tile of a write slot once the slot has read the ring and spent the stream's credit (08, R201). -/
def State.sendingTile (s : State) (l : Loaded) (j tile i : Nat) (y : Stream) : Tile :=
  ({ s.tile tile with ports := (s.tile tile).ports ++
      if ringInLanding y.desc then [] else slotPorts (cycleOf75 l.op (128 * j) + 3) (y.pieces.map fun p => (p.1, p.2.2)) } : Tile).putStream i
    (y.spend (cycleOf75 l.op (128 * j)) [cycleOf75 l.op (128 * (j + 1))])
/-- Poisoned words of a ring in the tile store. -/
def State.ringPoison (s : State) (tile : Nat) (y : Stream) : List Nat :=
  if ringInLanding y.desc then [] else touched (s.tile tile).poison (y.pieces.map fun p => (p.1, p.2.2))
/-- A write slot writes the tile's stream, reports poison in the ring and, on a healthy stack, writes the ring's bytes. -/
theorem State.writeSlot_steps (s : State) (f : FoldId) (l : Loaded) (k : StackId) (j tile i a : Nat) (y : Stream) :
    s.writeSlot f l k j tile i a y =
      if (((s.setTile tile (s.sendingTile l j tile i y)).reportPoison f tile (s.ringPoison tile y)).hbm k).lost then
        ((s.setTile tile (s.sendingTile l j tile i y)).reportPoison f tile (s.ringPoison tile y)).frameFault f 0x0505
      else ((s.setTile tile (s.sendingTile l j tile i y)).reportPoison f tile (s.ringPoison tile y)).writeHbm f k tile a
        (s.ringBytes tile y) (sentPoison a (s.ringPoison tile y) y.pieces) := by
  unfold State.writeSlot
  rfl

/-- A remote slot does nothing while no payload has landed under its tag. -/
theorem State.remoteSlot_waits {s : State} {y : Stream} (hb : s.payloadOf (y.desc.source % 2 ^ 32) = none) (f : FoldId) (l : Loaded)
    (k : StackId) (j tile i a : Nat) : s.remoteSlot f l k j tile i a y = s := by
  unfold State.remoteSlot
  rw [hb]

section
variable {s : State} {k : StackId} {tile i : Nat} {y : Stream} (hlost : (s.hbm k).lost = false)
  (hy : (s.tile tile).streams[i]? = some y)
include hlost hy

/-- A write slot on a healthy stack stores the ring's bytes, poisoned or not. -/
theorem State.writeSlot_stored (f : FoldId) (l : Loaded) (j a : Nat) : storedAt s (s.writeSlot f l k j tile i a y) k a (s.ringBytes tile y) := by
  rw [State.writeSlot_steps, if_neg (by simpa [State.hbm] using hlost)]
  have hz : s.sendingTile l j tile i y ≠ Tile.dflt := Tile.putStream_ne_dflt hy (by rfl) _
  exact State.writeHbm_stored (by simp) (by simp) hz rfl f k a _ _

/-- A remote slot on a healthy stack stores the payload that landed last. -/
theorem State.remoteSlot_stored {b : Bytes} (hb : s.payloadOf (y.desc.source % 2 ^ 32) = some b) (f : FoldId) (l : Loaded) (j a : Nat) :
    storedAt s (s.remoteSlot f l k j tile i a y) k a (padTo y.part.2 b) := by
  unfold State.remoteSlot
  simp only [hb]
  rw [if_neg (by simp [hlost])]
  exact State.writeHbm_stored rfl rfl (Tile.putStream_ne_dflt hy rfl _) rfl f k a _ _
end

/-! ## HBM_SLOT -/

section
variable {t : Nat} {k : StackId} {f : FoldId} {j : Nat} {s u : State} (hu : s.tick t = u)
include hu

theorem exec_hbmSlot_idle (h : u.slotRuns f j = false ∨ 256 ≤ u.inController f k j) : exec (.hbmSlot t k f j) s = .next u := by
  show execHbmSlot t k f j s = _
  simp only [execHbmSlot, hu]
  split
  · rw [if_pos (by simpa using h)]
  · rfl
theorem exec_hbmSlot_unowned {l : Loaded} {pos : Nat} (hl : (u.fold f).load = some l) (hpos : slotPosition j = some pos)
    (hkind : l.hbmKind k.val pos = none) : exec (.hbmSlot t k f j) s = .next u := by
  show execHbmSlot t k f j s = _
  simp only [execHbmSlot, hu, hl, hpos, hkind]
  split <;> rfl
theorem exec_hbmSlot_outside {l : Loaded} {pos kind tile i : Nat} {y : Stream} (hl : (u.fold f).load = some l)
    (hruns : u.slotRuns f j = true) (hroom : u.inController f k j < 256) (hpos : slotPosition j = some pos)
    (hkind : l.hbmKind k.val pos = some kind) (hstream : u.slotStream f k pos kind j (cycleOf75 l.op (128 * j)) = some (tile, i))
    (hy : (u.tile tile).streams[i]? = some y) (ha : (u.foldCfg f).hbmAddr k.val y.part.1 = none) :
    exec (.hbmSlot t k f j) s = .fault (.hbmAddress k.val y.part.1) := by
  show execHbmSlot t k f j s = _
  simp only [execHbmSlot, hu, hl, hpos, hkind, hstream, hy, ha]
  rw [if_neg (by simp [hruns, hroom])]
theorem exec_hbmSlot_moves {tile i a kind : Nat} {l : Loaded} {y : Stream} (hm : slotMoves u f k j tile i a l kind y) :
    exec (.hbmSlot t k f j) s = .next (if kind = 0 then u.readSlot f l k j tile i y.part.1 a y
      else if kind = 1 then u.writeSlot f l k j tile i a y else u.remoteSlot f l k j tile i a y) := by
  obtain ⟨hl, hruns, hroom, ⟨pos, hpos, hkind, hstream⟩, hy, ha⟩ := hm
  show execHbmSlot t k f j s = _
  simp only [execHbmSlot, hu, hl, hpos, hkind, hstream, hy, ha]
  rw [if_neg (by simp [hruns, hroom])]
  split
  · rfl
  · split <;> rfl
end

/-- What a clean read slot leaves. -/
theorem State.readSlot_moved {s : State} {f : FoldId} {k : StackId} {tile i lo a : Nat} {y : Stream} (hlost : (s.hbm k).lost = false)
    (hreadable : s.unreadable f k (Config.modelMember f.val k.val lo) = false) (hpoison : (s.hbm k).poisonIn a y.part.2 = [])
    (hy : (s.tile tile).streams[i]? = some y) (l : Loaded) (j : Nat) {w : State} (hw : w = s.readSlot f l k j tile i lo a y) :
    (∀ d, d ≠ tile → w.tile d = s.tile d) ∧ (∀ h, (w.hbm h).mem = (s.hbm h).mem) ∧ w.folds = s.folds ∧ w.cfg = s.cfg ∧ w.out = s.out ∧
    (ringInLanding y.desc = false → w.power = s.power ∧
      (w.tile tile).mem = y.pieces.foldl (fun z p => mwrite z p.1 (slice (s.slotData f k lo a y.part.2) p.2.1 p.2.2)) (s.tile tile).mem) ∧
    (ringInLanding y.desc = true → (w.tile tile).mem = (s.tile tile).mem ∧
      w.power.landing = y.pieces.foldl (fun z p => mwrite z (p.1 - 2 ^ 20) (slice (s.slotData f k lo a y.part.2) p.2.1 p.2.2)) s.power.landing) := by
  have hhbm {v : State} {z : Tile} {g : Stack → Stack} (hg : ∀ h, (g h).mem = h.mem) (hv : v.hbms = s.hbms) (h : StackId) :
      (((v.setTile tile z).modHbm k g).hbm h).mem = (s.hbm h).mem := by
    rw [State.hbm_mem_of_memory (State.modHbm_memory _ _ _ (hg _))]
    simp [State.hbm, hv]
  cases hring : ringInLanding y.desc with
  | false =>
    obtain ⟨z, g, hz, hg, hmem, hslot⟩ := State.readSlot_toTile hlost hreadable hpoison hy (l := l) (j := j) hring
    rw [hw, hslot]
    refine ⟨fun d hd => s.setTile_other z hd, hhbm hg rfl, rfl, rfl, rfl, fun _ => ⟨rfl, ?_⟩, nofun⟩
    rw [← hmem]
    exact congrArg Tile.mem (s.setTile_same tile hz)
  | true =>
    obtain ⟨z, g, hz, hg, hmem, hslot⟩ := State.readSlot_toLanding hlost hreadable hpoison hy (l := l) (j := j) hring
    rw [hw, hslot]
    refine ⟨fun d hd => (State.setTile_other _ z hd).trans (by simp), hhbm hg (by simp), by simp, by simp, by simp, nofun, fun _ => ⟨?_, ?_⟩⟩
    · rw [← hmem]
      exact congrArg Tile.mem (State.setTile_same _ tile hz)
    · exact s.landPieces_landing _ _

/-- Settles O54: the slot by whether it runs and by its position, then by the kind of its stream; a read by where its ring lies. -/
theorem slotsMoveTheirStreamsParts : Obligations.SlotsMoveTheirStreamsParts := by
  intro t k f j s u hu
  have hmem : u.memory = s.memory := hu ▸ s.tick_memory t
  have hparts : u.folds = s.folds ∧ u.cfg = s.cfg ∧ u.out = s.out ∧ u.power = s.power := by simp [← hu]
  obtain ⟨hfolds, hcfg, hout, hpower⟩ := hparts
  have htile := State.tile_of_memory hmem
  have hhbm := State.hbm_mem_of_memory hmem
  have hstored {w : State} {a : Nat} {b : Bytes} (h : storedAt u w k a b) : storedAt s w k a b := by
    simpa only [storedAt, htile, hhbm, hcfg] using h
  refine ⟨exec_hbmSlot_idle hu, fun l pos hl hpos hkind => exec_hbmSlot_unowned hu hl hpos hkind,
    fun l pos kind tile i y hl hruns hroom hpos hkind hstream hy ha => exec_hbmSlot_outside hu hl hruns hroom hpos hkind hstream hy ha,
    fun tile i a l y m b hm hlost hmember hreadable hpoison hdata => ?_, fun tile i a l y hm hlost => ?_, fun tile i a l y hm => ⟨fun hb => ?_,
      fun b hlost hb => ?_⟩⟩
  · have hexec := exec_hbmSlot_moves hu hm
    obtain ⟨-, -, -, -, hy, -⟩ := hm
    have hb : u.slotData f k y.part.1 a y.part.2 = b := by
      rw [← hdata]
      cases m <;> simp [State.slotData, hmember, hhbm, State.fold_of_folds hfolds]
    subst hmember
    have hmoved := State.readSlot_moved hlost hreadable hpoison hy l j rfl
    rw [hb] at hmoved
    simp only [htile, hhbm, hfolds, hcfg, hout, hpower] at hmoved
    exact ⟨_, hexec, hmoved⟩
  · have hexec := exec_hbmSlot_moves hu hm
    obtain ⟨-, -, -, -, hy, -⟩ := hm
    have hbytes : u.ringBytes tile y = s.ringBytes tile y := by simp [State.ringBytes, htile, hpower]
    have hw := hstored (State.writeSlot_stored hlost hy f l j a)
    rw [hbytes] at hw
    exact ⟨_, hexec, hw⟩
  · rw [exec_hbmSlot_moves hu hm, if_neg (by decide), if_neg (by decide), State.remoteSlot_waits hb]
  · have hexec := exec_hbmSlot_moves hu hm
    obtain ⟨-, -, -, -, hy, -⟩ := hm
    exact ⟨_, hexec, hstored (State.remoteSlot_stored hlost hy hb f l j a)⟩

end Sys2Proof.Machine
end

section
/-! PROOFS. LOAD_BUNDLE_DONE, RESTAGE_MODEL_DONE and RESTORE_DONE where their checks pass (19, R523; 08, R221; 12, R350). -/

namespace Sys2Proof.Machine

/-! ## The end of a background command (18, R482) -/

section
variable {s : State} {f : FoldId} {b : Background}

theorem State.bgIs_of_bg {kind : Nat} (hbg : (s.fold f).bg = some b) : s.bgIs f kind = (b.kind == kind) := by
  simp [State.bgIs, hbg]
theorem State.bg_of_bgIs {kind : Nat} (h : s.bgIs f kind = true) : ∃ b, (s.fold f).bg = some b := by
  unfold State.bgIs at h
  split at h
  · next b hb => exact ⟨b, hb⟩
  · cases h
/-- The end of a background command takes it from its Fold; the completion changes functions and output alone. -/
theorem State.endBg_parts (hbg : (s.fold f).bg = some b) (status event r0 r1 r2 : Nat) {w : State}
    (hw : w = s.endBg f status event r0 r1 r2) :
    w.fold f = { s.fold f with bg := none } ∧ othersSame f s w ∧ w.cfg = s.cfg ∧ storesSame s w := by
  have hend : w = if b.orphan then s.modFold f fun x => { x with bg := none }
      else (s.modFold f fun x => { x with bg := none }).post ⟨b.fn % 17, by omega⟩ ⟨0, b.cid, status, event, r0, r1, r2⟩ := by
    rw [hw, State.endBg, hbg]
  rw [hend]
  split
  · exact ⟨by simp, fun g hg => by simp [hg], rfl, rfl, rfl, rfl⟩
  · exact ⟨by simp, fun g hg => by simp [hg], by simp, by simp, by simp, by simp⟩
end

/-! ## A verified bundle (19, Table 19.12) -/

section
variable (s : State) (f : FoldId)

@[simp] theorem State.loadIdle_hbms (m : Nat) : (s.loadIdle f m).hbms = s.hbms := by
  unfold State.loadIdle
  split
  · rfl
  · exact foldl_hbms _ _ _ fun s p => by split <;> rfl
@[simp] theorem State.switchBanks_hbms : (s.switchBanks f).hbms = s.hbms := by
  unfold State.switchBanks
  exact foldl_hbms _ _ _ fun s t => by split <;> rfl
@[simp] theorem State.installMapping_hbms (m : Nat) : (s.installMapping f m).hbms = s.hbms := by simp [State.installMapping]
/-- Every channel of a Fold at its default: the Folds and the stacks stay. -/
theorem State.clearChans_kept (cs : List Nat) : (cs.foldl (fun v c => v.setChan c Chan.dflt) s).folds = s.folds ∧
    (cs.foldl (fun v c => v.setChan c Chan.dflt) s).hbms = s.hbms :=
  ⟨foldl_view State.folds (fun v c => v.setChan c Chan.dflt) (fun _ _ => rfl) cs s, foldl_hbms (fun v c => v.setChan c Chan.dflt) cs s fun _ _ => rfl⟩
/-- A bundle put in its Fold: LOADED, with the bundle and its image in the model store; no stack and no other Fold changes. -/
theorem State.installBundle_parts (l : Loaded) (image : Bytes) {w : State} (hw : w = s.installBundle f l image) :
    (w.fold f).st = .loaded ∧ (w.fold f).load = some l ∧ (w.fold f).store = storeImage image ∧ w.hbms = s.hbms ∧ othersSame f s w := by
  unfold State.installBundle at hw
  dsimp only at hw
  generalize hv : List.foldl _ _ _ = v at hw
  have hkept := State.clearChans_kept (({ s with free := s.free + 2 } : State).setFold f { Fold.dflt with
    st := (s.fold f).st, tel := (s.fold f).tel, load := some l, keys := foldKeysAt s f l, store := storeImage image,
    run := { Run.dflt with job := shapeOf (s.jobSet f) } })
  have hown : (v.fold f).load = some l ∧ (v.fold f).store = storeImage image := by
    rw [← hv, State.fold_of_folds (hkept _).1, State.setFold_same]
    exact ⟨rfl, rfl⟩
  have hhbms : v.hbms = s.hbms := hv ▸ (hkept _).2
  have hothers : othersSame f s v := fun g hg => by
    rw [← hv, State.fold_of_folds (hkept _).1, State.setFold_other _ _ _ _ hg]
    rfl
  obtain ⟨hload, hstore⟩ := hown
  rw [hw]
  split
  · exact ⟨by simp, by simp [hload], by simp [hstore], by simp [hhbms], fun g hg => by simp [hg, hothers g hg]⟩
  · exact ⟨by simp, by simp [hload], by simp [hstore], by simp [hhbms], fun g hg => by simp [hg, hothers g hg]⟩
end

/-! ## A re-stage image (08, R221) -/

/-- A loop over the stacks that leaves their bytes leaves the Folds and the tiles. -/
theorem foldl_modHbm_kept {g : State → StackId → Stack → Stack} {ks : List StackId} {s w : State}
    (hw : w = ks.foldl (fun v k => v.modHbm k (g v k)) s) (hg : ∀ v k h, (g v k h).mem = h.mem) : w.folds = s.folds ∧ w.memory = s.memory := by
  subst hw
  exact ⟨foldl_view State.folds (fun v k => v.modHbm k (g v k)) (fun _ _ => rfl) ks s,
    foldl_memory (fun v k => v.modHbm k (g v k)) ks s fun v k => State.modHbm_memory v k _ (hg v k _)⟩

section
variable (s : State) (f : FoldId) (image : Bytes)

/-- The members of the lost stripes wait at the stacks that take them; what the stacks hold, the tiles, and the Folds but for the staged
members stay. -/
theorem State.stageStripes_parts {w : State} (hw : w = s.stageStripes f image) :
    w.fold f = { s.fold f with store := { (s.fold f).store with staged :=
      ((s.fold f).store.lost.flatMap (stripeMembers image)).foldl (fun a e => mset [] a e.1 e.2) (s.fold f).store.staged } } ∧
    othersSame f s w ∧ w.tiles = s.tiles ∧ ∀ k, (w.hbm k).mem = (s.hbm k).mem := by
  unfold State.stageStripes at hw
  dsimp only at hw
  obtain ⟨hfolds, hmem⟩ := foldl_modHbm_kept hw fun _ _ _ => rfl
  refine ⟨?_, fun g hg => ?_, congrArg Prod.fst hmem, State.hbm_mem_of_memory hmem⟩
  · rw [State.fold_of_folds hfolds, State.modFold_same]
  · rw [State.fold_of_folds hfolds, State.modFold_other _ _ _ _ hg]
end

/-! ## A shard (12, R350) -/

/-- A shard puts its Fold at the manifest's position with what the shard holds; its state and its background command stay, and nothing
else of the card changes. -/
theorem State.installShard_parts (s : State) (f : FoldId) (d : Shard) (h : ShardHead) {w : State} (hw : w = s.installShard f d h) :
    ((w.fold f).st = (s.fold f).st ∧ (w.fold f).bg = (s.fold f).bg ∧
      (w.fold f).load = (s.fold f).load.map (fun l => { l with cuts := l.cuts ++ shardCuts d }) ∧
      (w.fold f).pre.nextGen = manifestGen h.manifest + 1) ∧
    ((w.fold f).grow.round = fld h.manifest 88 4 ∧ (w.fold f).grow.cls = fld h.manifest 92 2 ∧ (w.fold f).grow.step = fld h.manifest 94 1 ∧
      (w.fold f).grow.trees = d.trees ∧ (w.fold f).grow.partialTree = d.partialTree ∧ (w.fold f).grow.history = d.scales ∧
      (w.fold f).grow.nodeBank = d.nodeBank ∧ (w.fold f).grow.marginBank = d.marginBank) ∧
    w.cfg = s.cfg ∧ storesSame s w ∧ othersSame f s w := by
  unfold State.installShard at hw
  dsimp only at hw
  rw [hw, State.modFold_same]
  exact ⟨⟨rfl, rfl, rfl, rfl⟩, ⟨rfl, rfl, rfl, rfl, rfl, rfl, rfl, rfl⟩, rfl, ⟨rfl, rfl, rfl⟩, fun _ hg => State.modFold_other _ _ _ _ hg⟩

/-! ## The three ends -/

section
variable {t : Nat} {f : FoldId} {s u : State} (hu : s.tick t = u)
include hu

theorem exec_loadBundleDone_ok {b : Bundle} {l : Loaded} (hbg : u.bgIs f 3 = true) (hcheck : loadCheck u f b = .ok l) :
    exec (.loadBundleDone t f (some b)) s = .next
      (((u.installBundle f l b.image).modFold f fun x => { x with bg := (u.fold f).bg }).endBg f 0 0 (leNat (b.hdr.bundleDigest.take 8)) 0 0) := by
  show execLoadBundleDone t f (some b) s = _
  unfold execLoadBundleDone
  rw [hu]
  dsimp only
  rw [if_neg (by simp [hbg]), hcheck]
theorem exec_restageModelDone_ok {r : RestageImage} {l : Loaded} (hbg : u.bgIs f 4 = true) (hl : (u.fold f).load = some l)
    (hok : restageOk u l r = true) : exec (.restageModelDone t f (some r)) s = .next
      ((u.stageStripes f r.image).endBg f 0 0 0 0 (u.fold f).store.lost.length) := by
  show execRestageModelDone t f (some r) s = _
  simp only [execRestageModelDone, hu, hbg, hl, hok, Bool.not_true, Bool.false_eq_true, if_false, if_true]
theorem exec_restoreDone_ok {d : Shard} {h : ShardHead} {l : Loaded} {b : Background} (hbg : (u.fold f).bg = some b) (hkind : b.kind = 0x0A)
    (hl : (u.fold f).load = some l) (hcheck : restoreCheck u f l b.generation d = 0)
    (hown : ownHead d (u.card - (shapeOf (u.jobSet f)).1) = some h) : exec (.restoreDone t f (some d)) s = .next
      ((u.installShard f d h).endBg f 0 0 (manifestCut h.manifest).1 0 0) := by
  have his : u.bgIs f 0x0A = true := by simp [State.bgIs_of_bg hbg, hkind]
  show execRestoreDone t f (some d) s = _
  simp only [execRestoreDone, hu, his, hbg, hl, hcheck, hown, Option.bind_some, Option.map_some, ne_eq, not_true, Bool.not_true, Bool.false_eq_true,
    if_false]
end

/-- Settles O14: each end by what it installs in its Fold, then by the end of the background command. -/
theorem backgroundCommandsEndInTheFold : Obligations.BackgroundCommandsEndInTheFold := by
  have hsame {t : Nat} {s u : State} (hu : s.tick t = u) (f : FoldId) : othersSame f s u := hu ▸ othersSame_tick s t f
  refine ⟨fun t f b l s u hu hbg hcheck => ?_, fun t f r l s u hu hbg hl hok => ?_, fun t f d h l b s u hu hbg hkind hl hcheck hown => ?_⟩
  · obtain ⟨c, hc⟩ := State.bg_of_bgIs hbg
    have hexec := exec_loadBundleDone_ok hu hbg hcheck
    generalize hv : u.installBundle f l b.image = v at hexec
    obtain ⟨hst, hload, hstore, hhbms, hothers⟩ := u.installBundle_parts f l b.image hv.symm
    have hbg' : ((v.modFold f fun x => { x with bg := (u.fold f).bg }).fold f).bg = some c := by rw [State.modFold_same]; exact hc
    obtain ⟨hfold, hothers', hcfg, -, hhbms', -⟩ := State.endBg_parts hbg' 0 0 (leNat (b.hdr.bundleDigest.take 8)) 0 0 rfl
    rw [State.modFold_same] at hfold
    refine ⟨_, hexec, ?_⟩
    rw [hfold]
    exact ⟨hst, hload, rfl, hstore, hcfg.trans (by simp [← hv, ← hu]), hhbms'.trans (hhbms.trans (by simp [← hu])),
      ((hsame hu f).trans hothers).trans (othersSame.trans (fun g hg => State.modFold_other _ _ _ _ hg) hothers')⟩
  · obtain ⟨c, hc⟩ := State.bg_of_bgIs hbg
    have hexec := exec_restageModelDone_ok hu hbg hl hok
    generalize hv : u.stageStripes f r.image = v at hexec
    obtain ⟨hstaged, hothers, htiles, hmem⟩ := u.stageStripes_parts f r.image hv.symm
    obtain ⟨hfold, hothers', hcfg, htiles', hhbms', -⟩ := State.endBg_parts (by rw [hstaged]; exact hc) 0 0 0 0 (u.fold f).store.lost.length rfl
    refine ⟨_, hexec, ?_⟩
    rw [hfold, hstaged]
    exact ⟨rfl, by simp [← hu], rfl, hcfg.trans (by simp [← hv, ← hu]), htiles'.trans (htiles.trans (by simp [← hu])),
      fun k => by rw [State.hbm, hhbms']; exact (hmem k).trans (by simp [← hu]), ((hsame hu f).trans hothers).trans hothers'⟩
  · have hexec := exec_restoreDone_ok hu hbg hkind hl hcheck hown
    generalize hv : u.installShard f d h = v at hexec
    obtain ⟨⟨hst, hbg', hload, hgen⟩, hgrow, hcfg, hstores, hothers⟩ := u.installShard_parts f d h hv.symm
    obtain ⟨hround, hcls, hstep, htrees, hpartial, hhistory, hnodes, hmargins⟩ := hgrow
    obtain ⟨hfold, hothers', hcfg', hstores'⟩ := State.endBg_parts (hbg'.trans hbg) 0 0 (manifestCut h.manifest).1 0 0 rfl
    refine ⟨_, hexec, ?_⟩
    rw [hfold]
    exact ⟨rfl, hst.trans (by simp [← hu]), hround, hcls, hstep, htrees, hpartial, hhistory, hnodes, hmargins, hload.trans (by rw [hl]; rfl),
      hgen, hcfg'.trans (hcfg.trans (by simp [← hu])), ((hu ▸ storesSame_tick s t).trans hstores).trans hstores',
      ((hsame hu f).trans hothers).trans hothers'⟩

end Sys2Proof.Machine
end

section
/-! PROOFS. RESULT_DRAIN (08, R210 to R212; 10, R258, R276; 14, R400; 18, R492). -/

namespace Sys2Proof.Machine

/-! ## The loop -/

section
variable {f : FoldId} {u : State} {r : Result} {rest : List Result}

theorem drainLoop_empty (h : (u.fold f).res.egress = []) (k : Nat) : drainLoop f k u = u := by
  cases k with
  | zero => rfl
  | succ k => simp only [drainLoop, h]
theorem drainLoop_closed (h : (u.fold f).res.egress = r :: rest) (hs : u.sinkOpen f r = false) (k : Nat) : drainLoop f k u = u := by
  cases k with
  | zero => rfl
  | succ k => simp only [drainLoop, h, hs, Bool.not_false, if_true]
theorem drainLoop_open (h : (u.fold f).res.egress = r :: rest) (hs : u.sinkOpen f r = true) (k : Nat) : drainLoop f (k + 1) u =
    drainLoop f k ((u.modFold f fun y => { y with res := { y.res with egress := rest }.refill y.capacity }).sendResult f r) := by
  simp only [drainLoop, h, hs, Bool.not_true, Bool.false_eq_true, if_false]
end

/-! ## The ways out -/

section
variable {f : FoldId} {u : State} {r : Result}

/-- Nothing leaves past the closed egress gate (14, R403). -/
theorem State.sinkOpen_gated (h : u.power.gated = true) : u.sinkOpen f r = false := by simp [State.sinkOpen, h]
/-- A PCIe result waits for the completion queue of its VF, the link and the interface (18, R492, R493). -/
theorem State.sinkOpen_pcie {cid a : Nat} (hr : r.route = .pcie cid a) (h : u.pcie.gen < 3 ∨ u.power.perst = true ∨
    (u.fn (vfOf f)).tdi = Tdi.error ∨ ((u.fn (vfOf f)).queue 1).full = true ∨ ((u.fn (vfOf f)).queue 1).enabled = false) :
    u.sinkOpen f r = false := by
  unfold State.sinkOpen State.ringTakes
  simp only [hr]
  rcases h with h | h | h | h | h <;> simp [h]
/-- A result of a channel waits for its port: in the layout, up and not paused (10, R256, R258). -/
theorem State.sinkOpen_izr {c : Nat} {e : Bool} {key salt : Bytes} {p : PortId} (hr : r.route = .izr c e key salt)
    (hp : (u.chanCfg c).egressPort = p.val)
    (h : portCount u.cfg.portLayout ≤ p.val ∨ (u.port p).up = false ∨ u.now < (u.port p).pausedUntil) : u.sinkOpen f r = false := by
  unfold State.sinkOpen State.portOpen
  simp only [hr, hp, p.isLt, dif_pos]
  rcases h with h | h | h <;> simp [h]
end

/-! ## A PCIe result at the head -/

section
variable {s : State} {o : Output}

theorem State.mem_send_out (h : o ∈ s.out) (x : Output) : o ∈ (s.send x).out := by
  unfold State.send
  split <;> simp [h]
theorem State.mem_coalesce_out (h : o ∈ s.out) (v : FnId) (vec : Fin 4) : o ∈ (s.coalesce v vec).out := by
  have hvec : o ∈ (s.sendVec v vec).out := State.mem_send_out (by simpa using h) _
  unfold State.coalesce
  (repeat' split)
  · simpa using h
  · exact hvec
  · exact hvec
/-- What has been sent stays sent as a completion is posted. -/
theorem State.mem_post_out (h : o ∈ s.out) (v : FnId) (c : Cqe) : o ∈ (s.post v c).out := by
  unfold State.post State.writeCqe
  dsimp only
  (repeat' split)
  · exact h
  · simpa using h
  all_goals exact State.mem_coalesce_out (State.mem_send_out (by simpa using h) _) _ _
end

section
variable {f : FoldId} {u : State} {r : Result} {cid a : Nat} (hr : r.route = .pcie cid a) (hst : r.status = 0)
include hr hst

/-- A clean result is written to its address and completed. -/
theorem State.sendResult_pcie_clean (hp : r.poisoned = false) : u.sendResult f r =
    ((u.returnCredits f 1).send (.hostWrite a r.bytes)).postResult f cid 0 0 r r.bytes.length := by
  simp [State.sendResult, hr, hst, hp]
/-- A poisoned result is reported and its frame discarded; its entry completes without it (14, R400). -/
theorem State.sendResult_pcie_poisoned (hp : r.poisoned = true) : u.sendResult f r =
    (((u.emit (unitFold f) 0x0306 (le 8 r.frame ++ le 4 r.leaf)).modFold f fun x => { x with led := x.led.discard r.frame }).returnCredits f
      1).postResult f cid 0x23 0x0306 r 0 := by
  simp [State.sendResult, hr, hst, hp]
end

/-- Settles O49: the loop by the head of the queue, each way out by what closes it, a PCIe result by whether it is poisoned. -/
theorem resultsLeaveByTheHeadOfTheQueue : Obligations.ResultsLeaveByTheHeadOfTheQueue := by
  refine ⟨fun t f s u v w hu hv hw => ?_, fun f k u h => drainLoop_empty h k, fun f k u r rest h => ⟨fun hs => drainLoop_closed h hs k,
    fun hs => drainLoop_open h hs k⟩, fun f u r => ⟨State.sinkOpen_gated, fun cid a hr h => State.sinkOpen_pcie hr h,
    fun c e key salt p hr hp h => State.sinkOpen_izr hr hp h⟩, fun f u r cid a hr hst hg => ?_⟩
  · subst hw hv hu
    rfl
  · cases hp : r.poisoned with
    | false =>
      rw [State.sendResult_pcie_clean hr hst hp]
      refine ⟨by simp [State.postResult, State.returnCredits], fun _ => State.mem_post_out ?_ _ _, nofun⟩
      simp [State.send, State.returnCredits, hg]
    | true =>
      rw [State.sendResult_pcie_poisoned hr hst hp]
      refine ⟨by simp [State.postResult, State.returnCredits], nofun, fun _ => ⟨?_, by simp [State.postResult, State.returnCredits]⟩⟩
      simp [State.postResult, State.returnCredits, State.emit, State.emitAt]

end Sys2Proof.Machine
end

section
/-! PROOFS. PAGE_OPEN, PAGE_CLOSE, PAGE_SEAL and PAGE_FLUSH_COMPLETE (09, R246 to R252). -/

namespace Sys2Proof.Machine

/-! ## What a Fold's file-store queue does not hold (12, R334, R335) -/

/-- The Folds, but for the file-store queue of Fold `f`. -/
def State.unqueued (f : FoldId) (s : State) : Vector Fold 16 := (s.modFold f fun x => { x with file := ⟨false, [], []⟩ }).folds

section
variable {f : FoldId} {s t : State}

theorem State.unqueued_of_folds (h : t.folds = s.folds) : t.unqueued f = s.unqueued f := by
  simp [State.unqueued, State.modFold, State.setFold, State.fold, h]
@[simp] theorem State.send_unqueued (o : Output) : (s.send o).unqueued f = s.unqueued f := State.unqueued_of_folds (by simp)
@[simp] theorem State.modFold_file_unqueued (g : Fold → FileQ) :
    (s.modFold f fun x => { x with file := g x }).unqueued f = s.unqueued f := by
  simp only [State.unqueued, State.modFold, State.setFold_same, State.setFold_setFold]
theorem State.led_of_unqueued (h : t.unqueued f = s.unqueued f) : (t.fold f).led = (s.fold f).led ∧ (t.fold f).st = (s.fold f).st := by
  have hf := State.fold_of_folds h f
  rw [State.modFold_same, State.modFold_same] at hf
  exact ⟨(congrArg Fold.led hf :), (congrArg Fold.st hf :)⟩
theorem State.othersSame_of_unqueued (h : t.unqueued f = s.unqueued f) : othersSame f s t := fun g hg => by
  simpa [hg] using State.fold_of_folds h g

@[simp] theorem State.fileSend_unqueued (c : FileCmd) : (s.fileSend f c).unqueued f = s.unqueued f := by
  unfold State.fileSend State.fileConnect
  split <;> simp
@[simp] theorem State.fileIssue_unqueued (c : FileCmd) : (s.fileIssue f c).unqueued f = s.unqueued f := by
  simp [State.fileIssue]
@[simp] theorem State.fileTake_unqueued (n : Nat) : (s.fileTake f n).unqueued f = s.unqueued f := by
  simp [State.fileTake, foldl_view (State.unqueued f) _ fun s c => State.fileIssue_unqueued c]
@[simp] theorem State.filePump_unqueued : (s.filePump f).unqueued f = s.unqueued f := by simp [State.filePump]
@[simp] theorem State.fileQueue_unqueued (cs : List FileCmd) : (s.fileQueue f cs).unqueued f = s.unqueued f := by
  simp [State.fileQueue]
@[simp] theorem State.fileDone_unqueued (ckpt : Bool) : (s.fileDone f ckpt).unqueued f = s.unqueued f := by
  simp only [State.fileDone, State.filePump_unqueued, State.modFold_file_unqueued]
  (repeat' split) <;> simp
end

/-! ## What a page that goes out does not touch (09, R249; 16, R450) -/

/-- What the seal of a page sets: the chain, the latest page, and what it leaves: the next number, the open page and the closed ones. -/
def Ledger.sealing (l : Ledger) : Bytes × Option (Nat × Bytes) × Nat × Option OpenPage × List OpenPage :=
  (l.chain, l.latest, l.nextSeq, l.page, l.closing)
/-- The same of Fold `f`. -/
def State.sealing (s : State) (f : FoldId) : Bytes × Option (Nat × Bytes) × Nat × Option OpenPage × List OpenPage := (s.fold f).led.sealing

section
variable {f : FoldId} {s : State}

theorem State.foldObject_sealing {g : FoldId} {cs : List JPage} {x : Fold} (h : s.foldObject g = some (cs, x)) :
    x.led.sealing = s.sealing g := by
  unfold State.foldObject at h
  dsimp only at h
  split at h
  · cases h
  split at h
  · cases h
  split at h
  · cases h
    rfl
  split at h
  · cases h
  · obtain ⟨_, -, ho⟩ := Option.map_eq_some_iff.mp h
    cases ho
    rfl
theorem State.setFold_sealing {g : FoldId} {x : Fold} (h : x.led.sealing = s.sealing g) (f : FoldId) :
    (s.setFold g x).sealing f = s.sealing f := by
  by_cases hfg : f = g
  · subst hfg
    rwa [State.sealing, State.setFold_same]
  · rw [State.sealing, State.setFold_other _ _ _ _ hfg]
    rfl
/-- The journal marks what it has taken of a Fold's ledger and nothing more. -/
theorem State.choosePage_sealing : s.choosePage.sealing f = s.sealing f := by
  unfold State.choosePage
  split
  · rfl
  split
  · dsimp only
    split <;> rfl
  split
  · rfl
  split
  · rfl
  · next g cs x hfirst =>
    obtain ⟨k, -, hk⟩ := List.exists_of_findSome?_eq_some hfirst
    obtain ⟨_, hobject, ho⟩ := Option.map_eq_some_iff.mp hk
    cases ho
    have hmarked := State.setFold_sealing (State.foldObject_sealing hobject) f
    dsimp only
    split <;> exact hmarked
theorem State.advanceJournal_sealing : s.advanceJournal.sealing f = s.sealing f := by
  unfold State.advanceJournal
  dsimp only
  split
  · rfl
  split
  · exact State.choosePage_sealing
  · rw [State.sealing, State.fold_of_folds (State.sendPage_folds _)]
    exact State.choosePage_sealing
theorem State.exportFile_sealing (p : Page) (tags : Bool) : (s.exportFile f p tags).sealing f = s.sealing f := by
  unfold State.exportFile
  dsimp only
  split
  · rfl
  · obtain ⟨hled, -⟩ := State.led_of_unqueued (State.fileQueue_unqueued (f := f)
      (s := s.modFold f fun x => { x with led := { x.led with fileLba := _, certSent := _ } }) _)
    rw [State.sealing, hled, State.modFold_same]
    rfl

/-! ## The seal of a page (09, R245, R247) -/

theorem State.sealPage_sealing {l : Loaded} (hl : (s.fold f).load = some l) (hpower : s.power.halted = false) (p : OpenPage) (n : Nat) :
    (s.sealPage f p n).sealing f = (chainOver (s.fold f).led.chain p.entries,
      some (p.seq, chainOver (s.fold f).led.chain p.entries), (s.fold f).led.nextSeq, (s.fold f).led.page, (s.fold f).led.closing) := by
  simp only [State.sealPage, hl, hpower, Bool.false_eq_true, if_false]
  rw [State.advanceJournal_sealing, State.exportFile_sealing, State.sealing, State.modFold_same]
  rfl
/-- The oldest closed page leaves the closed ones, and the chain goes over its entries. -/
theorem State.sealClosing_parts {l : Loaded} {p : OpenPage} {r : List OpenPage} {v : State} {n : Nat} (hv : v = s.sealClosing f n)
    (hc : (s.fold f).led.closing = p :: r) (hl : (s.fold f).load = some l) (hpower : s.power.halted = false) :
    (v.fold f).led.closing = r ∧ (v.fold f).led.chain = chainOver (s.fold f).led.chain p.entries ∧
    (v.fold f).led.latest = some (p.seq, chainOver (s.fold f).led.chain p.entries) ∧ (v.fold f).led.nextSeq = (s.fold f).led.nextSeq := by
  have hsealed := State.sealPage_sealing hl hpower p n
  simp only [State.sealing, Ledger.sealing, Prod.mk.injEq] at hsealed
  obtain ⟨hchain, hlatest, hseq, -⟩ := hsealed
  subst hv
  simp [State.sealClosing, hc, hchain, hlatest, hseq]
end

/-! ## The commands, case by case -/

section
variable {t : Nat} {f : FoldId} {s u : State} (hu : s.tick t = u)
include hu

theorem exec_page_early (h : u.atBoundary f = false) : exec (.pageClose t f) s = .next u ∧ exec (.pageOpen t f) s = .next u := by
  refine ⟨show execPageClose t f s = _ from ?_, show execPageOpen t f s = _ from ?_⟩
  · simp [execPageClose, hu, h]
  · simp [execPageOpen, hu, h]
theorem exec_pageClose (h : u.atBoundary f = true) {v : State}
    (hv : v = (u.carryReads f (u.fold f).run.opened).endGrowing f (u.fold f).run.opened) : exec (.pageClose t f) s =
      .next ((if (v.fold f).pageDue (u.fold f).run.opened then
        v.endPage f (u.fold f).run.opened ((v.fold f).stoppedAt (u.fold f).run.opened) else v).settle f) := by
  show execPageClose t f s = _
  simp [execPageClose, hu, h, hv]
theorem exec_pageOpen (h : u.atBoundary f = true) (hpage : (u.fold f).led.page = none)
    (hstop : (u.fold f).stoppedAt (u.fold f).run.opened = false) :
    exec (.pageOpen t f) s = .next (u.takePage f (u.fold f).run.opened) := by
  show execPageOpen t f s = _
  simp [execPageOpen, hu, h, hpage, hstop]
theorem exec_pageSeal_none (hc : (u.fold f).led.closing = []) : exec (.pageSeal t f) s = .next u := by
  show execPageSeal t f s = _
  simp [execPageSeal, hu, hc]
theorem exec_pageSeal {p : OpenPage} {r : List OpenPage} (hc : (u.fold f).led.closing = p :: r) (hpower : u.power.halted = false) :
    exec (.pageSeal t f) s =
      .next (if (u.fold f).sealDue u.now then (u.sealClosing f (sealTick (u.fold f) p)).tryStopped f else u) := by
  show execPageSeal t f s = _
  cases hdue : (u.fold f).sealDue u.now <;> simp [execPageSeal, hu, hc, hpower, hdue]
theorem exec_pageFlushComplete_none (hr : (u.fold f).led.ring = []) : exec (.pageFlushComplete t f) s = .next u := by
  show execPageFlushComplete t f s = _
  simp [execPageFlushComplete, hu, hr]
theorem exec_pageFlushComplete {p : Page} {r : List Page} (hr : (u.fold f).led.ring = p :: r) (hp : p.acked.getLsbD 1 = false) :
    exec (.pageFlushComplete t f) s = .next ((u.fileDone f false).ackPage f 1 p.seq) := by
  show execPageFlushComplete t f s = _
  simp only [execPageFlushComplete, hu, hr, List.find?_cons, hp, Bool.not_false]
end

/-! ## A page closes, opens and is acknowledged (09, R246, R250, R251) -/

section
variable {f : FoldId} {s : State}

theorem State.endPage_scoring {p : OpenPage} (hp : (s.fold f).led.page = some p) (hscoring : p.growing = false) (n : Nat) (final : Bool) :
    ((s.endPage f n final).fold f).led = { (s.fold f).led with
      page := none, closing := (s.fold f).led.closing ++ [{ p with last := some (n - 1), final := final }] } ∧
    othersSame f s (s.endPage f n final) := by
  have hend : s.endPage f n final = s.closePage f (n - 1) final := by simp [State.endPage, hp, hscoring]
  rw [hend, State.closePage, hp]
  exact ⟨by simp, fun g hg => State.modFold_other _ _ _ _ hg⟩
/-- The page that opens takes one of the free slots, so that fewer than two are left where fewer than three were free. -/
theorem State.openPage_parts (hpage : (s.fold f).led.page = none) (n : Nat) {w : State} (hw : w = s.openPage f n) :
    (w.fold f).led = { (s.fold f).led with
      page := some ⟨(s.fold f).led.nextSeq, n, (s.fold f).tickOf n, (s.fold f).growingNow, (s.fold f).tagMeas, [], [], [], none, false⟩,
      nextSeq := (s.fold f).led.nextSeq + 1 } ∧
    (w.fold f).adm = { (s.fold f).adm with backlog := decide (s.freeSlots f < 3) } ∧
    (s.freeSlots f < 3 → w.reports 0x0601) ∧ (w.fold f).st = (s.fold f).st ∧ othersSame f s w ∧ storesSame s w := by
  obtain ⟨v, hv⟩ : ∃ v, v = s.modFold f fun y => { y with led := { y.led with
    page := some ⟨(s.fold f).led.nextSeq, n, (s.fold f).tickOf n, (s.fold f).growingNow, (s.fold f).tagMeas, [], [], [], none, false⟩
    nextSeq := y.led.nextSeq + 1 } } := ⟨_, rfl⟩
  have hfree : v.freeSlots f = s.freeSlots f - 1 := by
    simp [hv, State.freeSlots, hpage, b2n]
    omega
  have hopen : w = if s.freeSlots f < 3 then
      (v.modFold f fun y => { y with adm := { y.adm with backlog := true } }).emit (unitFold f) 0x0601
        (le 8 (s.fold f).led.nextSeq ++ le 2 (v.freeSlots f))
      else v.modFold f fun y => { y with adm := { y.adm with backlog := false } } := by
    rw [hw, State.openPage, ← hv]
    exact if_congr (by omega) rfl rfl
  have hothers : othersSame f s v := hv ▸ fun g hg => State.modFold_other _ _ _ _ hg
  have hstores : storesSame s v := hv ▸ by simp [storesSame]
  by_cases hlow : s.freeSlots f < 3
  · rw [if_pos hlow] at hopen
    subst hopen
    exact ⟨by simp [hv], by simp [hv, hlow], fun _ => State.reports_emit_same _ _ _ _, by simp [hv],
      hothers.trans fun g hg => by simp [hg], hstores.trans (by simp [storesSame])⟩
  · rw [if_neg hlow] at hopen
    subst hopen
    exact ⟨by simp [hv], by simp [hv, hlow], fun h => absurd h hlow, by simp [hv],
      hothers.trans fun g hg => by simp [hg], hstores.trans (by simp [storesSame])⟩
/-- The oldest page that lacks the destination's acknowledgement has it afterwards, where it stays in the ring. -/
theorem ackRing_head {dest : Nat} {p : Page} {r : List Page} (hd : dest < 8) (hp : p.acked.getLsbD dest = false) {y : Page}
    (hy : y ∈ ackRing dest p.seq (p :: r)) (hseq : y.seq = p.seq) (hfresh : p.seq ∉ r.map (·.seq)) : y.acked.getLsbD dest = true := by
  simp only [ackRing, List.findIdx_cons, hp, beq_self_eq_true, Bool.not_false, Bool.and_self, cond_true, List.length_cons,
    Nat.succ_pos, if_true, List.take_succ_cons, List.take_zero, List.map_cons, List.map_nil, List.drop_succ_cons, List.drop_zero,
    List.singleton_append, List.mem_cons] at hy
  rcases hy with rfl | hy
  · rw [BitVec.getLsbD_or, BitVec.getLsbD_ofNat, Nat.testBit_two_pow_self, Bool.and_true, decide_eq_true hd, Bool.or_true]
  · exact absurd (hseq ▸ List.mem_map_of_mem hy) hfresh
theorem State.ackPage_parts (dest sq : Nat) : ((s.ackPage f dest sq).fold f).led.chain = (s.fold f).led.chain ∧
    ((s.ackPage f dest sq).fold f).st = (s.fold f).st ∧ othersSame f s (s.ackPage f dest sq) := by
  unfold State.ackPage
  split
  · exact ⟨rfl, rfl, fun _ _ => rfl⟩
  · exact ⟨by simp, by simp, fun g hg => State.modFold_other _ _ _ _ hg⟩
theorem State.ackPage_ring {dest sq : Nat} (h : s.ackOk f dest sq = true) {y : Page} (hy : y ∈ ((s.ackPage f dest sq).fold f).led.ring) :
    y ∈ ackRing dest sq (s.fold f).led.ring := by
  rw [State.ackPage, h, Bool.not_true, if_neg Bool.false_ne_true, State.modFold_same] at hy
  exact List.mem_of_mem_filter hy
end

/-- Settles O50: the steps of a page by whether the boundary has come, its slot is free, its seal is due and its ring holds it. -/
theorem pagesOpenCloseSealAndAreAcknowledged : Obligations.PagesOpenCloseSealAndAreAcknowledged := by
  rintro t f s u x hu rfl
  have hothers : othersSame f s u := hu ▸ othersSame_tick s t f
  have hstores : storesSame s u := hu ▸ storesSame_tick s t
  refine ⟨exec_page_early hu, fun hb => ⟨_, rfl, exec_pageClose hu hb rfl⟩,
    fun p n final hp hscoring => State.endPage_scoring hp hscoring n final, fun hb hpage hstop => ⟨fun hfull => ?full, fun hfree => ?free⟩,
    fun p r l hc hl hpower => ⟨fun hdue => ?notDue, fun hdue => ?due⟩, exec_pageSeal_none hu, exec_pageFlushComplete_none hu,
    fun p r hr hp hdest => ?flush⟩
  case full =>
    rw [exec_pageOpen hu hb hpage hstop, State.takePage, if_pos hfull]
  case free =>
    obtain ⟨hled, hadm, hreports, hst, hother, hstore⟩ := State.openPage_parts hpage (u.fold f).run.opened rfl
    refine ⟨_, ?_, hled, hadm, hreports, hst, hothers.trans hother, hstores.trans hstore⟩
    rw [exec_pageOpen hu hb hpage hstop, State.takePage, if_neg hfree]
  case notDue =>
    rw [exec_pageSeal hu hc hpower, hdue]
    rfl
  case due =>
    refine ⟨_, rfl, ?_, State.sealClosing_parts rfl hc hl hpower⟩
    rw [exec_pageSeal hu hc hpower, if_pos hdue]
  case flush =>
    obtain ⟨hled, hst⟩ := State.led_of_unqueued (State.fileDone_unqueued (s := u) (f := f) false)
    obtain ⟨hchain, hst', hother⟩ := State.ackPage_parts (s := u.fileDone f false) (f := f) 1 p.seq
    have hok : (u.fileDone f false).ackOk f 1 p.seq = true := by
      have hcfg : (u.fileDone f false).foldCfg f = u.foldCfg f := by simp [State.foldCfg]
      simp [State.ackOk, hcfg, hled, hr, hdest]
    refine ⟨_, exec_pageFlushComplete hu hr hp, rfl, hchain.trans (congrArg Ledger.chain hled), hst'.trans hst,
      (hothers.trans (State.othersSame_of_unqueued (State.fileDone_unqueued false))).trans hother, fun y hy hseq hfresh => ?_⟩
    have hring := State.ackPage_ring hok hy
    rw [hled, hr] at hring
    exact ackRing_head (by decide) hp hring hseq hfresh

end Sys2Proof.Machine
end

section
/-! PROOFS. What the functions answer to SPDM, IDE_KM and TDISP (09, R233 to R237, Table 9.6). -/

namespace Sys2Proof.Machine

/-! ## A function says one message -/

/-- Nothing has been said, and of the card the function alone may have changed. -/
def silentBut (fn : FnId) (s v : State) : Prop :=
  v.out = s.out ∧ cardSame s v ∧ v.cfg = s.cfg ∧ v.kept = s.kept ∧ v.events.waiting = s.events.waiting ∧ ∀ g, g ≠ fn → v.fn g = s.fn g

section
variable {t code : Nat} {fn : FnId} {s u v : State} {i : Instr} {b : Bytes}

theorem State.send_out (h : v.power.gated = false) (o : Output) : (v.send o).out = v.out ++ [o] := by simp [State.send, h]
theorem silentBut_tick (hu : s.tick t = u) (fn : FnId) : silentBut fn s u := by
  subst hu
  simp [silentBut, cardSame]
theorem silentBut.modFn (h : silentBut fn s v) (g : Func → Func) : silentBut fn s (v.modFn fn g) := by
  obtain ⟨hout, hcard, hcfg, hkept, hevents, hfns⟩ := h
  exact ⟨by simpa using hout, by simpa [cardSame] using hcard, by simpa using hcfg, by simpa using hkept, by simpa using hevents,
    fun k hk => by simp [hk, hfns k hk]⟩
theorem silentBut.says (h : silentBut fn s v) (hopen : v.power.gated = false) (b : Bytes) :
    saidOnly s (v.send (.spdm fn.val b)) fn b := by
  obtain ⟨hout, hcard, hcfg, hkept, hevents, hfns⟩ := h
  exact ⟨by rw [State.send_out hopen, hout], by simpa [cardSame] using hcard, by simpa using hcfg, by simpa using hkept,
    by simpa using hevents, by simpa using hfns⟩

section
variable (hu : s.tick t = u) (hopen : u.power.gated = false)
include hu hopen

theorem exec_says (h : exec i s = .next (u.send (.spdm fn.val b))) : ∃ w, exec i s = .next w ∧ saidOnly s w fn b ∧ w.fn fn = u.fn fn :=
  ⟨_, h, (silentBut_tick hu fn).says hopen b, by simp⟩
theorem exec_writes {g : Func → Func} (h : exec i s = .next ((u.modFn fn g).send (.spdm fn.val b))) :
    ∃ w, exec i s = .next w ∧ saidOnly s w fn b ∧ w.fn fn = g (u.fn fn) :=
  ⟨_, h, ((silentBut_tick hu fn).modFn g).says (by simpa using hopen) b, by simp⟩
theorem exec_refuses (h : exec i s = .next (u.spdmError fn code)) : ∃ w, exec i s = .next w ∧ saidError s w fn code :=
  ⟨_, h, (silentBut_tick hu fn).says hopen _, by simp [State.spdmError, State.spdmSend, ← hu]⟩
end
end

/-! ## The connection (09, R233) -/

section
variable {t : Nat} {fn : FnId} {s u : State} (hu : s.tick t = u) (ha : u.answers = true)
include hu ha

theorem exec_spdmGetVersion : exec (.spdmGetVersion t fn) s =
    .next ((u.modSpdm fn fun x => { x with state := 1 }).spdmSend fn 0x04 [le 1 0x12]) := by
  show execSpdmGetVersion t fn s = _
  simp [execSpdmGetVersion, hu, ha]
theorem exec_spdmGetCapabilities (h : 1 ≤ (u.fn fn).spdm.state) : exec (.spdmGetCapabilities t fn) s =
    .next ((u.modSpdm fn fun x => { x with state := max x.state 2 }).spdmSend fn 0x61
      [le 1 1, le 1 2, le 1 3, le 1 4, le 1 5, le 1 6, le 1 7]) := by
  show execSpdmGetCapabilities t fn s = _
  simp [execSpdmGetCapabilities, hu, ha, Nat.one_le_iff_ne_zero.mp h]
theorem exec_spdmGetCapabilities_early (h : (u.fn fn).spdm.state = 0) :
    exec (.spdmGetCapabilities t fn) s = .next (u.spdmError fn 1) := by
  show execSpdmGetCapabilities t fn s = _
  simp [execSpdmGetCapabilities, hu, ha, h]
theorem exec_spdmNegotiateAlgorithms (h : 2 ≤ (u.fn fn).spdm.state) :
    exec (.spdmNegotiateAlgorithms t fn ⟨true, true, true, true, true⟩) s =
      .next ((u.modSpdm fn fun x => { x with state := 3 }).spdmSend fn 0x63 [le 1 1, le 1 2, le 1 3, le 1 4, le 1 5]) := by
  show execSpdmNegotiateAlgorithms t fn _ s = _
  simp [execSpdmNegotiateAlgorithms, hu, ha, Nat.not_lt.mpr h]
theorem exec_spdmNegotiateAlgorithms_refused {a : SpdmAlgs} (h : (u.fn fn).spdm.state < 2 ∨ a ≠ ⟨true, true, true, true, true⟩) :
    exec (.spdmNegotiateAlgorithms t fn a) s = .next (u.spdmError fn (if (u.fn fn).spdm.state < 2 then 1 else 2)) := by
  show execSpdmNegotiateAlgorithms t fn a s = _
  by_cases hstate : (u.fn fn).spdm.state < 2
  · simp [execSpdmNegotiateAlgorithms, hu, ha, hstate]
  · obtain ⟨asym, hash, meas, dhe, aead⟩ := a
    have hother : (asym && hash && meas && dhe && aead) = false := by simpa [and_assoc] using h.resolve_left hstate
    simp [execSpdmNegotiateAlgorithms, hu, ha, hstate, hother]
/-- Before the algorithms are agreed each request of the third group is unexpected. -/
theorem exec_spdm_early (h : (u.fn fn).spdm.state < 3) (slot block : Nat) (nonce secret : Bytes) (ok : Bool) :
    exec (.spdmGetCertificate t fn slot) s = .next (u.spdmError fn 1) ∧
    exec (.spdmChallenge t fn slot nonce) s = .next (u.spdmError fn 1) ∧
    exec (.spdmGetMeasurements t fn block nonce) s = .next (u.spdmError fn 1) ∧
    exec (.spdmKeyExchange t fn secret ok) s = .next (u.spdmError fn 1) := by
  refine ⟨show execSpdmGetCertificate t fn slot s = _ from ?_, show execSpdmChallenge t fn slot nonce s = _ from ?_,
    show execSpdmGetMeasurements t fn block nonce s = _ from ?_, show execSpdmKeyExchange t fn secret ok s = _ from ?_⟩
  · simp [execSpdmGetCertificate, hu, ha, h]
  · simp [execSpdmChallenge, hu, ha, h]
  · simp [execSpdmGetMeasurements, hu, ha, h]
  · simp [execSpdmKeyExchange, hu, ha, h]

section
variable (hstate : 3 ≤ (u.fn fn).spdm.state)
include hstate

theorem exec_spdmGetCertificate {chain : Bytes} (hchain : u.chainOf fn = some chain) :
    exec (.spdmGetCertificate t fn 0) s = .next (u.send (.spdm fn.val chain)) := by
  show execSpdmGetCertificate t fn 0 s = _
  simp [execSpdmGetCertificate, hu, ha, hstate, hchain]
theorem exec_spdmChallenge {key : Nat} (hkey : u.leafKey fn = some key) (nonce : Bytes) :
    exec (.spdmChallenge t fn 0 nonce) s = .next (u.spdmSigned fn 0x03 key [nonce]) := by
  show execSpdmChallenge t fn 0 nonce s = _
  simp [execSpdmChallenge, hu, ha, hstate, hkey]
/-- No slot but slot 0 is answered. -/
theorem exec_spdm_slot {slot : Nat} (hslot : slot ≠ 0) (nonce : Bytes) :
    exec (.spdmGetCertificate t fn slot) s = .next (u.spdmError fn 2) ∧ exec (.spdmChallenge t fn slot nonce) s = .next (u.spdmError fn 2) := by
  refine ⟨show execSpdmGetCertificate t fn slot s = _ from ?_, show execSpdmChallenge t fn slot nonce s = _ from ?_⟩
  · simp [execSpdmGetCertificate, hu, ha, hstate, hslot]
  · simp [execSpdmChallenge, hu, ha, hstate, hslot]
theorem exec_spdmGetMeasurements {key block : Nat} {nonce m : Bytes} (hkey : u.leafKey fn = some key)
    (hm : u.measurement fn block nonce = some m) :
    exec (.spdmGetMeasurements t fn block nonce) s = .next (u.spdmSigned fn 0x60 key [le 1 block, m, nonce]) := by
  show execSpdmGetMeasurements t fn block nonce s = _
  simp [execSpdmGetMeasurements, hu, ha, hstate, hkey, hm]
theorem exec_spdmKeyExchange_opens {key : Nat} (hkey : u.leafKey fn = some key) (hnone : (u.fn fn).spdm.session = []) (secret : Bytes) :
    exec (.spdmKeyExchange t fn secret true) s =
      .next (((u.spdmSigned fn 0x64 key []).modSpdm fn fun x => { x with session := padTo 32 secret }).spdmSend fn 0x65 []) := by
  show execSpdmKeyExchange t fn secret true s = _
  simp [execSpdmKeyExchange, hu, ha, hstate, hkey, hnone]
theorem exec_spdmKeyExchange_second (hsome : (u.fn fn).spdm.session ≠ []) (secret : Bytes) (ok : Bool) :
    exec (.spdmKeyExchange t fn secret ok) s = .next (u.spdmError fn 3) := by
  show execSpdmKeyExchange t fn secret ok s = _
  simp [execSpdmKeyExchange, hu, ha, hstate, hsome]
end

/-! ## Inside a session and outside one (09, R234) -/

/-- Without a session nothing that needs one is done. -/
theorem exec_spdm_sessionless (hnone : (u.fn fn).spdm.session = []) :
    (∀ key, exec (.spdmKeyUpdate t none fn key) s = .next (u.spdmError fn 4)) ∧
    exec (.spdmEndSession t fn) s = .next (u.spdmError fn 4) ∧
    ∀ m, exec (.ideKmKeyProg t fn m) s = .next (u.spdmError fn 4) := by
  refine ⟨fun key => show execSpdmKeyUpdate t none fn key s = _ from ?_, show execSpdmEndSession t fn s = _ from ?_,
    fun m => show execIdeKmKeyProg t fn m s = _ from ?_⟩
  · simp [execSpdmKeyUpdate, hu, ha, hnone]
  · simp [execSpdmEndSession, hu, ha, hnone]
  · simp [execIdeKmKeyProg, hu, ha, hnone]

section
variable (hsome : (u.fn fn).spdm.session ≠ [])
include hsome

theorem exec_spdmKeyUpdate (key : Bytes) : exec (.spdmKeyUpdate t none fn key) s =
    .next ((u.modSpdm fn fun x => { x with session := padTo 32 key }).spdmSend fn 0x69 []) := by
  show execSpdmKeyUpdate t none fn key s = _
  simp [execSpdmKeyUpdate, hu, ha, hsome]
theorem exec_spdmEndSession : exec (.spdmEndSession t fn) s = .next ((u.zeroSession fn).spdmSend fn 0x6C []) := by
  show execSpdmEndSession t fn s = _
  simp [execSpdmEndSession, hu, ha, hsome]
theorem exec_ide_query : exec (.ideKmKeyProg t fn .query) s = .next (u.spdmSend fn 0x81 [le 1 (u.fn fn).ide]) := by
  show execIdeKmKeyProg t fn .query s = _
  simp [execIdeKmKeyProg, hu, ha, hsome]
theorem exec_ide_keyProg (k : Bytes) : exec (.ideKmKeyProg t fn (.keyProg k)) s =
    .next ((u.modFn fn fun v => { v with ideKey := padTo 32 k, ide := 1 }).spdmSend fn 0x83 []) := by
  show execIdeKmKeyProg t fn (.keyProg k) s = _
  simp [execIdeKmKeyProg, hu, ha, hsome]
theorem exec_ide_setGo (hkey : (u.fn fn).ideKey ≠ []) : exec (.ideKmKeyProg t fn .setGo) s =
    .next ((u.modFn fn fun v => { v with ide := 2 }).spdmSend fn 0x85 []) := by
  show execIdeKmKeyProg t fn .setGo s = _
  simp [execIdeKmKeyProg, hu, ha, hsome, hkey]
theorem exec_ide_setGo_keyless (hkey : (u.fn fn).ideKey = []) : exec (.ideKmKeyProg t fn .setGo) s = .next (u.spdmError fn 2) := by
  show execIdeKmKeyProg t fn .setGo s = _
  simp [execIdeKmKeyProg, hu, ha, hsome, hkey]
theorem exec_ide_setStop : exec (.ideKmKeyProg t fn .setStop) s =
    .next ((u.modFn fn fun v => { v with ide := if v.ide = 0 then 0 else 3 }).spdmSend fn 0x86 []) := by
  show execIdeKmKeyProg t fn .setStop s = _
  simp [execIdeKmKeyProg, hu, ha, hsome]
end
end

/-- The physical function measures the firmware and nothing else (09, Table 9.6). -/
theorem State.measurement_physical (u : State) (nonce : Bytes) : u.measurement 0 1 nonce = some u.sec.fwMeas ∧
    ∀ b, b ≠ 1 → u.measurement 0 b nonce = none :=
  ⟨rfl, fun b hb => by simp [State.measurement, hb, State.attested, foldOfFn]⟩

/-- Settles O59: each request by where the connection stands, then by the slot, the block or the session that it names. -/
theorem spdmAnswersInItsOrderAndOnItsKeys : Obligations.SpdmAnswersInItsOrderAndOnItsKeys := by
  rintro t fn s u x hu rfl ha hopen
  refine ⟨?version, fun h => ?capabilities, fun h => ?capabilitiesEarly, fun a h heq => ?algorithms, fun a h => ?algorithmsRefused,
    fun h slot block nonce secret b => ?early, fun h key chain hkey hchain nonce secret => ⟨?certificate, ?challenge, fun slot hslot => ?slot,
    fun block m hm => ?measurements, fun hnone => ?opens, fun hsome => ?second⟩, fun hfn nonce => ?physical,
    fun hsome => ⟨fun key => ?update, ?ends⟩, fun hnone => ?sessionless⟩
  case version =>
    obtain ⟨w, hw, hsaid, hfn⟩ := exec_writes hu hopen (exec_spdmGetVersion hu ha)
    exact ⟨w, hw, hsaid, by rw [hfn]⟩
  case capabilities =>
    obtain ⟨w, hw, hsaid, hfn⟩ := exec_writes hu hopen (exec_spdmGetCapabilities hu ha h)
    exact ⟨w, hw, hsaid, by rw [hfn]⟩
  case capabilitiesEarly => exact exec_refuses hu hopen (exec_spdmGetCapabilities_early hu ha h)
  case algorithms =>
    subst heq
    obtain ⟨w, hw, hsaid, hfn⟩ := exec_writes hu hopen (exec_spdmNegotiateAlgorithms hu ha h)
    exact ⟨w, hw, hsaid, by rw [hfn]⟩
  case algorithmsRefused => exact exec_refuses hu hopen (exec_spdmNegotiateAlgorithms_refused hu ha h)
  case early =>
    obtain ⟨hcert, hchal, hmeas, hkey⟩ := exec_spdm_early hu ha h slot block nonce secret b
    exact ⟨exec_refuses hu hopen hcert, exec_refuses hu hopen hchal, exec_refuses hu hopen hmeas, exec_refuses hu hopen hkey⟩
  case certificate =>
    obtain ⟨w, hw, hsaid, hfn⟩ := exec_says hu hopen (exec_spdmGetCertificate hu ha h hchain)
    exact ⟨w, hw, hsaid, by rw [hfn]⟩
  case challenge =>
    obtain ⟨w, hw, hsaid, hfn⟩ := exec_says hu hopen (exec_spdmChallenge hu ha h hkey nonce)
    exact ⟨w, hw, hsaid, by rw [hfn]⟩
  case slot =>
    obtain ⟨hcert, hchal⟩ := exec_spdm_slot hu ha h hslot nonce
    exact ⟨exec_refuses hu hopen hcert, exec_refuses hu hopen hchal⟩
  case measurements =>
    obtain ⟨w, hw, hsaid, -⟩ := exec_says hu hopen (exec_spdmGetMeasurements hu ha h hkey hm)
    exact ⟨w, hw, hsaid⟩
  case opens =>
    have hout : u.out = s.out := by simp [← hu]
    refine ⟨_, exec_spdmKeyExchange_opens hu ha h hkey hnone secret, by simp [State.spdmSend, State.spdmSigned, State.modSpdm], ?_⟩
    simp [State.spdmSend, State.spdmSigned, State.modSpdm, State.send_out, hopen, hout]
  case second => exact exec_refuses hu hopen (exec_spdmKeyExchange_second hu ha h hsome secret true)
  case physical =>
    subst hfn
    simpa [← hu] using u.measurement_physical nonce
  case update =>
    obtain ⟨w, hw, hsaid, hfn⟩ := exec_writes hu hopen (exec_spdmKeyUpdate hu ha hsome key)
    exact ⟨w, hw, hsaid, by rw [hfn]⟩
  case ends =>
    obtain ⟨w, hw, ⟨-, ⟨hfolds, htiles, hhbms, -, -, -, -, -, hchans⟩, -⟩, hfn⟩ := exec_writes hu hopen (exec_spdmEndSession hu ha hsome)
    exact ⟨w, hw, by rw [hfn], by rw [hfn], hfolds, htiles, hhbms, hchans⟩
  case sessionless =>
    obtain ⟨hupdate, hend, -⟩ := exec_spdm_sessionless hu ha hnone
    exact ⟨fun key => exec_refuses hu hopen (hupdate key), exec_refuses hu hopen hend⟩

/-! ## TDISP (09, R235) -/

section
variable {t : Nat} {fn : FnId} {f : FoldId} {s u : State} (hu : s.tick t = u) (ha : u.answers = true)
include hu ha

/-- The physical function has no interface to lock, report or start. -/
theorem exec_tdisp_physical :
    exec (.lockInterfaceRequest t 0) s = .next (u.spdmError 0 5) ∧ exec (.getDeviceInterfaceReport t 0) s = .next (u.spdmError 0 5) ∧
    ∀ nonce, exec (.startInterfaceRequest t 0 nonce) s = .next (u.spdmError 0 5) := by
  refine ⟨show execLockInterfaceRequest t 0 s = _ from ?_, show execGetDeviceInterfaceReport t 0 s = _ from ?_,
    fun nonce => show execStartInterfaceRequest t 0 nonce s = _ from ?_⟩
  · simp [execLockInterfaceRequest, hu, ha, foldOfFn]
  · simp [execGetDeviceInterfaceReport, hu, ha, foldOfFn]
  · simp [execStartInterfaceRequest, hu, ha]
theorem exec_startInterface_refused {nonce : Bytes} (h : (u.fn fn).tdi ≠ .locked ∨ nonce ≠ (u.fn fn).tdiNonce) :
    exec (.startInterfaceRequest t fn nonce) s = .next (u.spdmError fn 5) := by
  show execStartInterfaceRequest t fn nonce s = _
  rcases h with h | h <;> simp [execStartInterfaceRequest, hu, ha, h]

section
variable (hf : foldOfFn fn = some f)
include hf

theorem exec_lockInterface_locks (htdi : (u.fn fn).tdi = .unlocked) (hst : lockable (u.fold f).st = true) :
    exec (.lockInterfaceRequest t fn) s = .next ((u.draw.2.modFn fn fun v =>
      { v with tdi := .locked, tdiNonce := padTo 32 u.draw.1 }).spdmSend fn 0x93 [padTo 32 u.draw.1]) := by
  show execLockInterfaceRequest t fn s = _
  simp [execLockInterfaceRequest, hu, ha, hf, htdi, hst]
theorem exec_lockInterface_refused (h : (u.fn fn).tdi ≠ .unlocked ∨ lockable (u.fold f).st = false) :
    exec (.lockInterfaceRequest t fn) s = .next (u.spdmError fn 5) := by
  show execLockInterfaceRequest t fn s = _
  rcases h with h | h <;> simp [execLockInterfaceRequest, hu, ha, hf, h]
theorem exec_interfaceReport {l : Loaded} (hl : (u.fold f).load = some l) (htdi : (u.fn fn).tdi = .locked ∨ (u.fn fn).tdi = .run) :
    exec (.getDeviceInterfaceReport t fn) s =
      .next (u.spdmSend fn 0x94 [le 1 0, le 4 0x10000, le 1 2, le 4 0x1000, le 1 f.val, l.foldMeas]) := by
  show execGetDeviceInterfaceReport t fn s = _
  simp [execGetDeviceInterfaceReport, hu, ha, hf, hl, htdi]
theorem exec_interfaceReport_refused (htdi : (u.fn fn).tdi = .unlocked ∨ (u.fn fn).tdi = .error) :
    exec (.getDeviceInterfaceReport t fn) s = .next (u.spdmError fn 5) := by
  show execGetDeviceInterfaceReport t fn s = _
  rcases htdi with h | h <;> simp [execGetDeviceInterfaceReport, hu, ha, hf, h]
theorem exec_startInterface_runs (htdi : (u.fn fn).tdi = .locked) : exec (.startInterfaceRequest t fn (u.fn fn).tdiNonce) s =
    .next ((u.modFn fn fun v => { v with tdi := .run, tdiNonce := [] }).spdmSend fn 0x95 []) := by
  have hvirtual : fn ≠ 0 := by
    rintro rfl
    simp [foldOfFn] at hf
  show execStartInterfaceRequest t fn _ s = _
  simp [execStartInterfaceRequest, hu, ha, hvirtual, htdi]
end
end

theorem lockable_iff (st : FoldState) : lockable st = true ↔ st ∈ [FoldState.loaded, .stopped, .armed] := by cases st <;> decide

/-- Settles O60: IDE_KM by whether a session stands, TDISP on a virtual function by the state of its interface, on the physical one at once. -/
theorem ideKeysAndInterfacesFollowTheirStates : Obligations.IdeKeysAndInterfacesFollowTheirStates := by
  rintro t fn s u x hu rfl ha hopen
  refine ⟨fun hnone m => ?sessionless, fun hsome => ⟨?query, fun k => ?keyProg, fun hkey => ?go, fun hkey => ?goKeyless, ?stop⟩,
    fun f hf => ⟨fun htdi hst => ?locks, fun h => ?lockRefused, fun l hl htdi => ?report, fun htdi => ?reportRefused, fun htdi => ?starts,
      fun nonce h => ?startRefused⟩, fun hfn => ?physical⟩
  case sessionless =>
    obtain ⟨-, -, hide⟩ := exec_spdm_sessionless hu ha hnone
    exact exec_refuses hu hopen (hide m)
  case query => exact exec_says hu hopen (exec_ide_query hu ha hsome)
  case keyProg => exact exec_writes hu hopen (exec_ide_keyProg hu ha hsome k)
  case go => exact exec_writes hu hopen (exec_ide_setGo hu ha hsome hkey)
  case goKeyless => exact exec_refuses hu hopen (exec_ide_setGo_keyless hu ha hsome hkey)
  case stop => exact exec_writes hu hopen (exec_ide_setStop hu ha hsome)
  case locks =>
    have hfree : u.free = s.free := by simp [← hu]
    have hsilent : silentBut fn s u.draw.2 := silentBut_tick hu fn
    have hfn : u.draw.2.fn fn = u.fn fn := rfl
    have hdrawn : u.draw.1 = Config.fresh s.free := congrArg Config.fresh hfree
    rw [← hdrawn]
    exact ⟨_, exec_lockInterface_locks hu ha hf htdi ((lockable_iff _).mpr hst), by simp [State.spdmSend, hfn],
      by simp [State.spdmSend, State.draw, hfree], (hsilent.modFn _).says (by simpa [State.draw] using hopen) _⟩
  case lockRefused =>
    refine exec_refuses hu hopen (exec_lockInterface_refused hu ha hf (h.imp_right fun hst => ?_))
    rwa [← lockable_iff, Bool.not_eq_true] at hst
  case report =>
    obtain ⟨w, hw, hsaid, hfn⟩ := exec_says hu hopen (exec_interfaceReport hu ha hf hl htdi)
    exact ⟨w, hw, hfn, hsaid⟩
  case reportRefused => exact exec_refuses hu hopen (exec_interfaceReport_refused hu ha hf htdi)
  case starts =>
    obtain ⟨w, hw, hsaid, hfn⟩ := exec_writes hu hopen (exec_startInterface_runs hu ha hf htdi)
    exact ⟨w, hw, hfn, hsaid⟩
  case startRefused => exact exec_refuses hu hopen (exec_startInterface_refused hu ha h)
  case physical =>
    subst hfn
    obtain ⟨hlock, hreport, hstart⟩ := exec_tdisp_physical hu ha
    exact ⟨exec_refuses hu hopen hlock, exec_refuses hu hopen hreport, fun nonce => exec_refuses hu hopen (hstart nonce)⟩

end Sys2Proof.Machine
end

section
/-! PROOFS. IDENTIFY, LEDGER_READ and LEDGER_ACK (18, Table 18.4, R487; 09, R250). -/

namespace Sys2Proof.Machine

section
variable {t : Nat} {q : QHdr} {s u v : State} (hu : s.tick t = u) (hv : u.fetch q.fn 0 = v)
include hu hv

/-- IDENTIFY is taken before READY too. -/
theorem exec_identify (hfetch : u.canFetch q.fn 0 = true) (hrsvd : q.rsvd = 0) (hfn : q.fn = 0 ∨ q.fn = vfOf q.fold) {a : Nat}
    (hpage : a % 4096 = 0) :
    exec (.identify t q a) s = .next ((v.send (.hostWrite a (v.identifyPage q.fn))).complete q 0 0 0 0 4096) := by
  have hreach : (q.fn != 0 && q.fn != vfOf q.fold) = false := by rcases hfn with h | h <;> simp [h]
  show execIdentify t q a s = _
  simp [execIdentify, State.command, hu, hv, hfetch, hrsvd, hreach, hpage]

section
variable (htakes : takesCommand u q)
include htakes

theorem exec_ledgerRead {a n o kind sq : Nat} {b : Bytes} (hlen : n ≤ 16777216) (hobject : v.hostObject q.fold = some (kind, sq, b)) :
    exec (.ledgerRead t q a n o) s = .next
      ((if o + (slice b o n).length = b.length then (v.send (.hostWrite a (slice b o n))).hostAdvance q.fold
        else v.send (.hostWrite a (slice b o n))).complete q 0 0 sq b.length (kind + 256 * (slice b o n).length)) := by
  show execLedgerRead t q a n o s = _
  rw [execLedgerRead, State.command_taken hu htakes, hv, if_neg (by omega), hobject]
theorem exec_ledgerAck {n : Nat} (hack : v.ackOk q.fold 0 n = true) :
    exec (.ledgerAck t q n) s = .next ((v.ackPage q.fold 0 n).complete q 0 0 0 0 0) := by
  show execLedgerAck t q n s = _
  rw [execLedgerAck, State.command_taken hu htakes, hv, if_pos hack]
end
end

/-- Settles O11: each command on the card with its entry fetched, past the checks of every command. -/
theorem hostCommandsCompleteInTheirQueue : Obligations.HostCommandsCompleteInTheirQueue :=
  ⟨fun _ _ _ _ _ _ hu hv hfetch hrsvd hfn hpage => exec_identify hu hv hfetch hrsvd hfn hpage,
    fun _ _ _ _ _ _ _ _ _ _ _ hu hv htakes hlen hobject => exec_ledgerRead hu hv htakes hlen hobject,
    fun _ _ _ _ _ _ hu hv htakes hack => exec_ledgerAck hu hv htakes hack⟩

end Sys2Proof.Machine
end

section
/-! PROOFS. ADMISSION (10, R271 to R273; 06, R153). -/

namespace Sys2Proof.Machine

/-! ## Arrival order (09, R240) -/

theorem insArrival_perm (replay : Bool) (a : Arrival) (l : List Arrival) : (insArrival replay a l).Perm (a :: l) := by
  induction l with
  | nil => exact .refl _
  | cons x r ih =>
    rw [insArrival]
    split
    · exact .refl _
    · exact (ih.cons x).trans (.swap a x r)
theorem sortArrivals_perm (replay : Bool) (l : List Arrival) : (sortArrivals replay l).Perm l := by
  induction l with
  | nil => exact .refl _
  | cons a l ih => exact (insArrival_perm replay a _).trans (ih.cons a)

/-! ## One arrival (10, R271) -/

/-- What is taken of a frame's quota, and what of it may still be taken. -/
def Admitting.claim (k : Admitting) : Nat := k.recs.countP (!·.fromPcie) + k.quota + k.kept

/-- A record that did not come by PCIe is admitted where a place is left for it: one kept for late tick sources, or one of the quota. -/
theorem State.place_of_mayAdmit {s : State} {k : Admitting} {a : Arrival} (hp : a.fromPcie = false) (h : s.mayAdmit a k = true) :
    (a.created = true → 0 < k.kept) ∧ (a.created = false → 0 < k.quota) := by
  refine ⟨fun hc => ?_, fun hc => ?_⟩
  · have hplace : a.external = none ∧ 0 < k.kept := by simpa [State.mayAdmit, hp, hc] using h
    exact hplace.2
  · obtain ⟨-, hplace, -⟩ : a.external = none ∧ 0 < k.quota ∧ _ := by simpa [State.mayAdmit, hp, hc] using h
    exact hplace

section
variable (s : State) (k : Admitting) (a : Arrival)

/-- An arrival is taken or refused, but for a record made for a late tick source that finds no place (log entry 67). -/
theorem State.admitOne_settles : ∃ n, n ≤ [a].countP (·.created) ∧
    (s.admitOne k a).recs.length + (s.admitOne k a).drops.length + n = k.recs.length + k.drops.length + 1 := by
  unfold State.admitOne
  split
  · exact ⟨0, Nat.zero_le _, by simp only [List.length_append, List.length_singleton]; omega⟩
  · split
    · next hmade => exact ⟨1, by simp [hmade], rfl⟩
    · exact ⟨0, Nat.zero_le _, by simp only [List.length_append, List.length_singleton]; omega⟩
/-- A record that did not come by PCIe uses up a place of the quota or one of those kept. -/
theorem State.admitOne_claim : (s.admitOne k a).claim ≤ k.claim := by
  unfold State.admitOne
  split
  · next hmay =>
    simp only [Admitting.claim, List.countP_append, List.countP_singleton]
    cases hp : a.fromPcie with
    | true =>
      simp only [Bool.true_or, if_true, Bool.not_true, Bool.false_eq_true, if_false]
      split <;> omega
    | false =>
      have hplace := State.place_of_mayAdmit hp hmay
      cases hc : a.created with
      | true => have := hplace.1 hc; simp; omega
      | false => have := hplace.2 hc; simp; omega
  · split <;> exact Nat.le_refl _
end

/-! ## The arrivals of a frame -/

theorem State.admitMany_settles (s : State) (l : List Arrival) (k : Admitting) : ∃ n, n ≤ l.countP (·.created) ∧
    (l.foldl s.admitOne k).recs.length + (l.foldl s.admitOne k).drops.length + n = k.recs.length + k.drops.length + l.length := by
  induction l generalizing k with
  | nil => exact ⟨0, Nat.zero_le _, rfl⟩
  | cons a l ih =>
    obtain ⟨m, hm, hone⟩ := s.admitOne_settles k a
    obtain ⟨n, hn, hrest⟩ := ih (s.admitOne k a)
    refine ⟨m + n, ?_, ?_⟩
    · rw [← List.singleton_append, List.countP_append]
      omega
    · rw [List.foldl_cons, List.length_cons]
      omega
theorem State.admitMany_claim (s : State) (l : List Arrival) (k : Admitting) : (l.foldl s.admitOne k).claim ≤ k.claim := by
  induction l generalizing k with
  | nil => exact Nat.le_refl _
  | cons a l ih => exact (ih _).trans (s.admitOne_claim k a)

/-- The arrivals of a cohort's frame, in arrival order. -/
def Fold.mine (x : Fold) (c : Cohort) : List Arrival := sortArrivals x.run.replay (x.adm.arrivals.filter fun a => a.frame == c.frame)
/-- The places of a cohort's quota that are kept for records made for late tick sources (10, Table 10.5). -/
def Fold.keptFor (x : Fold) (c : Cohort) : Nat := min c.quota ((x.mine c).filter (·.created)).length
/-- The admission of a cohort's frame. -/
def State.admitting (s : State) (f : FoldId) (c : Cohort) : Admitting :=
  ((s.fold f).mine c).foldl s.admitOne ⟨[], [], [], c.quota - (s.fold f).keptFor c, (s.fold f).keptFor c, [], 0⟩

theorem State.admitting_quota (s : State) (f : FoldId) (c : Cohort) : (s.admitting f c).recs.countP (!·.fromPcie) ≤ c.quota := by
  have hclaim : (s.admitting f c).claim ≤ 0 + (c.quota - (s.fold f).keptFor c) + (s.fold f).keptFor c := s.admitMany_claim _ _
  have hkept : (s.fold f).keptFor c ≤ c.quota := Nat.min_le_left _ _
  unfold Admitting.claim at hclaim
  omega
theorem State.admitting_settles (s : State) (f : FoldId) (c : Cohort) :
    ∃ n, n ≤ ((s.fold f).adm.arrivals.filter fun a => a.frame == c.frame).countP (·.created) ∧
      (s.admitting f c).recs.length + (s.admitting f c).drops.length + n =
        ((s.fold f).adm.arrivals.filter fun a => a.frame == c.frame).length := by
  have hperm : ((s.fold f).mine c).Perm _ := sortArrivals_perm (s.fold f).run.replay _
  obtain ⟨n, hn, hsum⟩ := s.admitMany_settles ((s.fold f).mine c)
    ⟨[], [], [], c.quota - (s.fold f).keptFor c, (s.fold f).keptFor c, [], 0⟩
  rw [hperm.countP_eq] at hn
  rw [hperm.length_eq] at hsum
  exact ⟨n, hn, hsum.trans (by simp)⟩
theorem State.admitting_none {s : State} {f : FoldId} {c : Cohort} (h : ∀ a ∈ (s.fold f).adm.arrivals, a.frame ≠ c.frame) :
    (s.admitting f c).recs = [] := by
  obtain ⟨n, -, hsum⟩ := s.admitting_settles f c
  have hnone : ((s.fold f).adm.arrivals.filter fun a => a.frame == c.frame) = [] := List.filter_eq_nil_iff.2 (by simpa using h)
  rw [hnone, List.length_nil] at hsum
  exact List.eq_nil_of_length_eq_zero (by omega)

/-! ## A cohort is admitted (10, R271, R272) -/

/-- A cohort of the frame, admitted with the records and refusals of `k`; any other as before. -/
def Admitting.settle (k : Admitting) (x : Fold) (c d : Cohort) : Cohort :=
  if d.frame = c.frame then
    { d with recs := k.recs.map fun a => a.toRec x.load c.ext, drops := k.drops, dropCount := k.drops.length, admitted := true } else d
/-- The Fold after the admission of a cohort's frame. -/
def Fold.afterAdmission (x : Fold) (c : Cohort) (k : Admitting) : Fold := { x with
  adm := { x.adm with arrivals := x.adm.arrivals.filter fun a => a.frame != c.frame }
  res := { x.res with taken := x.res.taken + k.taken }
  tel := { x.tel with admitted := x.tel.admitted + k.recs.length, drops := x.tel.drops + k.drops.length }
  pipe := x.pipe.map (k.settle x c) }
theorem State.admitCohort_fold (s : State) (f g : FoldId) (c : Cohort) :
    (s.admitCohort f c).fold g = (s.setFold f ((s.fold f).afterAdmission c (s.admitting f c))).fold g :=
  foldl_view (fun s => s.fold g) _ (fun s e => by simp) _ _
theorem State.admitCohort_same (s : State) (f : FoldId) (c : Cohort) :
    (s.admitCohort f c).fold f = (s.fold f).afterAdmission c (s.admitting f c) := by
  rw [State.admitCohort_fold, State.setFold_same]
theorem State.admitCohort_rest (s : State) (f : FoldId) (c : Cohort) :
    othersSame f s (s.admitCohort f c) ∧ storesSame s (s.admitCohort f c) ∧ (s.admitCohort f c).out = s.out := by
  refine ⟨fun g hg => by rw [State.admitCohort_fold, State.setFold_other _ _ _ _ hg], ⟨?_, ?_, ?_⟩, ?_⟩
  · exact foldl_view State.tiles _ (fun s e => by simp) _ _
  · exact foldl_view State.hbms _ (fun s e => by simp) _ _
  · exact foldl_view State.chans _ (fun s e => by simp) _ _
  · exact foldl_view State.out _ (fun s e => by simp) _ _

section
variable (k : Admitting) (x : Fold) (c d : Cohort)

@[simp] theorem Admitting.settle_frame : (k.settle x c d).frame = d.frame := by
  unfold Admitting.settle
  split <;> rfl
theorem Admitting.settle_other (h : d.frame ≠ c.frame) : k.settle x c d = d := if_neg h
theorem Admitting.settle_admitted (h : d.admitted = true ∨ c.frame = d.frame) : (k.settle x c d).admitted = true := by
  unfold Admitting.settle
  split
  · rfl
  · next hne => exact h.resolve_right fun he => hne he.symm
end

/-- The record did not come by PCIe: it takes of the quota of its frame (10, R270). -/
def Rec.paced (r : Rec) : Bool := match r.route with
  | .pcie _ _ => false
  | _ => true
theorem Arrival.toRec_paced (a : Arrival) (l : Option Loaded) (ext : List (Nat × Bytes)) : (a.toRec l ext).paced = !a.fromPcie := by
  show (match a.route with | .pcie _ _ => false | _ => true) = !a.fromPcie
  unfold Arrival.fromPcie
  cases a.route <;> rfl
theorem Admitting.settle_paced (k : Admitting) (x : Fold) {c d : Cohort} (h : d.frame = c.frame) :
    (k.settle x c d).recs.countP Rec.paced = k.recs.countP (!·.fromPcie) := by
  rw [Admitting.settle, if_pos h, List.countP_map]
  exact congrArg (List.countP · k.recs) (funext fun a => a.toRec_paced x.load c.ext)

/-! ## Every closed frame (10, R273) -/

/-- Cohorts admitted in turn. -/
def State.admitEach (s : State) (f : FoldId) (cs : List Cohort) : State := cs.foldl (fun s c => s.admitCohort f c) s
/-- The cohorts that still wait for admission. -/
def Fold.unadmitted (x : Fold) : List Cohort := x.pipe.filter fun c => !c.admitted
theorem Fold.mem_unadmitted {x : Fold} {c : Cohort} : c ∈ x.unadmitted ↔ c ∈ x.pipe ∧ c.admitted = false := by
  simp [Fold.unadmitted]
theorem State.admitEach_append (s : State) (f : FoldId) (cs : List Cohort) (c : Cohort) :
    s.admitEach f (cs ++ [c]) = (s.admitEach f cs).admitCohort f c := by
  simp [State.admitEach]

/-- From `x` on, each arrival of `x` waits still, or is counted as taken or as dropped, or was made for a late tick source and is gone. -/
def Fold.accounted (x y : Fold) : Prop :=
  ∃ n, n + y.adm.arrivals.countP (·.created) ≤ x.adm.arrivals.countP (·.created) ∧
    y.tel.admitted + y.tel.drops + y.adm.arrivals.length + n = x.tel.admitted + x.tel.drops + x.adm.arrivals.length
theorem Fold.accounted.trans {x y z : Fold} (hxy : x.accounted y) (hyz : y.accounted z) : x.accounted z := by
  obtain ⟨m, hm, hsum⟩ := hxy
  obtain ⟨n, hn, hsum'⟩ := hyz
  exact ⟨m + n, by omega, by omega⟩
theorem State.admitting_accounted (s : State) (f : FoldId) (c : Cohort) :
    (s.fold f).accounted ((s.fold f).afterAdmission c (s.admitting f c)) := by
  obtain ⟨n, hn, hsum⟩ := s.admitting_settles f c
  have hcount := List.countP_eq_countP_filter_add (s.fold f).adm.arrivals (·.created) fun a => a.frame == c.frame
  have hlength := List.length_eq_length_filter_add (l := (s.fold f).adm.arrivals) fun a => a.frame == c.frame
  refine ⟨n, ?_, ?_⟩
  · simp only [Fold.afterAdmission, bne]
    omega
  · simp only [Fold.afterAdmission, bne]
    omega

section
variable (s : State) (f : FoldId) (cs : List Cohort)

theorem State.admitEach_rest : othersSame f s (s.admitEach f cs) ∧ storesSame s (s.admitEach f cs) ∧
    (s.admitEach f cs).cfg = s.cfg ∧ (s.admitEach f cs).out = s.out := by
  induction cs generalizing s with
  | nil => exact ⟨fun _ _ => rfl, ⟨rfl, rfl, rfl⟩, rfl, rfl⟩
  | cons c cs ih =>
    obtain ⟨hcfg, -, -⟩ := s.admitCohort_settings f c
    obtain ⟨hothers, hstores, hout⟩ := s.admitCohort_rest f c
    obtain ⟨hothers', hstores', hcfg', hout'⟩ := ih (s.admitCohort f c)
    exact ⟨hothers.trans hothers', hstores.trans hstores', hcfg'.trans hcfg, hout'.trans hout⟩
theorem State.admitEach_fold : ((s.admitEach f cs).fold f).st = (s.fold f).st ∧ ((s.admitEach f cs).fold f).led = (s.fold f).led := by
  constructor
  · exact foldl_view (fun v => (v.fold f).st) _ (fun v c => by rw [State.admitCohort_same, Fold.afterAdmission]) _ _
  · exact foldl_view (fun v => (v.fold f).led) _ (fun v c => by rw [State.admitCohort_same, Fold.afterAdmission]) _ _
theorem State.mem_admitEach_arrivals (a : Arrival) : a ∈ ((s.admitEach f cs).fold f).adm.arrivals ↔
    a ∈ (s.fold f).adm.arrivals ∧ ∀ c ∈ cs, a.frame ≠ c.frame := by
  induction cs generalizing s with
  | nil => simp [State.admitEach]
  | cons c cs ih =>
    rw [State.admitEach, List.foldl_cons, ← State.admitEach, ih, State.admitCohort_same]
    simp [Fold.afterAdmission, and_assoc]
theorem State.admitEach_accounted : (s.fold f).accounted ((s.admitEach f cs).fold f) := by
  induction cs generalizing s with
  | nil => exact ⟨0, by simp [State.admitEach], rfl⟩
  | cons c cs ih => exact (State.admitCohort_same s f c ▸ s.admitting_accounted f c).trans (ih _)
/-- Of two cohorts of one frame the first takes its arrivals, so that the second leaves both without records: the bound holds for either. -/
theorem State.admitEach_pipe : ∃ g : Cohort → Cohort, ((s.admitEach f cs).fold f).pipe = (s.fold f).pipe.map g ∧
    ∀ d, (g d).frame = d.frame ∧ (d.admitted = true ∨ (∃ c ∈ cs, c.frame = d.frame) → (g d).admitted = true) ∧
      ∀ c ∈ cs, c.frame = d.frame → (g d).recs.countP Rec.paced ≤ c.quota := by
  induction cs using List.reverseRecOn with
  | nil => exact ⟨id, by simp [State.admitEach], fun d => ⟨rfl, fun h => h.resolve_right (by simp), by simp⟩⟩
  | append_singleton cs c ih =>
    obtain ⟨g, hpipe, hg⟩ := ih
    rw [State.admitEach_append, State.admitCohort_same]
    generalize hv : s.admitEach f cs = v at hpipe ⊢
    refine ⟨(v.admitting f c).settle (v.fold f) c ∘ g, by simp [Fold.afterAdmission, hpipe], fun d => ?_⟩
    obtain ⟨hframe, hadmitted, hquota⟩ := hg d
    refine ⟨by simp [hframe], fun h => Admitting.settle_admitted _ _ _ _ ?_, fun e he hed => ?_⟩
    · rcases h with h | ⟨e, he, hed⟩
      · exact .inl (hadmitted (.inl h))
      · rcases List.mem_append.1 he with he | he
        · exact .inl (hadmitted (.inr ⟨e, he, hed⟩))
        · exact .inr (by rw [← List.mem_singleton.1 he, hframe, hed])
    · by_cases hc : (g d).frame = c.frame
      · rw [Function.comp, Admitting.settle_paced _ _ hc]
        rcases List.mem_append.1 he with he | he
        · have hgone : ∀ a ∈ (v.fold f).adm.arrivals, a.frame ≠ c.frame := by
            intro a ha
            rw [← hc, hframe, ← hed]
            exact ((State.mem_admitEach_arrivals s f cs a).1 (hv ▸ ha)).2 e he
          simp [State.admitting_none hgone]
        · rw [List.mem_singleton.1 he]
          exact v.admitting_quota f c
      · rw [Function.comp, Admitting.settle_other _ _ _ _ hc]
        refine hquota e ((List.mem_append.1 he).resolve_right fun he => hc ?_) hed
        rw [hframe, ← hed, List.mem_singleton.1 he]
end

theorem exec_admission_halted {t : Nat} {f : FoldId} {s u : State} (hu : s.tick t = u) (hp : u.power.halted = true) :
    exec (.admission t f) s = .next u := by
  show execAdmission t f s = _
  simp [execAdmission, hu, hp]
theorem exec_admission_due {t : Nat} {f : FoldId} {s u : State} (hu : s.tick t = u) (hp : u.power.halted = false) :
    exec (.admission t f) s = .next (u.admitEach f (u.fold f).unadmitted) := by
  show execAdmission t f s = _
  simp only [execAdmission, hu, hp, Bool.false_eq_true, if_false]
  rfl

/-- Settles O48: what the admission of one arrival, of one frame and of all frames in turn leaves. -/
theorem admissionTakesEveryClosedFrame : Obligations.AdmissionTakesEveryClosedFrame := by
  intro t f s u hu
  refine ⟨exec_admission_halted hu, fun hp => ⟨_, exec_admission_due hu hp, ?_⟩⟩
  obtain ⟨hothers, hstores, hcfg, hout⟩ := u.admitEach_rest f (u.fold f).unadmitted
  obtain ⟨hst, hled⟩ := u.admitEach_fold f (u.fold f).unadmitted
  obtain ⟨n, hn, hsum⟩ := u.admitEach_accounted f (u.fold f).unadmitted
  obtain ⟨g, hpipe, hg⟩ := u.admitEach_pipe f (u.fold f).unadmitted
  refine ⟨fun d hd => ?_, by rw [hpipe, List.length_map], fun a => ?_, ⟨n, ?_, hsum⟩,
    fun i c hi hc => ⟨g c, by simp [hpipe, hi], (hg c).1, ?_⟩,
    hst.trans (by simp [← hu]), hled.trans (by simp [← hu]), (hu ▸ othersSame_tick s t f).trans hothers,
    (hu ▸ storesSame_tick s t).trans hstores, hcfg.trans (by simp [← hu]), hout.trans (by simp [← hu])⟩
  · obtain ⟨c, hc, rfl⟩ := List.mem_map.1 (hpipe ▸ hd)
    obtain ⟨-, hadmitted, -⟩ := hg c
    cases h : c.admitted with
    | true => exact hadmitted (.inl h)
    | false => exact hadmitted (.inr ⟨c, Fold.mem_unadmitted.2 ⟨hc, h⟩, rfl⟩)
  · rw [State.mem_admitEach_arrivals]
    simp only [Fold.mem_unadmitted, and_imp]
  · rw [← List.countP_eq_length_filter]
    exact (Nat.le_add_right n _).trans hn
  · obtain ⟨-, -, hquota⟩ := hg c
    have hle := hquota c (Fold.mem_unadmitted.2 ⟨List.mem_of_getElem? hi, hc⟩) rfl
    rw [List.countP_eq_length_filter] at hle
    exact hle

end Sys2Proof.Machine
end

section
/-! PROOFS. RECORD (08, R210; 10, R280; 18, R489, R494). -/

namespace Sys2Proof.Machine

/-- The Fold with one more record-buffer read outstanding: a credit and, under a replay header, a place are taken (08, R210; log entry 25). -/
def Fold.startRead (x : Fold) (cid res : Nat) : Fold := { x with
  adm := { x.adm with reads := x.adm.reads ++ [⟨cid, res, x.adm.fetched, x.repTag⟩], fetched := x.adm.fetched + 1 }
  res := { x.res with taken := x.res.taken + 1 }
  rep := if x.run.replay = true then { x.rep with cur := x.rep.cur.map fun c => (c.1, c.2.1, c.2.2 + 1) } else x.rep }
/-- Only a read of a replay Fold moves its header on. -/
theorem Fold.takePlace (x : Fold) : { x.rep with cur := x.rep.cur.map fun c => if x.run.replay then (c.1, c.2.1, c.2.2 + 1) else c } =
    if x.run.replay = true then { x.rep with cur := x.rep.cur.map fun c => (c.1, c.2.1, c.2.2 + 1) } else x.rep := by
  split
  · rfl
  · rw [Option.map_id']
theorem State.issueRead_eq (v : State) (f : FoldId) (q : QHdr) (addr len res : Nat) :
    v.issueRead f q addr len res = (v.setFold f ((v.fold f).startRead q.cid res)).send (.hostRead q.fn.val addr len) := by
  rw [Fold.startRead, ← Fold.takePlace]
  rfl

/-- What a RECORD entry does to a card `v` that has fetched it for a Fold `x` with a bundle: the checks in their order. -/
def State.takeRecord (v : State) (q : QHdr) (x : Fold) (l : Loaded) (addr len res n : Nat) : State :=
  if x.growingNow = true then v.complete1 q 1 0 0 0 0
  else if x.recordPlace = false then v.complete1 q 0x24 0 0 0 0
  else if len = 0 ∨ 8192 < len ∨ res % 8 ≠ 0 then v.complete1 q 2 0 0 0 0
  else if n < bodyLen l + 32 then v.complete1 q 0x22 0 0 0 0
  else v.issueRead q.fold q addr len res

section
variable {t : Nat} {q : QHdr} {s u : State} {l : Loaded} (hu : s.tick t = u) (hq : takesEntry u q) (addr len res n : Nat)
include hu hq

/-- The entry of a Fold that is not live stays on the ring (log entry 14). -/
theorem exec_record_notLive (hlive : (u.fold q.fold).live = false) : exec (.record t q addr len res n) s = .next u := by
  obtain ⟨hfetch, _, hfn, hready⟩ := hq
  have hf : foldOf q.fn = q.fold := by rw [hfn, foldOf_vfOf]
  show execRecord t q addr len res n s = _
  simp [execRecord, hu, hfetch, hready, hf, hlive]
/-- So does an entry that has a place but no share of the frame left (10, R280). -/
theorem exec_record_noShare (hg : (u.fold q.fold).growingNow = false) (hp : (u.fold q.fold).recordPlace = true)
    (hshare : (u.fold q.fold).adm.qp ≤ (u.fold q.fold).adm.reads.length + (u.fold q.fold).adm.stamped) :
    exec (.record t q addr len res n) s = .next u := by
  obtain ⟨hfetch, _, hfn, hready⟩ := hq
  have hf : foldOf q.fn = q.fold := by rw [hfn, foldOf_vfOf]
  show execRecord t q addr len res n s = _
  simp [execRecord, hu, hfetch, hready, hf, hg, hp, hshare]
theorem exec_record_taken (hlive : (u.fold q.fold).live = true) (hl : (u.fold q.fold).load = some l)
    (h : (u.fold q.fold).growingNow = true ∨ (u.fold q.fold).recordPlace = false ∨
      (u.fold q.fold).adm.reads.length + (u.fold q.fold).adm.stamped < (u.fold q.fold).adm.qp) :
    exec (.record t q addr len res n) s = .next ((u.fetch q.fn 1).takeRecord q (u.fold q.fold) l addr len res n) := by
  have hentry := State.entry_taken hq
  obtain ⟨hfetch, _, hfn, _⟩ := hq
  have hf : foldOf q.fn = q.fold := by rw [hfn, foldOf_vfOf]
  have hshare : ¬ ((u.power.ready && !(u.fold q.fold).growingNow && (u.fold q.fold).recordPlace &&
      decide ((u.fold q.fold).adm.qp ≤ (u.fold q.fold).adm.reads.length + (u.fold q.fold).adm.stamped)) = true) := by
    rcases h with h | h | h <;> simp [h]
  show execRecord t q addr len res n s = _
  simp only [execRecord, hu, hfetch, hf, hlive, hentry, hl, State.takeRecord, Bool.not_true, Bool.and_false, Bool.false_eq_true, if_false,
    if_neg hshare, Bool.not_eq_true', Bool.or_eq_true, decide_eq_true_eq, Nat.lt_one_iff, or_assoc]
end

section
variable (v : State) (q : QHdr) {x : Fold} {l : Loaded} {addr len res n : Nat}

theorem State.takeRecord_growing (hg : x.growingNow = true) : v.takeRecord q x l addr len res n = v.complete1 q 1 0 0 0 0 := if_pos hg

section
variable (hg : x.growingNow = false)
include hg

theorem State.takeRecord_placeless (hp : x.recordPlace = false) : v.takeRecord q x l addr len res n = v.complete1 q 0x24 0 0 0 0 := by
  simp [State.takeRecord, hg, hp]
theorem State.takeRecord_malformed (hp : x.recordPlace = true) (h : len = 0 ∨ 8192 < len ∨ res % 8 ≠ 0) :
    v.takeRecord q x l addr len res n = v.complete1 q 2 0 0 0 0 := by
  simp only [State.takeRecord, hg, hp, h, Bool.false_eq_true, Bool.true_eq_false, if_false, if_true]

section
variable (hp : x.recordPlace = true) (h1 : 1 ≤ len) (h2 : len ≤ 8192) (h8 : res % 8 = 0)
include hp h1 h2 h8

theorem State.takeRecord_formed : v.takeRecord q x l addr len res n =
    if n < bodyLen l + 32 then v.complete1 q 0x22 0 0 0 0 else v.issueRead q.fold q addr len res := by
  have hgood : ¬ (len = 0 ∨ 8192 < len ∨ res % 8 ≠ 0) := by omega
  simp only [State.takeRecord, hg, hp, hgood, Bool.false_eq_true, Bool.true_eq_false, if_false]
theorem State.takeRecord_small (hn : n < bodyLen l + 32) : v.takeRecord q x l addr len res n = v.complete1 q 0x22 0 0 0 0 := by
  rw [State.takeRecord_formed v q hg hp h1 h2 h8, if_pos hn]
theorem State.takeRecord_read (hn : bodyLen l + 32 ≤ n) (hx : v.fold q.fold = x) :
    v.takeRecord q x l addr len res n = (v.setFold q.fold (x.startRead q.cid res)).send (.hostRead q.fn.val addr len) := by
  rw [State.takeRecord_formed v q hg hp h1 h2 h8, if_neg (Nat.not_lt.2 hn), State.issueRead_eq, hx]
end
end
end

/-- Settles O31: an entry stays on the ring or is taken, and what is taken passes the checks in their order. -/
theorem recordsWaitForTheirFramesShare : Obligations.RecordsWaitForTheirFramesShare := by
  intro t q addr len res n s u v l x hu hv hq hx hl
  subst hv hx
  have htaken := fun hlive => exec_record_taken hu hq addr len res n hlive hl
  refine ⟨exec_record_notLive hu hq addr len res n, fun hlive hg => ?_, fun hlive hg hp => ?_, fun hlive hg hp =>
    ⟨exec_record_noShare hu hq addr len res n hg hp, fun hshare => ⟨fun hbad => ?_, fun h1 h2 h8 hn => ?_, fun h1 h2 h8 hn => ?_⟩⟩⟩
  · rw [htaken hlive (.inl hg), State.takeRecord_growing _ q hg]
  · rw [htaken hlive (.inr (.inl hp)), State.takeRecord_placeless _ q hg hp]
  · rw [htaken hlive (.inr (.inr hshare)), State.takeRecord_malformed _ q hg hp hbad]
  · rw [htaken hlive (.inr (.inr hshare)), State.takeRecord_small _ q hg hp h1 h2 h8 hn]
  · refine ⟨_, htaken hlive (.inr (.inr hshare)), ?_⟩
    rw [State.takeRecord_read _ q hg hp h1 h2 h8 hn (by simp)]
    have hfold (x : Fold) (o : Output) : (((u.fetch q.fn 1).setFold q.fold x).send o).fold q.fold = x := by simp
    exact ⟨by rw [hfold], hfold _ _⟩

end Sys2Proof.Machine
end

section
/-! PROOFS. Process data, PDOs, boot-up messages, pauses and LLDP (10, R258, R281 to R285; 13, Table 13.10). -/

namespace Sys2Proof.Machine

/-! ## Images (10, R281, R283) -/

/-- A delivery changes the Folds and nothing else of the card. -/
theorem State.deliverInput_rest (s : State) (f : FoldId) (i unit : Nat) (pos : Nat × Nat) (recId body : Bytes) (route : Route) :
    ∃ fs, s.deliverInput f i unit pos recId body route = { s with folds := fs } := by
  unfold State.deliverInput
  dsimp only
  (repeat' split) <;> exact ⟨_, rfl⟩
theorem State.deliverImage_rest (s : State) (source pdo : Nat) (recId image : Bytes) :
    ∃ fs, s.deliverImage source pdo recId image = { s with folds := fs } := by
  unfold State.deliverImage
  generalize s.bindings source pdo = l
  induction l generalizing s with
  | nil => exact ⟨_, rfl⟩
  | cons e l ih =>
    obtain ⟨fs, hone⟩ := s.deliverInput_rest e.1 e.2.1 0 (e.2.2.offset, e.2.1) recId (slice image e.2.2.offset e.2.2.length) .field
    rw [List.foldl_cons, hone]
    exact ih { s with folds := fs }
theorem State.deliverImage_card (s : State) (source pdo : Nat) (recId image : Bytes) :
    (s.deliverImage source pdo recId image).shep = s.shep ∧ (s.deliverImage source pdo recId image).cfg = s.cfg ∧
    storesSame s (s.deliverImage source pdo recId image) := by
  obtain ⟨fs, hrest⟩ := s.deliverImage_rest source pdo recId image
  rw [hrest]
  exact ⟨rfl, rfl, rfl, rfl, rfl⟩

/-- The RxPDO image of SyncManager 2 is stored (10, R281). -/
def State.storeRxImage (s : State) (b : Bytes) : State := { s with shep := { s.shep with rxImage := mwrite s.shep.rxImage 0 b } }
/-- The image taken in OP: stored, and delivered to every input bound to it (10, R281). -/
def State.takeRxImage (s : State) (b : Bytes) : State := (s.storeRxImage b).deliverImage 1 0 (le 1 2 ++ le 8 s.now) b
theorem State.takeRxImage_card (s : State) (b : Bytes) : (s.takeRxImage b).shep.rxImage = mwrite s.shep.rxImage 0 b ∧
    (s.takeRxImage b).shep.txImage = s.shep.txImage ∧ (s.takeRxImage b).cfg = s.cfg ∧ storesSame s (s.takeRxImage b) := by
  obtain ⟨hshep, hcfg, hstores⟩ := (s.storeRxImage b).deliverImage_card 1 0 (le 1 2 ++ le 8 s.now) b
  exact ⟨(congrArg Shepherd.rxImage hshep).trans rfl, (congrArg Shepherd.txImage hshep).trans rfl, hcfg, hstores⟩

section
variable {t : Nat} {s u : State} (hu : s.tick t = u)
include hu

section
variable (b : Bytes) (hup : u.ecatUp = true)
include hup

theorem exec_processData_op (hop : u.shep.alState = 8) : exec (.ethercatProcessData t true b) s =
    .next ((u.takeRxImage (b.take 1024)).send (.txPdo (mread u.shep.txImage 0 512))) := by
  obtain ⟨-, htx, -, -⟩ := u.takeRxImage_card (b.take 1024)
  rw [← htx]
  show execEthercatProcessData t true b s = _
  simp only [execEthercatProcessData, hu]
  rw [if_neg (by simp [hup, hop]), if_pos hop]
  rfl
theorem exec_processData_safeOp (hsafe : u.shep.alState = 4) :
    exec (.ethercatProcessData t true b) s = .next (u.send (.txPdo (mread u.shep.txImage 0 512))) := by
  show execEthercatProcessData t true b s = _
  simp [execEthercatProcessData, hu, hup, hsafe]
end
theorem exec_processData_below (b : Bytes) (hlow : u.shep.alState < 4) : exec (.ethercatProcessData t true b) s = .next u := by
  show execEthercatProcessData t true b s = _
  simp [execEthercatProcessData, hu, hlow]
/-- A frame with a bad check sequence is lost. -/
theorem exec_processData_lost (b : Bytes) : exec (.ethercatProcessData t false b) s = .next u := by
  show execEthercatProcessData t false b s = _
  simp [execEthercatProcessData, hu]

theorem exec_canPdo_operational (p : Fin 4) (id : Nat) (b : Bytes) (hup : u.fieldUp = true) (hnmt : u.shep.nmt = 5) :
    exec (.canPdo t p id b) s = .next (u.deliverImage 2 (p.val + 1) (le 4 id ++ le 8 u.now) (b.take 64)) := by
  show execCanPdo t p id b s = _
  simp [execCanPdo, hu, hup, hnmt]
theorem exec_canPdo_other (p : Fin 4) (id : Nat) (b : Bytes) (hnmt : u.shep.nmt ≠ 5) : exec (.canPdo t p id b) s = .next u := by
  show execCanPdo t p id b s = _
  simp [execCanPdo, hu, hnmt]
theorem exec_canBootup (n : Nat) (hup : u.fieldUp = true) (hnmt : u.shep.nmt ≠ 0) (h1 : 1 ≤ n) (h127 : n ≤ 127) :
    exec (.canBootupMessage t n) s = .next { u with shep := { u.shep with nodes := mset 0 u.shep.nodes n 1 } } := by
  show execCanBootupMessage t n s = _
  simp only [execCanBootupMessage, hu]
  rw [if_neg (by simp [hup, hnmt]; omega)]
end

/-! ## A port written again -/

theorem State.modPort_modPort (s : State) (p : PortId) (g h : Port → Port) : (s.modPort p g).modPort p h = s.modPort p (h ∘ g) := by
  have hset : vset (vset s.ports p (g (s.port p))) p (h (g (s.port p))) = vset s.ports p (h (g (s.port p))) := Vector.set_set ..
  simp only [State.modPort, State.port, vget_vset_same, Function.comp] at hset ⊢
  rw [hset]
theorem State.modPort_congr {s : State} {p : PortId} {g h : Port → Port} (he : g (s.port p) = h (s.port p)) : s.modPort p g = s.modPort p h := by
  rw [State.modPort, he, State.modPort]
theorem State.modPort_self {s : State} {p : PortId} {g : Port → Port} (h : g (s.port p) = s.port p) : s.modPort p g = s := by
  have hset : vset s.ports p (s.port p) = s.ports := Vector.set_getElem_self _
  rw [State.modPort, h, hset]

/-! ## Pauses (10, R258) -/

/-- A pause frame counts, and where it stops the port's results it says until when. -/
def Port.paused (x : Port) (stops : Prop) [Decidable stops] (resume : Nat) : Port :=
  { x with pause := x.pause + 1, pausedUntil := if stops then resume else x.pausedUntil }
theorem exec_pauseFrame {t : Nat} {s u : State} (hu : s.tick t = u) {p : PortId} (hp : p.val < portCount u.cfg.portLayout) (k : PauseKind)
    (prio n : Nat) : exec (.pauseFrame t p k prio n) s =
      .next (u.modPort p fun x => x.paused (k = .clause31 ∨ prio = u.num 0x2033 0 0) (u.now + n)) := by
  show execPauseFrame t p k prio n s = _
  simp only [execPauseFrame, hu, if_neg (Nat.not_le.2 hp), State.modPort_modPort]
  by_cases h : k = .clause31 ∨ prio = u.num 0x2033 0 0
  · refine (if_pos h).trans (congrArg _ (State.modPort_congr ?_))
    rw [Port.paused, if_pos h]
    rfl
  · refine (if_neg h).trans (congrArg _ (State.modPort_congr ?_))
    rw [Port.paused, if_neg h]

/-! ## LLDP (10, R285) -/

/-- The port has lost a neighbour whose TTL has run out. -/
def Port.aged (x : Port) (now : Nat) : Port := match x.neighbour with
  | some n => if n.expires ≤ now then { x with neighbour := none } else x
  | none => x
/-- The port is of the layout and up, and its next LLDPDU is due. -/
def State.lldpDue (s : State) (p : PortId) : Bool :=
  (s.port p).up && decide (p.val < portCount s.cfg.portLayout) && decide ((s.port p).lldpNext ≤ s.now)
/-- One port's turn at the LLDP timer. -/
def State.lldpTurn (s : State) (p : PortId) : State :=
  if s.lldpDue p then ((s.modPort p fun x => x.aged s.now).modPort p fun x => { x with lldpNext := s.now + 30000000000 }).send
    (.lldp p.val 120 s.sec.serial s.card)
  else s.modPort p fun x => x.aged s.now

/-- The ports have their turns in order; ageing a port that keeps its neighbour leaves the card as it is. -/
theorem exec_lldpTimer {t : Nat} {s u : State} (hu : s.tick t = u) :
    exec (.lldpTimer t) s = .next ((List.finRange 16).foldl State.lldpTurn u) := by
  show execLldpTimer t s = _
  simp only [execLldpTimer, hu]
  congr 2
  funext v p
  unfold State.lldpTurn State.lldpDue
  cases hn : (v.port p).neighbour with
  | none =>
    rw [State.modPort_self (g := fun x => x.aged v.now) (by simp [Port.aged, hn])]
  | some n =>
    by_cases hexp : n.expires ≤ v.now
    · rw [State.modPort_congr (g := fun x => x.aged v.now) (h := fun x => { x with neighbour := none }) (by simp [Port.aged, hn, hexp])]
      simp only [if_pos hexp]
      rfl
    · rw [State.modPort_self (g := fun x => x.aged v.now) (by simp [Port.aged, hn, hexp])]
      simp only [if_neg hexp]

theorem Port.aged_neighbour {x : Port} {n : Neighbour} (h : x.neighbour = some n) (now : Nat) :
    (x.aged now).neighbour = if n.expires ≤ now then none else some n := by
  rw [Port.aged, h]
  dsimp only
  split
  · rfl
  · exact h

section
variable (s : State) (p : PortId)

/-- The turn of a port changes ports and the output alone. -/
theorem State.lldpTurn_rest : ∃ ps o, s.lldpTurn p = { s with ports := ps, out := o } := by
  unfold State.lldpTurn State.send
  (repeat' split) <;> exact ⟨_, _, rfl⟩
theorem State.lldpTurn_other {j : PortId} (h : j ≠ p) : (s.lldpTurn p).port j = s.port j := by
  unfold State.lldpTurn
  split <;> simp [h]
theorem State.lldpTurn_same : (s.lldpTurn p).port p =
    if s.lldpDue p then { (s.port p).aged s.now with lldpNext := s.now + 30000000000 } else (s.port p).aged s.now := by
  unfold State.lldpTurn
  split <;> simp
theorem State.mem_lldpTurn_out {o : Output} (h : o ∈ s.out) : o ∈ (s.lldpTurn p).out := by
  unfold State.lldpTurn
  split
  · exact State.mem_send_out (by simpa using h) _
  · simpa using h
theorem State.lldpTurn_sends (hdue : s.lldpDue p = true) (hg : s.power.gated = false) :
    .lldp p.val 120 s.sec.serial s.card ∈ (s.lldpTurn p).out := by
  rw [State.lldpTurn, if_pos hdue]
  simp [State.send, hg]
end

section
variable (l : List PortId) (s : State)

theorem State.lldpTurns_rest : ∃ ps o, l.foldl State.lldpTurn s = { s with ports := ps, out := o } := by
  induction l generalizing s with
  | nil => exact ⟨_, _, rfl⟩
  | cons p l ih =>
    obtain ⟨ps, o, hone⟩ := s.lldpTurn_rest p
    rw [List.foldl_cons, hone]
    exact ih _
theorem State.lldpTurns_other {j : PortId} (h : j ∉ l) : (l.foldl State.lldpTurn s).port j = s.port j := by
  induction l generalizing s with
  | nil => rfl
  | cons p l ih =>
    rw [List.mem_cons, not_or] at h
    rw [List.foldl_cons, ih _ h.2, State.lldpTurn_other _ _ h.1]
theorem State.mem_lldpTurns_out {o : Output} (h : o ∈ s.out) : o ∈ (l.foldl State.lldpTurn s).out := by
  induction l generalizing s with
  | nil => exact h
  | cons p l ih => exact ih _ (s.mem_lldpTurn_out p h)
end

/-- Each port has its one turn on a card that differs from the first in other ports and in the output only. -/
theorem State.lldpTurns_at (s : State) (p : PortId) : ∃ v : State, (∃ ps o, v = { s with ports := ps, out := o }) ∧
    v.port p = s.port p ∧ ((List.finRange 16).foldl State.lldpTurn s).port p = (v.lldpTurn p).port p ∧
    ∀ o ∈ (v.lldpTurn p).out, o ∈ ((List.finRange 16).foldl State.lldpTurn s).out := by
  have hnodup := List.nodup_finRange 16
  obtain ⟨l, r, hsplit⟩ := List.append_of_mem (List.mem_finRange p)
  rw [hsplit] at hnodup ⊢
  have hl : p ∉ l := fun h => (List.disjoint_of_nodup_append hnodup) h List.mem_cons_self
  have hr : p ∉ r := (List.nodup_cons.1 (List.Nodup.of_append_right hnodup)).1
  rw [List.foldl_append, List.foldl_cons]
  exact ⟨l.foldl State.lldpTurn s, State.lldpTurns_rest l s, State.lldpTurns_other l s hl, State.lldpTurns_other r _ hr,
    fun o ho => State.mem_lldpTurns_out r _ ho⟩
theorem State.lldpTurns_port (s : State) (p : PortId) :
    (((List.finRange 16).foldl State.lldpTurn s).port p =
      if s.lldpDue p then { (s.port p).aged s.now with lldpNext := s.now + 30000000000 } else (s.port p).aged s.now) ∧
    (s.lldpDue p = true → s.power.gated = false →
      .lldp p.val 120 s.sec.serial s.card ∈ ((List.finRange 16).foldl State.lldpTurn s).out) := by
  obtain ⟨v, ⟨ps, o, hv⟩, hbefore, hafter, hout⟩ := s.lldpTurns_at p
  have hdue : v.lldpDue p = s.lldpDue p := by
    rw [State.lldpDue, hbefore, hv]
    rfl
  subst hv
  refine ⟨?_, fun hd hg => hout _ (State.lldpTurn_sends _ p (hdue.trans hd) hg)⟩
  rw [hafter, State.lldpTurn_same, hdue, hbefore]
  rfl

theorem exec_lldpduReceived {t : Nat} {s u : State} (hu : s.tick t = u) (p : PortId) (a b c : Bytes) (ttl : Nat) :
    exec (.lldpduReceived t p a b c ttl) s = .next (u.modPort p fun x => { x with
      rx := x.rx + 1, neighbour := if ttl = 0 then none else some ⟨a.take 64, b.take 64, c.take 64, u.now + ttl * 1000000000⟩ }) := by
  subst hu
  rfl

/-- Settles O37: each frame by whether its controller or port takes it, the LLDP timer by the one turn of each port. -/
theorem fieldImagesAndNeighbours : Obligations.FieldImagesAndNeighbours := by
  refine ⟨fun t b s u hu hup => ⟨fun hop => ?_, exec_processData_safeOp hu b hup, exec_processData_below hu b, exec_processData_lost hu b⟩,
    fun t id p b s u hu hup => ⟨fun hnmt => ?_, exec_canPdo_other hu p id b⟩,
    fun t n s u hu hup hnmt h1 h127 => exec_canBootup hu n hup hnmt h1 h127, fun t prio n p k s u hu hp => ?_, fun t s u hu => ?_,
    fun t ttl p a b c s u hu => exec_lldpduReceived hu p a b c ttl⟩
  · obtain ⟨hrx, -, hcfg, hstores⟩ := u.takeRxImage_card (b.take 1024)
    have hshep : u.shep = s.shep := by simp [← hu]
    have hbefore : u.cfg = s.cfg := by simp [← hu]
    refine ⟨u.takeRxImage (b.take 1024), _, rfl, exec_processData_op hu b hup hop, by rw [hshep], ?_, ?_, ?_⟩
    · simp [hrx, hshep]
    · simp [hcfg, hbefore]
    · exact ((hu ▸ storesSame_tick s t).trans hstores).trans (by simp [storesSame])
  · obtain ⟨hshep, hcfg, hstores⟩ := State.deliverImage_card u 2 (p.val + 1) (le 4 id ++ le 8 u.now) (b.take 64)
    refine ⟨_, exec_canPdo_operational hu p id b hup hnmt, rfl, hcfg.trans ?_, (hu ▸ storesSame_tick s t).trans hstores, hshep.trans ?_⟩
    · simp [← hu]
    · simp [← hu]
  · refine ⟨_, exec_pauseFrame hu hp k prio n, ?_⟩
    subst hu
    simp +contextual [Port.paused, storesSame]
  · have hexec := exec_lldpTimer hu
    have hport := u.lldpTurns_port
    obtain ⟨ps, o, hrest⟩ := State.lldpTurns_rest (List.finRange 16) u
    have hdue (p : PortId) : u.lldpDue p = true ↔
        (s.port p).up = true ∧ p.val < portCount s.cfg.portLayout ∧ (s.port p).lldpNext ≤ u.now := by
      simp [State.lldpDue, ← hu, and_assoc]
    refine ⟨_, hexec, ?_, ?_, ?_, fun p => ⟨fun h => ?_, fun n hn => ?_⟩, fun hg p hup hp hnext => ?_⟩
    · rw [hrest]
      simp [← hu]
    · rw [hrest]
      simp [← hu]
    · rw [hrest]
      exact hu ▸ storesSame_tick s t
    · rw [(hport p).1, if_pos ((hdue p).2 h)]
    · have haged := Port.aged_neighbour (x := u.port p) (by simpa [← hu] using hn) u.now
      rw [(hport p).1]
      split <;> exact haged
    · have hserial : u.sec.serial = s.sec.serial := by simp [← hu]
      exact hserial ▸ (hport p).2 ((hdue p).2 ⟨hup, hp, hnext⟩) hg

end Sys2Proof.Machine
end

section
/-! SUPPORT. What a Fold that stops leaves alone: the links, the Heath, the tiles, and every event that waits (08, R219; 09, Table 9.1). -/

namespace Sys2Proof.Machine

/-- The links, the Heath and the tiles are as before, and every event that waited still waits. -/
def heathKept (v s : State) : Prop := s.links = v.links ∧ s.heath = v.heath ∧ s.tiles = v.tiles ∧ ∀ code, v.reports code → s.reports code

@[simp] theorem heathKept.refl (s : State) : heathKept s s := ⟨rfl, rfl, rfl, fun _ h => h⟩
theorem heathKept.trans {v s t : State} (h : heathKept v s) (h' : heathKept s t) : heathKept v t := by
  obtain ⟨hlinks, hheath, htiles, hreports⟩ := h
  obtain ⟨hlinks', hheath', htiles', hreports'⟩ := h'
  exact ⟨hlinks'.trans hlinks, hheath'.trans hheath, htiles'.trans htiles, fun code hc => hreports' code (hreports code hc)⟩
theorem heathKept_congr {v s t : State} (hlinks : t.links = s.links) (hheath : t.heath = s.heath) (htiles : t.tiles = s.tiles)
    (hevents : t.events = s.events) : heathKept v t ↔ heathKept v s := by
  simp [heathKept, hlinks, hheath, htiles, State.reports_congr hevents]
/-- A loop over steps that leave them alone leaves them alone. -/
@[simp] theorem foldl_heathKept {α : Type} {v : State} (op : State → α → State) (l : List α) (s : State)
    (hop : ∀ s a, heathKept v (op s a) ↔ heathKept v s) : heathKept v (l.foldl op s) ↔ heathKept v s :=
  iff_of_eq (foldl_view (heathKept v) op (fun s a => propext (hop s a)) l s)

section
variable (s v : State)

/-! ## Parts, events, completions -/

@[simp] theorem State.modFold_heathKept (f : FoldId) (g : Fold → Fold) : heathKept v (s.modFold f g) ↔ heathKept v s := Iff.rfl
@[simp] theorem State.modFn_heathKept (n : FnId) (g : Func → Func) : heathKept v (s.modFn n g) ↔ heathKept v s := Iff.rfl
@[simp] theorem State.setSt_heathKept (f : FoldId) (st : FoldState) : heathKept v (s.setSt f st) ↔ heathKept v s :=
  heathKept_congr (by simp) (by simp) (by simp) (by simp)
@[simp] theorem State.send_heathKept (o : Output) : heathKept v (s.send o) ↔ heathKept v s :=
  heathKept_congr (by simp) (by simp) (by simp) (by simp)
@[simp] theorem State.postRecord_heathKept (f : FoldId) (cid status event frame len : Nat) :
    heathKept v (s.postRecord f cid status event frame len) ↔ heathKept v s := by
  unfold State.postRecord
  exact heathKept_congr (by simp) (by simp) (by simp) (by simp)
theorem State.emit_heathKept (unit code : Nat) (d : Bytes) : heathKept s (s.emit unit code d) :=
  ⟨rfl, rfl, rfl, fun _ hc => State.reports_emit hc unit code d⟩

/-! ## The journal and the file store (12, 16) -/

@[simp] theorem State.choosePage_heathKept : heathKept v s.choosePage ↔ heathKept v s := by
  unfold State.choosePage
  dsimp only
  (repeat' split) <;> exact Iff.rfl
@[simp] theorem State.bindLabel_heathKept : heathKept v s.bindLabel ↔ heathKept v s := by
  unfold State.bindLabel
  (repeat' split)
  · exact Iff.rfl
  · exact Iff.rfl
  · exact heathKept_congr (by simp) (by simp) (by simp) (by simp)
@[simp] theorem State.sendPage_heathKept : heathKept v s.sendPage ↔ heathKept v s := by
  unfold State.sendPage
  split
  · exact Iff.rfl
  · exact (State.send_heathKept _ v _).trans (s.bindLabel_heathKept v)
@[simp] theorem State.advanceJournal_heathKept : heathKept v s.advanceJournal ↔ heathKept v s := by
  unfold State.advanceJournal
  dsimp only
  (repeat' split)
  · exact Iff.rfl
  · exact s.choosePage_heathKept v
  · exact (State.sendPage_heathKept _ v).trans (s.choosePage_heathKept v)
@[simp] theorem State.fileIssue_heathKept (f : FoldId) (c : FileCmd) : heathKept v (s.fileIssue f c) ↔ heathKept v s := by
  unfold State.fileIssue State.fileSend State.fileConnect
  split <;> simp
@[simp] theorem State.fileQueue_heathKept (f : FoldId) (cs : List FileCmd) : heathKept v (s.fileQueue f cs) ↔ heathKept v s := by
  simp [State.fileQueue, State.filePump, State.fileTake]

/-! ## Pages (09) -/

@[simp] theorem State.exportFile_heathKept (f : FoldId) (p : Page) (tags : Bool) : heathKept v (s.exportFile f p tags) ↔ heathKept v s := by
  unfold State.exportFile
  dsimp only
  split <;> simp
@[simp] theorem State.sealPage_heathKept (f : FoldId) (p : OpenPage) (n : Nat) : heathKept v (s.sealPage f p n) ↔ heathKept v s := by
  unfold State.sealPage
  dsimp only
  (repeat' split) <;> simp
@[simp] theorem State.sealClosing_heathKept (f : FoldId) (n : Nat) : heathKept v (s.sealClosing f n) ↔ heathKept v s := by
  unfold State.sealClosing
  split <;> simp
@[simp] theorem State.closePage_heathKept (f : FoldId) (n : Nat) (final : Bool) : heathKept v (s.closePage f n final) ↔ heathKept v s := by
  unfold State.closePage
  split <;> simp
@[simp] theorem State.enterCohort_heathKept (f : FoldId) (c : Cohort) (d : Bool) : heathKept v (s.enterCohort f c d) ↔ heathKept v s := by
  unfold State.enterCohort State.sealBefore
  (repeat' split) <;> simp
@[simp] theorem State.finalPage_heathKept (f : FoldId) (n : Nat) : heathKept v (s.finalPage f n) ↔ heathKept v s := by
  simp [State.finalPage]
/-- A page that opens may report the backlog of the ring. -/
theorem State.openPage_heathKept (f : FoldId) (n : Nat) : heathKept s (s.openPage f n) := by
  unfold State.openPage
  dsimp only
  split
  · exact heathKept.trans (by simp) (State.emit_heathKept _ _ _ _)
  · simp
theorem State.splitPage_heathKept (f : FoldId) (n : Nat) : heathKept s (s.splitPage f n) := by
  unfold State.splitPage
  dsimp only
  (repeat' split)
  · refine heathKept.trans ?_ (State.openPage_heathKept _ f n)
    simp
  · simp
  · simp
theorem State.cutAttempt_heathKept (f : FoldId) (n : Nat) : heathKept s (s.cutAttempt f n) := by
  unfold State.cutAttempt State.endAttempt State.appendAll
  split
  · simp [State.splitPage_heathKept]
  · simp

/-! ## A Fold that stops (09, Table 9.1) -/

@[simp] theorem State.dropCohort_heathKept (f : FoldId) (status : Nat) (c : Cohort) :
    heathKept v (s.dropCohort f status c) ↔ heathKept v s :=
  foldl_heathKept _ _ _ fun s r => by split <;> simp
@[simp] theorem State.dropReads_heathKept (f : FoldId) (status : Nat) : heathKept v (s.dropReads f status) ↔ heathKept v s := by
  simp [State.dropReads]
@[simp] theorem State.endCohorts_heathKept (f : FoldId) (held : List Nat) (cs : List Cohort) :
    heathKept v (s.endCohorts f held cs) ↔ heathKept v s := by simp [State.endCohorts]
@[simp] theorem State.writeField_heathKept (f : FoldId) (b : Bytes) : heathKept v (s.writeField f b) ↔ heathKept v s := by
  unfold State.writeField
  dsimp only
  (repeat' split)
  case isTrue.isTrue => exact State.send_heathKept _ v _
  all_goals exact Iff.rfl
@[simp] theorem State.placeRest_heathKept (f : FoldId) (c : Cohort) : heathKept v (s.placeRest f c) ↔ heathKept v s :=
  foldl_heathKept _ _ _ fun s e => by
    unfold State.placeResult State.returnCredits
    dsimp only
    split <;> simp
@[simp] theorem State.fieldResults_heathKept (f : FoldId) (c : Cohort) : heathKept v (s.fieldResults f c) ↔ heathKept v s :=
  foldl_heathKept _ _ _ fun s e => by
    unfold State.returnCredits
    (repeat' split) <;> simp
@[simp] theorem State.toStopped_heathKept (f : FoldId) : heathKept v (s.toStopped f) ↔ heathKept v s := by
  unfold State.toStopped State.tdiError State.recountCredits
  dsimp only
  (repeat' split) <;> simp
theorem State.endRun_heathKept (f : FoldId) : heathKept s (s.endRun f) := by
  unfold State.endRun
  dsimp only
  simp only [State.modFold_heathKept, State.finalPage_heathKept]
  refine heathKept.trans ?_ (State.cutAttempt_heathKept _ f _)
  simp
theorem State.stopNow_heathKept (f : FoldId) : heathKept s (s.stopNow f) := by
  unfold State.stopNow
  dsimp only
  split
  · simp
  · rw [State.toStopped_heathKept]
    refine heathKept.trans ?_ (State.endRun_heathKept _ f)
    rw [State.endCohorts_heathKept, foldl_heathKept]
    · simp
    · intro s c
      split <;> simp
theorem State.noMapping_heathKept (f : FoldId) : heathKept s (s.noMapping f) := by
  unfold State.noMapping
  exact (s.emit_heathKept _ _ _).trans (State.stopNow_heathKept _ f)
end

end Sys2Proof.Machine
end

section
/-! SUPPORT. What the words of the Heath and the departure of a member leave (11, Table 11.3, R295, R303, R315). -/

namespace Sys2Proof.Machine

/-! ## A loop over the links -/

theorem vget_map {α β : Type} {n : Nat} (f : α → β) (v : Vector α n) (i : Fin n) : vget (v.map f) i = f (vget v i) := by
  show (v.map f)[i.val] = f v[i.val]
  simp


/-- A loop whose step at a link changes that link alone changes each link by its own step. -/
theorem foldl_link {op : State → LinkId → State} {g : LinkId → Link → Link} (hsame : ∀ s k, (op s k).link k = g k (s.link k))
    (hother : ∀ s k j, j ≠ k → (op s k).link j = s.link j) (s : State) (k : LinkId) :
    ((List.finRange 16).foldl op s).link k = g k (s.link k) := by
  have hloop : ∀ l : List LinkId, l.Nodup → ∀ s, (l.foldl op s).link k = if k ∈ l then g k (s.link k) else s.link k := by
    intro l hl
    induction l with
    | nil => intro s; rfl
    | cons j l ih =>
      intro s
      obtain ⟨hj, hl⟩ := List.nodup_cons.1 hl
      rw [List.foldl_cons, ih hl]
      by_cases hk : k = j
      · subst hk; simp [hj, hsame]
      · simp [hk, hother s j k hk]
  rw [hloop _ (List.nodup_finRange 16), if_pos (List.mem_finRange k)]

/-! ## Words that are queued (11, R295, R296) -/

/-- A word goes out on every carrying link but the one it came on. -/
theorem State.queueWord_sent (s : State) (w : SvcWord) (copies : Nat) (skip : Option LinkId) (k : LinkId) :
    (s.queueWord w copies skip).link k =
      if (s.link k).carries && skip != some k then { s.link k with sendq := (s.link k).sendq ++ [(w, copies)] } else s.link k := by
  unfold State.queueWord
  refine foldl_link (g := fun k x => if x.carries && skip != some k then { x with sendq := x.sendq ++ [(w, copies)] } else x)
    (fun s k => ?_) (fun s k j hj => ?_) s k
  · split <;> simp
  · split <;> simp [hj]
theorem State.relay_rest (s : State) (h : RelayHdr) (typ : Nat) (body : Bytes) :
    s.relay h typ body = { s with
      heath := { s.heath with seen := (h.origin, h.seq) :: s.heath.seen }
      links := (s.relay h typ body).links } := by
  unfold State.relay
  dsimp only
  split
  · rfl
  · exact State.queueWord_rest _ _ _ _
theorem State.relay_heath (s : State) (h : RelayHdr) (typ : Nat) (body : Bytes) :
    (s.relay h typ body).heath = { s.heath with seen := (h.origin, h.seq) :: s.heath.seen } := by rw [State.relay_rest]
theorem State.flood_heath (s : State) (typ : Nat) (body : Bytes) :
    (s.flood typ body).heath = { s.heath with seq := s.heath.seq + 1, seen := (s.card, s.heath.seq) :: s.heath.seen } := by
  rw [State.flood_rest]

/-! ## Operations that change only the Heath's record and the words to send -/

/-- Only the Heath's record and what the links have to send differ. -/
def wordsOnly (s w : State) : Prop :=
  w = { s with heath := w.heath, links := w.links } ∧ ∀ j, ∃ q, w.link j = { s.link j with sendq := q }

@[simp] theorem wordsOnly.refl (s : State) : wordsOnly s s := ⟨rfl, fun j => ⟨(s.link j).sendq, rfl⟩⟩
theorem wordsOnly.trans {s t w : State} (h : wordsOnly s t) (h' : wordsOnly t w) : wordsOnly s w := by
  obtain ⟨ht, hlinks⟩ := h
  obtain ⟨hw, hlinks'⟩ := h'
  refine ⟨hw.trans (by rw [ht]), fun j => ?_⟩
  obtain ⟨q, hq⟩ := hlinks j
  obtain ⟨q', hq'⟩ := hlinks' j
  exact ⟨q', by rw [hq', hq]⟩
theorem wordsOnly.heath (s : State) (h : Heath) : wordsOnly s { s with heath := h } := ⟨rfl, fun j => ⟨(s.link j).sendq, rfl⟩⟩
/-- What a word of the Heath leaves of the card. -/
theorem wordsOnly.frame {s w : State} (h : wordsOnly s w) :
    w.folds = s.folds ∧ w.cfg = s.cfg ∧ storesSame s w ∧ w.events = s.events ∧ w.clock = s.clock := by
  obtain ⟨hw, -⟩ := h
  rw [hw]
  exact ⟨rfl, rfl, ⟨rfl, rfl, rfl⟩, rfl, rfl⟩
theorem foldl_wordsOnly {α : Type} {op : State → α → State} (hop : ∀ s a, wordsOnly s (op s a)) (l : List α) (s : State) :
    wordsOnly s (l.foldl op s) :=
  List.foldlRecOn l op (wordsOnly.refl s) fun t ht a _ => ht.trans (hop t a)

theorem State.queueWord_wordsOnly (s : State) (w : SvcWord) (copies : Nat) (skip : Option LinkId) :
    wordsOnly s (s.queueWord w copies skip) := by
  refine ⟨?_, fun j => ?_⟩
  · rw [State.queueWord_rest]
  · rw [State.queueWord_sent]
    split
    · exact ⟨_, rfl⟩
    · exact ⟨_, rfl⟩
theorem State.flood_wordsOnly (s : State) (typ : Nat) (body : Bytes) : wordsOnly s (s.flood typ body) :=
  (wordsOnly.heath s _).trans (State.queueWord_wordsOnly _ _ _ _)
theorem State.relay_wordsOnly (s : State) (h : RelayHdr) (typ : Nat) (body : Bytes) : wordsOnly s (s.relay h typ body) := by
  unfold State.relay
  dsimp only
  split
  · exact wordsOnly.heath s _
  · exact (wordsOnly.heath s _).trans (State.queueWord_wordsOnly _ _ _ _)

/-! ## Departures (11, R303, R315) -/

theorem State.departFor_heathKept (s : State) (f : FoldId) (c cond : Nat) : heathKept s (s.departFor f c cond) := by
  obtain ⟨htiles, -, -, -, hlinks, hheath⟩ := s.departFor_frame f c cond
  exact ⟨hlinks, hheath, htiles, fun _ h => State.departFor_reports h f c cond⟩
theorem State.departFor_other (s : State) {f g : FoldId} (h : g ≠ f) (c cond : Nat) : (s.departFor f c cond).fold g = s.fold g := by
  unfold State.departFor State.startDraining
  dsimp only
  split_ifs <;> simp [h]
theorem State.departFor_load (s : State) (f g : FoldId) (c cond : Nat) : ((s.departFor f c cond).fold g).load = (s.fold g).load := by
  by_cases h : g = f
  · subst h
    unfold State.departFor State.startDraining
    dsimp only
    split_ifs <;> simp
  · rw [State.departFor_other s h]
/-- The live Fold still counts the card as a peer or as a job member. -/
def Fold.counts (x : Fold) (c : Nat) : Bool := x.live && x.inJob c && (if x.growingNow then x.st == .running else x.expects c)
theorem State.departFor_counted {s : State} {f : FoldId} {c : Nat} (h : (s.fold f).counts c = true) (cond : Nat) :
    (s.departFor f c cond).reports 0x0705 := by
  simp only [Fold.counts, Bool.and_eq_true] at h
  obtain ⟨⟨hlive, hjob⟩, hcounted⟩ := h
  unfold State.departFor State.startDraining
  by_cases hg : (s.fold f).growingNow = true
  · simp [hlive, hjob, hg, (by simpa [hg] using hcounted : (s.fold f).st = .running)]
  · simp [hlive, hjob, hg, (by simpa [hg] using hcounted : (s.fold f).expects c = true)]

/-- Every Fold takes note of the departure. -/
def State.departFolds (s : State) (c cond : Nat) : State := allFolds.foldl (fun s f => s.departFor f c cond) s
theorem State.departFolds_heathKept (s : State) (c cond : Nat) : heathKept s (s.departFolds c cond) :=
  List.foldlRecOn allFolds _ (heathKept.refl s) fun t ht f _ => ht.trans (t.departFor_heathKept f c cond)
theorem State.departFolds_stores (s : State) (c cond : Nat) : storesSame s (s.departFolds c cond) := by
  have h := foldl_view (fun s => (s.tiles, s.hbms, s.chans)) (fun s f => s.departFor f c cond)
    (fun s f => by simp [State.departFor_frame]) allFolds s
  simpa only [Prod.mk.injEq, storesSame, State.departFolds] using h
theorem State.departFolds_load (s : State) (c cond : Nat) (g : FoldId) : ((s.departFolds c cond).fold g).load = (s.fold g).load :=
  foldl_view (fun s => (s.fold g).load) _ (fun s f => s.departFor_load f g c cond) allFolds s
/-- A Fold that counts the card reports that it is gone. -/
theorem State.departFolds_counted {s : State} {c : Nat} (h : s.countsMember c = true) (cond : Nat) :
    (s.departFolds c cond).reports 0x0705 := by
  obtain ⟨f, hf, hcounts⟩ := List.any_eq_true.1 h
  have hloop : ∀ l : List FoldId, f ∈ l → ∀ s : State, (s.fold f).counts c = true →
      (l.foldl (fun s f => s.departFor f c cond) s).reports 0x0705 := by
    intro l
    induction l with
    | nil => intro hf; simp at hf
    | cons g l ih =>
      intro hf s hcounts
      by_cases hg : f = g
      · subst hg
        exact List.foldlRecOn (motive := (State.reports · 0x0705)) l _ (State.departFor_counted hcounts cond)
          fun t ht g _ => State.departFor_reports ht g c cond
      · exact ih ((List.mem_cons.1 hf).resolve_left hg) _ (by rwa [State.departFor_other s hg])
  exact hloop allFolds hf s hcounts

/-- The member set, the arm words and the links without a card that has departed. -/
def State.strike (s : State) (c : Nat) : State := { s with
  heath := { s.heath with members := s.heath.members &&& ~~~(BitVec.ofNat 32 (2 ^ (c % 32))) }
  folds := s.folds.map (Fold.dropWords c)
  links := s.links.map fun (k : Link) => if k.partner = c && 3 ≤ k.state then { k with state := 2 } else k }
theorem State.strike_fold (s : State) (c : Nat) (f : FoldId) : (s.strike c).fold f = (s.fold f).dropWords c := vget_map _ _ _
theorem State.strike_link_down {s : State} (c : Nat) {k : LinkId} (h : (s.link k).state = 0) : (s.strike c).link k = s.link k :=
  (vget_map _ _ _).trans (if_neg (by simp [State.link] at h; simp [h]))
/-- PEER_LOST of the Shepherd where no Fold of a job with the card runs. -/
def State.lostPeer (s : State) (c cond : Nat) : State := if s.countsMember c then s else s.emit 0 0x0705 (le 1 c ++ le 1 cond)
theorem State.lostPeer_heathKept (s : State) (c cond : Nat) : heathKept s (s.lostPeer c cond) := by
  unfold State.lostPeer
  split
  · exact heathKept.refl s
  · exact s.emit_heathKept _ _ _
theorem State.depart_eq (s : State) (c cond ref : Nat) (detected : Bool) : s.depart c cond ref detected =
    if detected then ((((s.lostPeer c cond).departFolds c cond).strike c).reselect).flood 7 (be 1 c ++ be 1 cond ++ be 8 ref)
    else (((s.lostPeer c cond).departFolds c cond).strike c).reselect := by
  unfold State.depart State.lostPeer State.departFolds State.strike
  rfl
/-- The departure is reported, by a Fold that counts the card or by the Shepherd. -/
theorem State.departFolds_reports (s : State) (c cond : Nat) : ((s.lostPeer c cond).departFolds c cond).reports 0x0705 := by
  unfold State.lostPeer
  by_cases h : s.countsMember c = true
  · rw [if_pos h]
    exact State.departFolds_counted h cond
  · rw [if_neg h]
    obtain ⟨-, -, -, hreports⟩ := (s.emit 0 0x0705 (le 1 c ++ le 1 cond)).departFolds_heathKept c cond
    exact hreports _ (by simp)
/-- A card that its LEAVE word takes out: it is struck from the member set and the arm words, and PEER_LOST is reported. -/
theorem State.depart_leaves (s : State) (c cond ref : Nat) :
    (s.depart c cond ref false).heath.members = s.heath.members &&& ~~~(BitVec.ofNat 32 (2 ^ (c % 32))) ∧
    (s.depart c cond ref false).reports 0x0705 ∧
    (∀ f, ((s.depart c cond ref false).fold f).load = (s.fold f).load ∧ ∀ e ∈ ((s.depart c cond ref false).fold f).run.armWords, e.1 ≠ c) ∧
    storesSame s (s.depart c cond ref false) := by
  obtain ⟨-, hheath, -, -⟩ := (s.lostPeer_heathKept c cond).trans (State.departFolds_heathKept _ c cond)
  have hreports := s.departFolds_reports c cond
  have hstores : storesSame s (s.lostPeer c cond) := by unfold State.lostPeer; split <;> simp [storesSame]
  have hload (f : FoldId) : ((s.lostPeer c cond).fold f).load = (s.fold f).load := by unfold State.lostPeer; split <;> simp
  have hstores' := hstores.trans (State.departFolds_stores _ c cond)
  have hload' (f : FoldId) := ((s.lostPeer c cond).departFolds_load c cond f).trans (hload f)
  rw [State.depart_eq, if_neg Bool.false_ne_true]
  generalize (s.lostPeer c cond).departFolds c cond = d at *
  have hfold (f : FoldId) : (d.strike c).reselect.fold f = (d.fold f).dropWords c := by
    rw [State.reselect_rest]
    exact State.strike_fold d c f
  refine ⟨?_, ?_, fun f => ?_, ?_⟩
  · simp [State.strike, hheath]
  · exact (State.reports_congr (by rw [State.reselect_rest]; rfl) _).2 hreports
  · rw [hfold]
    exact ⟨hload' f, fun e he => by simpa using (List.mem_filter.1 he).2⟩
  · exact hstores'.trans (by simp [storesSame, State.strike])

end Sys2Proof.Machine
end

section
/-! PROOFS. LEAVE and REPLAY words (11, R295, R315, R317). -/

namespace Sys2Proof.Machine

/-! ## Relaying (11, R295) -/

theorem State.relay_links {s : State} {h : RelayHdr} (hhops : h.hops ≠ 0) (typ : Nat) (body : Bytes) (k : LinkId) :
    (s.relay h typ body).link k = if (s.link k).carries = true ∧ k ≠ h.link
      then { s.link k with sendq := (s.link k).sendq ++ [(⟨typ, h.hops - 1, h.origin, h.seq, body⟩, 1)] } else s.link k := by
  unfold State.relay
  dsimp only
  rw [if_neg hhops, State.queueWord_sent]
  refine if_congr ?_ rfl rfl
  show ((s.link k).carries && some h.link != some k) = true ↔ _
  rw [ne_comm]
  simp
theorem State.relay_memberSet (s : State) (h : RelayHdr) (typ : Nat) (body : Bytes) : (s.relay h typ body).memberSet = s.memberSet := by
  rw [State.relay_rest]
  rfl
theorem State.relay_countsMember (s : State) (h : RelayHdr) (typ : Nat) (body : Bytes) (c : Nat) :
    (s.relay h typ body).countsMember c = s.countsMember c := by
  rw [State.relay_rest]
  rfl
theorem State.relay_card (s : State) (h : RelayHdr) (typ : Nat) (body : Bytes) : (s.relay h typ body).card = s.card := by
  rw [State.relay_rest]
  rfl

/-! ## LEAVE (11, R315) -/

section
variable {t c cause r : Nat} {h : RelayHdr} {s u : State} (hu : s.tick t = u) (hw : u.awake = true)
include hu hw

theorem exec_leave : exec (.leave t h c cause r) s = .next (u.onLeave h c cause r) := by
  show execLeave t h c cause r s = _
  simp [execLeave, hu, hw]
theorem exec_leave_seen (hf : u.freshWord h = false) : exec (.leave t h c cause r) s = .next u := by
  rw [exec_leave hu hw, State.onLeave, if_pos (by simp [hf])]
theorem exec_leave_relayed (hf : u.freshWord h = true) (hno : c = u.card ∨ (u.memberSet.getLsbD c = false ∧ u.countsMember c = false)) :
    exec (.leave t h c cause r) s = .next (u.relay h 7 (be 1 c ++ be 1 cause ++ be 8 r)) := by
  rw [exec_leave hu hw, State.onLeave, if_neg (by simp [hf])]
  simp only [State.relay_card, State.relay_memberSet, State.relay_countsMember]
  rcases hno with rfl | ⟨hmember, hcounts⟩
  · simp
  · simp [hmember, hcounts]
theorem exec_leave_departs (hf : u.freshWord h = true) (hc : c ≠ u.card) (hmember : u.memberSet.getLsbD c = true) :
    exec (.leave t h c cause r) s = .next ((u.relay h 7 (be 1 c ++ be 1 cause ++ be 8 r)).depart c 4 r false) := by
  rw [exec_leave hu hw, State.onLeave, if_neg (by simp [hf])]
  simp [State.relay_card, State.relay_memberSet, hc, hmember]
end

/-! ## REPLAY (11, R317) -/

section
variable {t round step : Nat} {f : FoldId} {h : RelayHdr} {s u : State} (hu : s.tick t = u) (hw : u.awake = true)
include hu hw

theorem exec_replayWord : exec (.replayWord t h f round step) s = .next (u.onReplay h f round step) := by
  show execReplayWord t h f round step s = _
  simp [execReplayWord, hu, hw]
theorem exec_replayWord_seen (hf : u.freshWord h = false) : exec (.replayWord t h f round step) s = .next u := by
  rw [exec_replayWord hu hw, State.onReplay, if_pos (by simp [hf])]
theorem exec_replayWord_fresh (hf : u.freshWord h = true) : exec (.replayWord t h f round step) s = .next
    (if (u.fold f).inStep = true ∧ (u.fold f).inJob h.origin = true ∧ (u.fold f).grow.round = round ∧ (u.fold f).grow.step = step
      then (u.relay h 8 (be 1 f.val ++ be 4 round ++ be 1 step)).modFold f fun y =>
        { y with grow := { y.grow with replayCause := some (y.grow.replayCause.getD 0x0701) } }
      else u.relay h 8 (be 1 f.val ++ be 4 round ++ be 1 step)) := by
  have hfold : (u.relay h 8 (be 1 f.val ++ be 4 round ++ be 1 step)).fold f = u.fold f := State.fold_of_folds (by simp) f
  rw [exec_replayWord hu hw, State.onReplay, if_neg (by simp [hf])]
  simp only [hfold]
  exact congrArg _ (if_congr (by simp [and_assoc]) rfl rfl)
end

/-- Settles O42: a LEAVE word by whether it is fresh and names another member, a REPLAY word by whether it names the running step. -/
theorem membersLeaveAndStepsReplay : Obligations.MembersLeaveAndStepsReplay := by
  refine ⟨fun t c cause r h s u hu hw => ⟨exec_leave_seen hu hw, fun hf hc hmember => ?_, exec_leave_relayed hu hw⟩,
    fun t round step f h s u hu hw => ⟨exec_replayWord_seen hu hw, fun hf hstep hjob hround hat => ?_, fun hf hno => ?_⟩,
    fun h ty b s => ⟨(s.relay h ty b).links, s.relay_rest h ty b, fun hhops => by rw [State.relay, if_pos hhops],
      fun hhops => State.relay_links hhops ty b⟩⟩
  · obtain ⟨hmembers, hreports, hfolds, hstores⟩ := (u.relay h 7 (be 1 c ++ be 1 cause ++ be 8 r)).depart_leaves c 4 r
    obtain ⟨hsame, -, hkeeps, -, -⟩ := (u.relay_wordsOnly h 7 (be 1 c ++ be 1 cause ++ be 8 r)).frame
    have hload (f : FoldId) : (u.fold f).load = (s.fold f).load := by simp [← hu]
    have hheath : u.heath = s.heath := by simp [← hu]
    have hcfg : u.cfg = s.cfg := by simp [← hu]
    refine ⟨_, exec_leave_departs hu hw hf hc hmember, ?_, hreports, fun f => ?_, ?_, ((hu ▸ storesSame_tick s t).trans hkeeps).trans hstores⟩
    · rw [hmembers, State.relay_heath, hheath]
    · obtain ⟨hkept, hdropped⟩ := hfolds f
      exact ⟨hkept.trans (by rw [State.fold_of_folds hsame, hload]), hdropped⟩
    · simp [hcfg]
  · rw [exec_replayWord_fresh hu hw hf, if_pos ⟨hstep, hjob, hround, hat⟩]
  · rw [exec_replayWord_fresh hu hw hf, if_neg]
    rintro ⟨hstep, hjob, hround, hat⟩
    simp [hstep, hjob, hround, hat] at hno

end Sys2Proof.Machine
end

section
/-! SUPPORT. Proposals and requests are words of the Heath; what follows the fall of a link leaves the link down (11, R292, R293, R309). -/

namespace Sys2Proof.Machine

/-! ## Words of this card (11, R301, R309) -/

theorem State.reselect_wordsOnly (s : State) : wordsOnly s s.reselect := by
  rw [State.reselect_rest]
  exact wordsOnly.heath s _
theorem State.tryPropose_wordsOnly (s : State) : wordsOnly s s.tryPropose := by
  unfold State.tryPropose
  split
  · exact wordsOnly.refl s
  · dsimp only
    split
    · exact wordsOnly.refl s
    · exact (wordsOnly.heath s _).trans
        (foldl_wordsOnly (fun s u => (s.flood_wordsOnly 6 _).trans (State.flood_wordsOnly _ 6 _)) _ _)
theorem State.requestEpoch_wordsOnly (s : State) (unit : Nat) : wordsOnly s (s.requestEpoch unit) := by
  unfold State.requestEpoch
  split
  · exact (wordsOnly.heath s _).trans (State.tryPropose_wordsOnly _)
  · exact s.flood_wordsOnly 9 _

/-! ## A link that is down stays down (11, R293) -/

/-- A link that is down is as before but for what it has to send; so are the tiles, and every event that waited still waits. -/
def downKept (k : LinkId) (s w : State) : Prop :=
  ((s.link k).state = 0 → ∃ q, w.link k = { s.link k with sendq := q }) ∧ w.tiles = s.tiles ∧ ∀ code, s.reports code → w.reports code

theorem downKept.trans {k : LinkId} {s t w : State} (h : downKept k s t) (h' : downKept k t w) : downKept k s w := by
  obtain ⟨hdown, htiles, hreports⟩ := h
  obtain ⟨hdown', htiles', hreports'⟩ := h'
  refine ⟨fun h0 => ?_, htiles'.trans htiles, fun code hc => hreports' code (hreports code hc)⟩
  obtain ⟨q, hq⟩ := hdown h0
  obtain ⟨q', hq'⟩ := hdown' (by rw [hq]; exact h0)
  exact ⟨q', by rw [hq', hq]⟩
theorem heathKept.downKept {s w : State} (h : heathKept s w) (k : LinkId) : downKept k s w := by
  obtain ⟨hlinks, -, htiles, hreports⟩ := h
  exact ⟨fun _ => ⟨(s.link k).sendq, by simp [State.link, hlinks]⟩, htiles, hreports⟩
theorem wordsOnly.downKept {s w : State} (h : wordsOnly s w) (k : LinkId) : downKept k s w := by
  obtain ⟨-, -, ⟨htiles, -, -⟩, hevents, -⟩ := h.frame
  exact ⟨fun _ => h.2 k, htiles, fun code hc => (State.reports_congr hevents code).2 hc⟩

section
variable (s : State) (k : LinkId)

theorem State.endGrowingRuns_heathKept : heathKept s s.endGrowingRuns := by
  obtain ⟨htiles, -, -, -, hlinks, hheath⟩ := s.endGrowingRuns_frame
  exact ⟨hlinks, hheath, htiles, fun _ h => State.endGrowingRuns_reports h⟩
theorem State.alignLoss_downKept (ps : Int) : downKept k s (s.alignLoss ps) := by
  by_cases h : s.heath.alignLost = true ∨ s.heath.members = 0
  · rw [State.alignLoss_again ps h]
    exact (heathKept.refl s).downKept k
  · rw [not_or, Bool.not_eq_true] at h
    obtain ⟨typ, body, heq⟩ := State.alignLoss_first ps h.1 h.2
    rw [heq]
    exact ((wordsOnly.heath s _).downKept k).trans
      ((((State.emit_heathKept _ _ _ _).trans (State.endGrowingRuns_heathKept _)).downKept k).trans ((State.flood_wordsOnly _ _ _).downKept k))
theorem State.checkUpstream_downKept : downKept k s s.checkUpstream := by
  unfold State.checkUpstream
  split
  · exact (heathKept.refl s).downKept k
  · exact s.alignLoss_downKept k _
theorem State.strike_downKept (c : Nat) : downKept k s (s.strike c) :=
  ⟨fun h => ⟨(s.link k).sendq, State.strike_link_down c h⟩, rfl, fun _ h => h⟩
theorem State.depart_downKept (c cond ref : Nat) (detected : Bool) : downKept k s (s.depart c cond ref detected) := by
  have hstruck := (((s.lostPeer_heathKept c cond).trans (State.departFolds_heathKept _ c cond)).downKept k).trans
    ((State.strike_downKept _ k c).trans ((State.reselect_wordsOnly _).downKept k))
  rw [State.depart_eq]
  split
  · exact hstruck.trans ((State.flood_wordsOnly _ _ _).downKept k)
  · exact hstruck
theorem State.growLinkDown_heathKept (j : LinkId) (spare : Bool) (f : FoldId) : heathKept s (s.growLinkDown j spare f) := by
  unfold State.growLinkDown
  dsimp only
  (repeat' split)
  · exact heathKept.refl s
  · simp
  · exact s.noMapping_heathKept f
/-- The spare to the partner is asked for, and the Folds that need the link idle or stop (11, Growing across the Heath). -/
def State.askSpare (s : State) (k : LinkId) (partner : Nat) : State :=
  let spare := s.spareTo partner
  allFolds.foldl (State.growLinkDown · k spare.isSome ·) (match spare with
    | some j => s.requestEpoch (unitLink j)
    | none => s)
theorem State.askSpare_downKept (partner : Nat) : downKept k s (s.askSpare k partner) := by
  have hfolds (spare : Bool) (v : State) : heathKept v (allFolds.foldl (State.growLinkDown · k spare ·) v) :=
    List.foldlRecOn allFolds _ (heathKept.refl v) fun t ht f _ => ht.trans (t.growLinkDown_heathKept k spare f)
  unfold State.askSpare
  dsimp only
  split
  · exact ((State.requestEpoch_wordsOnly _ _).downKept k).trans ((hfolds _ _).downKept k)
  · exact (hfolds _ _).downKept k
/-- A link that falls: its keys and words are gone, and LINK_DOWN is reported. -/
def State.fell (s : State) (k : LinkId) (cause : Nat) : State := (s.modLink k Link.fall).emit (unitLink k) 0x0702 [BitVec.ofNat 8 cause]
theorem State.dropLink_eq (cause : Nat) (h : (s.link k).state ≠ 0) : s.dropLink k cause =
    if (s.link k).state < 3 then (s.fell k cause).reselect.checkUpstream else
      let d := (s.fell k cause).reselect.askSpare k (s.link k).partner
      (if (List.finRange 16).any fun (j : LinkId) => (d.link j).partner == (s.link k).partner && decide (0 < (d.link j).state) then d
        else d.depart (s.link k).partner 2 d.now true).checkUpstream := by
  unfold State.dropLink State.fell State.askSpare
  exact if_neg h
theorem State.dropLink_downKept (cause : Nat) (h : (s.link k).state ≠ 0) : downKept k (s.fell k cause) (s.dropLink k cause) := by
  have hchosen := (State.reselect_wordsOnly (s.fell k cause)).downKept k
  rw [s.dropLink_eq k cause h]
  dsimp only
  split
  · exact hchosen.trans (State.checkUpstream_downKept _ k)
  · refine (hchosen.trans (State.askSpare_downKept _ k (s.link k).partner)).trans (downKept.trans ?_ (State.checkUpstream_downKept _ k))
    split
    · exact (heathKept.refl _).downKept k
    · exact State.depart_downKept _ k _ _ _ _
/-- LINK_DOWN: the link is down, unattested and untested, its keys and salts are gone, the loss is reported, the tiles are as before. -/
theorem State.dropLink_leaves (cause : Nat) (h : (s.link k).state ≠ 0) :
    ((s.dropLink k cause).link k).state = 0 ∧ ((s.dropLink k cause).link k).attested = false ∧
    ((s.dropLink k cause).link k).keys = Vector.replicate 2 [] ∧ ((s.dropLink k cause).link k).salts = Vector.replicate 2 [] ∧
    ((s.dropLink k cause).link k).tested = false ∧ (s.dropLink k cause).reports 0x0702 ∧ (s.dropLink k cause).tiles = s.tiles := by
  obtain ⟨hdown, htiles, hreports⟩ := s.dropLink_downKept k cause h
  have hfell : (s.fell k cause).link k = (s.link k).fall := by simp [State.fell]
  obtain ⟨q, hq⟩ := hdown (by rw [hfell]; rfl)
  rw [hq, hfell]
  exact ⟨rfl, rfl, rfl, rfl, rfl, hreports _ (by simp [State.fell]), htiles⟩
end

end Sys2Proof.Machine
end

section
/-! PROOFS. LINK_UP, HELLO, PEER_ATTESTATION_DONE, LINK_TEST_DONE and LINK_DOWN (11, R292, R293, R305 to R307; 17, R465). -/

namespace Sys2Proof.Machine

theorem cableLength_read (b : Bytes) :
    cableLength (some b) = if leNat (slice b 0 2) ≤ 300 then some (leNat (slice b 0 2)) else none := by
  simp [cableLength, fld, Option.filter]

/-! ## HELLO on a link that comes up (11, R305) -/

theorem State.startHello_wordsOnly (s : State) (k : LinkId) : wordsOnly s (s.startHello k) := by
  unfold State.startHello
  split
  · exact wordsOnly.refl s
  · refine (wordsOnly.heath s _).trans ⟨rfl, fun j => ?_⟩
    by_cases hj : j = k
    · subst hj
      exact ⟨_, State.modLink_same _ _ _⟩
    · exact ⟨_, State.modLink_other _ _ _ _ hj⟩
theorem State.startHello_other (s : State) {k j : LinkId} (h : j ≠ k) : (s.startHello k).link j = s.link j := by
  unfold State.startHello
  split
  · rfl
  · exact State.modLink_other _ _ _ _ h

section
variable {t : Nat} {k : LinkId} {s u : State} (hu : s.tick t = u)
include hu

section
variable (hw : u.awake = true)
include hw

theorem exec_linkUp {c cm : Nat} {sp : Bool} {e : Option Bytes} (hcable : cablePartner u.topology u.card k.val = some (c, sp))
    (he : cableLength e = some cm) (h0 : (u.link k).state = 0) : exec (.linkUp t k e) s = .next ((u.modLink k fun x =>
      { x with state := 2, partner := c, outOfUse := false, cable := some cm, timeInterval := some (u.now / 65536) }).startHello k) := by
  show execLinkUp t k e s = _
  simp [execLinkUp, hu, hw, hcable, he, h0]
theorem exec_linkUp_unread {e : Option Bytes} (he : cableLength e = none) : exec (.linkUp t k e) s = .next u := by
  show execLinkUp t k e s = _
  simp [execLinkUp, hu, hw, he]

/-- The partner that a HELLO word names is the one that the cabling map gives (11, R305). -/
theorem exec_hello {h : Hello} (hup : 1 < (u.link k).state) (huse : (u.link k).outOfUse = false) :
    (h.topology = u.topology → h.owner8 = padTo 8 u.kept.heathOwner → (∃ sp, cablePartner u.topology u.card k.val = some (h.card, sp)) →
      exec (.hello t k h) s = .next (u.modLink k fun x => { x with helloOk := true, partner := h.card })) ∧
    ((h.topology ≠ u.topology ∨ h.owner8 ≠ padTo 8 u.kept.heathOwner ∨ (∀ sp, cablePartner u.topology u.card k.val ≠ some (h.card, sp))) →
      exec (.hello t k h) s = .next (((u.modLink k fun x => { x with outOfUse := true, helloOk := false }).emit (unitLink k) 0x0703
        (le 1 h.card ++ le 1 h.topology)).reselect.checkUpstream)) := by
  have hexec : exec (.hello t k h) s = .next (u.onHello k h) := by
    show execHello t k h s = _
    simp [execHello, hu, hw]
  rw [hexec, State.onHello, if_neg (by simp [huse, hup])]
  refine ⟨fun htop hown hpart => ?_, fun hno => ?_⟩
  · obtain ⟨sp, hsp⟩ := hpart
    simp [htop, hown, hsp]
  · dsimp only
    rw [if_neg]
    simp only [Bool.and_eq_true, beq_iff_eq]
    rintro ⟨⟨htop, hown⟩, hpart⟩
    rcases hno with h | h | h
    · exact h htop
    · exact h hown
    · split at hpart
      · next sp heq => exact h sp (by rw [heq, beq_iff_eq.1 hpart])
      · simp at hpart

/-! ## Attestation (11, R306, R307) -/

section
variable {r : PeerAtt} (hup : 1 < (u.link k).state) (hhello : (u.link k).helloOk = true) (hatt : (u.link k).attested = false)
  (huse : (u.link k).outOfUse = false)
include hup hhello hatt huse

theorem exec_attestation_verified (hchain : r.chainOk = true) (herr : r.spdmError = 0) (hkey : r.key.isEmpty = false)
    (howner : padTo 32 r.owner = padTo 32 u.kept.heathOwner) {v : State}
    (hv : (u.modLink k fun y => { y with attested := true, keySlot := false, keys := vset y.keys 0 r.key, salts := vset y.salts 0 r.salt }) = v) :
    exec (.peerAttestationDone t k r) s = .next (match r.peerGtc with
      | some g => if u.newcomer then v.stepGtc (g + 240) else v
      | none => v) := by
  show execPeerAttestationDone t k r s = _
  simp only [execPeerAttestationDone, hu]
  rw [if_neg (by simp [hw, hup, hhello, hatt, huse]), if_neg (by simp [hchain, herr, hkey, howner]), hv]
  have hnew : v.newcomer = u.newcomer := by subst hv; rfl
  rw [hnew]
  cases r.peerGtc <;> rfl
theorem exec_attestation_failed
    (hno : r.chainOk = false ∨ r.spdmError ≠ 0 ∨ r.key.isEmpty = true ∨ padTo 32 r.owner ≠ padTo 32 u.kept.heathOwner) :
    exec (.peerAttestationDone t k r) s = .next ((u.modLink k fun y => { y with outOfUse := true }).emit (unitLink k) 0x0704
      (le 1 (u.link k).partner ++ le 1 r.spdmError)) := by
  show execPeerAttestationDone t k r s = _
  simp only [execPeerAttestationDone, hu]
  rw [if_neg (by simp [hw, hup, hhello, hatt, huse]), if_pos]
  rcases hno with h | h | h | h <;> simp [h]
end
end
end

/-! ## The bit-error test (11, R307, R319) -/

/-- The link has passed its test. -/
def State.passTest (s : State) (k : LinkId) : State := s.modLink k fun x => { x with tested := true }
/-- A newcomer all of whose carrying links have passed asks to join; on a member the link asks for its own admission. -/
def State.askIn (s : State) (k : LinkId) : State :=
  if s.newcomer then
    if (List.finRange 16).any fun (j : LinkId) => (s.link j).carries && !(s.link j).tested then s
    else ({ s with heath := { s.heath with joining := true } }).flood 9 (be 1 s.card ++ be 2 0 ++ be 1 (Config.epochKind 0))
  else if s.memberSet.getLsbD (s.link k).partner then s.requestEpoch (unitLink k)
  else s
theorem State.askIn_wordsOnly (s : State) (k : LinkId) : wordsOnly s (s.askIn k) := by
  unfold State.askIn
  (repeat' split)
  · exact wordsOnly.refl s
  · exact (wordsOnly.heath s _).trans (State.flood_wordsOnly _ 9 _)
  · exact s.requestEpoch_wordsOnly _
  · exact wordsOnly.refl s
theorem State.askIn_joins {s : State} (k : LinkId) (hnew : s.newcomer = true)
    (h : ∀ j, ((s.askIn k).link j).carries = true → ((s.askIn k).link j).tested = true) : (s.askIn k).heath.joining = true := by
  by_cases hany : ((List.finRange 16).any fun (j : LinkId) => (s.link j).carries && !(s.link j).tested) = true
  · have heq : s.askIn k = s := by rw [State.askIn, if_pos hnew, if_pos hany]
    obtain ⟨j, -, hj⟩ := List.any_eq_true.1 hany
    rw [heq] at h
    simp only [Bool.and_eq_true, Bool.not_eq_true'] at hj
    simp [h j hj.1] at hj
  · rw [State.askIn, if_pos hnew, if_neg hany, State.flood_heath]

section
variable {t : Nat} {k : LinkId} {s u : State} (hu : s.tick t = u)
include hu

section
variable (hw : u.awake = true) (hc : (u.link k).carries = true) (ht : (u.link k).tested = false)
include hw hc ht

theorem exec_linkTest_failed : exec (.linkTestDone t k false) s =
    .next (((u.modLink k fun x => { x with outOfUse := true }).emit 0 0x0A01 (le 1 6 ++ le 2 k.val)).reselect.checkUpstream) := by
  show execLinkTestDone t k false s = _
  simp [execLinkTestDone, hu, hw, hc, ht]
theorem exec_linkTest_passed : exec (.linkTestDone t k true) s = .next ((u.passTest k).askIn k) := by
  show execLinkTestDone t k true s = _
  simp only [execLinkTestDone, hu]
  rw [if_neg (by simp [hw, hc, ht]), if_neg (by simp)]
  unfold State.passTest State.askIn
  (repeat' split) <;> rfl
end

/-! ## LINK_DOWN (11, R292, R293) -/

theorem exec_linkDown {cause : Nat} (hb : u.power.booted = true)
    (hcause : cause = 1 ∨ (cause = 3 ∧ ∃ i, (u.link k).timeInterval = some i ∧ i + 3 ≤ u.now / 65536)) :
    exec (.linkDown t k cause) s = .next (u.dropLink k cause) := by
  show execLinkDown t k cause s = _
  simp only [execLinkDown, hu]
  refine if_pos ?_
  rcases hcause with rfl | ⟨rfl, i, hi, hquiet⟩
  · simp [hb]
  · simp [hb, hi, hquiet]
theorem exec_linkDown_heard (h : ∀ i, (u.link k).timeInterval = some i → u.now / 65536 < i + 3) : exec (.linkDown t k 3) s = .next u := by
  show execLinkDown t k 3 s = _
  simp only [execLinkDown, hu]
  refine if_neg ?_
  cases hi : (u.link k).timeInterval with
  | none => simp
  | some i => simp [h i hi]
end

/-- Settles O40: each step of a link by what it checks, the fall of a link by what falls with it. -/
theorem linksRiseAndFall : Obligations.LinksRiseAndFall := by
  refine ⟨fun b => ⟨cableLength_read b, rfl⟩, fun t c sp k e s u hu hw hcable => ⟨fun cm he h0 => ?_, exec_linkUp_unread hu hw⟩,
    fun t h k s u hu hw hup huse => exec_hello hu hw hup huse, fun t r k s u v hu hw hup hhello hatt huse hv => ⟨fun hchain herr hkey howner => ?_,
      exec_attestation_failed hu hw hup hhello hatt huse⟩, fun t k s u hu hw hc ht => ⟨exec_linkTest_failed hu hw hc ht, ?_⟩,
    fun t cause k s u hu hb h0 => ⟨fun hcause => ?_, fun h3 hheard => h3 ▸ exec_linkDown_heard hu hheard⟩⟩
  · generalize hv : (u.modLink k fun x =>
      { x with state := 2, partner := c, outOfUse := false, cable := some cm, timeInterval := some (u.now / 65536) }) = v
    have hexec := exec_linkUp hu hw hcable he h0
    rw [hv] at hexec
    obtain ⟨hfolds, hcfg, hstores, -, -⟩ := (v.startHello_wordsOnly k).frame
    obtain ⟨q, hq⟩ := (v.startHello_wordsOnly k).2 k
    have hlink (j : LinkId) (hj : j ≠ k) : v.link j = s.link j := by simp [← hv, ← hu, hj]
    refine ⟨_, hexec, rfl, ?_, ?_, fun j hj => (v.startHello_other hj).trans (hlink j hj), ?_, ?_, storesSame.trans ?_ hstores⟩
    · rw [hq]; simp [← hv]
    · rw [hq]; simp [← hv]
    · rw [hfolds]; simp [← hv, ← hu]
    · rw [hcfg]; simp [← hv, ← hu]
    · simp [storesSame, ← hv, ← hu]
  · have hexec := exec_attestation_verified hu hw hup hhello hatt huse hchain herr hkey howner hv
    refine ⟨fun hno => ?_, fun g hg hnew => ⟨_, ?_, rfl, (v.stepGtc_leaves (g + 240)).1⟩⟩
    · rw [hexec]
      rcases hno with h | h
      · rw [h]
      · cases r.peerGtc <;> simp [h]
    · rw [hexec, hg, hnew]
      rfl
  · obtain ⟨hfolds, hcfg, hstores, -, -⟩ := ((u.passTest k).askIn_wordsOnly k).frame
    obtain ⟨q, hq⟩ := ((u.passTest k).askIn_wordsOnly k).2 k
    refine ⟨_, exec_linkTest_passed hu hw hc ht, ?_, ?_, ?_, storesSame.trans ?_ hstores, fun hnew => State.askIn_joins k hnew⟩
    · rw [hq]; simp [State.passTest]
    · rw [hfolds]; simp [State.passTest, ← hu]
    · rw [hcfg]; simp [State.passTest, ← hu]
    · simp [storesSame, State.passTest, ← hu]
  · obtain ⟨hstate, hatt, hkeys, hsalts, htested, hreports, htiles⟩ := u.dropLink_leaves k cause h0
    refine ⟨_, exec_linkDown hu hb hcause, hstate, hatt, hkeys, hsalts, htested, hreports, ?_, ?_⟩
    · simp [← hu]
    · rw [htiles]; simp [← hu]

end Sys2Proof.Machine
end

section
/-! PROOFS. EPOCH_REQ, the MEMBER words, EPOCH_ACK_CUTOFF, EPOCH_COMMIT and EPOCH_APPLY (11, R308 to R311, Table 11.5). -/

namespace Sys2Proof.Machine

/-! ## What the words of an epoch leave of the Heath's record -/

/-- The Heath's record without the words that the card has sent and seen. -/
def Heath.record (h : Heath) : Heath := { h with seq := 0, seen := [] }
theorem State.flood_record (s : State) (typ : Nat) (body : Bytes) : (s.flood typ body).heath.record = s.heath.record := by
  rw [State.flood_heath]
  rfl
theorem State.relay_record (s : State) (h : RelayHdr) (typ : Nat) (body : Bytes) : (s.relay h typ body).heath.record = s.heath.record := by
  rw [State.relay_heath]
  rfl
theorem State.card_congr {s w : State} (h : w.cfg = s.cfg) : w.card = s.card := by simp [State.card, State.num, State.val, h]
theorem State.coordinator_congr {s w : State} (hcfg : w.cfg = s.cfg) (hm : w.heath.members = s.heath.members) :
    w.coordinator = s.coordinator := by
  simp [State.coordinator, State.memberSet, State.card_congr hcfg, hm]
theorem State.flood_coordinator (s : State) (typ : Nat) (body : Bytes) : (s.flood typ body).coordinator = s.coordinator :=
  State.coordinator_congr (by simp) (by rw [State.flood_heath])
theorem State.relay_coordinator (s : State) (h : RelayHdr) (typ : Nat) (body : Bytes) :
    (s.relay h typ body).coordinator = s.coordinator :=
  State.coordinator_congr (by simp) (by rw [State.relay_heath])

/-! ## Proposals (11, R309) -/

theorem State.tryPropose_pending {s : State} (h : s.heath.proposal ≠ none) : s.tryPropose = s := by
  obtain ⟨p, hp⟩ := Option.ne_none_iff_exists'.1 h
  simp [State.tryPropose, hp]
theorem State.tryPropose_idle {s : State} (h : s.heath.requests = []) : s.tryPropose = s := by
  unfold State.tryPropose
  split
  · rfl
  · simp [h]
/-- The proposal of the next epoch for these units. -/
def State.proposalFor (s : State) (units : List (Nat × Nat)) : Proposal :=
  ⟨s.heath.epoch + 1, epochAt s.now, setAfter s.memberSet units, units, BitVec.ofNat 32 (2 ^ (s.card % 32)), false, false⟩
/-- Units that a proposal takes from the requests. -/
def State.unitsAsked (s : State) : List (Nat × Nat) :=
  (s.heath.requests.map fun r => (r.1, r.2.1)).filter fun u => decide (u.1 < s.topology) || u.1 == s.card
/-- A proposal is held as the one pending, and goes out with this card's ACK, a word of each for every unit. -/
def State.sendProposal (s : State) (p : Proposal) : State :=
  p.units.foldl (fun s u => (s.flood 6 (memberBody p.epoch p.e p.set 0 u.1 u.2)).flood 6 (memberBody p.epoch p.e p.set 1 u.1 u.2))
    { s with heath := { s.heath with proposal := some p, requests := [] } }
theorem State.sendProposal_record (s : State) (p : Proposal) :
    (s.sendProposal p).heath.record = { s.heath.record with proposal := some p, requests := [] } := by
  unfold State.sendProposal
  rw [foldl_view (fun s => s.heath.record)]
  · rfl
  · intro v u
    rw [State.flood_record, State.flood_record]
theorem State.tryPropose_open {s : State} (hp : s.heath.proposal = none) : s.tryPropose =
    if s.unitsAsked.isEmpty || s.coordinator != s.card then s else s.sendProposal (s.proposalFor s.unitsAsked) := by
  unfold State.tryPropose
  rw [hp]
  rfl
/-- A proposal changes only the requests and the proposal of the record. -/
theorem State.tryPropose_membership (s : State) :
    s.tryPropose.heath.members = s.heath.members ∧ s.tryPropose.heath.epoch = s.heath.epoch ∧
    s.tryPropose.heath.joining = s.heath.joining ∧ s.tryPropose.heath.abortLog = s.heath.abortLog := by
  by_cases hp : s.heath.proposal = none
  · rw [State.tryPropose_open hp]
    split
    · exact ⟨rfl, rfl, rfl, rfl⟩
    · have h := s.sendProposal_record (s.proposalFor s.unitsAsked)
      simp only [Heath.record, Heath.mk.injEq] at h
      simp [h]
  · rw [State.tryPropose_pending hp]
    exact ⟨rfl, rfl, rfl, rfl⟩

/-! ## EPOCH_REQ (11, R308, R309) -/

section
variable (s : State) (h : RelayHdr) (b : MemberBody)

theorem State.onEpochReq_wordsOnly (c n k : Nat) : wordsOnly s (s.onEpochReq h c n k) := by
  have hrelay := s.relay_wordsOnly h 9 (be 1 c ++ be 2 n ++ be 1 k)
  unfold State.onEpochReq
  dsimp only
  (repeat' split)
  · exact wordsOnly.refl s
  · exact hrelay
  · exact hrelay
  · exact hrelay.trans ((wordsOnly.heath _ _).trans (State.tryPropose_wordsOnly _))
end

section
variable {s : State} {h : RelayHdr} (hf : s.freshWord h = true) {c n k : Nat}
include hf

theorem State.onEpochReq_elsewhere (hc : s.coordinator ≠ s.card) :
    s.onEpochReq h c n k = s.relay h 9 (be 1 c ++ be 2 n ++ be 1 k) := by
  rw [State.onEpochReq, if_neg (by simp [hf])]
  dsimp only
  rw [State.relay_coordinator, State.relay_card, if_pos (by simp [hc])]
/-- The request is held behind those that wait, and a proposal is made where none is pending. -/
theorem State.onEpochReq_held (hc : s.coordinator = s.card) (hm : s.heath.members ≠ 0#32) (hnew : (c, n, k) ∉ s.heath.requests) :
    ∃ v : State, wordsOnly s v ∧ v.heath.record = { s.heath.record with requests := s.heath.requests ++ [(c, n, k)] } ∧
      s.onEpochReq h c n k = v.tryPropose := by
  refine ⟨_, (s.relay_wordsOnly h 9 (be 1 c ++ be 2 n ++ be 1 k)).trans (wordsOnly.heath _
    { (s.relay h 9 (be 1 c ++ be 2 n ++ be 1 k)).heath with requests := s.heath.requests ++ [(c, n, k)] }), ?_, ?_⟩
  · rw [State.relay_heath]
    rfl
  · rw [State.onEpochReq, if_neg (by simp [hf])]
    dsimp only
    rw [State.relay_coordinator, State.relay_card, State.relay_heath, if_neg (by simp [hc, hm]), if_neg (by simpa using hnew)]
end

/-! ## MEMBER words (11, R309, R310) -/

section
variable (s : State) (h : RelayHdr) (b : MemberBody)

theorem State.holdProposal_wordsOnly : wordsOnly s (s.holdProposal b) := by
  unfold State.holdProposal
  (repeat' split)
  · exact wordsOnly.refl s
  · exact wordsOnly.heath s _
  · exact wordsOnly.heath s _
  · exact wordsOnly.refl s
theorem State.setAck_wordsOnly (c : Nat) : wordsOnly s (s.setAck b c) := by
  unfold State.setAck
  (repeat' split)
  · exact wordsOnly.heath s _
  · exact wordsOnly.refl s
  · exact wordsOnly.refl s
theorem State.onPropose_wordsOnly : wordsOnly s (s.onPropose h b) := by
  have hheld := (s.relay_wordsOnly h 6 (bodyOf b 0)).trans (State.holdProposal_wordsOnly _ b)
  unfold State.onPropose
  dsimp only
  (repeat' split)
  · exact wordsOnly.refl s
  · exact hheld
  · exact hheld.trans ((State.setAck_wordsOnly _ b _).trans (State.flood_wordsOnly _ 6 _))
theorem State.onAck_wordsOnly : wordsOnly s (s.onAck h b) := by
  unfold State.onAck
  split
  · exact wordsOnly.refl s
  · exact (s.relay_wordsOnly h 6 (bodyOf b 1)).trans ((State.holdProposal_wordsOnly _ b).trans (State.setAck_wordsOnly _ b _))
end

section
variable {s : State} {b : MemberBody}

theorem State.holdProposal_first (hp : s.heath.proposal = none) (hlog : (b.epoch, b.e) ∉ s.heath.abortLog) :
    (s.holdProposal b).heath.proposal = some ⟨b.epoch, b.e, b.set, [(b.unitCard, b.unitNo)], 0, false, false⟩ := by
  simp [State.holdProposal, hp, hlog]
theorem State.holdProposal_ended (hp : s.heath.proposal = none) (hlog : (b.epoch, b.e) ∈ s.heath.abortLog) : s.holdProposal b = s := by
  simp [State.holdProposal, hp, hlog]
theorem State.holdProposal_pending {p : Proposal} (hp : s.heath.proposal = some p) :
    ∃ us, (s.holdProposal b).heath.proposal = some { p with units := us } := by
  unfold State.holdProposal
  rw [hp]
  dsimp only
  split
  · exact ⟨_, rfl⟩
  · exact ⟨p.units, hp⟩
theorem State.setAck_named {p : Proposal} (hp : s.heath.proposal = some p) (hn : p.names b = true) (c : Nat) :
    (s.setAck b c).heath.proposal = some { p with acks := p.acks ||| BitVec.ofNat 32 (2 ^ (c % 32)) } := by
  simp [State.setAck, hp, hn]
theorem State.hasAcked_pending {p : Proposal} (hp : s.heath.proposal = some p) (hn : p.names b = true) :
    s.hasAcked b = p.acks.getLsbD (s.card % 32) := by
  simp [State.hasAcked, hp, hn]
theorem Proposal.names_iff (p : Proposal) : p.names b = true ↔ p.epoch = b.epoch ∧ p.e = b.e := by simp [Proposal.names]

variable {h : RelayHdr} (hf : s.freshWord h = true)
include hf

/-- A proposal that no ABORT has ended is held with this card's ACK. -/
theorem State.onPropose_first (hp : s.heath.proposal = none) (hlog : (b.epoch, b.e) ∉ s.heath.abortLog) :
    (s.onPropose h b).heath.proposal =
      some ⟨b.epoch, b.e, b.set, [(b.unitCard, b.unitNo)], BitVec.ofNat 32 (2 ^ (s.card % 32)), false, false⟩ := by
  have hheld := State.holdProposal_first (s := s.relay h 6 (bodyOf b 0)) (b := b) (by rw [State.relay_heath]; exact hp)
    (by rw [State.relay_heath]; exact hlog)
  have hcard : ((s.relay h 6 (bodyOf b 0)).holdProposal b).card = s.card := State.card_congr (by simp)
  have hnames : Proposal.names ⟨b.epoch, b.e, b.set, [(b.unitCard, b.unitNo)], 0, false, false⟩ b = true := (Proposal.names_iff _).2 ⟨rfl, rfl⟩
  rw [State.onPropose, if_neg (by simp [hf])]
  dsimp only
  rw [State.hasAcked_pending hheld hnames, if_neg (by simp), State.flood_heath]
  dsimp only
  rw [State.setAck_named hheld hnames, hcard]
  simp
theorem State.onPropose_ended (hp : s.heath.proposal = none) (hlog : (b.epoch, b.e) ∈ s.heath.abortLog) :
    (s.onPropose h b).heath.proposal = none := by
  have hp' : (s.relay h 6 (bodyOf b 0)).heath.proposal = none := by rw [State.relay_heath]; exact hp
  rw [State.onPropose, if_neg (by simp [hf])]
  dsimp only
  rw [State.holdProposal_ended hp' (by rw [State.relay_heath]; exact hlog), if_pos (by simp [State.hasAcked, hp'])]
  exact hp'
theorem State.onAck_named {p : Proposal} (hp : s.heath.proposal = some p) (hn : p.names b = true) :
    ∃ us, (s.onAck h b).heath.proposal = some { p with units := us, acks := p.acks ||| BitVec.ofNat 32 (2 ^ (h.origin % 32)) } := by
  obtain ⟨us, hheld⟩ := State.holdProposal_pending (s := s.relay h 6 (bodyOf b 1)) (b := b) (by rw [State.relay_heath]; exact hp)
  rw [State.onAck, if_neg (by simp [hf])]
  exact ⟨us, State.setAck_named hheld hn _⟩
end

/-! ## The end of a proposal (11, R310) -/

/-- The Folds, the entries and the stores are as before. -/
def cardKept (s w : State) : Prop := w.folds = s.folds ∧ w.cfg = s.cfg ∧ storesSame s w

theorem cardKept.trans {s t w : State} (h : cardKept s t) (h' : cardKept t w) : cardKept s w := by
  obtain ⟨hfolds, hcfg, hstores⟩ := h
  obtain ⟨hfolds', hcfg', hstores'⟩ := h'
  exact ⟨hfolds'.trans hfolds, hcfg'.trans hcfg, hstores.trans hstores'⟩
theorem wordsOnly.cardKept {s w : State} (h : wordsOnly s w) : cardKept s w :=
  have ⟨hfolds, hcfg, hstores, _⟩ := h.frame
  ⟨hfolds, hcfg, hstores⟩
theorem State.tick_cardKept (s : State) (t : Nat) : cardKept s (s.tick t) := ⟨by simp, by simp, storesSame_tick s t⟩

/-- The proposal is gone and remembered as aborted, with EPOCH_ABORTED. -/
def State.noteAbort (s : State) (p : Proposal) : State :=
  ({ s with heath := { s.heath with proposal := none, joining := false, abortLog := (p.epoch, p.e) :: s.heath.abortLog } }).emit 0 0x0708
    (le 4 p.epoch ++ le 8 p.e)
/-- The coordinator asks again for the units of the cards that acknowledged. -/
theorem State.abortEpoch_pending {s : State} {p : Proposal} (hp : s.heath.proposal = some p) : ∃ rs, s.abortEpoch =
    if s.coordinator != s.card then s.noteAbort p
    else ({ s.noteAbort p with heath := { (s.noteAbort p).heath with requests := rs } }).tryPropose := by
  unfold State.abortEpoch
  rw [hp]
  exact ⟨_, rfl⟩
theorem State.abortEpoch_leaves {s : State} {p : Proposal} (hp : s.heath.proposal = some p) :
    s.abortEpoch.heath.joining = false ∧ (p.epoch, p.e) ∈ s.abortEpoch.heath.abortLog ∧ s.abortEpoch.reports 0x0708 ∧
    (s.coordinator ≠ s.card → s.abortEpoch.heath.proposal = none) ∧ cardKept s s.abortEpoch := by
  have hnoted : cardKept s (s.noteAbort p) := ⟨rfl, rfl, rfl, rfl, rfl⟩
  have hreports : (s.noteAbort p).reports 0x0708 := State.reports_emit_same _ _ _ _
  obtain ⟨rs, heq⟩ := State.abortEpoch_pending hp
  rw [heq]
  by_cases hc : s.coordinator = s.card
  · rw [if_neg (by simp [hc])]
    generalize hv : ({ s.noteAbort p with heath := { (s.noteAbort p).heath with requests := rs } } : State) = v
    obtain ⟨-, -, hjoining, hlog⟩ := v.tryPropose_membership
    have hwords := v.tryPropose_wordsOnly
    have hkept : cardKept s v := hv ▸ hnoted.trans (wordsOnly.heath _ _).cardKept
    obtain ⟨-, -, -, hevents, -⟩ := hwords.frame
    rw [hjoining, hlog, State.reports_congr hevents]
    refine ⟨?_, ?_, ?_, fun hno => absurd hc hno, hkept.trans hwords.cardKept⟩
    · subst hv; rfl
    · subst hv; exact List.mem_cons_self
    · subst hv; exact hreports
  · rw [if_pos (by simp [hc])]
    exact ⟨rfl, List.mem_cons_self, hreports, fun _ => rfl, hnoted⟩
theorem State.abortEpoch_cardKept (s : State) : cardKept s s.abortEpoch := by
  cases hp : s.heath.proposal with
  | none =>
    have heq : s.abortEpoch = s := by simp [State.abortEpoch, hp]
    rw [heq]
    exact (wordsOnly.refl s).cardKept
  | some p => exact (State.abortEpoch_leaves hp).2.2.2.2
theorem State.onAbort_cardKept (s : State) (h : RelayHdr) (b : MemberBody) : cardKept s (s.onAbort h b) := by
  have hrelay := s.relay_wordsOnly h 6 (bodyOf b 2)
  unfold State.onAbort
  dsimp only
  (repeat' split)
  · exact (wordsOnly.refl s).cardKept
  · exact hrelay.cardKept
  · exact hrelay.cardKept.trans (State.abortEpoch_cardKept _)
  · exact (hrelay.trans (wordsOnly.heath _ _)).cardKept
  · exact (hrelay.trans (wordsOnly.heath _ _)).cardKept

section
variable {s : State} {h : RelayHdr} {b : MemberBody} (hf : s.freshWord h = true)
include hf

theorem State.onAbort_pending {p : Proposal} (hp : s.heath.proposal = some p) (hn : p.names b = true) (hc : p.committed = false) :
    s.onAbort h b = (s.relay h 6 (bodyOf b 2)).abortEpoch := by
  have hp' : (s.relay h 6 (bodyOf b 2)).heath.proposal = some p := by rw [State.relay_heath]; exact hp
  rw [State.onAbort, if_neg (by simp [hf])]
  dsimp only
  rw [hp']
  simp [hn, hc]
theorem State.onAbort_noted (hp : s.heath.proposal = none) : (s.onAbort h b).heath.proposal = none ∧
    (b.epoch, b.e) ∈ (s.onAbort h b).heath.abortLog := by
  have hp' : (s.relay h 6 (bodyOf b 2)).heath.proposal = none := by rw [State.relay_heath]; exact hp
  rw [State.onAbort, if_neg (by simp [hf])]
  dsimp only
  rw [hp']
  exact ⟨rfl, List.mem_cons_self⟩
end

/-! ## The cut-off (11, R310) -/

section
variable {t : Nat} {p : Proposal} {s u : State} (hu : s.tick t = u) (hw : u.awake = true) (hp : u.heath.proposal = some p)
include hu hp

theorem exec_epochAckCutoff_early (h : u.now + 1000000 < p.e ∨ (u.memberSet ||| p.set) &&& ~~~p.acks = 0) :
    exec (.epochAckCutoff t) s = .next u := by
  show execEpochAckCutoff t s = _
  simp only [execEpochAckCutoff, hu, hp]
  refine if_pos ?_
  rcases h with h | h
  · simp [h]
  · simp only [h]
    simp
theorem exec_epochCommit_early (h : u.now + 750000 < p.e) : exec (.epochCommit t) s = .next u := by
  show execEpochCommit t s = _
  simp [execEpochCommit, hu, hp, h]
theorem exec_epochApply_early (h : u.now < p.e) : exec (.epochApply t) s = .next u := by
  show execEpochApply t s = _
  simp [execEpochApply, hu, hp, h]

include hw
/-- A missing ACK at the cut-off: ABORT is flooded, and the proposal ends on this card. -/
theorem exec_epochAckCutoff_due (hc : p.committed = false) (hdue : p.e ≤ u.now + 1000000) (hmiss : (u.memberSet ||| p.set) &&& ~~~p.acks ≠ 0) :
    exec (.epochAckCutoff t) s = .next (u.flood 6 (memberBody p.epoch p.e p.set 2 (p.units.headD (0, 0)).1 (p.units.headD (0, 0)).2)).abortEpoch := by
  show execEpochAckCutoff t s = _
  simp only [execEpochAckCutoff, hu, hp]
  exact if_neg (by simp only [hmiss]; simp [hw, hc, hdue])

/-! ## The commit (11, R310; 19, R518) -/

/-- The programs of the mappings that the state `after` an epoch brings go into the idle banks of the live Folds. -/
def State.loadMappings (s after : State) : State :=
  allFolds.foldl (fun s f => match after.findMapping f with
    | some m => if (s.fold f).live && (s.fold f).run.mapping != some m.id then s.loadIdle f m.id else s
    | none => s) s
omit hu hw hp in
theorem State.loadIdle_heath (s : State) (f : FoldId) (m : Nat) : (s.loadIdle f m).heath = s.heath := by
  unfold State.loadIdle
  split
  · rfl
  · exact foldl_view State.heath _ (fun s p => by dsimp only; split <;> rfl) _ _
omit hu hw hp in
theorem State.loadMappings_heath (s after : State) : (s.loadMappings after).heath = s.heath :=
  foldl_view State.heath _ (fun s f => by (repeat' split) <;> simp [State.loadIdle_heath]) _ _
omit hu hw hp in
theorem State.loadMappings_cfg (s after : State) : (s.loadMappings after).cfg = s.cfg :=
  foldl_cfg _ _ _ fun s f => by (repeat' split) <;> simp
omit hu hw hp in
/-- The pending proposal is committed. -/
def State.commitEpoch (s : State) (p : Proposal) : State := { s with heath := { s.heath with
  proposal := some { p with committed := true }
  committedLog := s.heath.committedLog ++
    [(p.epoch, p.e, (p.set &&& ~~~s.memberSet).toNat ||| (if s.heath.members = 0 then 2 ^ s.card else 0))] } }
theorem exec_epochCommit_due (hc : p.committed = false) (hdue : p.e ≤ u.now + 750000) :
    exec (.epochCommit t) s = .next ((u.commitEpoch p).loadMappings (u.applyUnits p)) := by
  show execEpochCommit t s = _
  simp only [execEpochCommit, hu, hp]
  generalize u.applyUnits p = after
  exact if_neg (by simp [hw, hc, hdue])
end

/-! ## The units of an epoch (11, R312, R319) -/

/-- The member set and the requests. -/
def State.membership (s : State) : BitVec 32 × List (Nat × Nat × Nat) := (s.heath.members, s.heath.requests)

section
variable (s : State)

theorem State.applyStack_membership (k : Nat) : (s.applyStack k).membership = s.membership := by
  unfold State.applyStack
  split <;> rfl
theorem State.applyQuad_membership (c : Nat) (q : QuadId) : (s.applyQuad c q).membership = s.membership := by
  unfold State.applyQuad
  dsimp only
  (repeat' split) <;> rfl
theorem State.applyLink_membership (j : LinkId) : (s.applyLink j).membership = s.membership := by
  unfold State.applyLink
  dsimp only
  (repeat' split)
  case isFalse.isTrue => exact foldl_view State.membership _ (fun s i => by split <;> rfl) _ _
  all_goals rfl
theorem State.admitLinks_membership (old : BitVec 32) : (s.admitLinks old).membership = s.membership :=
  foldl_view State.membership _ (fun s k => by dsimp only; split <;> rfl) _ _
theorem State.applyUnits_membership (p : Proposal) : (s.applyUnits p).membership = (p.set, s.heath.requests) := by
  unfold State.applyUnits
  dsimp only
  rw [State.admitLinks_membership, foldl_view State.membership, foldl_view State.membership, foldl_view State.membership]
  · rfl
  · intro s u
    split
    · exact s.applyStack_membership _
    · rfl
  · intro s u
    (repeat' split)
    · exact s.applyQuad_membership _ _
    · rfl
    · rfl
  · intro s u
    (repeat' split)
    · exact s.applyLink_membership _
    · rfl
    · rfl

/-! ## After an epoch has been applied (11, R311) -/

/-- The member set and the epoch stand, and where no request waits no proposal is made; every event that waited still waits. -/
def epochKept (s w : State) : Prop :=
  w.heath.members = s.heath.members ∧ w.heath.epoch = s.heath.epoch ∧ w.heath.joining = s.heath.joining ∧
  (s.heath.requests = [] → w.heath.requests = [] ∧ w.heath.proposal = s.heath.proposal) ∧ ∀ code, s.reports code → w.reports code

theorem epochKept.trans {s t w : State} (h : epochKept s t) (h' : epochKept t w) : epochKept s w := by
  obtain ⟨hmembers, hepoch, hjoining, hrequests, hreports⟩ := h
  obtain ⟨hmembers', hepoch', hjoining', hrequests', hreports'⟩ := h'
  refine ⟨hmembers'.trans hmembers, hepoch'.trans hepoch, hjoining'.trans hjoining, fun h0 => ?_, fun code hc => hreports' code (hreports code hc)⟩
  obtain ⟨h1, hproposal⟩ := hrequests h0
  obtain ⟨h2, hproposal'⟩ := hrequests' h1
  exact ⟨h2, hproposal'.trans hproposal⟩
theorem heathKept.epochKept {s w : State} (h : heathKept s w) : epochKept s w := by
  obtain ⟨-, hheath, -, hreports⟩ := h
  rw [Machine.epochKept, hheath]
  exact ⟨rfl, rfl, rfl, fun h0 => ⟨h0, rfl⟩, hreports⟩
theorem State.reselect_epochKept : epochKept s s.reselect := by
  rw [State.reselect_rest]
  exact ⟨rfl, rfl, rfl, fun h0 => ⟨h0, rfl⟩, fun _ h => h⟩
theorem State.updateLevel_heathKept : heathKept s s.updateLevel := by
  refine ⟨by simp, by simp, by simp, fun code hc => ?_⟩
  unfold State.updateLevel
  dsimp only
  split
  · exact hc
  · have hemitted := State.reports_emit (s := { s with power := { s.power with level := s.computeLevel } }) hc 0 0x0908
      [BitVec.ofNat 8 s.computeLevel, BitVec.ofNat 8 s.power.level]
    exact (State.reports_congr (by simp) _).2 hemitted
theorem State.tryPropose_epochKept : epochKept s s.tryPropose := by
  obtain ⟨hmembers, hepoch, hjoining, -⟩ := s.tryPropose_membership
  obtain ⟨-, -, -, hevents, -⟩ := s.tryPropose_wordsOnly.frame
  exact ⟨hmembers, hepoch, hjoining, fun h0 => by rw [State.tryPropose_idle h0]; exact ⟨h0, rfl⟩,
    fun code hc => (State.reports_congr hevents code).2 hc⟩
theorem State.flood_epochKept (typ : Nat) (body : Bytes) : epochKept s (s.flood typ body) := by
  rw [epochKept, State.flood_heath]
  exact ⟨rfl, rfl, rfl, fun h0 => ⟨h0, rfl⟩, fun code hc => (State.reports_congr (by simp) code).2 hc⟩
theorem State.alignLoss_epochKept (ps : Int) : epochKept s (s.alignLoss ps) := by
  by_cases h : s.heath.alignLost = true ∨ s.heath.members = 0
  · rw [State.alignLoss_again ps h]
    exact (heathKept.refl s).epochKept
  · rw [not_or, Bool.not_eq_true] at h
    obtain ⟨typ, body, heq⟩ := State.alignLoss_first ps h.1 h.2
    have hlost : epochKept s { s with heath := { s.heath with alignLost := true } } := ⟨rfl, rfl, rfl, fun h0 => ⟨h0, rfl⟩, fun _ h => h⟩
    generalize ({ s with heath := { s.heath with alignLost := true } } : State) = v at heq hlost
    rw [heq]
    exact hlost.trans (((v.emit_heathKept _ _ _).trans (State.endGrowingRuns_heathKept _)).epochKept.trans (State.flood_epochKept _ typ body))
theorem State.checkUpstream_epochKept : epochKept s s.checkUpstream := by
  unfold State.checkUpstream
  split
  · exact (heathKept.refl s).epochKept
  · exact s.alignLoss_epochKept _
theorem State.remap_heathKept (e : Nat) (f : FoldId) : heathKept s (s.remap e f) := by
  unfold State.remap
  dsimp only
  (repeat' split)
  · exact heathKept.refl s
  · exact s.noMapping_heathKept f
  · exact heathKept.refl s
  · simp

/-- What an epoch sets in the Heath's record as it takes effect. -/
def State.enterEpoch (s : State) (p : Proposal) : State :=
  { s with heath := { s.heath with epoch := p.epoch, proposal := none, joining := false, alignLost := false } }
/-- The admitted units and the epoch are reported. -/
def State.reportEpoch (s : State) (p : Proposal) (units : List (Nat × Nat)) : State :=
  (units.foldl (fun s u => s.emit 0 0x0309 (le 1 u.1 ++ le 2 u.2 ++ le 4 p.epoch)) s).emit 0 0x0707
    (le 4 p.epoch ++ le 8 p.e ++ le 4 p.set.toNat)
/-- Each live Fold takes its mapping, the waiting requests are proposed, the upstream is looked at again. -/
def State.settleEpoch (s : State) (p : Proposal) : State :=
  (allFolds.foldl (State.remap · p.e ·) s).updateLevel.tryPropose.checkUpstream
theorem State.reportEpoch_epochKept (p : Proposal) (units : List (Nat × Nat)) :
    epochKept s (s.reportEpoch p units) ∧ (s.reportEpoch p units).reports 0x0707 := by
  have hunits : heathKept s (units.foldl (fun s u => s.emit 0 0x0309 (le 1 u.1 ++ le 2 u.2 ++ le 4 p.epoch)) s) :=
    List.foldlRecOn units _ (heathKept.refl s) fun t ht u _ => ht.trans (t.emit_heathKept _ _ _)
  exact ⟨(hunits.trans (State.emit_heathKept _ _ _ _)).epochKept, State.reports_emit_same _ _ _ _⟩
theorem State.settleEpoch_epochKept (p : Proposal) : epochKept s (s.settleEpoch p) := by
  have hmapped : heathKept s (allFolds.foldl (State.remap · p.e ·) s) :=
    List.foldlRecOn allFolds _ (heathKept.refl s) fun t ht f _ => ht.trans (t.remap_heathKept p.e f)
  exact (hmapped.trans (State.updateLevel_heathKept _)).epochKept.trans
    ((State.tryPropose_epochKept _).trans (State.checkUpstream_epochKept _))
theorem State.settleEpoch_cfg (p : Proposal) : (s.settleEpoch p).cfg = s.cfg := by simp [State.settleEpoch]
end

section
variable {t : Nat} {p : Proposal} {s u : State} (hu : s.tick t = u) (hw : u.awake = true) (hp : u.heath.proposal = some p)
include hu hw hp

theorem exec_epochApply_due (hc : p.committed = true) (hdue : p.e ≤ u.now) : exec (.epochApply t) s =
    .next (((((u.applyUnits p).enterEpoch p).reselect).reportEpoch p (p.units.filter u.unitIn)).settleEpoch p) := by
  show execEpochApply t s = _
  simp only [execEpochApply, hu, hp]
  unfold State.settleEpoch State.reportEpoch State.enterEpoch
  exact if_neg (by simp [hw, hc, hdue])
end

/-- What an applied epoch leaves: its member set and number, and no proposal where no request waits. -/
theorem State.epochApplied (u : State) (p : Proposal) {w : State}
    (h : ((((u.applyUnits p).enterEpoch p).reselect).reportEpoch p (p.units.filter u.unitIn)).settleEpoch p = w) :
    w.heath.members = p.set ∧ w.heath.epoch = p.epoch ∧ w.heath.joining = false ∧ (u.heath.requests = [] → w.heath.proposal = none) ∧
    w.reports 0x0707 ∧ w.cfg = u.cfg := by
  obtain ⟨hset, hasked⟩ := Prod.mk.inj (u.applyUnits_membership p)
  have hcfg : (u.applyUnits p).cfg = u.cfg := by simp
  generalize u.applyUnits p = a at *
  obtain ⟨hkept, hreport⟩ := ((a.enterEpoch p).reselect).reportEpoch_epochKept p (p.units.filter u.unitIn)
  have hsettled := State.settleEpoch_epochKept (((a.enterEpoch p).reselect).reportEpoch p (p.units.filter u.unitIn)) p
  obtain ⟨hmembers, hepoch, hjoining, hrequests, -⟩ := (State.reselect_epochKept _).trans (hkept.trans hsettled)
  obtain ⟨-, -, -, -, hreports⟩ := hsettled
  subst h
  refine ⟨hmembers.trans hset, hepoch, hjoining, fun h0 => (hrequests (hasked.trans h0)).2, hreports _ hreport, ?_⟩
  rw [State.settleEpoch_cfg, ← hcfg]
  simp [State.reportEpoch, State.enterEpoch]

/-! ## The words, as commands -/

section
variable {t : Nat} {h : RelayHdr} {b : MemberBody} {s u : State} (hu : s.tick t = u) (hw : u.awake = true)
include hu hw

theorem exec_epochReq (c n k : Nat) : exec (.epochReq t h c n k) s = .next (u.onEpochReq h c n k) := by
  show execEpochReq t h c n k s = _
  simp [execEpochReq, hu, hw]
theorem exec_memberPropose : exec (.memberPropose t h b) s = .next (u.onPropose h b) := by
  show execMemberPropose t h b s = _
  simp [execMemberPropose, hu, hw]
theorem exec_memberAck : exec (.memberAck t h b) s = .next (u.onAck h b) := by
  show execMemberAck t h b s = _
  simp [execMemberAck, hu, hw]
theorem exec_memberAbort : exec (.memberAbort t h b) s = .next (u.onAbort h b) := by
  show execMemberAbort t h b s = _
  simp [execMemberAbort, hu, hw]
theorem exec_epochWords_seen (hf : u.freshWord h = false) (c n k : Nat) :
    exec (.epochReq t h c n k) s = .next u ∧ exec (.memberPropose t h b) s = .next u ∧ exec (.memberAck t h b) s = .next u ∧
    exec (.memberAbort t h b) s = .next u := by
  rw [exec_epochReq hu hw, exec_memberPropose hu hw, exec_memberAck hu hw, exec_memberAbort hu hw]
  simp [State.onEpochReq, State.onPropose, State.onAck, State.onAbort, hf]
end

/-- The first request on the coordinator of a Heath: the proposal of the next epoch for its unit. -/
theorem State.onEpochReq_proposes {s : State} {h : RelayHdr} {c n k : Nat} (hf : s.freshWord h = true) (hc : s.coordinator = s.card)
    (hm : s.heath.members ≠ 0) (hp : s.heath.proposal = none) (hr : s.heath.requests = []) (hcard : c < s.topology) :
    (s.onEpochReq h c n k).heath.requests = [] ∧ (s.onEpochReq h c n k).heath.proposal =
      some ⟨s.heath.epoch + 1, epochAt s.now, setAfter s.memberSet [(c, n)], [(c, n)], BitVec.ofNat 32 (2 ^ (s.card % 32)), false, false⟩ := by
  obtain ⟨v, hwords, hrecord, heq⟩ := State.onEpochReq_held (n := n) (k := k) hf hc hm (by simp [hr] : (c, n, k) ∉ s.heath.requests)
  obtain ⟨-, hcfg, -, -, hclock⟩ := hwords.frame
  simp only [Heath.record, Heath.mk.injEq, hr, List.nil_append] at hrecord
  have hvp : v.heath.proposal = none := by simp [hrecord, hp]
  have hvcard : v.card = s.card := State.card_congr hcfg
  have hvtop : v.topology = s.topology := by simp [State.topology, State.num, State.val, hcfg]
  have hvcoord : v.coordinator = s.coordinator := State.coordinator_congr hcfg (by simp [hrecord])
  have hvset : v.memberSet = s.memberSet := by simp [State.memberSet, hvcard, hrecord]
  have hvnow : v.now = s.now := congrArg Clock.gtc hclock
  have hunits : v.unitsAsked = [(c, n)] := by simp [State.unitsAsked, hrecord, hvtop, hcard]
  have hmade := v.sendProposal_record (v.proposalFor [(c, n)])
  simp only [Heath.record, Heath.mk.injEq] at hmade
  rw [heq, State.tryPropose_open hvp, hunits, if_neg (by simp [hvcoord, hvcard, hc])]
  obtain ⟨-, -, hproposal, hrequests, -⟩ := hmade
  exact ⟨hrequests, hproposal.trans (by simp [State.proposalFor, hrecord, hvset, hvnow, hvcard])⟩

/-- Settles O41: each word by whether the card coordinates and what is pending, the three counts by whether they have come. -/
theorem epochsAreProposedAcknowledgedAndApplied : Obligations.EpochsAreProposedAcknowledgedAndApplied := by
  refine ⟨fun t h b c n k s u hu hw hf => exec_epochWords_seen hu hw hf c n k, fun t h b c n k s u hu hw hf => ?_,
    fun t p s u hu hw hp hc => ⟨exec_epochAckCutoff_early hu hp, fun hdue hmiss => ?_, exec_epochCommit_early hu hp, fun hdue => ?_⟩,
    fun t p s u hu hw hp hc => ⟨exec_epochApply_early hu hp, fun hdue => ?_⟩⟩
  · have hheath : u.heath = s.heath := by simp [← hu]
    have hkept {w : State} (hw : cardKept u w) : cardKept s w := (hu ▸ s.tick_cardKept t).trans hw
    rw [← hheath, exec_epochReq hu hw, exec_memberPropose hu hw, exec_memberAck hu hw, exec_memberAbort hu hw]
    refine ⟨⟨_, rfl, ?_⟩, ⟨_, rfl, ?_⟩, ⟨_, rfl, ?_⟩, ⟨_, rfl, ?_⟩⟩
    · obtain ⟨hfolds, hcfg, hstores⟩ := hkept (u.onEpochReq_wordsOnly h c n k).cardKept
      refine ⟨hfolds, hcfg, hstores, fun hno => ?_, fun hyes hm hsome hnew => ?_, fun hyes hm hp hr hcard =>
        State.onEpochReq_proposes hf hyes hm hp hr hcard⟩
      · rw [State.onEpochReq_elsewhere hf hno, State.relay_heath]
        exact ⟨rfl, rfl⟩
      · obtain ⟨v, -, hrecord, heq⟩ := State.onEpochReq_held hf hyes hm hnew
        simp only [Heath.record, Heath.mk.injEq] at hrecord
        rw [heq, State.tryPropose_pending (by simpa [hrecord] using Option.isSome_iff_ne_none.1 hsome)]
        simp [hrecord]
    · obtain ⟨hfolds, hcfg, hstores⟩ := hkept (u.onPropose_wordsOnly h b).cardKept
      exact ⟨hfolds, hcfg, hstores, fun hp hlog => ⟨_, State.onPropose_first hf hp hlog, rfl, rfl, rfl, rfl, rfl, rfl⟩,
        State.onPropose_ended hf⟩
    · obtain ⟨hfolds, hcfg, hstores⟩ := hkept (u.onAck_wordsOnly h b).cardKept
      refine ⟨hfolds, hcfg, hstores, fun p hp hn => ?_⟩
      obtain ⟨us, hacked⟩ := State.onAck_named hf hp hn
      exact ⟨_, hacked, rfl, rfl, rfl⟩
    · obtain ⟨hfolds, hcfg, hstores⟩ := hkept (u.onAbort_cardKept h b)
      refine ⟨hfolds, hcfg, hstores, fun p hp hn hc => ?_, State.onAbort_noted hf⟩
      obtain ⟨hjoining, hlog, hreports, hgone, -⟩ := State.abortEpoch_leaves (s := u.relay h 6 (bodyOf b 2)) (p := p)
        (by rw [State.relay_heath]; exact hp)
      rw [State.onAbort_pending hf hp hn hc]
      obtain ⟨hepoch, he⟩ := p.names_iff.1 hn
      rw [hepoch, he] at hlog
      rw [State.relay_coordinator, State.relay_card] at hgone
      exact ⟨hjoining, hlog, hreports, hgone⟩
  · have hexec := exec_epochAckCutoff_due hu hw hp hc hdue hmiss
    generalize memberBody p.epoch p.e p.set 2 (p.units.headD (0, 0)).1 (p.units.headD (0, 0)).2 = body at hexec
    obtain ⟨-, hlog, hreports, hgone, hkept⟩ := State.abortEpoch_leaves (s := u.flood 6 body) (p := p) (by rw [State.flood_heath]; exact hp)
    rw [State.flood_coordinator, State.card_congr (by simp : (u.flood 6 body).cfg = u.cfg)] at hgone
    exact ⟨_, hexec, hgone, hlog, hreports, ((hu ▸ s.tick_cardKept t).trans (u.flood_wordsOnly 6 body).cardKept).trans hkept⟩
  · refine ⟨_, exec_epochCommit_due hu hw hp hc hdue, ?_, ?_, ?_, ?_⟩
    · simp [State.loadMappings_heath, State.commitEpoch]
    · simp [State.loadMappings_heath, State.commitEpoch, ← hu]
    · simp [State.loadMappings_heath, State.commitEpoch, ← hu]
    · simp [State.loadMappings_cfg, State.commitEpoch, ← hu]
  · obtain ⟨hmembers, hepoch, hjoining, hnone, hreports, hcfg⟩ := u.epochApplied p rfl
    refine ⟨_, exec_epochApply_due hu hw hp hc hdue, hmembers, hepoch, hjoining, fun h0 => hnone ?_, hreports, ?_⟩
    · simpa [← hu] using h0
    · rw [hcfg]; simp [← hu]

end Sys2Proof.Machine
end

section
/-! PROOFS. STILE_FRAME and STILE_SLOT (11, R286 to R292, R294, R304, Table 11.1). -/

namespace Sys2Proof.Machine

/-! ## A frame that is lost (11, R291, R292) -/

/-- The loss is counted and reported. -/
def State.countLoss (s : State) (k : LinkId) (cause slot : Nat) : State :=
  (s.modLink k fun y => { y with losses := y.losses + 1, lossInterval := some (s.now / 65536) }).emit (unitLink k) 0x0701
    (le 8 slot ++ le 1 cause)
/-- At a position that no Fold owns a lost frame is counted, and the second of an interval takes the link down. -/
theorem State.loseFrame_unowned {s : State} {k : LinkId} {slot : Nat} (cause : Nat) (h : s.linkOwner k.val (slot % 64) = none) :
    s.loseFrame k cause slot =
      if (s.link k).lossInterval = some (s.now / 65536) then (s.countLoss k cause slot).dropLink k 2 else s.countLoss k cause slot := by
  have hgrow : (s.countLoss k cause slot).growLoss k (slot % 64) = s.countLoss k cause slot := by
    have howner : (s.countLoss k cause slot).linkOwner k.val (slot % 64) = none := h
    rw [State.growLoss, howner]
  show (if ((s.link k).lossInterval == some (s.now / 65536)) = true then ((s.countLoss k cause slot).growLoss k (slot % 64)).dropLink k 2
    else (s.countLoss k cause slot).growLoss k (slot % 64)) = _
  rw [hgrow]
  exact if_congr beq_iff_eq rfl rfl
theorem State.countLoss_reports (s : State) (k : LinkId) (cause slot : Nat) : (s.countLoss k cause slot).reports 0x0701 :=
  State.reports_emit_same _ _ _ _

section
variable {t : Nat} {k : LinkId} {x : StileRx} {p : Option PeerFrame} {s u v : State} (hu : s.tick t = u)
include hu

theorem exec_stileFrame_again (h : (u.link k).rxSlot = some (slotAt (u.now - 240))) : exec (.stileFrame t k x p) s = .next u := by
  show execStileFrame t k x p s = _
  simp [execStileFrame, deliveredSlot, hu, h]

section
variable (hw : u.awake = true) (hup : 1 < (u.link k).state) (huse : (u.link k).outOfUse = false) (hnow : 240 ≤ u.now)
  (hrx : (u.link k).rxSlot ≠ some (slotAt (u.now - 240)))
  (hv : (u.modLink k fun y => { y with corrected := y.corrected + correctedSymbols x.errors, rxSlot := some (slotAt (u.now - 240)) }) = v)
include hw hup huse hnow hrx hv

theorem exec_stileFrame_uncorrectable (herr : ∃ n ∈ x.errors, 7 < n) :
    exec (.stileFrame t k x p) s = .next (v.loseFrame k 1 (slotAt (u.now - 240))) := by
  show execStileFrame t k x p s = _
  simp only [execStileFrame, deliveredSlot, hu]
  rw [if_neg (by simp [hw, hup, huse, hnow, hrx]), hv]
  exact if_pos (by simpa [codewordOk] using herr)

section
variable (herr : ∀ n ∈ x.errors, n ≤ 7) (hatt : (u.link k).attested = true)
include herr hatt

theorem exec_stileFrame_tagFailed (ho : openBox (vget (u.link k).keys (slotOf x.keySlot))
      (stileNonce (vget (u.link k).salts (slotOf x.keySlot)) x.slot)
      (stileHeader x.owner x.payloadValid x.keySlot x.sender x.slot x.tag) x.box = none) :
    exec (.stileFrame t k x p) s = .next (v.loseFrame k 2 (slotAt (u.now - 240))) := by
  show execStileFrame t k x p s = _
  simp only [execStileFrame, deliveredSlot, hu]
  rw [if_neg (by simp [hw, hup, huse, hnow, hrx]), hv, if_neg (by simpa [codewordOk] using herr), if_neg (by simp [hatt]), ho]
/-- A frame that opens: its words are taken in order, then its payload lands on an admitted link (11, R288, R294). -/
theorem exec_stileFrame_opened {plain : Bytes} {y : State} (ho : openBox (vget (u.link k).keys (slotOf x.keySlot))
      (stileNonce (vget (u.link k).salts (slotOf x.keySlot)) x.slot)
      (stileHeader x.owner x.payloadValid x.keySlot x.sender x.slot x.tag) x.box = some plain)
    (hy : ((List.range 7).map fun i => decodeWord (slice plain (2304 + 32 * i) 32)).foldl (fun a z => a.takeWord k z) v = y) :
    exec (.stileFrame t k x p) s = .next (if x.payloadValid = false ∨ (u.link k).state < 3 then y else
      p.elim (y.modLink k fun z => { z with landed := mset [] z.landed x.tag (plain.take 2304) })
        ((y.modLink k fun z => { z with landed := mset [] z.landed x.tag (plain.take 2304) }).holdPeer x.sender)) := by
  show execStileFrame t k x p s = _
  simp only [execStileFrame, deliveredSlot, hu]
  rw [if_neg (by simp [hw, hup, huse, hnow, hrx]), hv, if_neg (by simpa [codewordOk] using herr), if_neg (by simp [hatt]), ho]
  dsimp only
  rw [hy]
  by_cases hno : x.payloadValid = false ∨ (u.link k).state < 3
  · rw [if_pos hno, if_pos (by simpa using hno)]
  · rw [if_neg hno, if_neg (by simpa using hno)]
    cases p <;> rfl
end
end
end

/-- A peer frame is held in its Fold, and nothing else changes. -/
theorem State.holdPeer_frame (s : State) (sender : Nat) (p : PeerFrame) :
    (s.holdPeer sender p).links = s.links ∧ (s.holdPeer sender p).heath = s.heath ∧ (s.holdPeer sender p).cfg = s.cfg := by
  unfold State.holdPeer
  dsimp only
  split <;> simp

/-! ## The words of a frame (11, R294, R296) -/

theorem sendOnce_length (g n : Nat) (q : List (SvcWord × Nat)) : (sendOnce g n q).1.length ≤ n := by
  fun_induction sendOnce g n q with
  | case1 => simp
  | case2 => simp
  | case3 n e q _ _ ih => simpa using ih
  | case4 n e q _ _ ih => exact ih
theorem State.groupWords_length (s : State) (k : LinkId) (slot : Nat) : (s.groupWords k slot).length ≤ 7 := by
  unfold State.groupWords
  dsimp only
  generalize hpairs : (if (s.link k).attested then (s.armWords.zipIdx).map fun e => armPair s.card (slot / 2560) e.2 e.1 else []) = pairs
  have hpair : ∀ l ∈ pairs, l.length ≤ 2 := by
    subst hpairs
    split
    · intro l hl
      obtain ⟨e, -, rfl⟩ := List.mem_map.1 hl
      simp [armPair]
    · simp
  have hmine (i : Nat) : ((pairs.drop i).take 3).flatten.length ≤ 6 := by
    have hsum := List.sum_le_card_nsmul (((pairs.drop i).take 3).map List.length) 2 (by
      intro n hn
      obtain ⟨l, hl, rfl⟩ := List.mem_map.1 hn
      exact hpair l (List.mem_of_mem_drop (List.mem_of_mem_take hl)))
    rw [List.length_flatten]
    simp only [List.length_map, List.length_take, smul_eq_mul] at hsum
    omega
  split
  · simp
  · have hturn := hmine (3 * (slot % 2560 % max 1 (ceilDiv pairs.length 3)))
    split
    · rw [List.length_cons]
      omega
    · omega

/-! ## The frame of a slot (11, R286, R304, R313) -/

/-- The Fold that owns the payload position of a slot on an admitted link. -/
def State.slotOwner (s : State) (k : LinkId) (slot : Nat) : Option FoldId :=
  if (s.link k).state = 3 then s.linkOwner k.val (slot % 64) else none
/-- A waiting peer frame of the position's owner. -/
def State.peerFrame (s : State) (k : LinkId) (slot : Nat) : Option (Nat × Bytes) := match s.slotOwner k slot with
  | some f => (s.link k).peerq.find? fun e => e.1 == f.val
  | none => none
/-- The payload of a slot: none without an owner, then a waiting peer frame, then what the owner's stream supplies. -/
def State.slotBody (s : State) (k : LinkId) (slot : Nat) (b : Option Bytes) : Option Bytes :=
  match s.slotOwner k slot, s.peerFrame k slot with
  | none, _ => none
  | some _, some p => some p.2
  | some _, none => b
/-- The peer frames that wait after a slot. -/
def State.peersLeft (s : State) (k : LinkId) (slot : Nat) : List (Nat × Bytes) := match s.peerFrame k slot with
  | some p => (s.link k).peerq.erase p
  | none => (s.link k).peerq
/-- The Owner field of a slot. -/
def State.slotField (s : State) (k : LinkId) (slot : Nat) : Nat := match s.slotOwner k slot with
  | some f => f.val
  | none => 0x10
/-- The StreamTag of a slot. -/
def State.slotTag (s : State) (k : LinkId) (slot : Nat) (b : Option Bytes) : Nat := match s.slotOwner k slot with
  | some f => if (s.slotBody k slot b).isSome then Config.streamTag f.val k.val (slot % 64) else 0
  | none => 0
/-- The words of the queue that a slot has room for behind its time group, and the queue after them. -/
def State.slotQueue (s : State) (k : LinkId) (slot : Nat) : List SvcWord × List (SvcWord × Nat) :=
  sendOnce (slot % 2560) (7 - (s.groupWords k slot).length) (s.link k).sendq
def State.slotWords (s : State) (k : LinkId) (slot : Nat) : List SvcWord := s.groupWords k slot ++ (s.slotQueue k slot).1
theorem State.slotWords_length (s : State) (k : LinkId) (slot : Nat) : (s.slotWords k slot).length ≤ 7 := by
  have hgroup := s.groupWords_length k slot
  have hqueue := sendOnce_length (slot % 2560) (7 - (s.groupWords k slot).length) (s.link k).sendq
  rw [State.slotWords, List.length_append, State.slotQueue]
  omega
/-- Payload and words of a slot, sealed under the link's key of the slot in use (11, R290, Table 11.1). -/
def State.slotBox (s : State) (k : LinkId) (slot : Nat) (b : Option Bytes) : GcmBox :=
  ⟨vget (s.link k).keys (slotOf (s.link k).keySlot), stileNonce (vget (s.link k).salts (slotOf (s.link k).keySlot)) slot,
    stileHeader (s.slotField k slot) (s.slotBody k slot b).isSome (s.link k).keySlot s.card slot (s.slotTag k slot b),
    padTo 2304 ((s.slotBody k slot b).getD []) ++ padTo 224 ((s.slotWords k slot).map wordBytes).flatten⟩
theorem State.slotOwner_none {s : State} {k : LinkId} {slot : Nat}
    (h : (s.link k).state ≠ 3 ∨ s.linkOwner k.val (slot % 64) = none) : s.slotOwner k slot = none := by
  unfold State.slotOwner
  split
  · next h3 => exact h.resolve_left (not_not.2 h3)
  · rfl
theorem State.slotOwner_some {s : State} {k : LinkId} {slot : Nat} {f : FoldId} (h3 : (s.link k).state = 3)
    (hf : s.linkOwner k.val (slot % 64) = some f) : s.slotOwner k slot = some f := (if_pos h3).trans hf
theorem State.slotBody_stream {s : State} {k : LinkId} {slot : Nat} {f : FoldId} (hf : s.slotOwner k slot = some f)
    (hq : (s.link k).peerq = []) (b : Option Bytes) : s.slotBody k slot b = b := by
  simp [State.slotBody, State.peerFrame, hf, hq]

section
variable {t : Nat} {k : LinkId} {b : Option Bytes} {s u : State} (hu : s.tick t = u)
include hu

theorem exec_stileSlot_again (h : (u.link k).sentSlot = some (slotAt u.now)) : exec (.stileSlot t k b) s = .next u := by
  show execStileSlot t k b s = _
  simp [execStileSlot, hu, h]
theorem exec_stileSlot_sends (hw : u.awake = true) (hg : u.power.gated = false) (hup : 1 < (u.link k).state)
    (huse : (u.link k).outOfUse = false) (hsent : (u.link k).sentSlot ≠ some (slotAt u.now)) :
    exec (.stileSlot t k b) s = .next ((u.modLink k fun y => { y with
      sendq := (u.slotQueue k (slotAt u.now)).2, sentSlot := some (slotAt u.now), peerq := u.peersLeft k (slotAt u.now) }).send
        (.stile k.val (u.slotField k (slotAt u.now)) (u.slotBody k (slotAt u.now) b).isSome (u.link k).keySlot u.card (slotAt u.now)
          (u.slotTag k (slotAt u.now) b) (u.slotBox k (slotAt u.now) b) (u.slotWords k (slotAt u.now)))) := by
  show execStileSlot t k b s = _
  simp only [execStileSlot, hu]
  exact if_neg (by simp [hw, hg, hup, huse, hsent])
end

/-- Settles O43: a frame by whether its slot has had one, its codewords are correctable and its tag opens; a slot by who owns it. -/
theorem stileFramesAreTakenWholeOrLost : Obligations.StileFramesAreTakenWholeOrLost := by
  refine ⟨fun t k x p s u v hu hw hup huse hnow hv => ⟨exec_stileFrame_again hu, fun hrx => ⟨fun herr howner => ?_, fun herr hatt o ho =>
      ⟨fun hnone => ?_, fun plain y hsome hy => ⟨fun hno => ?_, fun hvalid h3 => ?_⟩⟩⟩⟩,
    fun t k b s u hu hw hg hup huse => ⟨exec_stileSlot_again hu, fun hsent => ?_⟩⟩
  · have hexec := exec_stileFrame_uncorrectable (p := p) hu hw hup huse hnow hrx hv herr
    have hinterval : (v.link k).lossInterval = (u.link k).lossInterval := by simp [← hv]
    have hvnow : v.now = u.now := by simp [← hv]
    have howner' : v.linkOwner k.val (slotAt (u.now - 240) % 64) = none := by subst hv; exact howner
    rw [State.loseFrame_unowned 1 howner', hinterval, hvnow] at hexec
    refine ⟨fun hfirst => ⟨_, hexec.trans (by rw [if_neg hfirst]), ?_, ?_, v.countLoss_reports k 1 _, ?_, ?_, ?_, ?_⟩,
      fun hsecond => ⟨_, hexec.trans (by rw [if_pos hsecond]), ?_⟩⟩
    · simp [State.countLoss, ← hv, ← hu]
    · simp [State.countLoss, ← hv, ← hu]
    · simp [State.countLoss, ← hv, ← hu]
    · simp [State.countLoss, ← hv, ← hu]
    · simp [State.countLoss, ← hv, ← hu]
    · simp [State.countLoss, storesSame, ← hv, ← hu]
    · have hstate : ((v.countLoss k 1 (slotAt (u.now - 240))).link k).state ≠ 0 := by
        simp only [State.countLoss, ← hv, State.emit_frame, State.modLink_same]
        omega
      obtain ⟨h0, -, hkeys, -⟩ := State.dropLink_leaves _ k 2 hstate
      exact ⟨h0, hkeys⟩
  · exact exec_stileFrame_tagFailed hu hw hup huse hnow hrx hv herr hatt (ho.trans hnone)
  · rw [exec_stileFrame_opened hu hw hup huse hnow hrx hv herr hatt (ho.trans hsome) hy]
    rw [if_pos (hno.imp_right fun h2 => by omega)]
  · refine ⟨_, exec_stileFrame_opened hu hw hup huse hnow hrx hv herr hatt (ho.trans hsome) hy, ?_⟩
    rw [if_neg (by simp [hvalid, h3])]
    generalize hl : (y.modLink k fun z => { z with landed := mset [] z.landed x.tag (plain.take 2304) }) = l
    obtain ⟨hlinks, hheath, hcfg⟩ : (p.elim l (l.holdPeer x.sender)).links = l.links ∧ (p.elim l (l.holdPeer x.sender)).heath = l.heath ∧
        (p.elim l (l.holdPeer x.sender)).cfg = l.cfg := by
      cases p with
      | none => exact ⟨rfl, rfl, rfl⟩
      | some p => exact l.holdPeer_frame x.sender p
    have hlink (j : LinkId) : (p.elim l (l.holdPeer x.sender)).link j = l.link j := by simp [State.link, hlinks]
    rw [hlink, hheath, hcfg]
    refine ⟨by simp [← hl], fun j hj => ?_, by simp [← hl], by simp [← hl]⟩
    rw [hlink]
    simp [← hl, hj]
  · refine ⟨_, u.slotField k (slotAt u.now), (u.slotBody k (slotAt u.now) b).isSome, u.slotTag k (slotAt u.now) b,
      u.slotBox k (slotAt u.now) b, u.slotWords k (slotAt u.now), exec_stileSlot_sends hu hw hg hup huse hsent, ?_,
      u.slotWords_length k (slotAt u.now), fun hno => ?_, fun f h3 hf => ?_, ?_, fun j hj => ?_, ?_, ?_, ?_⟩
    · have hout : u.out = s.out := by simp [← hu]
      simp only [State.send, State.modLink_frame, hg, hout]
      rfl
    · have hnone := State.slotOwner_none (slot := slotAt u.now) hno
      exact ⟨by rw [State.slotField, hnone], by rw [State.slotBody, hnone]; rfl, by rw [State.slotTag, hnone]⟩
    · have hsome := State.slotOwner_some (slot := slotAt u.now) h3 hf
      exact ⟨by rw [State.slotField, hsome], fun hq => by rw [State.slotBody_stream hsome hq]⟩
    · simp
    · simp [hj, ← hu]
    · simp [← hu]
    · simp [← hu]
    · simp [storesSame, ← hu]

end Sys2Proof.Machine
end

section
/-! PROOFS. PREEMPT_NOTICE on its three paths (12, R322 to R327; 13, R364; 18, R484). -/

namespace Sys2Proof.Machine

/-! ## A notice taken (12, R326 to R331) -/

section
variable {s v : State} {f : FoldId} {b : Bytes}

/-- The Sequence of a notice is the Fold's last. -/
def Fold.noteSeq (x : Fold) (n : NoticePayload) : Fold := { x with pre := { x.pre with lastSeq := some n.seq } }
/-- What a running Fold holds of a notice: a CONTINUE notice waits where the Fold grows, a STOP notice is held or moves the Deadline of the
one held. -/
def Fold.heed (x : Fold) (n : NoticePayload) : Fold :=
  if n.mode = 1 then
    { x with pre := { x.pre with conts := x.pre.conts ++ if x.growingNow then [⟨false, n.seq, n.issueAt, n.deadline⟩] else [] } }
  else { x with pre := { x.pre with
    notice := some (x.pre.notice.elim ⟨n.mode == 0, n.seq, n.issueAt, n.deadline⟩ fun o => { o with deadline := n.deadline })
    drain := x.pre.drain.map fun d => if d.stop then { d with deadline := n.deadline } else d } }

theorem Fold.heed_continue {n : NoticePayload} (hmode : n.mode = 1) (x : Fold) : x.heed n = { x with pre := { x.pre with
    conts := x.pre.conts ++ if x.growingNow then [⟨false, n.seq, n.issueAt, n.deadline⟩] else [] } } := if_pos hmode
theorem Fold.heed_stop {n : NoticePayload} (hmode : n.mode ≠ 1) (x : Fold) : x.heed n = { x with pre := { x.pre with
    notice := some (x.pre.notice.elim ⟨n.mode == 0, n.seq, n.issueAt, n.deadline⟩ fun o => { o with deadline := n.deadline })
    drain := x.pre.drain.map fun d => if d.stop then { d with deadline := n.deadline } else d } } := if_neg hmode

theorem State.takeNotice_armed (hst : (s.fold f).st = .armed) (n : NoticePayload) :
    (s.takeNotice f n).fold f = { (s.fold f).noteSeq n with st := .loaded } := by
  simp only [State.takeNotice, State.modFold_same, hst, State.disarm, State.setSt_same]
  rfl
/-- Whether a Fold grows does not hang on its notices. -/
@[simp] theorem Fold.growingNow_pre (x : Fold) (p : Preempt) : { x with pre := p }.growingNow = x.growingNow := rfl
theorem State.takeNotice_running (hst : (s.fold f).st = .running ∨ (s.fold f).st = .draining) (n : NoticePayload) :
    (s.takeNotice f n).fold f = ((s.fold f).noteSeq n).heed n := by
  simp only [State.takeNotice, State.modFold_same, Fold.growingNow_pre, Fold.noteSeq]
  split
  case h_1 h => simp [h] at hst
  case h_4 h h' => exact (hst.elim h h').elim
  all_goals
    by_cases hmode : n.mode = 1
    · rw [Fold.heed_continue hmode]
      by_cases hgrow : (s.fold f).growingNow = true <;> simp [hmode, hgrow]
    · rw [Fold.heed_stop hmode]
      cases (s.fold f).pre.notice <;> simp [hmode]
theorem State.takeNotice_idle (harmed : (s.fold f).st ≠ .armed) (hrunning : (s.fold f).st ≠ .running) (hdraining : (s.fold f).st ≠ .draining)
    (n : NoticePayload) : (s.takeNotice f n).fold f = (s.fold f).noteSeq n := by
  simp only [State.takeNotice, State.modFold_same]
  rfl
theorem State.takeNotice_frame (s : State) (f : FoldId) (n : NoticePayload) :
    othersSame f s (s.takeNotice f n) ∧ storesSame s (s.takeNotice f n) ∧ (s.takeNotice f n).cfg = s.cfg := by
  refine ⟨fun g hg => ?_, ?_, by simp⟩ <;> unfold State.takeNotice <;> dsimp only <;> (repeat' split) <;>
    simp [storesSame, State.disarm, *]

/-- What a notice leaves of the Fold it is for, and that it leaves the other Folds. -/
theorem State.takeNotice_taken (s : State) (f : FoldId) (n : NoticePayload) : noticeTaken s (s.takeNotice f n) f n := by
  obtain ⟨hothers, -⟩ := s.takeNotice_frame f n
  unfold noticeTaken
  by_cases harmed : (s.fold f).st = .armed
  · rw [State.takeNotice_armed harmed]
    exact ⟨rfl, rfl, rfl, fun _ => rfl, fun h => absurd harmed h, fun h => by simp [harmed] at h, fun _ _ => ⟨rfl, rfl⟩, hothers⟩
  by_cases hrunning : (s.fold f).st = .running ∨ (s.fold f).st = .draining
  · rw [State.takeNotice_running hrunning]
    have hno (h : (s.fold f).st ≠ .running) (h' : (s.fold f).st ≠ .draining) : False := hrunning.elim h h'
    by_cases hmode : n.mode = 1
    · rw [Fold.heed_continue hmode]
      refine ⟨rfl, rfl, rfl, fun h => absurd h harmed, fun _ => rfl, fun _ => ⟨?_, ?_, fun _ => ⟨rfl, rfl⟩⟩,
        fun h h' => (hno h h').elim, hothers⟩ <;> simp [hmode]
    · rw [Fold.heed_stop hmode]
      refine ⟨rfl, rfl, rfl, fun h => absurd h harmed, fun _ => rfl, fun _ => ⟨fun h0 hnone => ?_, fun o _ ho => ?_, fun h1 => absurd h1 hmode⟩,
        fun h h' => (hno h h').elim, hothers⟩
      · simp [Fold.noteSeq, h0, hnone]
      · simp [Fold.noteSeq, ho]
  · rw [not_or] at hrunning
    obtain ⟨hrunning, hdraining⟩ := hrunning
    rw [State.takeNotice_idle harmed hrunning hdraining]
    exact ⟨rfl, rfl, rfl, fun h => absurd h harmed, fun _ => rfl, fun h => (h.elim hrunning hdraining).elim, fun _ _ => ⟨rfl, rfl⟩, hothers⟩
/-- A notice taken is taken too of a card on which the Fold's admission alone was another. -/
theorem noticeTaken.of_adm {w : State} {n : NoticePayload} {a : Admit} (hfold : v.fold f = { s.fold f with adm := a })
    (hothers : othersSame f s v) (h : noticeTaken v w f n) : noticeTaken s w f n := by
  unfold noticeTaken at h
  rw [hfold] at h
  obtain ⟨hseq, hload, hrun, harmed, hst, hrunning, hidle, hrest⟩ := h
  exact ⟨hseq, hload, hrun, harmed, hst, hrunning, hidle, hothers.trans hrest⟩
/-- What a notice leaves in the Folds, it leaves on every card that holds them. -/
theorem noticeTaken.of_folds {w y : State} {n : NoticePayload} (hfolds : y.folds = w.folds) (h : noticeTaken s w f n) : noticeTaken s y f n := by
  have hfold : y.fold = w.fold := funext (State.fold_of_folds hfolds)
  unfold noticeTaken
  rwa [hfold]

/-! ## The commit of a notice (12, R323, R325, R327) -/

/-- R323 reads the Fold's notices and the time. -/
theorem State.noticeOk_congr (hpre : (v.fold f).pre = (s.fold f).pre) (hnow : v.now = s.now) : v.noticeOk f b = s.noticeOk f b := by
  simp only [State.noticeOk, hpre, hnow]
theorem noticeGood_congr (hpre : (v.fold f).pre = (s.fold f).pre) (hnow : v.now = s.now) : noticeGood v f b ↔ noticeGood s f b := by
  simp only [noticeGood, State.noticeOk_congr hpre hnow, hpre]

section
variable {path : Nat} {addressed : Option FoldId} (hto : addressed.or (decodeNotice b).foldId = some f)
include hto

theorem State.noticeCommit_addressed : s.noticeCommit path b addressed =
    if !s.noticeOk f b then (s.noticeReject f path (decodeNotice b).seq, 0x06090030, 0x0801)
    else if (decodeNotice b).mode = 1 && (s.fold f).pre.drain.isSome then
      (s.emit (unitFold f) 0x0802 (le 4 (decodeNotice b).seq), 0x08000022, 0x0802)
    else (s.takeNotice f (decodeNotice b), 0, 0) := by
  cases addressed with
  | none =>
    rw [Option.none_or] at hto
    simp only [State.noticeCommit, hto]
  | some g =>
    rw [Option.some_or] at hto
    cases hto
    rfl
theorem State.noticeCommit_good (h : noticeGood s f b) : s.noticeCommit path b addressed = (s.takeNotice f (decodeNotice b), 0, 0) := by
  obtain ⟨hok, hfree⟩ := h
  rw [State.noticeCommit_addressed hto, if_neg (by simp [hok]), if_neg (by simpa using hfree)]
theorem State.noticeCommit_bad (h : s.noticeOk f b = false) :
    s.noticeCommit path b addressed = (s.noticeReject f path (decodeNotice b).seq, 0x06090030, 0x0801) := by
  rw [State.noticeCommit_addressed hto, if_pos (by simp [h])]
theorem State.noticeCommit_busy (hok : s.noticeOk f b = true) (hmode : (decodeNotice b).mode = 1) (hdrain : (s.fold f).pre.drain.isSome = true) :
    s.noticeCommit path b addressed = (s.emit (unitFold f) 0x0802 (le 4 (decodeNotice b).seq), 0x08000022, 0x0802) := by
  rw [State.noticeCommit_addressed hto, if_neg (by simp [hok]), if_pos (by simp [hmode, hdrain])]
end
end

/-! ## The three paths (12, R322) -/

section
variable {t : Nat} {s u v : State} {f : FoldId} {b : Bytes}

theorem exec_preemptNotice_dict {r : WReq} {c : State × Nat × Nat} (hu : s.tick t = u) (h : admits u 0x5800 0 r)
    (hc : (u.admitWrite r.acc 0x5800 0 r.data false).st.noticeCommit r.acc.path.val (payloadOf r.data) none = c) :
    exec (.preemptNotice t (.dict r)) s = .next (c.1.answer r.acc 0x5800 0 c.2.1 c.2.2 []) := by
  show Host.Outcome.next ((s.tick t).dictWrite 0x5800 0 r fun s v => s.noticeCommit r.acc.path.val v none) = _
  rw [hu, dictWrite_of_admits h, hc]
theorem exec_preemptNotice_queue {q : QHdr} {o : Signed} {w : State} {c : State × Nat × Nat} (hu : s.tick t = u) (h : takesCommand u q)
    (habort : ((u.fetch q.fn 0).admitWrite (accOf q) 0x5800 0 (.signed o) true).abort = 0)
    (hw : ((u.fetch q.fn 0).admitWrite (accOf q) 0x5800 0 (.signed o) true).st = w) (hc : w.noticeCommit 0 o.payload (some q.fold) = c) :
    exec (.preemptNotice t (.queue q o)) s =
      .next (c.1.complete q (statusOf c.2.1 c.2.2 false) c.2.2 (if c.2.1 = 0 then w.cutKnown o.payload else 0) 0 0) := by
  show execPreemptNotice t (.queue q o) s = _
  simp only [execPreemptNotice, State.command_taken hu h, State.signedCommand, habort, ne_eq, not_true_eq_false, if_false,
    admitWrite_payload, payloadOf, hw, hc]

/-- A NOTICE message that the card takes: its signature, then the commit, then the acknowledgement of one that commits. -/
theorem exec_preemptNotice_izr {rx : IzrRx} {o : Signed} (hu : (s.tick t).rxFrame rx = u) (hlive : u.izrLive rx = true)
    (hcause : u.izrCause rx = none) (htyp : rx.hdr.typ = 4) (hopen : u.izrOpen rx = .ok b) (hchan : u.chanFold rx.hdr.channel = some f)
    {c : State × Nat × Nat} (hc : ((u.izrAccept rx f).setSeq o.role o.seq).noticeCommit 4 o.payload (some f) = c) :
    exec (.preemptNotice t (.izr rx o)) s = .next (
      if 4096 < o.size || !u.sigOk 0x5800 0 1 o then (u.izrAccept rx f).noticeReject f 4 (decodeNotice o.payload).seq
      else if c.2.1 = 0 then c.1.sendIzr rx.hdr.channel 5 rx.hdr.epoch (vget (c.1.chan rx.hdr.channel).outKey (slotOf rx.hdr.epoch))
        (vget (c.1.chan rx.hdr.channel).salt (slotOf rx.hdr.epoch)) 0 (be 8 rx.hdr.seq) false
      else c.1) := by
  have hskip : (!rx.fcsOk || rx.udpPort ≠ u.izrUdp || u.power.halted) = false := by
    simp only [State.izrLive, Bool.and_eq_true, Bool.not_eq_true', beq_iff_eq] at hlive
    obtain ⟨⟨hfcs, hport⟩, hhalted⟩ := hlive
    simp [hfcs, hport, hhalted]
  have hsig : (u.izrAccept rx f).sigOk 0x5800 0 1 o = u.sigOk 0x5800 0 1 o := rfl
  show execPreemptNotice t (.izr rx o) s = _
  simp only [execPreemptNotice, hu, hskip, Bool.false_eq_true, if_false, hcause, htyp, ne_eq, not_true_eq_false, hopen, hchan, hsig, hc]
  split
  · rfl
  · split <;> rfl

/-- A message that is accepted changes the Fold's admission. -/
theorem State.izrAccept_fold (s : State) (rx : IzrRx) (f : FoldId) :
    ∃ a, (s.izrAccept rx f).fold f = { s.fold f with adm := a } := ⟨_, by simp [State.izrAccept]; rfl⟩
theorem State.izrAccept_others (s : State) (rx : IzrRx) (f : FoldId) : othersSame f s (s.izrAccept rx f) :=
  fun g hg => by simp [State.izrAccept, hg]
/-- A message opens on a channel that holds a key, and leaves its Sequence there. -/
theorem State.izrAccept_chan {rx : IzrRx} (hopen : u.izrOpen rx = .ok b) (f : FoldId) :
    (u.izrAccept rx f).chan rx.hdr.channel = { u.chan rx.hdr.channel with inSeq := rx.hdr.seq } := by
  have hkey : vget (u.chan rx.hdr.channel).inKey (slotOf rx.hdr.epoch) ≠ [] := by
    intro hkey
    simp [State.izrOpen, openBox, hkey] at hopen
  refine mget_mset_ne _ _ _ _ fun hdflt => hkey ?_
  have hin : (u.chan rx.hdr.channel).inKey = Chan.dflt.inKey := (congrArg Chan.inKey hdflt :)
  rw [hin]
  cases rx.hdr.epoch <;> rfl
theorem State.sendIzr_chan (s : State) (c typ : Nat) (e : Bool) (key salt : Bytes) (count : Nat) (payload : Bytes) (frag : Bool) :
    (s.sendIzr c typ e key salt count payload frag).chan c = { s.chan c with outSeq := (s.chan c).outSeq + 1 } := by
  simp only [State.sendIzr, State.send_frame]
  exact mget_mset_ne _ _ _ _ fun hdflt => absurd (congrArg Chan.outSeq hdflt) (Nat.succ_ne_zero _)
theorem State.sendIzr_folds (s : State) (c typ : Nat) (e : Bool) (key salt : Bytes) (count : Nat) (payload : Bytes) (frag : Bool) :
    (s.sendIzr c typ e key salt count payload frag).folds = s.folds := by simp [State.sendIzr]
theorem State.rxFrame_frame (s : State) (rx : IzrRx) : (s.rxFrame rx).folds = s.folds ∧ (s.rxFrame rx).chans = s.chans := by
  unfold State.rxFrame
  split <;> exact ⟨rfl, rfl⟩
/-- The card on which the commit of a notice over IZR runs: the Fold's admission, the channel's last Sequence and AuthSeq have changed. -/
theorem State.izrAccept_reached {rx : IzrRx} {role n : Nat} (hu : (s.tick t).rxFrame rx = u) (hopen : u.izrOpen rx = .ok b)
    (hv : (u.izrAccept rx f).setSeq role n = v) : (∃ a, v.fold f = { s.fold f with adm := a }) ∧ othersSame f s v ∧
    v.chan rx.hdr.channel = { s.chan rx.hdr.channel with inSeq := rx.hdr.seq } ∧ (v.fold f).pre = (u.fold f).pre ∧ v.now = u.now := by
  have hrx : u.folds = s.folds ∧ u.chans = s.chans := by rw [← hu]; simpa using (s.tick t).rxFrame_frame rx
  obtain ⟨hfolds, hchans⟩ := hrx
  obtain ⟨a, hfold⟩ := u.izrAccept_fold rx f
  have hpre : ((u.izrAccept rx f).fold f).pre = (u.fold f).pre := by rw [hfold]
  have hchan := State.izrAccept_chan hopen f
  rw [State.fold_of_folds hfolds] at hfold
  rw [show u.chan = s.chan from funext fun c => by simp [State.chan, hchans]] at hchan
  subst hv
  exact ⟨⟨a, hfold⟩, othersSame.trans (fun g _ => State.fold_of_folds hfolds g) (u.izrAccept_others rx f), hchan, hpre, rfl⟩
end

/-- Settles O30: the notice taken by the state of its Fold, each path by the commit that it ends in. -/
theorem noticesAreTakenOnEveryPath : Obligations.NoticesAreTakenOnEveryPath := by
  refine ⟨fun s f n => ?_, fun t r s u v f b n hu hadmits hb hn hf hv => ?_, fun t q o s u v w n hu hv htakes habort hw hn => ?_,
    fun t rx o s u v f b n hu hlive hcause htyp hopen hchan hn hv => ?_⟩
  · obtain ⟨-, hstores, hcfg⟩ := s.takeNotice_frame f n
    exact ⟨s.takeNotice_taken f n, hcfg, hstores⟩
  · subst hb hn hv
    have hto : (none : Option FoldId).or (decodeNotice (payloadOf r.data)).foldId = some f := hf
    have hpre : ((u.admitWrite r.acc 0x5800 0 r.data false).st.fold f).pre = (u.fold f).pre := by simp
    have hnow : (u.admitWrite r.acc 0x5800 0 r.data false).st.now = u.now := by simp [State.now]
    refine ⟨fun hgood => ?_, fun hbad => ?_, fun hok hmode hdrain => ?_⟩
    · exact (exec_preemptNotice_dict hu hadmits (State.noticeCommit_good hto ((noticeGood_congr hpre hnow).2 hgood)) :)
    · exact (exec_preemptNotice_dict hu hadmits (State.noticeCommit_bad hto ((State.noticeOk_congr hpre hnow).trans hbad)) :)
    · exact (exec_preemptNotice_dict hu hadmits
        (State.noticeCommit_busy hto ((State.noticeOk_congr hpre hnow).trans hok) hmode (by rwa [hpre])) :)
  · subst hv hn
    have hpre : (w.fold q.fold).pre = (u.fold q.fold).pre := by simp [← hw]
    have hnow : w.now = u.now := by simp [← hw, State.now]
    refine ⟨fun hgood => ?_, fun hbad => ?_, fun hok hmode hdrain => ?_⟩
    · exact (exec_preemptNotice_queue hu htakes habort hw (State.noticeCommit_good rfl ((noticeGood_congr hpre hnow).2 hgood)) :)
    · exact (exec_preemptNotice_queue hu htakes habort hw (State.noticeCommit_bad rfl ((State.noticeOk_congr hpre hnow).trans hbad)) :)
    · exact (exec_preemptNotice_queue hu htakes habort hw
        (State.noticeCommit_busy rfl ((State.noticeOk_congr hpre hnow).trans hok) hmode (by rwa [hpre])) :)
  · subst hn
    obtain ⟨⟨a, hfold⟩, hothers, hheld, hpre, hnow⟩ := State.izrAccept_reached hu hopen hv
    have hexec := @exec_preemptNotice_izr t s u f b rx o hu hlive hcause htyp hopen hchan
    rw [hv] at hexec
    refine ⟨fun hsize hsig hgood => ?_, fun hsize hsig hbad => ?_, fun hrejected => ?_⟩
    · obtain ⟨-, ⟨-, -, hchans⟩, -⟩ := v.takeNotice_frame f (decodeNotice o.payload)
      have hheld : (v.takeNotice f (decodeNotice o.payload)).chan rx.hdr.channel = { s.chan rx.hdr.channel with inSeq := rx.hdr.seq } := by
        simpa only [State.chan, hchans] using hheld
      refine ⟨_, (hexec (State.noticeCommit_good rfl ((noticeGood_congr hpre hnow).2 hgood))).trans ?_, ?_, ?_, ?_, rfl⟩
      · rw [if_neg (by simp [hsig, hsize]), if_pos rfl, hheld]
      · exact ((v.takeNotice_taken f _).of_adm hfold hothers).of_folds (State.sendIzr_folds ..)
      · rw [State.sendIzr_chan, hheld]
      · rw [State.sendIzr_chan, hheld]
    · refine (hexec (State.noticeCommit_bad rfl ((State.noticeOk_congr hpre hnow).trans hbad))).trans ?_
      rw [if_neg (by simp [hsig, hsize]), if_neg (Nat.succ_ne_zero _)]
    · refine (hexec rfl).trans ?_
      rw [if_pos (by simpa using hrejected)]

end Sys2Proof.Machine
end

section
/-! PROOFS. PREEMPT_CUT, CHECKPOINT_SECTION_FLUSH, NOTICE_DEADLINE and FILESTORE_ERROR (12, R328 to R337, R347, R348). -/

namespace Sys2Proof.Machine

/-! ## The card but for a Fold's file-store queue (12, R334, R335) -/

/-- The card without the file-store queue of Fold `f` and without what it has sent. -/
def State.unfiled (f : FoldId) (s : State) : State := { s.modFold f fun x => { x with file := ⟨false, [], []⟩ } with out := [] }

section
variable {f : FoldId} {s w : State}

@[simp] theorem State.send_unfiled (o : Output) : (s.send o).unfiled f = s.unfiled f := by
  unfold State.send
  split <;> rfl
@[simp] theorem State.modFold_file_unfiled (g : Fold → FileQ) : (s.modFold f fun x => { x with file := g x }).unfiled f = s.unfiled f := by
  simp only [State.unfiled, State.modFold, State.setFold_same, State.setFold_setFold]
@[simp] theorem State.fileSend_unfiled (c : FileCmd) : (s.fileSend f c).unfiled f = s.unfiled f := by
  unfold State.fileSend State.fileConnect
  split <;> simp
@[simp] theorem State.fileIssue_unfiled (c : FileCmd) : (s.fileIssue f c).unfiled f = s.unfiled f := by
  simp [State.fileIssue]
@[simp] theorem State.fileTake_unfiled (n : Nat) : (s.fileTake f n).unfiled f = s.unfiled f := by
  simp [State.fileTake, foldl_view (State.unfiled f) _ fun s c => State.fileIssue_unfiled c]
@[simp] theorem State.filePump_unfiled : (s.filePump f).unfiled f = s.unfiled f := by simp [State.filePump]
@[simp] theorem State.fileQueue_unfiled (cs : List FileCmd) : (s.fileQueue f cs).unfiled f = s.unfiled f := by
  simp [State.fileQueue]
@[simp] theorem State.fileDone_unfiled (ckpt : Bool) : (s.fileDone f ckpt).unfiled f = s.unfiled f := by
  simp only [State.fileDone, State.filePump_unfiled, State.modFold_file_unfiled]
  (repeat' split) <;> simp
@[simp] theorem State.fileDropCkpt_unfiled : (s.fileDropCkpt f).unfiled f = s.unfiled f := by simp [State.fileDropCkpt]
@[simp] theorem State.fileEnd_unfiled : (s.fileEnd f).unfiled f = s.unfiled f := by
  simp only [State.fileEnd]
  split <;> simp
end

/-! ## What happens in one Fold alone -/

/-- The other Folds, the stores, the configuration and the events are as before. -/
def inFold (f : FoldId) (s w : State) : Prop := othersSame f s w ∧ storesSame s w ∧ w.cfg = s.cfg ∧ w.events = s.events

section
variable {f : FoldId} {s v w : State}

theorem inFold.trans (h : inFold f s v) (h' : inFold f v w) : inFold f s w := by
  obtain ⟨hothers, hstores, hcfg, hevents⟩ := h
  obtain ⟨hothers', hstores', hcfg', hevents'⟩ := h'
  exact ⟨hothers.trans hothers', hstores.trans hstores', hcfg'.trans hcfg, hevents'.trans hevents⟩
theorem inFold.refl (s : State) (f : FoldId) : inFold f s s := ⟨fun _ _ => rfl, ⟨rfl, rfl, rfl⟩, rfl, rfl⟩
theorem inFold_tick (s : State) (t : Nat) (f : FoldId) : inFold f s (s.tick t) :=
  ⟨othersSame_tick s t f, storesSame_tick s t, by simp, by simp⟩
theorem inFold_modFold (s : State) (f : FoldId) (g : Fold → Fold) : inFold f s (s.modFold f g) :=
  ⟨fun _ hg => State.modFold_other _ _ _ _ hg, ⟨rfl, rfl, rfl⟩, rfl, rfl⟩
/-- An operation on the file-store queue changes the queue of its Fold. -/
theorem State.unfiled_frame (h : w.unfiled f = s.unfiled f) : (∃ q, w.fold f = { s.fold f with file := q }) ∧ inFold f s w := by
  have hsame (v : State) : (v.unfiled f).fold f = { v.fold f with file := ⟨false, [], []⟩ } :=
    State.modFold_same v f fun x => { x with file := ⟨false, [], []⟩ }
  have hother (v : State) {g : FoldId} (hg : g ≠ f) : (v.unfiled f).fold g = v.fold g :=
    State.modFold_other v f g (fun x => { x with file := ⟨false, [], []⟩ }) hg
  have hkept {β : Type} (view : State → β) (hview : ∀ v : State, view (v.unfiled f) = view v) : view w = view s := by
    rw [← hview w, h, hview s]
  refine ⟨⟨(w.fold f).file, ?_⟩, fun g hg => ?_, ⟨hkept State.tiles ?_, hkept State.hbms ?_, hkept State.chans ?_⟩, hkept State.cfg ?_, hkept State.events ?_⟩
  · have hfold : { w.fold f with file := ⟨false, [], []⟩ } = { s.fold f with file := ⟨false, [], []⟩ } := by rw [← hsame, h, hsame]
    exact (congrArg (fun x : Fold => { x with file := (w.fold f).file }) hfold :)
  · rw [← hother w hg, h, hother s hg]
  all_goals exact fun _ => rfl
end

/-! ## The cut (12, R329 to R331) -/

section
variable {t lba : Nat} {f : FoldId} {s u : State}

theorem exec_preemptCut_early (hu : s.tick t = u) (h : u.atBoundary f = false ∨ (u.fold f).st ≠ .running) :
    exec (.preemptCut t f lba) s = .next u := by
  show execPreemptCut t f lba s = _
  simp only [execPreemptCut, hu]
  exact if_pos (by simpa using h)
theorem exec_preemptCut_scoring (hu : s.tick t = u) (hb : u.atBoundary f = true) (hst : (u.fold f).st = .running)
    (hg : (u.fold f).growingNow = false) :
    exec (.preemptCut t f lba) s = .next ((u.takeScoringCut f (u.fold f).boundaryTick).settle f) := by
  show execPreemptCut t f lba s = _
  simp only [execPreemptCut, hu]
  rw [if_neg (by simp [hb, hst]), if_pos (by simp [hg])]
theorem exec_preemptCut_growing (hu : s.tick t = u) (hb : u.atBoundary f = true) (hst : (u.fold f).st = .running)
    (hg : (u.fold f).growingNow = true) :
    exec (.preemptCut t f lba) s = .next ((u.fold f).dueNotice.elim u fun n => u.takeCut f n lba) := by
  show execPreemptCut t f lba s = _
  simp only [execPreemptCut, hu]
  rw [if_neg (by simp [hb, hst]), if_neg (by simp [hg])]
  cases (u.fold f).dueNotice <;> rfl
/-- A STOP notice whose cut has come takes a running Scoring Fold into DRAINING (12, R331). -/
theorem State.takeScoringCut_due {n : Notice} {tick : Nat} (hn : (s.fold f).pre.notice = some n) (hstop : n.stop = true)
    (hst : (s.fold f).st = .running) (hg : (s.fold f).growingNow = false) (hcut : scoringCut (s.fold f) n ≤ tick) :
    s.takeScoringCut f tick = s.startDraining f := by
  simp [State.takeScoringCut, hn, hstop, hst, hg, hcut]
@[simp] theorem State.startDraining_st (s : State) (f : FoldId) : ((s.startDraining f).fold f).st = .draining := by
  simp [State.startDraining]
/-- The cut of the notice that is due has come, and it is a CONTINUE notice unless the cut of the STOP notice has come too (12, R329, R347). -/
theorem Fold.dueNotice_some {x : Fold} {n : Notice} (h : x.dueNotice = some n) : n.cutAt ≤ x.boundaryTick ∧
    ((∀ o, x.pre.notice = some o → x.boundaryTick < o.cutAt) → n ∈ x.pre.conts) := by
  unfold Fold.dueNotice at h
  split at h
  · split at h
    · next m hm =>
      cases h
      obtain ⟨hnotice, hcut⟩ := Option.filter_eq_some_iff.mp hm
      have hcut : n.cutAt ≤ x.boundaryTick := of_decide_eq_true hcut
      exact ⟨hcut, fun hlater => absurd (hlater n hnotice) hcut.not_gt⟩
    · obtain ⟨hconts, hcut⟩ := List.mem_filter.mp (List.mem_of_getLast? h)
      exact ⟨of_decide_eq_true hcut, fun _ => hconts⟩
  · cases h
end

/-! ## The sections of the drain (12, R332, R333) -/

section
variable {t : Nat} {f : FoldId} {s u : State} {d : Drain}

/-- One more section of the drain is written. -/
def Fold.countSection (d : Drain) (x : Fold) : Fold :=
  { x with pre := { x.pre with drain := some { d with written := d.written + 1 }, sections := d.written + 1 } }
/-- The card on which a section has been counted as written. -/
def State.countSection (s : State) (f : FoldId) (d : Drain) : State := (s.fileDone f true).modFold f (Fold.countSection d)
theorem exec_sectionFlush_idle (hu : s.tick t = u) (h : (u.fold f).pre.drain = none ∨ u.power.halted = true) :
    exec (.checkpointSectionFlush t f) s = .next u := by
  show execCheckpointSectionFlush t f s = _
  simp only [execCheckpointSectionFlush, hu]
  split
  · rfl
  · next hd =>
    rw [hd] at h
    exact if_pos (by simpa using h.elim nofun Or.inl)
theorem exec_sectionFlush_late (hu : s.tick t = u) (hd : (u.fold f).pre.drain = some d) (hlate : d.deadline ≤ u.now) :
    exec (.checkpointSectionFlush t f) s = .next u := by
  show execCheckpointSectionFlush t f s = _
  simp only [execCheckpointSectionFlush, hu, hd]
  exact if_pos (by simp [hlate])
theorem exec_sectionFlush_counts (hu : s.tick t = u) (hd : (u.fold f).pre.drain = some d) (hp : u.power.halted = false)
    (hnow : u.now < d.deadline) : exec (.checkpointSectionFlush t f) s =
      .next (if 6 ≤ d.written + 1 then (u.countSection f d).drainDone f d else (u.countSection f d).drainNext f) := by
  show execCheckpointSectionFlush t f s = _
  simp only [execCheckpointSectionFlush, hu, hd]
  rw [if_neg (by simp [hp, hnow])]
  rfl
theorem State.countSection_leaves (s : State) (f : FoldId) (d : Drain) :
    (∃ q, (s.countSection f d).fold f = { (s.fold f).countSection d with file := q }) ∧ inFold f s (s.countSection f d) := by
  obtain ⟨⟨q, hfold⟩, hrest⟩ := State.unfiled_frame (State.fileDone_unfiled (f := f) (s := s) true)
  refine ⟨⟨q, ?_⟩, hrest.trans (inFold_modFold _ f _)⟩
  rw [State.countSection, State.modFold_same, hfold]
  rfl
/-- The bytes of the section that is queued count as written. -/
def Fold.countBytes (n : Nat) (x : Fold) : Fold :=
  { x with pre := { x.pre with drain := x.pre.drain.map fun e => { e with bytes := e.bytes + n } } }
theorem State.drainNext_queues (hd : (s.fold f).pre.drain = some d) :
    ∃ n cs, s.drainNext f = (s.modFold f (Fold.countBytes n)).fileQueue f cs := by
  simp only [State.drainNext, hd]
  exact ⟨_, _, rfl⟩
/-- The next section is queued: of the drain only the bytes written change. -/
theorem State.drainNext_leaves (hd : (s.fold f).pre.drain = some d) :
    (∃ n q, (s.drainNext f).fold f = { s.fold f with pre := { (s.fold f).pre with drain := some { d with bytes := n } }, file := q }) ∧
    inFold f s (s.drainNext f) := by
  obtain ⟨n, cs, hqueue⟩ := State.drainNext_queues hd
  obtain ⟨⟨q, hfold⟩, hrest⟩ := State.unfiled_frame (State.fileQueue_unfiled (f := f) (s := s.modFold f (Fold.countBytes n)) cs)
  rw [hqueue]
  refine ⟨⟨d.bytes + n, q, ?_⟩, (inFold_modFold s f _).trans hrest⟩
  rw [hfold, State.modFold_same, Fold.countBytes, hd]
  rfl
end

/-! ## The end of the drain (12, R347, R348) -/

section
variable {t : Nat} {f : FoldId} {s u v : State} {d : Drain}

/-- A drain that ends. -/
def Preempt.ended (p : Preempt) (status : Nat) : Preempt := { p with drain := none, status := status }
theorem State.endDrain_leaves (s : State) (f : FoldId) (status : Nat) :
    (∃ q, (s.endDrain f status).fold f = { s.fold f with pre := (s.fold f).pre.ended status, file := q } ∧
      ∀ c ∈ q.issued ++ q.waiting, c.ckpt = false) ∧ inFold f s (s.endDrain f status) := by
  refine ⟨⟨((s.fileDropCkpt f).fold f).file, ?_, ?_⟩, ?_⟩
  · simp [State.endDrain, State.fileDropCkpt, Preempt.ended]
  · simp [State.fileDropCkpt, or_imp]
  · exact (inFold_modFold s f _).trans (inFold_modFold _ f _)
/-- A Fold that moves to STOPPED keeps its notices. -/
theorem State.toStopped_leaves (s : State) (f : FoldId) : ((s.toStopped f).fold f).st = .stopped ∧
    ((s.toStopped f).fold f).pre = (s.fold f).pre ∧ inFold f s (s.toStopped f) := by
  unfold State.toStopped State.tdiError State.recountCredits
  dsimp only
  refine ⟨by simp, ?_, fun g hg => ?_, ?_, by simp, ?_⟩ <;> (repeat' split) <;> simp [storesSame, *]
theorem State.tryStopped_leaves (s : State) (f : FoldId) :
    ((s.tryStopped f).fold f).pre = (s.fold f).pre ∧ inFold f s (s.tryStopped f) := by
  unfold State.tryStopped
  split
  · exact (s.toStopped_leaves f).2
  · exact ⟨rfl, inFold.refl s f⟩
/-- The queue of a Fold whose drain was for a stop closes, and the Fold stops where nothing is held. -/
theorem State.closeStop_leaves (s : State) (f : FoldId) (stop : Bool) {w : State} (hw : (if stop then (s.fileEnd f).tryStopped f else s) = w) :
    (w.fold f).pre = (s.fold f).pre ∧ inFold f s w := by
  subst hw
  split
  · obtain ⟨⟨q, hfold⟩, hrest⟩ := State.unfiled_frame (State.fileEnd_unfiled (f := f) (s := s))
    obtain ⟨hpre, hrest'⟩ := (s.fileEnd f).tryStopped_leaves f
    exact ⟨hpre.trans (by rw [hfold]), hrest.trans hrest'⟩
  · exact ⟨rfl, inFold.refl s f⟩
/-- The sixth section is written: the generation is complete. -/
def Fold.complete (d : Drain) (x : Fold) : Fold := { x with pre := { x.pre with
  generation := some d.generation, doneSlot := d.slot, newestSlot := if x.run.job.2 = 1 then d.slot else x.pre.newestSlot } }
theorem State.drainDone_leaves (s : State) (f : FoldId) (d : Drain) :
    ((s.drainDone f d).fold f).pre = (({ s.fold f with pre := (s.fold f).pre.ended 2 } : Fold).complete d).pre ∧
    storesSame s (s.drainDone f d) ∧ (s.drainDone f d).reports 0x0805 := by
  have hreports := s.reports_emit_same (unitFold f) 0x0805 (le 4 d.generation ++ le 8 d.bytes)
  have hemit : storesSame s (s.emit (unitFold f) 0x0805 (le 4 d.generation ++ le 8 d.bytes)) := ⟨rfl, rfl, rfl⟩
  have hsame : (s.emit (unitFold f) 0x0805 (le 4 d.generation ++ le 8 d.bytes)).fold f = s.fold f := rfl
  have hdone : s.drainDone f d = (have v := ((s.emit (unitFold f) 0x0805 (le 4 d.generation ++ le 8 d.bytes)).endDrain f 2).modFold f (Fold.complete d)
    if d.stop then (v.fileEnd f).tryStopped f else v) := rfl
  generalize s.emit (unitFold f) 0x0805 (le 4 d.generation ++ le 8 d.bytes) = e at *
  obtain ⟨⟨q, hfold, -⟩, hended⟩ := e.endDrain_leaves f 2
  obtain ⟨hpre, hclosed⟩ := ((e.endDrain f 2).modFold f (Fold.complete d)).closeStop_leaves f d.stop hdone.symm
  obtain ⟨-, hstores, -, hevents⟩ := (hended.trans (inFold_modFold _ f _)).trans hclosed
  refine ⟨?_, hemit.trans hstores, (State.reports_congr hevents _).2 hreports⟩
  rw [hpre, State.modFold_same, hfold, hsame]
  rfl
end

/-! ## FORCE_STOP keeps the notices (08, R213; 09, R248) -/

section
variable {f : FoldId} {s v : State}

/-- The notices and checkpoints of Fold `f`, and the channels. -/
def State.notices (f : FoldId) (s : State) : Preempt × SMap Chan := ((s.fold f).pre, s.chans)

theorem State.notices_of_parts (hfolds : v.folds = s.folds) (hchans : v.chans = s.chans) : v.notices f = s.notices f := by
  rw [State.notices, State.fold_of_folds hfolds, hchans, State.notices]
@[simp] theorem State.setFold_notices (s : State) (f : FoldId) {g : FoldId} {x : Fold} (h : x.pre = (s.fold g).pre) :
    (s.setFold g x).notices f = s.notices f := by
  by_cases hg : f = g
  · subst hg
    simp [State.notices, h]
  · simp [State.notices, hg]
@[simp] theorem State.modFold_notices (g : FoldId) (k : Fold → Fold) (h : ∀ x, (k x).pre = x.pre) :
    (s.modFold g k).notices f = s.notices f := s.setFold_notices f (h _)
@[simp] theorem State.send_notices (o : Output) : (s.send o).notices f = s.notices f := State.notices_of_parts (by simp) (by simp)
@[simp] theorem State.emit_notices (unit code : Nat) (d : Bytes) : (s.emit unit code d).notices f = s.notices f := rfl
@[simp] theorem State.post_notices (n : FnId) (c : Cqe) : (s.post n c).notices f = s.notices f := State.notices_of_parts (by simp) (by simp)
@[simp] theorem State.postRecord_notices (g : FoldId) (cid status event frame len : Nat) :
    (s.postRecord g cid status event frame len).notices f = s.notices f := by simp [State.postRecord]
theorem State.notices_of_unfiled {g : FoldId} (h : v.unfiled g = s.unfiled g) : v.notices f = s.notices f := by
  obtain ⟨⟨q, hfold⟩, hothers, ⟨-, -, hchans⟩, -⟩ := State.unfiled_frame h
  by_cases hg : f = g
  · subst hg
    rw [State.notices, hfold, hchans, State.notices]
  · rw [State.notices, hothers f hg, hchans, State.notices]

theorem State.foldObject_pre {g : FoldId} {cs : List JPage} {x : Fold} (h : s.foldObject g = some (cs, x)) : x.pre = (s.fold g).pre := by
  unfold State.foldObject at h
  dsimp only at h
  split at h
  · cases h
  split at h
  · cases h
  split at h
  · cases h
    rfl
  split at h
  · cases h
  · obtain ⟨_, -, ho⟩ := Option.map_eq_some_iff.mp h
    cases ho
    rfl
@[simp] theorem State.choosePage_notices : s.choosePage.notices f = s.notices f := by
  unfold State.choosePage
  split
  · rfl
  split
  · dsimp only
    split <;> rfl
  split
  · rfl
  split
  · rfl
  · next g cs x hfirst =>
    obtain ⟨k, -, hk⟩ := List.exists_of_findSome?_eq_some hfirst
    obtain ⟨_, hobject, ho⟩ := Option.map_eq_some_iff.mp hk
    cases ho
    have htaken := s.setFold_notices f (State.foldObject_pre hobject)
    dsimp only
    split <;> exact htaken
theorem State.sendPage_chans (s : State) : s.sendPage.chans = s.chans := by
  unfold State.sendPage State.bindLabel
  (repeat' split) <;> simp
@[simp] theorem State.advanceJournal_notices : s.advanceJournal.notices f = s.notices f := by
  unfold State.advanceJournal
  dsimp only
  split
  · rfl
  split
  · exact State.choosePage_notices
  · exact (State.notices_of_parts (State.sendPage_folds _) (State.sendPage_chans _)).trans State.choosePage_notices
@[simp] theorem State.exportFile_notices (g : FoldId) (p : Page) (tags : Bool) : (s.exportFile g p tags).notices f = s.notices f := by
  unfold State.exportFile
  dsimp only
  split
  · rfl
  · exact (State.notices_of_unfiled (State.fileQueue_unfiled _)).trans (State.modFold_notices _ _ fun _ => rfl)
@[simp] theorem State.sealPage_notices (g : FoldId) (p : OpenPage) (n : Nat) : (s.sealPage g p n).notices f = s.notices f := by
  unfold State.sealPage
  dsimp only
  split
  · rfl
  split
  · rfl
  · rw [State.advanceJournal_notices, State.exportFile_notices]
    exact State.modFold_notices _ _ fun _ => rfl
@[simp] theorem State.sealClosing_notices (g : FoldId) (n : Nat) : (s.sealClosing g n).notices f = s.notices f := by
  unfold State.sealClosing
  split <;> simp
@[simp] theorem foldl_notices {α : Type} (op : State → α → State) (l : List α) (s : State) (h : ∀ s a, (op s a).notices f = s.notices f) :
    (l.foldl op s).notices f = s.notices f := foldl_view (State.notices f) op h l s
@[simp] theorem State.closePage_notices (g : FoldId) (n : Nat) (final : Bool) : (s.closePage g n final).notices f = s.notices f := by
  unfold State.closePage
  split <;> simp
@[simp] theorem State.openPage_notices (g : FoldId) (n : Nat) : (s.openPage g n).notices f = s.notices f := by
  unfold State.openPage
  dsimp only
  split <;> simp
@[simp] theorem State.enterCohort_notices (g : FoldId) (c : Cohort) (d : Bool) : (s.enterCohort g c d).notices f = s.notices f := by
  unfold State.enterCohort State.sealBefore
  rw [State.modFold_notices _ _ fun x => by dsimp only; split <;> rfl]
  (repeat' split) <;> simp
@[simp] theorem State.cutAttempt_notices (g : FoldId) (n : Nat) : (s.cutAttempt g n).notices f = s.notices f := by
  unfold State.cutAttempt State.endAttempt State.appendAll State.splitPage
  dsimp only
  (repeat' split) <;> simp
@[simp] theorem State.dropResults_notices (g : FoldId) (status : Nat) (p : Result → Bool) :
    (s.dropResults g status p).notices f = s.notices f := by
  unfold State.dropResults
  dsimp only
  rw [foldl_notices]
  · simp
  · intro v r
    unfold dropResult
    split <;> simp
@[simp] theorem State.dropCohort_notices (g : FoldId) (status : Nat) (c : Cohort) : (s.dropCohort g status c).notices f = s.notices f :=
  foldl_notices _ _ _ fun s r => by split <;> simp
@[simp] theorem State.dropReads_notices (g : FoldId) (status : Nat) : (s.dropReads g status).notices f = s.notices f := by
  simp [State.dropReads]
@[simp] theorem State.finalPage_notices (g : FoldId) (n : Nat) : (s.finalPage g n).notices f = s.notices f := by
  simp [State.finalPage]
@[simp] theorem State.endCohorts_notices (g : FoldId) (held : List Nat) (cs : List Cohort) :
    (s.endCohorts g held cs).notices f = s.notices f := by simp [State.endCohorts]
/-- The end of a run ends the drain, and leaves the other notices. -/
theorem State.endRun_notices (hdrain : (s.fold f).pre.drain = none) : (s.endRun f).notices f = s.notices f := by
  simp only [State.endRun]
  generalize hv : State.finalPage _ f _ = v
  have hkept : v.notices f = s.notices f := by rw [← hv]; simp
  obtain ⟨hpre, hchans⟩ := Prod.mk.inj hkept
  refine Prod.ext ?_ hchans
  have hnone : { (v.fold f).pre with drain := none } = (v.fold f).pre := by rw [hpre, ← hdrain]
  exact (congrArg Fold.pre (State.modFold_same _ _ _)).trans (hnone.trans hpre)
theorem State.dropHeld_heathKept (f : FoldId) (status : Nat) : heathKept v (s.dropHeld f status) ↔ heathKept v s := by
  unfold State.dropHeld State.dropResults
  dsimp only
  rw [foldl_heathKept]
  · simp
  · intro s r
    unfold dropResult
    split <;> simp
/-- Before the Fold stops, FORCE_STOP has dropped what it held and closed its pages. -/
theorem State.forceStopNow_stops (hdrain : (s.fold f).pre.drain = none) :
    ∃ v : State, s.forceStopNow f = v.toStopped f ∧ v.notices f = s.notices f ∧ v.hbms = s.hbms ∧ heathKept s v := by
  unfold State.forceStopNow
  dsimp only
  split
  · exact ⟨s, rfl, rfl, rfl, heathKept.refl s⟩
  · generalize hc : State.endCohorts _ f _ _ = c
    have hnotices : c.notices f = s.notices f := by
      rw [← hc, State.endCohorts_notices, State.modFold_notices]
      · exact State.dropResults_notices _ _ _
      · exact fun _ => rfl
    have hhbms : c.hbms = s.hbms := by simp [← hc, State.endCohorts, State.dropHeld]
    have hkept : heathKept s c := by simp [← hc, State.dropHeld_heathKept]
    have hended : (c.endRun f).notices f = s.notices f :=
      (State.endRun_notices (by rw [(Prod.mk.inj hnotices).1, hdrain])).trans hnotices
    have hkept' := hkept.trans (c.endRun_heathKept f)
    split
    · exact ⟨c.endRun f, rfl, hended, by simp [hhbms], hkept'⟩
    · exact ⟨(c.endRun f).emit _ _ _, rfl, (State.emit_notices _ _ _).trans hended, by simp [hhbms], hkept'.trans (State.emit_heathKept _ _ _ _)⟩
/-- FORCE_STOP: the Fold is STOPPED; its notices stay, and so do the stores and every event that waits. -/
theorem State.forceStopNow_leaves (hdrain : (s.fold f).pre.drain = none) : ((s.forceStopNow f).fold f).st = .stopped ∧
    ((s.forceStopNow f).fold f).pre = (s.fold f).pre ∧ storesSame s (s.forceStopNow f) ∧
    ∀ code, s.reports code → (s.forceStopNow f).reports code := by
  obtain ⟨v, hstop, hnotices, hhbms, -, -, htiles, hreports⟩ := State.forceStopNow_stops hdrain
  obtain ⟨hpre, hchans⟩ := Prod.mk.inj hnotices
  obtain ⟨hst, hpre', -, hstores, -, hevents⟩ := v.toStopped_leaves f
  rw [hstop]
  exact ⟨hst, hpre'.trans hpre, storesSame.trans ⟨htiles, hhbms, hchans⟩ hstores,
    fun code h => (State.reports_congr hevents code).2 (hreports code h)⟩
/-- A STOP drain that its Deadline ends: its status is kept, and the Fold is STOPPED. -/
theorem State.stopDrain_leaves (s : State) (f : FoldId) (status : Nat) {w : State}
    (hw : ((s.endDrain f status).fileEnd f).forceStopNow f = w) : (w.fold f).st = .stopped ∧
    (w.fold f).pre = (s.fold f).pre.ended status ∧ storesSame s w ∧ ∀ code, s.reports code → w.reports code := by
  subst hw
  obtain ⟨⟨q, hfold, -⟩, hended⟩ := s.endDrain_leaves f status
  obtain ⟨⟨q', hfold'⟩, hfiled⟩ := State.unfiled_frame (State.fileEnd_unfiled (f := f) (s := s.endDrain f status))
  obtain ⟨-, hstores, -, hevents⟩ := hended.trans hfiled
  have hpre : (((s.endDrain f status).fileEnd f).fold f).pre = (s.fold f).pre.ended status := by rw [hfold', hfold]
  obtain ⟨hst, hpre', hstores', hreports⟩ := State.forceStopNow_leaves (s := (s.endDrain f status).fileEnd f) (f := f) (by rw [hpre]; rfl)
  exact ⟨hst, hpre'.trans hpre, hstores.trans hstores', fun code h => hreports code ((State.reports_congr hevents code).2 h)⟩
end

/-! ## The Deadline (12, R331, R347, R348) -/

section
variable {t : Nat} {f : FoldId} {s u : State} {d : Drain}

theorem exec_noticeDeadline_halted (hu : s.tick t = u) (hp : u.power.halted = true) : exec (.noticeDeadline t f) s = .next u := by
  show execNoticeDeadline t f s = _
  simp only [execNoticeDeadline, hu]
  exact if_pos hp
theorem exec_noticeDeadline_early (hu : s.tick t = u) (hd : (u.fold f).pre.drain = some d) (hp : u.power.halted = false)
    (hnow : u.now < d.deadline) : exec (.noticeDeadline t f) s = .next u := by
  show execNoticeDeadline t f s = _
  simp only [execNoticeDeadline, hu, hp, hd, Bool.false_eq_true, if_false]
  exact if_pos hnow
theorem exec_noticeDeadline_abandons (hu : s.tick t = u) (hd : (u.fold f).pre.drain = some d) (hp : u.power.halted = false)
    (hnow : d.deadline ≤ u.now) (hstop : d.stop = false) : exec (.noticeDeadline t f) s =
      .next ((u.emit (unitFold f) 0x0808 (le 4 d.generation)).endDrain f 5) := by
  show execNoticeDeadline t f s = _
  simp only [execNoticeDeadline, hu, hp, hd, Bool.false_eq_true, if_false]
  rw [if_neg hnow.not_gt, if_pos (by simp [hstop]), State.abandonDrain]
  simp only [hd]
  rfl
/-- The report of a STOP drain that its Deadline ends: SHORT from section 3 on, else INCOMPLETE. -/
def State.reportDeadline (s : State) (f : FoldId) (d : Drain) : State :=
  s.emit (unitFold f) (if 4 ≤ d.written then 0x0806 else 0x0807) (le 4 d.generation ++ le 1 d.written)
theorem exec_noticeDeadline_ends (hu : s.tick t = u) (hd : (u.fold f).pre.drain = some d) (hp : u.power.halted = false)
    (hnow : d.deadline ≤ u.now) (hstop : d.stop = true) : exec (.noticeDeadline t f) s =
      .next ((((u.reportDeadline f d).endDrain f (if 4 ≤ d.written then 3 else 4)).fileEnd f).forceStopNow f) := by
  show execNoticeDeadline t f s = _
  simp only [execNoticeDeadline, hu, hp, hd, Bool.false_eq_true, if_false, decide_eq_true_eq]
  rw [if_neg hnow.not_gt, if_neg (by simp [hstop])]
  rfl
theorem exec_noticeDeadline_forces {n : Notice} (hu : s.tick t = u) (hdrain : (u.fold f).pre.drain = none)
    (hn : (u.fold f).pre.notice = some n) (hp : u.power.halted = false) (hstop : n.stop = true) (hnow : n.deadline ≤ u.now)
    (hst : (u.fold f).st = .draining) (hg : (u.fold f).growingNow = false) :
    exec (.noticeDeadline t f) s = .next (u.forceStopNow f) := by
  show execNoticeDeadline t f s = _
  simp only [execNoticeDeadline, hu, hp, hdrain, hn, Bool.false_eq_true, if_false]
  exact if_pos (by simp [hstop, hnow, hst, hg])
end

/-! ## Errors of the file store (12, R337) -/

section
variable {t lba status : Nat} {f : FoldId} {s u : State} {dropped : Bool} {c : FileCmd}

theorem FileQ.failed_some {q : FileQ} (h : q.failed lba = some c) : c ∈ q.issued ∧ (c.data = [] ∨ c.lba ≤ lba) := by
  unfold FileQ.failed at h
  split at h
  · next hfind =>
    cases h
    have hholds := List.find?_some hfind
    simp only [Bool.and_eq_true, decide_eq_true_eq] at hholds
    exact ⟨List.mem_of_find?_eq_some hfind, Or.inr hholds.2.1⟩
  · have hflush := List.find?_some h
    exact ⟨List.mem_of_find?_eq_some h, Or.inl (by simpa using hflush)⟩
theorem State.mayReissue_iff (s : State) (f : FoldId) (c : FileCmd) :
    s.mayReissue f c = true ↔ c.ckpt = false ∨ ∃ d, (s.fold f).pre.drain = some d ∧ s.now < d.deadline := by
  simp [State.mayReissue, Option.any_eq_true]
theorem exec_filestoreError_none (hu : s.tick t = u) (h : (u.fold f).file.failed lba = none ∨ u.power.halted = true) :
    exec (.filestoreError t f ⟨status, dropped⟩ lba) s = .next u := by
  show execFilestoreError t f ⟨status, dropped⟩ lba s = _
  simp only [execFilestoreError, hu]
  split
  · rfl
  · next hc =>
    rw [hc] at h
    exact if_pos (h.elim nofun id)
/-- The connection as the error shows it. -/
def State.noteConnection (s : State) (f : FoldId) (dropped : Bool) : State :=
  if dropped then s.modFold f fun x => { x with file := { x.file with up := false } } else s
theorem State.noteConnection_leaves (s : State) (f : FoldId) (dropped : Bool) :
    (s.noteConnection f dropped).fold f = { s.fold f with file := { (s.fold f).file with up := (s.fold f).file.up && !dropped } } ∧
    inFold f s (s.noteConnection f dropped) ∧ (s.noteConnection f dropped).out = s.out := by
  cases dropped with
  | false => exact ⟨by simp [State.noteConnection], inFold.refl s f, rfl⟩
  | true => exact ⟨by simp [State.noteConnection], inFold_modFold s f fun x => { x with file := { x.file with up := false } }, rfl⟩
/-- The report of a command that failed, and the connection as the error shows it. -/
def State.reportFile (s : State) (f : FoldId) (status lba : Nat) (dropped : Bool) : State :=
  (s.emit (unitFold f) 0x080B (le 2 status ++ le 8 lba)).noteConnection f dropped
/-- The report changes neither what was sent nor, but for the connection, any Fold. -/
theorem State.reportFile_leaves {w : State} (hw : s.reportFile f status lba dropped = w) :
    w.fold f = { s.fold f with file := { (s.fold f).file with up := (s.fold f).file.up && !dropped } } ∧
    othersSame f s w ∧ storesSame s w ∧ w.cfg = s.cfg ∧ w.out = s.out ∧
    ∃ e ∈ w.events.waiting, e.code = 0x080B ∧ e.detail = padTo 16 (le 2 status ++ le 8 lba) := by
  subst hw
  obtain ⟨hfold, ⟨hothers, hstores, hcfg, hevents⟩, hout⟩ :=
    (s.emit (unitFold f) 0x080B (le 2 status ++ le 8 lba)).noteConnection_leaves f dropped
  refine ⟨hfold, othersSame.trans (fun _ _ => rfl) hothers, storesSame.trans ⟨rfl, rfl, rfl⟩ hstores, hcfg, hout, ?_⟩
  rw [State.reportFile, hevents]
  simp [State.emit, State.emitAt]
/-- The report leaves the power and the names under which the card connects to its file store. -/
theorem State.reportFile_names (s : State) (f : FoldId) (status lba : Nat) (dropped : Bool) :
    (s.reportFile f status lba dropped).power = s.power ∧ (s.reportFile f status lba dropped).sec = s.sec ∧
    (s.reportFile f status lba dropped).foldCfg f = s.foldCfg f := by
  cases dropped <;> exact ⟨rfl, rfl, rfl⟩
theorem exec_filestoreError_reports (hu : s.tick t = u) (hc : (u.fold f).file.failed lba = some c) (hp : u.power.halted = false) :
    exec (.filestoreError t f ⟨status, dropped⟩ lba) s =
      .next (if u.mayReissue f c then (u.reportFile f status lba dropped).fileSend f c else u.reportFile f status lba dropped) := by
  have hmay : (u.reportFile f status lba dropped).mayReissue f c = u.mayReissue f c := by
    simp only [State.mayReissue, State.reportFile, (State.noteConnection_leaves _ f dropped).1]
    cases dropped <;> rfl
  show execFilestoreError t f ⟨status, dropped⟩ lba s = _
  simp only [execFilestoreError, hu, hc, hp, Bool.false_eq_true, if_false]
  rw [← hmay]
  rfl
/-- A command goes out over a connection that then stands. -/
theorem State.fileSend_fold (s : State) (f : FoldId) (c : FileCmd) :
    (s.fileSend f c).fold f = { s.fold f with file := { (s.fold f).file with up := true } } := by
  unfold State.fileSend
  split
  · next hup =>
    have hsame : { s.fold f with file := { (s.fold f).file with up := true } } = s.fold f := by rw [← hup]
    simp [hsame]
  · simp [State.fileConnect]
theorem State.fileSend_out (hg : s.power.gated = false) (c : FileCmd) : (s.fileSend f c).out = s.out ++
    ((if (s.fold f).file.up = true then [] else [.fileConnect f.val (s.foldCfg f).target (hostNqn s.sec.serial) true true false 128]) ++
      [if c.data = [] then .fileFlush f.val else .fileWrite f.val c.lba c.data]) := by
  unfold State.fileSend State.fileConnect
  split <;> simp [State.send, hg]
end

/-- Settles O56: the cut by where the Fold stands, a Flush and a Deadline by which of them comes first, an error by whether its command is
still to be issued. -/
theorem cutsDrainsAndDeadlines : Obligations.CutsDrainsAndDeadlines := by
  intro t f lba status s u x hu hx
  subst hx
  have htick : inFold f s u := hu ▸ inFold_tick s t f
  have htick' := htick
  obtain ⟨hothers, hstores, hcfg, hevents⟩ := htick'
  refine ⟨fun h => exec_preemptCut_early hu h, fun hb hst hg => ⟨exec_preemptCut_scoring hu hb hst hg, fun n hn hstop hcut =>
      ⟨State.takeScoringCut_due hn hstop hst hg hcut, u.startDraining_st f⟩⟩, fun hb hst hg => ⟨fun n hn => ?_, fun hnone => ?_⟩,
    fun d hd hp => ⟨fun hnow hw => ?_, fun hnow hw => ?_, fun hlate => exec_sectionFlush_late hu hd hlate,
      fun hnow => exec_noticeDeadline_early hu hd hp hnow, fun hnow hstop => ?_, fun hnow hstop => ?_⟩,
    fun n hdrain hn hstop hnow hst hg hp => ⟨exec_noticeDeadline_forces hu hdrain hn hp hstop hnow hst hg, (State.forceStopNow_leaves hdrain).1⟩,
    fun h => exec_sectionFlush_idle hu h, fun hp => exec_noticeDeadline_halted hu hp, fun dropped h => exec_filestoreError_none hu h,
    fun dropped c hc hp => ⟨(FileQ.failed_some hc).1, (FileQ.failed_some hc).2, ?_⟩, fun c => u.mayReissue_iff f c⟩
  · obtain ⟨hcut, hcont⟩ := Fold.dueNotice_some hn
    exact ⟨(exec_preemptCut_growing hu hb hst hg).trans (by rw [hn]; rfl), by rw [Fold.cutDue, hn]; rfl, hcut, hcont⟩
  · exact ⟨(exec_preemptCut_growing hu hb hst hg).trans (by rw [hnone]; rfl), by rw [Fold.cutDue, hnone]; rfl⟩
  · obtain ⟨⟨q, hfold⟩, hcount⟩ := u.countSection_leaves f d
    obtain ⟨⟨n, q', hfold'⟩, hnext⟩ := State.drainNext_leaves (s := u.countSection f d) (f := f) (d := { d with written := d.written + 1 })
      (by rw [hfold]; rfl)
    obtain ⟨hothers, hstores, hcfg, hevents⟩ := (htick.trans hcount).trans hnext
    refine ⟨_, (exec_sectionFlush_counts hu hd hp hnow).trans (by rw [if_neg (by omega)]), ?_⟩
    rw [hfold', hfold]
    exact ⟨⟨_, rfl, rfl, rfl, rfl, rfl⟩, rfl, rfl, rfl, hothers, hstores, hcfg, congrArg Events.waiting hevents⟩
  · obtain ⟨⟨q, hfold⟩, hcount⟩ := u.countSection_leaves f d
    obtain ⟨hpre, hdone, hreports⟩ := (u.countSection f d).drainDone_leaves f d
    obtain ⟨-, hstores, -, -⟩ := htick.trans hcount
    refine ⟨_, (exec_sectionFlush_counts hu hd hp hnow).trans (by rw [if_pos (by omega)]), ?_⟩
    rw [hpre, hfold]
    exact ⟨rfl, rfl, rfl, rfl, rfl, hreports, hstores.trans hdone⟩
  · obtain ⟨⟨q, hfold, hissued⟩, hothers', hstores', -, hevents'⟩ :=
      (u.emit (unitFold f) 0x0808 (le 4 d.generation)).endDrain_leaves f 5
    refine ⟨_, exec_noticeDeadline_abandons hu hd hp hnow hstop, ?_⟩
    rw [hfold]
    exact ⟨rfl, rfl, rfl, hissued, (State.reports_congr hevents' _).2 (State.reports_emit_same _ _ _ _),
      hothers.trans (othersSame.trans (fun _ _ => rfl) hothers'), hstores.trans (storesSame.trans ⟨rfl, rfl, rfl⟩ hstores')⟩
  · obtain ⟨hst, hpre, hstores', hreports⟩ := (u.reportDeadline f d).stopDrain_leaves f (if 4 ≤ d.written then 3 else 4) rfl
    refine ⟨_, exec_noticeDeadline_ends hu hd hp hnow hstop, ?_⟩
    rw [hpre]
    exact ⟨hst, rfl, rfl, hreports _ (State.reports_emit_same _ _ _ _), hstores.trans (storesSame.trans ⟨rfl, rfl, rfl⟩ hstores')⟩
  · obtain ⟨hpower, hsec, hfoldCfg⟩ := u.reportFile_names f status lba dropped
    obtain ⟨hfold, hothers', hstores', hcfg', hout, hevent⟩ := State.reportFile_leaves (rfl : u.reportFile f status lba dropped = _)
    have hreissue := exec_filestoreError_reports (status := status) (dropped := dropped) hu hc hp
    generalize u.reportFile f status lba dropped = r at *
    have hout' : u.out = s.out := by simp [← hu]
    cases hmay : u.mayReissue f c with
    | false =>
      rw [hmay] at hreissue
      refine ⟨r, hreissue, ?_⟩
      rw [hfold]
      exact ⟨rfl, rfl, rfl, hothers.trans hothers', hstores.trans hstores', hcfg'.trans hcfg, hevent, fun _ => ⟨hout.trans hout', rfl⟩, nofun⟩
    | true =>
      rw [hmay] at hreissue
      obtain ⟨-, hothers'', hstores'', hcfg'', hevents''⟩ := State.unfiled_frame (State.fileSend_unfiled (f := f) (s := r) c)
      refine ⟨r.fileSend f c, hreissue, ?_⟩
      rw [State.fileSend_fold, hfold, hevents'']
      refine ⟨rfl, rfl, rfl, (hothers.trans hothers').trans hothers'', (hstores.trans hstores').trans hstores'',
        hcfg''.trans (hcfg'.trans hcfg), hevent, nofun, fun _ => ⟨rfl, fun hg => ?_⟩⟩
      rw [State.fileSend_out (by rw [hpower, hg]), hout, hout', hfold, hfoldCfg, hsec]
      simp [← hu]

end Sys2Proof.Machine
end

section
/-! PROOFS. Every command leaves the queue as it is and keeps both event logs within their capacity: what places events cuts the logs to
their latest 65,536 and 4,096, and nothing else touches them (13, R384, R385). -/

namespace Sys2Proof.Machine

/-! ## What a step keeps -/

/-- The queue is as before, and both logs are within their capacity where they were. -/
def queueAndBoundsKept (s w : State) : Prop := w.pending = s.pending ∧ (logsBounded s → logsBounded w)
/-- If a command completes, the queue and the bounds of the logs are kept. -/
def answersKept (s : State) (o : Out) : Prop := ∀ w, o = .next w → queueAndBoundsKept s w

theorem queueAndBoundsKept.of_keeps {s w : State}
    (h : w.pending = s.pending ∧ w.events.log = s.events.log ∧ w.events.sealedLog = s.events.sealedLog) : queueAndBoundsKept s w := by
  obtain ⟨hp, hlog, hsealed⟩ := h
  exact ⟨hp, by simp [logsBounded, hlog, hsealed]⟩
theorem queueAndBoundsKept.trans {s u w : State} (h : queueAndBoundsKept s u) (h' : queueAndBoundsKept u w) : queueAndBoundsKept s w :=
  ⟨h'.1.trans h.1, fun hs => h'.2 (h.2 hs)⟩
theorem queueAndBoundsKept.foldl {α : Type} {op : State → α → State} (h : ∀ s a, queueAndBoundsKept s (op s a)) (l : List α) (s : State) :
    queueAndBoundsKept s (l.foldl op s) := by
  induction l generalizing s with
  | nil => exact .of_keeps ⟨rfl, rfl, rfl⟩
  | cons a l ih => exact (h s a).trans (ih _)
theorem answersKept.next {s w : State} (h : queueAndBoundsKept s w) : answersKept s (.next w) := by
  rintro _ ⟨⟩
  exact h
theorem answersKept.of_keeps {s w : State}
    (h : w.pending = s.pending ∧ w.events.log = s.events.log ∧ w.events.sealedLog = s.events.sealedLog) : answersKept s (.next w) :=
  .next (.of_keeps h)
theorem answersKept.fault (s : State) (e : Fault) : answersKept s (.fault e) := fun _ h => nomatch h

/-! ## Where the logs change (13, R385; 15, Table 15.3) -/

theorem Events.place_bounded (e : Events) (l : List Event) : (e.place l).log.length ≤ 65536 ∧ (e.place l).sealedLog.length ≤ 4096 := by
  simp only [Events.place, List.length_drop]
  omega
theorem Events.lose_bounded (e : Events) : e.lose.log.length ≤ 65536 ∧ e.lose.sealedLog.length ≤ 4096 := by
  simp only [Events.lose]
  exact ⟨by simp, (Events.place_bounded _ _).2⟩
theorem State.shepReset_kept (s : State) : queueAndBoundsKept s s.shepReset := ⟨State.shepReset_pending s, fun _ => Events.lose_bounded _⟩
theorem State.shepOff_kept (s : State) : queueAndBoundsKept s s.shepOff := ⟨State.shepOff_pending s, fun _ => Events.lose_bounded _⟩
theorem State.coldReset_kept (s : State) : queueAndBoundsKept s s.coldReset :=
  ⟨State.coldReset_pending s, fun _ => by
    simpa [State.coldReset, logsBounded] using Events.place_bounded s.applyRestore.events s.applyRestore.events.waiting⟩

/-! ## Writes of the dictionary (13) -/

theorem State.commitReset_kept (s : State) (n : Nat) : queueAndBoundsKept s (s.commitReset n).1 := by
  unfold State.commitReset
  split
  case h_2 => exact State.shepReset_kept s
  all_goals exact .of_keeps (by simp)
theorem ite_commit_log (c : Prop) [Decidable c] (a b : Commit) :
    (if c then a else b).1.events.log = if c then a.1.events.log else b.1.events.log := by split <;> rfl
theorem ite_commit_sealedLog (c : Prop) [Decidable c] (a b : Commit) :
    (if c then a else b).1.events.sealedLog = if c then a.1.events.sealedLog else b.1.events.sealedLog := by split <;> rfl
/-- Of all entries only ResetRequest touches the logs: value 2 resets the Shepherd (15, R439). -/
theorem State.commitEntry_kept (s : State) (a : Access) (i sub : Nat) (v : Bytes) : queueAndBoundsKept s (s.commitEntry a i sub v).1 := by
  by_cases hi : i = 0x2002
  · subst hi
    exact State.commitReset_kept s _
  · refine .of_keeps ⟨State.commitEntry_pending .., ?_⟩
    unfold State.commitEntry
    rw [if_neg hi]
    simp only [ite_commit_log, ite_commit_sealedLog]
    simp
theorem State.dictWrite_kept (s : State) (i sub : Nat) (r : WReq) {commit : State → Bytes → State × Nat × Nat}
    (hc : ∀ s v, queueAndBoundsKept s (commit s v).1) : queueAndBoundsKept s (s.dictWrite i sub r commit) := by
  have hheld (n : Nat) (u : State) (v : Bytes) : queueAndBoundsKept u (u.commitOrHold n i sub v commit).1 := by
    unfold State.commitOrHold
    dsimp only
    split
    · exact .of_keeps ⟨rfl, rfl, rfl⟩
    · exact hc u v
  unfold State.dictWrite
  dsimp only
  split
  · exact .of_keeps (by simp)
  · split
    · exact .of_keeps (by simp)
    · split
      · exact .of_keeps (by simp)
      · exact (queueAndBoundsKept.of_keeps (State.admitWrite_keeps ..)).trans ((hheld ..).trans (.of_keeps (State.answer_keeps ..)))
theorem answersKept.dictWrite (s : State) (t i sub : Nat) (r : WReq) {commit : State → Bytes → State × Nat × Nat}
    (hc : ∀ s v, queueAndBoundsKept s (commit s v).1) : answersKept s (.next ((s.tick t).dictWrite i sub r commit)) :=
  .next ((queueAndBoundsKept.of_keeps (State.tick_keeps s t)).trans (State.dictWrite_kept _ i sub r hc))
theorem answersKept.resetWrite (s : State) (t n : Nat) (r : WReq) : answersKept s (.next ((s.tick t).resetWrite r n)) :=
  .dictWrite s t _ _ r fun s v => by
    split
    · exact State.commitReset_kept s n
    · exact .of_keeps (by simp)
theorem State.applyDeferred_kept (s : State) : queueAndBoundsKept s s.applyDeferred :=
  queueAndBoundsKept.trans (.of_keeps ⟨rfl, rfl, rfl⟩) (.foldl (fun u _ => State.commitEntry_kept u _ _ _ _) _ _)

/-! ## Commands of the queues (18) -/

theorem State.command_kept (s : State) (t : Nat) (q : QHdr) (pfOnly early : Bool) {k : State → State}
    (hk : ∀ s, queueAndBoundsKept s (k s)) : answersKept s (s.command t q pfOnly early k) := by
  have hfetched : queueAndBoundsKept s ((s.tick t).fetch q.fn 0) := .of_keeps (by simp)
  unfold State.command
  dsimp only
  split
  · exact .of_keeps (by simp)
  · split
    · exact .of_keeps (by simp)
    · split
      · exact .of_keeps (by simp)
      · split
        · exact .of_keeps (by simp)
        · exact .next (hfetched.trans (hk _))
theorem State.signedCommand_kept (s : State) (q : QHdr) (o : Signed) (i sub : Nat) {commit : State → Bytes → State × Nat × Nat}
    (result : State → Bytes → Nat)
    (hc : ∀ s v, (commit s v).1.pending = s.pending ∧ (commit s v).1.events.log = s.events.log ∧
      (commit s v).1.events.sealedLog = s.events.sealedLog) : queueAndBoundsKept s (s.signedCommand q o i sub commit result) :=
  .of_keeps (State.signedCommand_keeps s q o i sub commit result hc)
theorem State.foldControl_kept (s : State) (t : Nat) (src : CtlSrc) (action : Nat) : answersKept s (s.foldControl t src action) := by
  cases src with
  | dict f r => exact .dictWrite s t _ _ r fun u v => .of_keeps (by simp)
  | queue q o =>
    exact State.command_kept s t q _ _ fun u => State.signedCommand_kept u q o _ _ _ fun v b => by split <;> simp
theorem State.entry_kept (s : State) (t : Nat) (q : QHdr) {k : State → State}
    (hk : ∀ s, (k s).pending = s.pending ∧ (k s).events.log = s.events.log ∧ (k s).events.sealedLog = s.events.sealedLog) :
    queueAndBoundsKept s ((s.tick t).entry q k) :=
  (queueAndBoundsKept.of_keeps (State.tick_keeps s t)).trans (.of_keeps (State.entry_keeps _ q k hk))

/-! ## Commands that run an operation over a list, or may fault -/

theorem drainLoop_keeps (f : FoldId) (k : Nat) (s : State) : (drainLoop f k s).pending = s.pending ∧
    (drainLoop f k s).events.log = s.events.log ∧ (drainLoop f k s).events.sealedLog = s.events.sealedLog := by
  induction k generalizing s with
  | zero => exact ⟨rfl, rfl, rfl⟩
  | succ k ih =>
    unfold drainLoop
    dsimp only
    (repeat' split) <;> simp [ih]
theorem execResultDrain_kept (t : Nat) (f : FoldId) (s : State) : answersKept s (execResultDrain t f s) := by
  have hsent : queueAndBoundsKept s (((s.tick t).chansOf f).foldl (fun s c => s.sendClosed c) (s.tick t)) :=
    queueAndBoundsKept.trans (.of_keeps (State.tick_keeps s t)) (.foldl (fun u c => .of_keeps (State.sendClosed_keeps u c)) _ _)
  unfold execResultDrain
  dsimp only
  refine .next (hsent.trans (.of_keeps ?_))
  split <;> simp [drainLoop_keeps]
theorem execLldpTimer_kept (t : Nat) (s : State) : answersKept s (execLldpTimer t s) := by
  refine .next (queueAndBoundsKept.trans (.of_keeps (State.tick_keeps s t)) (.foldl (fun u p => .of_keeps ?_) _ _))
  dsimp only
  (repeat' split) <;> simp
theorem execEpochCommit_kept (t : Nat) (s : State) : answersKept s (execEpochCommit t s) := by
  unfold execEpochCommit
  dsimp only
  split
  · exact .of_keeps (by simp)
  · split
    · exact .of_keeps (by simp)
    · refine .next (queueAndBoundsKept.trans (.of_keeps (by simp)) (.foldl (fun u f => .of_keeps ?_) _ _))
      (repeat' split) <;> simp
theorem execQuadrantFailure_kept (t : Nat) (q : QuadId) (cause : Nat) (s : State) : answersKept s (execQuadrantFailure t q cause s) := by
  have hlinks (u : State) := foldl_keeps (fun s i => if h : 4 * q.val + i < 16 then s.dropLink ⟨4 * q.val + i, h⟩ 1 else s) (List.range 4) u
    fun v i => by split <;> simp
  unfold execQuadrantFailure
  dsimp only
  (repeat' split) <;> exact .of_keeps (by simp [hlinks])
theorem execScheduledOperation_kept (t tile cycle : Nat) (feed : Feed) (s : State) :
    answersKept s (execScheduledOperation t tile cycle feed s) := by
  unfold execScheduledOperation
  dsimp only
  split
  · exact .of_keeps (by simp)
  · split
    · exact .fault _ _
    · exact .of_keeps (by simp)
theorem execHbmSlot_kept (t : Nat) (k : StackId) (f : FoldId) (j : Nat) (s : State) : answersKept s (execHbmSlot t k f j s) := by
  unfold execHbmSlot
  dsimp only
  split
  case h_2 => exact .of_keeps (by simp)
  case h_1 =>
    iterate 4
      split
      · exact .of_keeps (by simp)
    split
    · exact .fault _ _
    · (repeat' split) <;> exact .of_keeps (by simp)
theorem execLockInterfaceRequest_kept (t : Nat) (fn : FnId) (s : State) : answersKept s (execLockInterfaceRequest t fn s) := by
  unfold execLockInterfaceRequest State.draw
  dsimp only
  refine .of_keeps ?_
  (repeat' split) <;> simp

/-! ## Commands that place events or lose the logs -/

theorem execEventLogPosition_kept (t : Nat) (s : State) : answersKept s (execEventLogPosition t s) := by
  refine .next ⟨by simp, fun _ => ?_⟩
  have hplaced := Events.place_bounded (s.tick t).events ((s.tick t).events.waiting.filter fun e => decide (e.stamp + 1000000 ≤ (s.tick t).now))
  dsimp only
  split <;> simpa [logsBounded] using hplaced
theorem execMainPowerGood_kept (t : Nat) (cbl sense0 sense1 : Bool) (fail : Option (Rail × Nat)) (s : State) :
    answersKept s (execMainPowerGood t cbl sense0 sense1 fail s) := by
  have hdeferred := queueAndBoundsKept.trans (.of_keeps (State.tick_keeps s t)) (.trans (.of_keeps ⟨rfl, rfl, rfl⟩) (State.applyDeferred_kept
    { s.tick t with shep := { (s.tick t).shep with supplies := (true, (s.tick t).shep.supplies.2.1, (s.tick t).shep.supplies.2.2), source := .main } }))
  unfold execMainPowerGood
  dsimp only
  split
  · exact .of_keeps (by simp)
  · split <;> exact .next (hdeferred.trans (.of_keeps (by simp)))
theorem execMainPowerLoss_kept (t : Nat) (s : State) : answersKept s (execMainPowerLoss t s) := by
  have hreset : queueAndBoundsKept s (s.tick t).coldReset :=
    queueAndBoundsKept.trans (.of_keeps (State.tick_keeps s t)) (State.coldReset_kept _)
  unfold execMainPowerLoss
  dsimp only
  split
  · exact .of_keeps (by simp)
  · split
    · exact .next (hreset.trans (.of_keeps ⟨rfl, rfl, rfl⟩))
    · exact .next (hreset.trans (State.shepOff_kept _))
theorem execShepherdSupplyLoss_kept (t : Nat) (s : State) : answersKept s (execShepherdSupplyLoss t s) := by
  refine .next (queueAndBoundsKept.trans (.of_keeps (State.tick_keeps s t)) ?_)
  split
  · exact (State.coldReset_kept _).trans (State.shepOff_kept _)
  · exact State.shepOff_kept _

/-! ## Commands of the queues, one by one -/

theorem execCreateFold_kept (t : Nat) (q : QHdr) (plots units : Signed) (s : State) : answersKept s (execCreateFold t q plots units s) :=
  State.command_kept s t q _ _ fun u => .of_keeps (by
    dsimp only
    (repeat' split) <;> simp)
theorem execLaunch_kept (t : Nat) (replay : Bool) (src : CtlSrc) (s : State) : answersKept s (execLaunch t replay src s) := by
  cases src with
  | dict f r => exact .dictWrite s t _ _ r fun u v => .of_keeps (by simp)
  | queue q o =>
    simp only [execLaunch]
    refine State.command_kept s t q _ _ fun u => ?_
    split
    · exact .of_keeps (by simp)
    · exact State.signedCommand_kept u q o _ _ _ fun v b => by simp
theorem execPreemptNotice_kept (t : Nat) (src : NoticeSrc) (s : State) : answersKept s (execPreemptNotice t src s) := by
  cases src with
  | dict r => exact .dictWrite s t _ _ r fun u v => .of_keeps (by simp)
  | queue q o => exact State.command_kept s t q _ _ fun u => State.signedCommand_kept u q o _ _ _ fun v b => by simp
  | izr rx o =>
    simp only [execPreemptNotice]
    (repeat' split) <;> exact .of_keeps (by simp)
theorem execLedgerRead_kept (t : Nat) (q : QHdr) (addr len offset : Nat) (s : State) : answersKept s (execLedgerRead t q addr len offset s) :=
  State.command_kept s t q _ _ fun u => .of_keeps (by
    dsimp only
    (repeat' split) <;> simp)
theorem execRecord_kept (t : Nat) (q : QHdr) (addr len resAddr resLen : Nat) (s : State) :
    answersKept s (execRecord t q addr len resAddr resLen s) := by
  unfold execRecord
  dsimp only
  split
  · exact .of_keeps (by simp)
  · split
    · exact .of_keeps (by simp)
    · split
      · exact .of_keeps (by simp)
      · refine .next (State.entry_kept s t q fun u => ?_)
        (repeat' split) <;> simp
theorem execReplayHeader_kept (t : Nat) (q : QHdr) (b : Bytes) (s : State) : answersKept s (execReplayHeader t q b s) := by
  unfold execReplayHeader
  dsimp only
  split
  · exact .of_keeps (by simp)
  · split
    · exact .of_keeps (by simp)
    · refine .next (State.entry_kept s t q fun u => ?_)
      (repeat' split) <;> simp
theorem execRows_kept (t : Nat) (q : QHdr) (addr len first count pass : Nat) (buf : Bytes) (s : State) :
    answersKept s (execRows t q addr len first count pass buf s) := by
  unfold execRows
  dsimp only
  split
  · exact .of_keeps (by simp)
  · split
    · refine .of_keeps ?_
      split <;> simp
    · split
      · exact .of_keeps (by simp)
      · refine .next (State.entry_kept s t q fun u => ?_)
        (repeat' split) <;> simp

/-! ## Every command -/

/-- What any command keeps. The commands named first are those whose lemma stands above, then those that are a queue command, a Fold command
or a write of the dictionary; each of the rest is built of operations that leave the queue and the logs alone. -/
theorem exec_kept (i : Instr) (s : State) : answersKept s (exec i s) := by
  cases i
  case createFold t q plots units => exact execCreateFold_kept t q plots units s
  case launch t replay src => exact execLaunch_kept t replay src s
  case preemptNotice t src => exact execPreemptNotice_kept t src s
  case ledgerRead t q addr len offset => exact execLedgerRead_kept t q addr len offset s
  case record t q addr len resAddr resLen => exact execRecord_kept t q addr len resAddr resLen s
  case replayHeader t q h => exact execReplayHeader_kept t q h s
  case rows t q addr len first count pass buf => exact execRows_kept t q addr len first count pass buf s
  case eventLogPosition t => exact execEventLogPosition_kept t s
  case mainPowerGood t cblPresLow sense0Gnd sense1Gnd fail => exact execMainPowerGood_kept t cblPresLow sense0Gnd sense1Gnd fail s
  case mainPowerLoss t => exact execMainPowerLoss_kept t s
  case scheduledOperation t tile cycle feed => exact execScheduledOperation_kept t tile cycle feed s
  case resultDrain t f => exact execResultDrain_kept t f s
  case lldpTimer t => exact execLldpTimer_kept t s
  case epochCommit t => exact execEpochCommit_kept t s
  case quadrantFailure t q cause => exact execQuadrantFailure_kept t q cause s
  case lockInterfaceRequest t fn => exact execLockInterfaceRequest_kept t fn s
  case hbmSlot t k f j => exact execHbmSlot_kept t k f j s
  case shepherdSupplyLoss t => exact execShepherdSupplyLoss_kept t s
  case stop t src => exact State.foldControl_kept s t src _
  case forceStop t src => exact State.foldControl_kept s t src _
  case unload t src => exact State.foldControl_kept s t src _
  case foldReset t src => exact State.foldControl_kept s t src _
  case warmReset t r => exact .resetWrite s t _ r
  case shepherdReset t r => exact .resetWrite s t _ r
  case quadrantReset t q r => exact .resetWrite s t _ r
  case dictionaryWrite t index sub r => exact .dictWrite s t _ _ r fun u v => State.commitEntry_kept ..
  case ownershipRelease t r => exact .dictWrite s t _ _ r fun u v => .of_keeps (by split <;> simp)
  case tickPeriodWrite | operatingPointWrite | portLayoutWrite | storeParameters | restoreDefaults | ownerKeyWrite | channelTableWrite |
      ledgerRingPagesWrite | plotMaskWrite | ownerKekWrite | inputBindingWrite | resultBindingWrite =>
    exact .dictWrite s _ _ _ _ fun u v => .of_keeps (by simp)
  case identify | loadBundle | restageModel | restore | ledgerAck =>
    simp only [exec, execIdentify, execLoadBundle, execRestageModel, execRestore, execLedgerAck]
    exact State.command_kept s _ _ _ _ fun u => .of_keeps (by simp)
  all_goals
    dsimp only [exec, execLoadBundleDone, execRestageModelDone, execRestoreDone, execRecordReadComplete, execCompletionTimeout,
      execSqTailDoorbell, execCqHeadDoorbell, execQueueEnable, execMsixCoalesceExpiry, execFunctionLevelReset, execRecoveryChunk,
      execRecoveryBoot, execEatRead, execSegmentedTransferTimeout, execSnapshotRefresh, execShepherdSupplyUp, execSupplySourceChange,
      execPllLock, execSecureBoot, execStileTrainingDone, execHbmTrainingDone, execSelfTestDone, execReady, execPerstAssert,
      execPerstDeassert, execPcieRateChange, execSupplyWarn, execSupplyTrip, execTemperatureSample, execThermalTrip, execPowerOverrun,
      execPtpEventMessage, execSync0, execTimeWord, execArmWord, execArmCutoff, execFoldStart, execFrameOpen, execCycleBudgetExpiry,
      execFrameClose, execAdmission, execIzrData, execKeyOffer, execPauseFrame, execEthercatProcessData, execCanPdo, execNmtCommand,
      execCanBootupMessage, execLldpduReceived, execStileFrame, execLinkDown, execLinkUp, execHello, execPeerAttestationDone,
      execLinkTestDone, execEpochReq, execMemberPropose, execMemberAck, execMemberAbort, execEpochAckCutoff, execEpochApply, execLeave,
      execReplayWord, execLevelStepStart, execGradientBarrier, execSplitExchangeBarrier, execLevelStepBoundary, execRoundEnd,
      execPrephaseEnd, execIngestEnd, execReshard, execPreemptCut, execCheckpointSectionFlush, execNoticeDeadline, execFilestoreError,
      execPageOpen, execPageClose, execPageSeal, execSdCardInsert, execEvidenceRemoved, execJournalPageBusyEnd,
      execJournalCommitBusyEnd, execSealedEventBatchDue, execGrazingSlot, execMemberRebuildDone, execEccCeRate, execSpdmGetVersion,
      execSpdmGetCapabilities, execSpdmNegotiateAlgorithms, execSpdmGetCertificate, execSpdmChallenge, execSpdmGetMeasurements,
      execSpdmKeyExchange, execSpdmKeyUpdate, execSpdmEndSession, execIdeKmKeyProg, execGetDeviceInterfaceReport,
      execStartInterfaceRequest, execStileSlot, execRootWheelPosition, execPageFlushComplete, execQsfpDdModuleInsert, execFbPresChange,
      execProducerHeartbeat, execSecurityEngineOrTickGeneratorFault, execShepherdRestartDone, execIdeCheckFailed]
    (repeat' split) <;> exact .of_keeps (by simp)

/-- Settles O3: a step runs the front command, and every command keeps both bounds. -/
theorem eventLogsStayBounded : Obligations.EventLogsStayBounded := by
  intro s t hs hstep
  unfold step at hstep
  split at hstep
  · cases hstep
    exact hs
  · exact (exec_kept _ _ t hstep).2 hs

end Sys2Proof.Machine
end

section
/-! PROOFS. NMT_COMMAND (13, R376; 10; log entry 31). -/

namespace Sys2Proof.Machine

section
variable {t : Nat} {s u : State}

theorem exec_nmtCommand_off (hu : s.tick t = u) (hup : u.fieldUp = false) (c : NmtCmd) : exec (.nmtCommand t c) s = .next u := by
  simp only [exec, execNmtCommand, hu, hup, Bool.not_false, if_true]

/-! ## Joining the bus -/

theorem State.canBoot_rest (u : State) :
    u.canBoot = { u with shep := { u.shep with nmt := u.canBoot.shep.nmt }, out := u.canBoot.out } := by
  unfold State.canBoot State.send
  (repeat' split) <;> rfl

/-! ## Each command on a running controller -/

/-- The CAN controller in an NMT state; off the bus it stays there. -/
def State.setNmt (u : State) (n : Nat) : State := if u.shep.nmt = 0 then u else { u with shep := { u.shep with nmt := n } }
/-- The CAN controller booted again; off the bus it stays there. -/
def State.rebootNode (u : State) : State := if u.shep.nmt = 0 then u else u.canBoot
/-- The EtherCAT slave in an AL state that it can take. -/
def State.setAl (u : State) (x : Nat) : State :=
  if u.ecatUp = true ∧ x ∈ [1, 2, 4, 8] then { u with shep := { u.shep with alState := x } } else u
/-- What a command of either field controller leaves, on running controllers (13, R376). -/
def State.afterNmt (u : State) : NmtCmd → State
  | .start => u.setNmt 5
  | .stop => u.setNmt 4
  | .preOperational => u.setNmt 0x7F
  | .resetNode => u.rebootNode
  | .resetComm => u.rebootNode
  | .alState x => u.setAl x
  | .lssNodeId _ => u
theorem exec_nmtCommand_up (hu : s.tick t = u) (hup : u.fieldUp = true) {c : NmtCmd} (hc : ∀ n, c ≠ .lssNodeId n) :
    exec (.nmtCommand t c) s = .next (u.afterNmt c) := by
  simp only [exec, execNmtCommand, hu, hup, Bool.not_true, Bool.false_eq_true, if_false]
  cases c with
  | lssNodeId n => exact absurd rfl (hc n)
  | alState x =>
    simp only [State.afterNmt, State.setAl, List.mem_cons, List.not_mem_nil, or_false]
    split <;> rfl
  | _ => rfl
/-- A command changes the states of the two controllers and what is sent, and nothing else. -/
theorem State.afterNmt_rest (u : State) (c : NmtCmd) : u.afterNmt c =
    { u with shep := { u.shep with nmt := (u.afterNmt c).shep.nmt, alState := (u.afterNmt c).shep.alState }, out := (u.afterNmt c).out } := by
  have hboot : u.rebootNode = { u with
      shep := { u.shep with nmt := u.rebootNode.shep.nmt, alState := u.rebootNode.shep.alState }, out := u.rebootNode.out } := by
    unfold State.rebootNode
    split
    · rfl
    · rw [State.canBoot_rest]
  cases c with
  | resetNode => exact hboot
  | resetComm => exact hboot
  | alState x =>
    simp only [State.afterNmt, State.setAl]
    split <;> rfl
  | lssNodeId n => rfl
  | _ =>
    simp only [State.afterNmt, State.setNmt]
    split <;> rfl
theorem State.afterNmt_offBus (h : u.shep.nmt = 0) (c : NmtCmd) : (u.afterNmt c).shep.nmt = 0 ∧ (u.afterNmt c).out = u.out := by
  cases c with
  | alState x =>
    simp only [State.afterNmt, State.setAl]
    split <;> exact ⟨h, rfl⟩
  | _ => simp [State.afterNmt, State.setNmt, State.rebootNode, h]
theorem State.afterNmt_alState_same {c : NmtCmd} (hc : ∀ x, c ≠ .alState x) : (u.afterNmt c).shep.alState = u.shep.alState := by
  have hboot : u.rebootNode.shep.alState = u.shep.alState := by
    unfold State.rebootNode
    split
    · rfl
    · rw [State.canBoot_rest]
  cases c with
  | alState x => exact absurd rfl (hc x)
  | resetNode => exact hboot
  | resetComm => exact hboot
  | lssNodeId n => rfl
  | _ =>
    simp only [State.afterNmt, State.setNmt]
    split <;> rfl
theorem State.setAl_frame (u : State) (x : Nat) : (u.setAl x).shep.nmt = u.shep.nmt ∧ (u.setAl x).out = u.out ∧
    (u.setAl x).shep.alState = if u.ecatUp = true ∧ x ∈ [1, 2, 4, 8] then x else u.shep.alState := by
  unfold State.setAl
  split <;> exact ⟨rfl, rfl, rfl⟩
theorem exec_nmtCommand_nodeId (hu : s.tick t = u) (hup : u.fieldUp = true) {n : Nat} (hlow : 1 ≤ n) (hhigh : n ≤ 127) (hbus : u.shep.nmt ≠ 0) :
    exec (.nmtCommand t (.lssNodeId n)) s =
      .next { u with cfg := { u.cfg with vals := mset [] u.cfg.vals (0x2060 * 256 + 1) (le 1 n) } } := by
  simp [exec, execNmtCommand, hu, hup, hlow, hhigh, hbus]
end

/-- Settles O36, command by command. -/
theorem fieldManagementMovesTheControllerOnly : Obligations.FieldManagementMovesTheControllerOnly := by
  refine ⟨fun t c s u hu hc => ⟨fun hup => exec_nmtCommand_off hu hup c, fun hup => ?_⟩, fun t n s u hu hup hlow hhigh hbus =>
    exec_nmtCommand_nodeId hu hup hlow hhigh hbus⟩
  have hshep : u.shep = s.shep := by simp [← hu]
  have hout : u.out = s.out := by simp [← hu]
  refine ⟨_, exec_nmtCommand_up hu hup hc, State.afterNmt_rest u c, fun hbus => ?_, fun hbus => ⟨?_, ?_, ?_, ?_⟩, ?_, fun hc => ?_⟩
  · rw [← hout]
    exact State.afterNmt_offBus hbus c
  · rintro rfl
    simp [State.afterNmt, State.setNmt, hbus]
  · rintro rfl
    simp [State.afterNmt, State.setNmt, hbus]
  · rintro rfl
    simp [State.afterNmt, State.setNmt, hbus]
  · rintro (rfl | rfl) <;> exact if_neg hbus
  · rintro x rfl
    rw [← hout, ← hshep]
    exact State.setAl_frame u x
  · rw [← hshep]
    exact State.afterNmt_alState_same hc

end Sys2Proof.Machine
end

section
/-! PROOFS. Writes that the checks refuse, and writes that PoE defers (13, Tables 13.4 and 13.11, R361). -/

namespace Sys2Proof.Machine

section
variable {t i sub : Nat} {r : WReq} {s u : State}

theorem exec_dictionaryWrite (hu : s.tick t = u) (i sub : Nat) (r : WReq) :
    exec (.dictionaryWrite t i sub r) s = .next (u.dictWrite i sub r fun s v => s.commitEntry r.acc i sub v) := by
  subst hu
  rfl

/-! ## Refusals -/

/-- A refusal of the checks is the same for every command that writes the entry. -/
theorem dictWrite_refusal (ha : (u.admitWrite r.acc i sub r.data false).abort ≠ 0) (hb : boxAnswers u r.acc)
    (commit : State → Bytes → State × Nat × Nat) :
    u.dictWrite i sub r commit = (u.admitWrite r.acc i sub r.data false).st.answer r.acc i sub
      (u.admitWrite r.acc i sub r.data false).abort (u.admitWrite r.acc i sub r.data false).event [] :=
  State.dictWrite_refused u i sub r commit ha hb
/-- The refusal itself changes no entry, no Fold and no store, and is the LastRefusal of its path. -/
theorem refusal_leaves (hu : s.tick t = u) {a : Nat} (ha : a ≠ 0) (acc : Access) (d : WData) (e : Nat) :
    ∃ w, w = (u.admitWrite acc i sub d false).st.answer acc i sub a e [] ∧ w.cfg = s.cfg ∧ cardSame s w ∧ w.shep.stored = s.shep.stored ∧
      mget ⟨0, 0, 0, 0⟩ w.shep.refusals acc.path.val = ⟨i, sub, a, u.now⟩ := by
  subst hu
  refine ⟨_, rfl, by simp, by simp [cardSame], by rw [State.answer_shep _ _ _ _ _ _ _ ha]; simp, ?_⟩
  rw [State.answer_shep _ _ _ _ _ _ _ ha, mget_mset_ne _ _ _ _ (by simp [ha])]
  simp [State.now]

/-! ## Deferral (13, Table 13.4) -/

theorem keptEntry_of_plain (h : plainEntry i sub = true) : keptEntry i sub = false := by
  simp only [plainEntry, Bool.or_eq_true, beq_iff_eq, decide_eq_true_eq, Bool.and_eq_true] at h
  simp only [keptEntry, Bool.or_eq_false_iff, Bool.and_eq_false_iff, beq_eq_false_iff_ne]
  omega
/-- Only a path other than the mailbox is served on PoE. -/
theorem State.path_of_poe {a : Access} (h : u.writeService a = 1) : a.path ≠ 0 := by
  intro hp
  simp only [State.writeService, hp] at h
  repeat' split at h
  all_goals simp_all
theorem dictWrite_deferred (hs : u.writeService r.acc = 1) (ha : (u.admitWrite r.acc i sub r.data false).abort = 0) (hr : r.rsvd = 0)
    (hi : plainEntry i sub = true) : u.dictWrite i sub r (fun s v => s.commitEntry r.acc i sub v) =
      State.answer { (u.admitWrite r.acc i sub r.data false).st with
        shep := { u.shep with deferred := u.shep.deferred ++ [(i, sub, payloadOf r.data)] } } r.acc i sub 0 0 [] := by
  simp [State.dictWrite, State.commitOrHold, State.path_of_poe hs, hs, ha, hr, keptEntry_of_plain hi, State.commitEntry_plain _ _ _ hi,
    admitWrite_payload]
end

/-- Settles O18: a refusal answers before any commit is reached, and on PoE an admitted value joins the deferred ones. -/
theorem refusedWritesChangeNoEntry : Obligations.RefusedWritesChangeNoEntry := by
  intro t i sub r s u hu
  refine ⟨?_, fun hs ha hr hi => ?_⟩
  · rintro a e rfl rfl ha hb
    obtain ⟨w, hw, hcfg, hsame, hstored, hlast⟩ := refusal_leaves hu ha r.acc r.data (u.admitWrite r.acc i sub r.data false).event
    have hany (commit : State → Bytes → State × Nat × Nat) : (s.tick t).dictWrite i sub r commit = w := by
      rw [hw, hu]
      exact dictWrite_refusal ha hb commit
    refine ⟨w, congrArg _ (hany _), hw, hcfg, hsame, hstored, hlast, ?_, ?_, fun c hc => ?_⟩
    · rintro rfl rfl
      exact congrArg _ (hany _)
    · rintro rfl rfl
      exact congrArg _ (hany _)
    · rintro rfl
      simp only [exec, execChannelTableWrite, Nat.mod_eq_of_lt hc, hany]
  · refine ⟨_, (exec_dictionaryWrite hu i sub r).trans (congrArg _ (dictWrite_deferred hs ha hr hi)), ?_⟩
    subst hu
    exact ⟨by simp, by simp [cardSame], by simp⟩

end Sys2Proof.Machine
end

section
/-! PROOFS. Input and result bindings (13, R386, R387; log entry 34). -/

namespace Sys2Proof.Machine

/-! ## A write whose entry accepts or refuses it on what the checks leave as it was -/

section
variable {t i sub : Nat} {r : WReq} {s u : State} {commit : State → Bytes → State × Nat × Nat}

theorem admitted_same (hu : s.tick t = u) (a : Access) (i sub : Nat) (d : WData) :
    (u.admitWrite a i sub d false).st.cfg = s.cfg ∧ (u.admitWrite a i sub d false).st.shep = s.shep ∧
      cardSame s (u.admitWrite a i sub d false).st := by
  subst hu
  exact ⟨by simp, by simp, by simp [cardSame]⟩
theorem dictWrite_okC (hu : s.tick t = u) (h : admits u i sub r) {after : State → State}
    (hc : ∀ v : State, v.cfg = s.cfg → v.folds = s.folds → commit v (payloadOf r.data) = okC (after v)) :
    ∃ v : State, v.cfg = s.cfg ∧ v.shep = s.shep ∧ cardSame s v ∧ u.dictWrite i sub r commit = (after v).answer r.acc i sub 0 0 [] := by
  obtain ⟨hcfg, hshep, hsame⟩ := admitted_same hu r.acc i sub r.data
  exact ⟨_, hcfg, hshep, hsame, by rw [dictWrite_of_admits h, hc _ hcfg hsame.1, okC]⟩
theorem dictWrite_noC (hu : s.tick t = u) (h : admits u i sub r) {a : Nat}
    (hc : ∀ v : State, v.cfg = s.cfg → v.folds = s.folds → commit v (payloadOf r.data) = noC v a) :
    u.dictWrite i sub r commit = (u.admitWrite r.acc i sub r.data false).st.answer r.acc i sub a 0 [] := by
  obtain ⟨hcfg, -, hsame⟩ := admitted_same hu r.acc i sub r.data
  rw [dictWrite_of_admits h, hc _ hcfg hsame.1, noC]
/-- A write that changes the configuration alone. -/
theorem dictWrite_sets (hu : s.tick t = u) (h : admits u i sub r) {c : Settings}
    (hc : ∀ v : State, v.cfg = s.cfg → v.folds = s.folds → commit v (payloadOf r.data) = okC { v with cfg := c }) :
    ∃ w, (.next (u.dictWrite i sub r commit) : Out) = .next w ∧ cardSame s w ∧ w.cfg = c := by
  obtain ⟨v, -, -, hsame, hw⟩ := dictWrite_okC hu h hc
  exact ⟨_, congrArg _ hw, by apply cardSame_answer; exact hsame, by simp⟩
end

/-! ## Input bindings -/

section
variable {s v : State} {f : FoldId} {i sub : Nat} {d : Bytes} {b : InBind} {l : Loaded}

theorem State.commitInput_off (hb : (mget ⟨0, 0, 0, 0, 0⟩ v.cfg.inBinds (64 * f.val + i)).write sub d = b) (hs : b.source = 0) :
    v.commitInput f i sub d = okC { v with cfg := { v.cfg with inBinds := mset ⟨0, 0, 0, 0, 0⟩ v.cfg.inBinds (64 * f.val + i) b } } := by
  simp [State.commitInput, hb, hs]
theorem State.commitInput_outside (hb : (mget ⟨0, 0, 0, 0, 0⟩ v.cfg.inBinds (64 * f.val + i)).write sub d = b) (hs : b.source ≠ 0)
    (hl : (v.fold f).load = some l)
    (ho : (∀ d ∈ l.res.inputs, d.number ≠ i) ∨ (if b.source = 1 then 1024 else 64) < b.offset + b.length) :
    v.commitInput f i sub d = noC v 0x06090030 := by
  have hout : (b.source ≠ 0 && (!(l.res.inputs.any fun d => d.number == i) || !b.pdoOk ||
      decide ((if b.source = 1 then 1024 else 64) < b.offset + b.length))) = true := by
    obtain ho | ho := ho
    · simpa [hs] using .inl (.inl ho)
    · simp only [ho, hs, decide_true, Bool.or_true, ne_eq, not_false_eq_true, Bool.and_self]
  simp only [State.commitInput, hb, hl]
  rw [if_pos hout]
theorem State.commitInput_inside (hb : (mget ⟨0, 0, 0, 0, 0⟩ v.cfg.inBinds (64 * f.val + i)).write sub d = b)
    (hl : (v.fold f).load = some l) (hd : ∃ d ∈ l.res.inputs, d.number = i) (hp : b.pdoOk = true)
    (hr : b.offset + b.length ≤ if b.source = 1 then 1024 else 64) (hs : b.source ≠ 0) :
    v.commitInput f i sub d =
      if v.cfg.inBinds.any (fun e => e.1 / 64 != f.val && e.2.source == b.source && e.2.pdo == b.pdo &&
          overlaps b.offset b.length e.2.offset e.2.length) then noC v 0x06040043
      else okC { v with cfg := { v.cfg with inBinds := mset ⟨0, 0, 0, 0, 0⟩ v.cfg.inBinds (64 * f.val + i) b } } := by
  have hdecl : (l.res.inputs.any fun d => d.number == i) = true := by simpa using hd
  have hs' : decide (b.source ≠ 0) = true := by simpa using hs
  simp only [State.commitInput, hb, hl, hdecl, hp, Nat.not_lt.2 hr, hs', decide_false, Bool.not_true, Bool.or_self, Bool.and_false,
    Bool.false_eq_true, if_false, Bool.true_and]
end

section
variable {t : Nat} {f : FoldId} {i sub : Nat} {r : WReq} {s u : State} {b : InBind} {l : Loaded}

theorem exec_inputBindingWrite (hu : s.tick t = u) (hi : i < 64) (f : FoldId) (sub : Nat) (r : WReq) :
    exec (.inputBindingWrite t f i sub r) s =
      .next (u.dictWrite (0x6200 + 0x40 * f.val + i) sub r fun s v => s.commitInput f i sub v) := by
  simp only [exec, execInputBindingWrite, hu, Nat.mod_eq_of_lt hi]
theorem inputBinding_off (hu : s.tick t = u) (hi : i < 64) (h : admits u (0x6200 + 0x40 * f.val + i) sub r)
    (hb : (mget ⟨0, 0, 0, 0, 0⟩ s.cfg.inBinds (64 * f.val + i)).write sub (payloadOf r.data) = b) (hs : b.source = 0) :
    ∃ w, exec (.inputBindingWrite t f i sub r) s = .next w ∧ cardSame s w ∧
      w.cfg = { s.cfg with inBinds := mset ⟨0, 0, 0, 0, 0⟩ s.cfg.inBinds (64 * f.val + i) b } := by
  rw [exec_inputBindingWrite hu hi]
  refine dictWrite_sets hu h fun v hcfg _ => ?_
  rw [← hcfg] at hb ⊢
  exact State.commitInput_off hb hs
theorem inputBinding_outside (hu : s.tick t = u) (hi : i < 64) (h : admits u (0x6200 + 0x40 * f.val + i) sub r)
    (hb : (mget ⟨0, 0, 0, 0, 0⟩ s.cfg.inBinds (64 * f.val + i)).write sub (payloadOf r.data) = b) (hs : b.source ≠ 0)
    (hl : (s.fold f).load = some l)
    (ho : (∀ d ∈ l.res.inputs, d.number ≠ i) ∨ (if b.source = 1 then 1024 else 64) < b.offset + b.length) :
    exec (.inputBindingWrite t f i sub r) s = .next
      ((u.admitWrite r.acc (0x6200 + 0x40 * f.val + i) sub r.data false).st.answer r.acc (0x6200 + 0x40 * f.val + i) sub 0x06090030 0 []) := by
  rw [exec_inputBindingWrite hu hi]
  refine congrArg _ (dictWrite_noC hu h fun v hcfg hfolds => ?_)
  rw [← hcfg] at hb
  exact State.commitInput_outside hb hs (by rw [State.fold_of_folds hfolds, hl]) ho
theorem inputBinding_free (hu : s.tick t = u) (hi : i < 64) (h : admits u (0x6200 + 0x40 * f.val + i) sub r)
    (hb : (mget ⟨0, 0, 0, 0, 0⟩ s.cfg.inBinds (64 * f.val + i)).write sub (payloadOf r.data) = b) (hs : b.source ≠ 0)
    (hl : (s.fold f).load = some l) (hd : ∃ d ∈ l.res.inputs, d.number = i) (hp : b.pdoOk = true)
    (hr : b.offset + b.length ≤ if b.source = 1 then 1024 else 64)
    (hfree : ∀ e ∈ s.cfg.inBinds, e.1 / 64 ≠ f.val → e.2.source = b.source → e.2.pdo = b.pdo →
      overlaps b.offset b.length e.2.offset e.2.length = false) :
    ∃ w, exec (.inputBindingWrite t f i sub r) s = .next w ∧ cardSame s w ∧
      w.cfg = { s.cfg with inBinds := mset ⟨0, 0, 0, 0, 0⟩ s.cfg.inBinds (64 * f.val + i) b } := by
  rw [exec_inputBindingWrite hu hi]
  refine dictWrite_sets hu h fun v hcfg hfolds => ?_
  rw [← hcfg] at hb hfree ⊢
  rw [State.commitInput_inside hb (by rw [State.fold_of_folds hfolds, hl]) hd hp hr hs, if_neg]
  rw [List.any_eq_true]
  rintro ⟨e, he, hclash⟩
  simp only [Bool.and_eq_true, bne_iff_ne, beq_iff_eq] at hclash
  obtain ⟨⟨⟨hother, hsource⟩, hpdo⟩, hover⟩ := hclash
  exact absurd hover (by rw [hfree e he hother hsource hpdo]; decide)
theorem inputBinding_clash (hu : s.tick t = u) (hi : i < 64) (h : admits u (0x6200 + 0x40 * f.val + i) sub r)
    (hb : (mget ⟨0, 0, 0, 0, 0⟩ s.cfg.inBinds (64 * f.val + i)).write sub (payloadOf r.data) = b) (hs : b.source ≠ 0)
    (hl : (s.fold f).load = some l) (hd : ∃ d ∈ l.res.inputs, d.number = i) (hp : b.pdoOk = true)
    (hr : b.offset + b.length ≤ if b.source = 1 then 1024 else 64) {e : Nat × InBind} (he : e ∈ s.cfg.inBinds)
    (hother : e.1 / 64 ≠ f.val) (hsource : e.2.source = b.source) (hpdo : e.2.pdo = b.pdo)
    (hover : overlaps b.offset b.length e.2.offset e.2.length = true) :
    exec (.inputBindingWrite t f i sub r) s = .next
      ((u.admitWrite r.acc (0x6200 + 0x40 * f.val + i) sub r.data false).st.answer r.acc (0x6200 + 0x40 * f.val + i) sub 0x06040043 0 []) := by
  rw [exec_inputBindingWrite hu hi]
  refine congrArg _ (dictWrite_noC hu h fun v hcfg hfolds => ?_)
  rw [← hcfg] at hb he
  rw [State.commitInput_inside hb (by rw [State.fold_of_folds hfolds, hl]) hd hp hr hs, if_pos]
  exact List.any_eq_true.2 ⟨e, he, by simp [hother, hsource, hpdo, hover]⟩
end

/-! ## Result bindings -/

section
variable {s v : State} {f : FoldId} {sub : Nat} {d : Bytes} {b : OutBind}

theorem OutBind.holds_iff {n : Nat} : b.holds n = true ↔ b.dest = 0 ∨ b.offset + n ≤ if b.dest = 1 then 512 else 64 := by
  simp [OutBind.holds]
theorem State.bindClash_iff {n : Nat} : v.bindClash f b n = true ↔ b.dest ≠ 0 ∧ ∃ g, g ≠ f ∧ (v.foldCfg g).outBind.dest = b.dest ∧
    (b.dest = 1 ∨ (v.foldCfg g).outBind.pdo = b.pdo) ∧
    overlaps b.offset n (v.foldCfg g).outBind.offset (v.fold g).fieldLen = true := by
  simp [State.bindClash, allFolds, and_assoc]
theorem State.commitResult_outside (hb : (v.foldCfg f).outBind.write sub d = b) (h : ¬ b.holds (v.fold f).fieldLen = true) :
    v.commitResult f sub d = noC v 0x06090030 := by
  simp [State.commitResult, hb, h]
theorem State.commitResult_clash (hb : (v.foldCfg f).outBind.write sub d = b) (h : b.holds (v.fold f).fieldLen = true)
    (hc : v.bindClash f b (v.fold f).fieldLen = true) : v.commitResult f sub d = noC v 0x06040043 := by
  simp [State.commitResult, hb, h, hc]
theorem State.commitResult_free (hb : (v.foldCfg f).outBind.write sub d = b) (h : b.holds (v.fold f).fieldLen = true)
    (hc : ¬ v.bindClash f b (v.fold f).fieldLen = true) :
    v.commitResult f sub d = okC { v with cfg := { v.cfg with folds := vset v.cfg.folds f { v.foldCfg f with outBind := b } } } := by
  simp [State.commitResult, hb, h, hc, State.modFoldCfg]
end

section
variable {t : Nat} {f : FoldId} {sub : Nat} {r : WReq} {s u : State} {b : OutBind}

theorem State.bindClash_congr {v : State} (hcfg : v.cfg = s.cfg) (hfolds : v.folds = s.folds) (f : FoldId) (b : OutBind) (n : Nat) :
    v.bindClash f b n = s.bindClash f b n := by
  simp only [State.bindClash, State.foldCfg, State.fold, hcfg, hfolds]
theorem exec_resultBindingWrite (hu : s.tick t = u) (f : FoldId) (sub : Nat) (r : WReq) :
    exec (.resultBindingWrite t f sub r) s = .next (u.dictWrite (0x6600 + f.val) sub r fun s v => s.commitResult f sub v) := by
  simp only [exec, execResultBindingWrite, hu]
theorem resultBinding_free (hu : s.tick t = u) (h : admits u (0x6600 + f.val) sub r)
    (hb : (s.foldCfg f).outBind.write sub (payloadOf r.data) = b) (hh : b.holds (s.fold f).fieldLen = true)
    (hc : ¬ s.bindClash f b (s.fold f).fieldLen = true) :
    ∃ w, exec (.resultBindingWrite t f sub r) s = .next w ∧ cardSame s w ∧
      w.cfg = { s.cfg with folds := vset s.cfg.folds f { s.foldCfg f with outBind := b } } := by
  rw [exec_resultBindingWrite hu]
  refine dictWrite_sets hu h fun v hcfg hfolds => ?_
  have hfold := State.fold_of_folds hfolds f
  have hfc : v.foldCfg f = s.foldCfg f := by simp only [State.foldCfg, hcfg]
  rw [State.commitResult_free (b := b) (by rw [hfc, hb]) (by rwa [hfold]) (by rwa [State.bindClash_congr hcfg hfolds, hfold]), hfc, hcfg]
theorem resultBinding_outside (hu : s.tick t = u) (h : admits u (0x6600 + f.val) sub r)
    (hb : (s.foldCfg f).outBind.write sub (payloadOf r.data) = b) (hh : ¬ b.holds (s.fold f).fieldLen = true) :
    exec (.resultBindingWrite t f sub r) s = .next
      ((u.admitWrite r.acc (0x6600 + f.val) sub r.data false).st.answer r.acc (0x6600 + f.val) sub 0x06090030 0 []) := by
  rw [exec_resultBindingWrite hu]
  refine congrArg _ (dictWrite_noC hu h fun v hcfg hfolds => ?_)
  exact State.commitResult_outside (by simpa only [State.foldCfg, hcfg] using hb) (by rwa [State.fold_of_folds hfolds])
theorem resultBinding_clash (hu : s.tick t = u) (h : admits u (0x6600 + f.val) sub r)
    (hb : (s.foldCfg f).outBind.write sub (payloadOf r.data) = b) (hh : b.holds (s.fold f).fieldLen = true)
    (hc : s.bindClash f b (s.fold f).fieldLen = true) :
    exec (.resultBindingWrite t f sub r) s = .next
      ((u.admitWrite r.acc (0x6600 + f.val) sub r.data false).st.answer r.acc (0x6600 + f.val) sub 0x06040043 0 []) := by
  rw [exec_resultBindingWrite hu]
  refine congrArg _ (dictWrite_noC hu h fun v hcfg hfolds => ?_)
  have hfold := State.fold_of_folds hfolds f
  exact State.commitResult_clash (by simpa only [State.foldCfg, hcfg] using hb) (by rwa [hfold])
    (by rwa [State.bindClash_congr hcfg hfolds, hfold])
end

/-- Settles O21: the range and the declared input decide the first refusal, a shared byte the second, and what is left is set. -/
theorem bindingRanges : Obligations.BindingRanges := by
  constructor
  · intro t f i sub r s u b l hu hi h hb hs hl
    refine ⟨fun hd hp hr => ⟨inputBinding_free hu hi h hb hs hl hd hp hr, fun e he hother hsource hpdo hover => ?_⟩,
      inputBinding_outside hu hi h hb hs hl⟩
    exact inputBinding_clash hu hi h hb hs hl hd hp hr he hother hsource hpdo hover
  · intro t f sub r s u b hu h hb hs
    refine ⟨fun hr => ⟨fun hfree => ?_, fun g hg hdest himage hover => ?_⟩, fun hr => ?_⟩
    · refine resultBinding_free hu h hb (OutBind.holds_iff.2 (.inr hr)) fun hc => ?_
      obtain ⟨-, g, hg, hdest, himage, hover⟩ := State.bindClash_iff.1 hc
      exact absurd hover (by rw [hfree g hg hdest himage]; decide)
    · exact resultBinding_clash hu h hb (OutBind.holds_iff.2 (.inr hr)) (State.bindClash_iff.2 ⟨hs, g, hg, hdest, himage, hover⟩)
    · exact resultBinding_outside hu h hb fun hh => (OutBind.holds_iff.1 hh).elim hs (by omega)

end Sys2Proof.Machine
end

section
/-! PROOFS. The channel table, the ring, the masks and the bindings that are taken away (10, R263; 09, R255; 13, R382). -/

namespace Sys2Proof.Machine

/-! ## What a drop of results leaves -/

/-- What no completion of a record touches. -/
def State.besideQueues (s : State) :=
  (s.folds, s.chans, s.tiles, s.hbms, s.links, s.heath, s.cfg)
theorem dropResult_besideQueues (s : State) (f : FoldId) (status : Nat) (r : Result) :
    (dropResult s f status r).besideQueues = s.besideQueues := by
  unfold dropResult State.postRecord
  split <;> simp [State.besideQueues]
/-- Completions aside, a drop takes the results out of the Fold's queues. -/
theorem State.dropResults_besideQueues (s : State) (f : FoldId) (status : Nat) (p : Result → Bool) :
    (s.dropResults f status p).besideQueues = (s.modFold f fun x => { x with res := x.res.without p }).besideQueues :=
  foldl_view State.besideQueues _ (fun s r => dropResult_besideQueues s f status r) _ _
theorem Results.without_all (q : Results) (p : Result → Bool) : (q.without p).all = q.all.filter fun r => !p r := by
  simp [Results.without, Results.all]

/-! ## The channel table -/

/-- The card after a channel's results, keys and sequences are gone. -/
def State.chanCleared (s : State) (c : Nat) : State := match s.chanFold c with
  | none => s.setChan c Chan.dflt
  | some f => ((s.dropResults f 0x23 fun r => r.onChan c).setChan c Chan.dflt).recountCredits f
/-- The card after a write to the channel's entry. -/
def State.chanWritten (s : State) (c sub : Nat) (d : Bytes) : State := { s.chanCleared c with
  cfg := { (s.chanCleared c).cfg with
    channels := mset ChanCfg.dflt (s.chanCleared c).cfg.channels c (((s.chanCleared c).chanCfg c).write sub d) } }
theorem State.commitChan_eq (s : State) (c sub : Nat) (d : Bytes) : s.commitChan c sub d = okC (s.chanWritten c sub d) := rfl

section
variable {s : State} {c : Nat}

theorem State.chanCleared_rest : (s.chanCleared c).cfg = s.cfg ∧ (s.chanCleared c).chans = mset Chan.dflt s.chans c Chan.dflt ∧
    (s.chanCleared c).tiles = s.tiles ∧ (s.chanCleared c).hbms = s.hbms ∧ (s.chanCleared c).links = s.links ∧
    (s.chanCleared c).heath = s.heath := by
  unfold State.chanCleared
  split
  · exact ⟨rfl, rfl, rfl, rfl, rfl, rfl⟩
  · next f _ =>
    obtain ⟨-, hchans, htiles, hhbms, hlinks, hheath, hcfg⟩ := by
      simpa only [State.besideQueues, Prod.mk.injEq] using s.dropResults_besideQueues f 0x23 fun r => r.onChan c
    simp [State.recountCredits, hchans, htiles, hlinks, hheath, State.setChan]
theorem State.chanCleared_free (h : s.chanFold c = none) : (s.chanCleared c).folds = s.folds := by
  simp only [State.chanCleared, h, State.setChan]
theorem State.chanCleared_owned {g : FoldId} (h : s.chanFold c = some g) : othersSame g s (s.chanCleared c) ∧
    ((s.chanCleared c).fold g).st = (s.fold g).st ∧ ∀ x ∈ ((s.chanCleared c).fold g).res.all, x.onChan c = false := by
  have hdrop (k : FoldId) : (s.dropResults g 0x23 fun r => r.onChan c).fold k =
      (s.modFold g fun x => { x with res := x.res.without fun r => r.onChan c }).fold k :=
    State.fold_of_folds (congrArg Prod.fst (s.dropResults_besideQueues g 0x23 fun r => r.onChan c)) k
  have hsame : ((s.dropResults g 0x23 fun r => r.onChan c).setChan c Chan.dflt).fold =
      (s.dropResults g 0x23 fun r => r.onChan c).fold := rfl
  simp only [State.chanCleared, h, State.recountCredits]
  refine ⟨fun k hk => ?_, ?_, fun x hx => ?_⟩
  · rw [State.modFold_other _ _ _ _ hk, hsame, hdrop, State.modFold_other _ _ _ _ hk]
  · rw [State.modFold_same, hsame, hdrop, State.modFold_same]
  · rw [State.modFold_same, hsame, hdrop, State.modFold_same] at hx
    have hleft : x ∈ ((s.fold g).res.without fun r => r.onChan c).all := hx
    rw [Results.without_all] at hleft
    simpa using (List.mem_filter.1 hleft).2
end

theorem channelEntry_written {t c sub : Nat} {r : WReq} {s u : State} (hu : s.tick t = u) (hc : c < 256)
    (h : admits u (0x2200 + c) sub r) : ∃ w, exec (.channelTableWrite t c sub r) s = .next w ∧
      w.cfg = { s.cfg with channels := mset ChanCfg.dflt s.cfg.channels c ((s.chanCfg c).write sub (payloadOf r.data)) } ∧
      w.chans = mset Chan.dflt s.chans c Chan.dflt ∧ w.tiles = s.tiles ∧ w.hbms = s.hbms ∧ w.links = s.links ∧ w.heath = s.heath ∧
      (s.chanFold c = none → w.folds = s.folds) ∧
      (∀ g, s.chanFold c = some g → othersSame g s w ∧ (w.fold g).st = (s.fold g).st ∧ ∀ x ∈ (w.fold g).res.all, x.onChan c = false) := by
  obtain ⟨v, hcfg, -, ⟨hfolds, htiles, hhbms, -, hlinks, -, hheath, -, hchans⟩, hw⟩ :=
    dictWrite_okC hu h fun v _ _ => v.commitChan_eq c sub (payloadOf r.data)
  obtain ⟨kcfg, kchans, ktiles, khbms, klinks, kheath⟩ := State.chanCleared_rest (s := v) (c := c)
  have hown : v.chanFold c = s.chanFold c := by simp only [State.chanFold, State.chanCfg, hcfg]; rfl
  have hfold := State.fold_of_folds hfolds
  have hview (k : FoldId) : ((v.chanWritten c sub (payloadOf r.data)).answer r.acc (0x2200 + c) sub 0 0 []).fold k =
      (v.chanCleared c).fold k := State.fold_of_folds (by simp [State.chanWritten]) k
  have hexec : exec (.channelTableWrite t c sub r) s = .next (u.dictWrite (0x2200 + c) sub r fun s v => s.commitChan c sub v) := by
    simp only [exec, execChannelTableWrite, hu, Nat.mod_eq_of_lt hc]
  refine ⟨_, hexec.trans (congrArg _ hw), ?_, ?_, ?_, ?_, ?_, ?_, fun hn => ?_, fun g hg => ?_⟩
  · simp [State.chanWritten, State.chanCfg, kcfg, hcfg]
  · simp [State.chanWritten, kchans, hchans]
  · simp [State.chanWritten, ktiles, htiles]
  · simp [State.chanWritten, khbms, hhbms]
  · simp [State.chanWritten, klinks, hlinks]
  · simp [State.chanWritten, kheath, hheath]
  · simp [State.chanWritten, State.chanCleared_free (hown.trans hn), hfolds]
  · obtain ⟨hothers, hst, hres⟩ := State.chanCleared_owned (hown.trans hg)
    refine ⟨fun k hk => ?_, ?_, fun x hx => hres x ?_⟩
    · rw [hview, hothers k hk, hfold]
    · rw [hview, hst, hfold]
    · rwa [hview] at hx

/-! ## The ring of the ledger -/

section
variable {t : Nat} {r : WReq} {s u : State} {f : FoldId}

theorem exec_ledgerRingPagesWrite (hu : s.tick t = u) (f : FoldId) (r : WReq) :
    exec (.ledgerRingPagesWrite t f r) s = .next (u.dictWrite (0x300A + 0x20 * f.val) 0 r fun s v => s.commitRing f v) := by
  simp only [exec, execLedgerRingPagesWrite, hu]
theorem State.commitRing_within {v : State} {d : Bytes} (h : ∀ l, (v.fold f).load = some l → leNat d ≤ l.res.ringMax) :
    v.commitRing f d = okC { v with cfg := { v.cfg with folds := vset v.cfg.folds f { v.foldCfg f with ringPages := leNat d } } } := by
  unfold State.commitRing
  split
  · next l hl => simp [Nat.not_lt.2 (h l hl), State.modFoldCfg]
  · rfl
theorem State.commitRing_beyond {v : State} {d : Bytes} {l : Loaded} (hl : (v.fold f).load = some l) (h : l.res.ringMax < leNat d) :
    v.commitRing f d = noC v 0x06040043 := by
  simp [State.commitRing, hl, h]
theorem ringPages_written (hu : s.tick t = u) (h : admits u (0x300A + 0x20 * f.val) 0 r)
    (hmax : ∀ l, (s.fold f).load = some l → leNat (payloadOf r.data) ≤ l.res.ringMax) :
    ∃ w, exec (.ledgerRingPagesWrite t f r) s = .next w ∧ cardSame s w ∧
      w.cfg = { s.cfg with folds := vset s.cfg.folds f { s.foldCfg f with ringPages := leNat (payloadOf r.data) } } := by
  rw [exec_ledgerRingPagesWrite hu]
  refine dictWrite_sets hu h fun v hcfg hfolds => ?_
  have hfc : v.foldCfg f = s.foldCfg f := by simp only [State.foldCfg, hcfg]
  rw [State.commitRing_within (by rwa [State.fold_of_folds hfolds]), hfc, hcfg]
theorem ringPages_refused (hu : s.tick t = u) (h : admits u (0x300A + 0x20 * f.val) 0 r) {l : Loaded} (hl : (s.fold f).load = some l)
    (hmax : l.res.ringMax < leNat (payloadOf r.data)) : exec (.ledgerRingPagesWrite t f r) s = .next
      ((u.admitWrite r.acc (0x300A + 0x20 * f.val) 0 r.data false).st.answer r.acc (0x300A + 0x20 * f.val) 0 0x06040043 0 []) := by
  rw [exec_ledgerRingPagesWrite hu]
  exact congrArg _ (dictWrite_noC hu h fun v _ hfolds => State.commitRing_beyond (by rwa [State.fold_of_folds hfolds]) hmax)
end

/-! ## What a change of masks zeroes -/

theorem mget_filter {α : Type} (d : α) (p : Nat → Bool) (m : SMap α) (k : Nat) :
    mget d (m.filter fun e => p e.1) k = if p k = true then mget d m k else d := by
  induction m with
  | nil => simp [mget]
  | cons e m ih =>
    obtain ⟨j, x⟩ := e
    by_cases hj : j = k
    · subst hj
      by_cases hp : p j = true
      · simp [mget, hp]
      · rw [List.filter_cons_of_neg (by simpa using hp), ih, if_neg hp, if_neg hp]
    · by_cases hp : p j = true
      · rw [List.filter_cons_of_pos (by simpa using hp)]
        simpa [mget, hj] using ih
      · rw [List.filter_cons_of_neg (by simpa using hp), ih]
        simp [mget, hj]
/-- A stack without the units of the mask. -/
def Stack.zeroUnits (x : Stack) (units : BitVec 192) (k : StackId) : Stack :=
  { x with mem := x.mem.filter (fun e => !units.getLsbD (24 * k.val + e.1 / 2 ^ 30)),
           poison := x.poison.filter (fun w => !units.getLsbD (24 * k.val + 32 * w / 2 ^ 30)),
           soft := x.soft.filter (fun w => !units.getLsbD (24 * k.val + 32 * w / 2 ^ 30)) }
theorem State.foldl_modHbm {g : StackId → Stack → Stack} {ks : List StackId} (hn : ks.Nodup) (s : State) (k : StackId) :
    (ks.foldl (fun s k => s.modHbm k (g k)) s).hbm k = if k ∈ ks then g k (s.hbm k) else s.hbm k := by
  induction ks generalizing s with
  | nil => rfl
  | cons j ks ih =>
    obtain ⟨hj, hks⟩ := List.nodup_cons.1 hn
    rw [List.foldl_cons, ih hks]
    by_cases hk : k = j
    · subst hk
      simp [hj]
    · simp [hk, State.modHbm_other _ _ _ _ hk]
theorem State.zeroUnits_eq (s : State) (units : BitVec 192) : s.zeroUnits units =
    (List.finRange 8).foldl (fun s k => s.modHbm k fun x => x.zeroUnits units k) s := rfl
theorem State.zeroUnits_hbm (s : State) (units : BitVec 192) (k : StackId) :
    (s.zeroUnits units).hbm k = (s.hbm k).zeroUnits units k := by
  rw [State.zeroUnits_eq, State.foldl_modHbm (g := fun k x => x.zeroUnits units k) (List.nodup_finRange 8), if_pos (List.mem_finRange k)]
theorem State.zeroUnits_rest (s : State) (units : BitVec 192) : (s.zeroUnits units).folds = s.folds ∧
    (s.zeroUnits units).chans = s.chans ∧ (s.zeroUnits units).tiles = s.tiles ∧ (s.zeroUnits units).cfg = s.cfg := by
  have hview := foldl_view (fun s : State => (s.folds, s.chans, s.tiles, s.cfg))
    (fun s k => s.modHbm k fun x => x.zeroUnits units k) (fun _ _ => rfl) (List.finRange 8) s
  rw [← State.zeroUnits_eq] at hview
  simpa only [Prod.mk.injEq] using hview
theorem State.modFoldCfg_of_cfg {s v : State} (h : v.cfg = s.cfg) (f : FoldId) (g : FoldCfg → FoldCfg) :
    (v.modFoldCfg f g).cfg = { s.cfg with folds := vset s.cfg.folds f (g (s.foldCfg f)) } := by
  simp only [State.modFoldCfg, State.foldCfg, h]
theorem State.modFoldCfg_hbm (s : State) (f : FoldId) (g : FoldCfg → FoldCfg) (k : StackId) : (s.modFoldCfg f g).hbm k = s.hbm k := rfl
theorem State.zeroPlots_hbm (s : State) (plots : BitVec 80) (k : StackId) : (s.zeroPlots plots).hbm k = s.hbm k := rfl
theorem State.zeroPlots_tile (s : State) (plots : BitVec 80) (n : Nat) :
    (s.zeroPlots plots).tile n = if plots.getLsbD (n / 8) = true then Tile.dflt else s.tile n := by
  unfold State.zeroPlots State.tile
  rw [mget_filter Tile.dflt fun j => !plots.getLsbD (j / 8)]
  cases plots.getLsbD (n / 8) <;> rfl
theorem Stack.zeroUnits_mem (x : Stack) (units : BitVec 192) (k : StackId) (a : Nat) : mget 0 (x.zeroUnits units k).mem a =
    if units.getLsbD (24 * k.val + a / 2 ^ 30) = true then 0 else mget 0 x.mem a := by
  unfold Stack.zeroUnits
  rw [mget_filter 0 fun j => !units.getLsbD (24 * k.val + j / 2 ^ 30)]
  cases units.getLsbD (24 * k.val + a / 2 ^ 30) <;> rfl
theorem State.setMasks_zeroed (s : State) (f : FoldId) (plots : BitVec 80) (units : BitVec 192) :
    unitsZeroed s (s.setMasks f plots units) ((s.foldCfg f).plots ^^^ plots) ((s.foldCfg f).units ^^^ units) := by
  refine ⟨fun n => ?_, fun k a => ?_⟩
  · obtain ⟨-, -, htiles, -⟩ := (s.zeroPlots ((s.foldCfg f).plots ^^^ plots)).zeroUnits_rest ((s.foldCfg f).units ^^^ units)
    rw [← State.zeroPlots_tile]
    exact congrArg (mget Tile.dflt · n) htiles
  · rw [← Stack.zeroUnits_mem]
    unfold State.setMasks
    rw [State.modFoldCfg_hbm, State.zeroUnits_hbm, State.zeroPlots_hbm]
theorem State.setMasks_rest (s : State) (f : FoldId) (plots : BitVec 80) (units : BitVec 192) :
    (s.setMasks f plots units).folds = s.folds ∧ (s.setMasks f plots units).chans = s.chans ∧
      (s.setMasks f plots units).cfg =
        { s.cfg with folds := vset s.cfg.folds f { s.foldCfg f with plots := plots, units := units } } := by
  obtain ⟨hfolds, hchans, -, hcfg⟩ :=
    (s.zeroPlots ((s.foldCfg f).plots ^^^ plots)).zeroUnits_rest ((s.foldCfg f).units ^^^ units)
  exact ⟨hfolds, hchans, State.modFoldCfg_of_cfg hcfg f _⟩
theorem unitsZeroed.of_stores {s v x w : State} {plots : BitVec 80} {units : BitVec 192} (h : unitsZeroed v x plots units)
    (hv : storesSame s v) (hw : storesSame x w) : unitsZeroed s w plots units := by
  obtain ⟨hvt, hvh, -⟩ := hv
  obtain ⟨hwt, hwh, -⟩ := hw
  simpa only [unitsZeroed, State.tile, State.hbm, hvt, hvh, hwt, hwh] using h

/-! ## The masks -/

section
variable {t sub : Nat} {r : WReq} {s u : State} {f : FoldId}

theorem exec_plotMaskWrite (hu : s.tick t = u) (f : FoldId) (sub : Nat) (r : WReq) :
    exec (.plotMaskWrite t f sub r) s = .next (u.dictWrite (0x3001 + 0x20 * f.val) sub r fun s v => s.commitMask f sub v) := by
  simp only [exec, execPlotMaskWrite, hu]
/-- The masks stand at offset 1 of the Fold area. -/
theorem State.commitEntry_mask (s : State) (a : Access) (f : FoldId) (sub : Nat) (d : Bytes) :
    s.commitEntry a (0x3001 + 0x20 * f.val) sub d = s.commitMask f sub d := by
  have hlt := f.isLt
  have hf : (⟨(0x3001 + 0x20 * f.val - 0x3000) / 0x20 % 16, by omega⟩ : FoldId) = f := Fin.ext (by simp only; omega)
  have ho : (0x3001 + 0x20 * f.val - 0x3000) % 0x20 = 1 := by omega
  unfold State.commitEntry
  iterate 13 rw [if_neg (by omega)]
  rw [if_pos (by omega), ho, hf]
  rfl
theorem dictionaryWrite_mask (hu : s.tick t = u) (f : FoldId) (sub : Nat) (r : WReq) :
    exec (.dictionaryWrite t (0x3001 + 0x20 * f.val) sub r) s = exec (.plotMaskWrite t f sub r) s := by
  rw [exec_plotMaskWrite hu]
  simp only [exec, execDictionaryWrite, hu, State.commitEntry_mask]
/-- An accepted mask: the masks are set, and what changes hands is zeroed. -/
theorem mask_written {plots : BitVec 80} {units : BitVec 192} (hu : s.tick t = u) (h : admits u (0x3001 + 0x20 * f.val) sub r)
    (hc : ∀ v : State, v.cfg = s.cfg → v.commitMask f sub (payloadOf r.data) = okC (v.setMasks f plots units)) :
    ∃ w, exec (.plotMaskWrite t f sub r) s = .next w ∧ w.folds = s.folds ∧ w.chans = s.chans ∧
      w.cfg = { s.cfg with folds := vset s.cfg.folds f { s.foldCfg f with plots := plots, units := units } } ∧
      unitsZeroed s w ((s.foldCfg f).plots ^^^ plots) ((s.foldCfg f).units ^^^ units) := by
  obtain ⟨v, hcfg, -, ⟨hfolds, htiles, hhbms, -, -, -, -, -, hchans⟩, hw⟩ := dictWrite_okC hu h fun v hcfg _ => hc v hcfg
  obtain ⟨mfolds, mchans, mcfg⟩ := v.setMasks_rest f plots units
  have hfc : v.foldCfg f = s.foldCfg f := by simp only [State.foldCfg, hcfg]
  have hzero := v.setMasks_zeroed f plots units
  rw [hfc] at hzero
  rw [exec_plotMaskWrite hu]
  exact ⟨_, congrArg _ hw, by simp [mfolds, hfolds], by simp [mchans, hchans], by simp [mcfg, hcfg, hfc],
    hzero.of_stores ⟨htiles, hhbms, hchans⟩ (by simp [storesSame])⟩
theorem mask_refused (hu : s.tick t = u) (h : admits u (0x3001 + 0x20 * f.val) sub r)
    (hc : ∀ v : State, v.cfg = s.cfg → v.commitMask f sub (payloadOf r.data) = noC v 0x06040043) :
    exec (.plotMaskWrite t f sub r) s = .next
      ((u.admitWrite r.acc (0x3001 + 0x20 * f.val) sub r.data false).st.answer r.acc (0x3001 + 0x20 * f.val) sub 0x06040043 0 []) := by
  rw [exec_plotMaskWrite hu]
  exact congrArg _ (dictWrite_noC hu h fun v hcfg _ => hc v hcfg)
end

section
variable {v : State} {f : FoldId} {d : Bytes}

theorem State.commitMask_plots : v.commitMask f 1 d =
    if ∃ g, g ≠ f ∧ (v.foldCfg g).plots &&& BitVec.ofNat 80 (leNat d) ≠ 0 then noC v 0x06040043
    else okC (v.setMasks f (BitVec.ofNat 80 (leNat d)) (v.foldCfg f).units) := by
  simp [State.commitMask, allFolds]
theorem State.commitMask_units : v.commitMask f 2 d =
    if ∃ g, g ≠ f ∧ (v.foldCfg g).units &&& BitVec.ofNat 192 (leNat d) ≠ 0 then noC v 0x06040043
    else okC (v.setMasks f (v.foldCfg f).plots (BitVec.ofNat 192 (leNat d))) := by
  simp [State.commitMask, allFolds]
end

section
variable {t : Nat} {r : WReq} {s u : State} {f : FoldId}

theorem plotMask_written {m : BitVec 80} (hu : s.tick t = u) (h : admits u (0x3001 + 0x20 * f.val) 1 r)
    (hm : BitVec.ofNat 80 (leNat (payloadOf r.data)) = m) (hfree : ∀ g, g ≠ f → (s.foldCfg g).plots &&& m = 0) :
    ∃ w, exec (.plotMaskWrite t f 1 r) s = .next w ∧ w.folds = s.folds ∧ w.chans = s.chans ∧
      w.cfg = { s.cfg with folds := vset s.cfg.folds f { s.foldCfg f with plots := m } } ∧
      unitsZeroed s w ((s.foldCfg f).plots ^^^ m) 0#192 := by
  rw [← BitVec.xor_self (x := (s.foldCfg f).units)]
  refine mask_written hu h fun v hcfg => ?_
  have hfc (g : FoldId) : v.foldCfg g = s.foldCfg g := by simp only [State.foldCfg, hcfg]
  rw [State.commitMask_plots, if_neg, hm, hfc]
  rintro ⟨g, hg, hown⟩
  exact hown (by rw [hfc, hm, hfree g hg])
theorem plotMask_refused {m : BitVec 80} (hu : s.tick t = u) (h : admits u (0x3001 + 0x20 * f.val) 1 r)
    (hm : BitVec.ofNat 80 (leNat (payloadOf r.data)) = m) {g : FoldId} (hg : g ≠ f) (hown : (s.foldCfg g).plots &&& m ≠ 0) :
    exec (.plotMaskWrite t f 1 r) s = .next
      ((u.admitWrite r.acc (0x3001 + 0x20 * f.val) 1 r.data false).st.answer r.acc (0x3001 + 0x20 * f.val) 1 0x06040043 0 []) := by
  refine mask_refused hu h fun v hcfg => ?_
  have hfc : v.foldCfg g = s.foldCfg g := by simp only [State.foldCfg, hcfg]
  rw [State.commitMask_plots, if_pos ⟨g, hg, by rwa [hfc, hm]⟩]
theorem unitMask_written {m : BitVec 192} (hu : s.tick t = u) (h : admits u (0x3001 + 0x20 * f.val) 2 r)
    (hm : BitVec.ofNat 192 (leNat (payloadOf r.data)) = m) (hfree : ∀ g, g ≠ f → (s.foldCfg g).units &&& m = 0) :
    ∃ w, exec (.plotMaskWrite t f 2 r) s = .next w ∧ w.folds = s.folds ∧ w.chans = s.chans ∧
      w.cfg = { s.cfg with folds := vset s.cfg.folds f { s.foldCfg f with units := m } } ∧
      unitsZeroed s w 0#80 ((s.foldCfg f).units ^^^ m) := by
  rw [← BitVec.xor_self (x := (s.foldCfg f).plots)]
  refine mask_written hu h fun v hcfg => ?_
  have hfc (g : FoldId) : v.foldCfg g = s.foldCfg g := by simp only [State.foldCfg, hcfg]
  rw [State.commitMask_units, if_neg, hm, hfc]
  rintro ⟨g, hg, hown⟩
  exact hown (by rw [hfc, hm, hfree g hg])
theorem unitMask_refused {m : BitVec 192} (hu : s.tick t = u) (h : admits u (0x3001 + 0x20 * f.val) 2 r)
    (hm : BitVec.ofNat 192 (leNat (payloadOf r.data)) = m) {g : FoldId} (hg : g ≠ f) (hown : (s.foldCfg g).units &&& m ≠ 0) :
    exec (.plotMaskWrite t f 2 r) s = .next
      ((u.admitWrite r.acc (0x3001 + 0x20 * f.val) 2 r.data false).st.answer r.acc (0x3001 + 0x20 * f.val) 2 0x06040043 0 []) := by
  refine mask_refused hu h fun v hcfg => ?_
  have hfc : v.foldCfg g = s.foldCfg g := by simp only [State.foldCfg, hcfg]
  rw [State.commitMask_units, if_pos ⟨g, hg, by rwa [hfc, hm]⟩]
end

/-- Settles O20: each write by its commit, a binding of source or destination none by the rule of bindings that it need not meet. -/
theorem foldConfigurationWrites : Obligations.FoldConfigurationWrites := by
  intro t r s u hu
  refine ⟨fun c sub hc h => channelEntry_written hu hc h, fun f h => ⟨ringPages_written hu h, fun l => ringPages_refused hu h⟩,
    fun f m h hm => ⟨dictionaryWrite_mask hu f 1 r, plotMask_written hu h hm, fun g => plotMask_refused hu h hm⟩,
    fun f m h hm => ⟨dictionaryWrite_mask hu f 2 r, unitMask_written hu h hm, fun g => unitMask_refused hu h hm⟩,
    fun f i sub b hi h hb hs => inputBinding_off hu hi h hb hs, fun f sub b h hb hd => ?_⟩
  refine resultBinding_free hu h hb (OutBind.holds_iff.2 (.inl hd)) fun hc => ?_
  exact (State.bindClash_iff.1 hc).1 hd

end Sys2Proof.Machine
end

section
/-! PROOFS. The owner of the card and a Fold's KEK (13, R366, R367; 12, R340). -/

namespace Sys2Proof.Machine

/-! ## OwnerKey under the checks of a write -/

theorem State.signedChecks_ownerKey (s : State) (a : Access) (i sub : Nat) (e : Ent) (d : WData) :
    (s.signedChecks a i sub e d).st.kept.ownerKey = s.kept.ownerKey := by
  have hreject (role n : Nat) : (s.authReject a i sub role n).kept = s.kept := by simp
  have hunsigned (v : State) (b : Bytes) : (v.noticeUnsigned a b).kept = v.kept := by rw [State.noticeUnsigned_rest]
  have hseq (role n : Nat) : (s.setSeq role n).kept.ownerKey = s.kept.ownerKey := by
    unfold State.setSeq
    split <;> rfl
  unfold State.signedChecks
  cases d <;> (dsimp only; repeat' split)
  all_goals simp only [hreject, hunsigned, hseq, State.lateChecks_st]
/-- The checks of a write leave the key that they read. -/
theorem State.admitWrite_ownerKey (s : State) (a : Access) (i sub : Nat) (d : WData) (c : Bool) :
    (s.admitWrite a i sub d c).st.kept.ownerKey = s.kept.ownerKey := by
  unfold State.admitWrite
  dsimp only
  (repeat' split) <;> simp only [State.signedChecks_ownerKey]


/-! ## The commits -/

section
variable {v : State} {d : Bytes}

theorem State.commitOwner_key (h : allZero d = false) : v.commitOwner d = okC { v with kept := { v.kept with ownerKey := d } } := by
  simp [State.commitOwner, h]
theorem State.commitOwner_release (h : allZero d = true) (hown : v.kept.ownerKey.isEmpty = false) (he : ∀ f, (v.fold f).st = .empty) :
    v.commitOwner d = okC v.releaseOwner := by
  have hall : (allFolds.all fun f => (v.fold f).st == .empty) = true := List.all_eq_true.2 fun f _ => by simp [he]
  simp only [State.commitOwner, h, hown, hall, Bool.false_eq_true, if_true, if_false]
theorem State.commitOwner_refused {f : FoldId} (h : allZero d = true) (hown : v.kept.ownerKey.isEmpty = false)
    (hf : (v.fold f).st ≠ .empty) : v.commitOwner d = noC v 0x08000022 := by
  have hall : ¬ (allFolds.all fun f => (v.fold f).st == .empty) = true := fun hall =>
    hf (by simpa using List.all_eq_true.1 hall f (List.mem_finRange f))
  simp only [State.commitOwner, h, hown, hall, Bool.false_eq_true, if_true, if_false]
theorem State.commitKek_opens {f : FoldId} {k : KekSeal} {l : Loaded} (hl : (v.fold f).load = some l)
    (hhpke : (v.fold f).keys.hpke.isEmpty = false) (hk : k.recipient = (v.fold f).keys.hpke)
    (hinfo : k.info = ascii [0x49, 0x5A, 0x43, 0x4B] ++ l.foldMeas) :
    v.commitKek f (some k) = okC (v.modFold f fun x => { x with keys := { x.keys with kek := some k.kek } }) := by
  simp [State.commitKek, hl, hhpke, hk, hinfo]
end

/-! ## What a release leaves -/

theorem Settings.zeroised_channel (c : Settings) {k : Nat} (hk : k < 256) : mget ChanCfg.dflt c.zeroised.channels k = ChanCfg.zero := by
  have hmem (l : List Nat) (hl : k ∈ l) : mget ChanCfg.dflt (l.map fun i => (i, ChanCfg.zero)) k = ChanCfg.zero := by
    induction l with
    | nil => cases hl
    | cons i l ih =>
      by_cases hi : i = k
      · simp [mget, hi]
      · simpa [mget, hi] using ih ((List.mem_cons.1 hl).resolve_left (Ne.symm hi))
  exact hmem _ (List.mem_range.2 hk)
theorem Settings.zeroised_fold (c : Settings) (f : FoldId) :
    vget c.zeroised.folds f = { vget c.folds f with target := CkptTarget.zero } := vget_map _ _ _
theorem State.releaseOwner_rest (s : State) : s.releaseOwner.folds = s.folds ∧ s.releaseOwner.tiles = s.tiles ∧
    s.releaseOwner.hbms = s.hbms ∧ s.releaseOwner.cfg = s.cfg.zeroised ∧ s.releaseOwner.shep.stored = s.shep.stored.zeroised ∧
    s.releaseOwner.heath.lostStacks = s.heath.lostStacks := by
  unfold State.releaseOwner
  dsimp only
  rw [State.flood_rest]
  exact ⟨rfl, rfl, rfl, rfl, rfl, rfl⟩

section
variable {t : Nat} {r : WReq} {s u : State}

theorem exec_ownerKeyWrite (hu : s.tick t = u) (r : WReq) :
    exec (.ownerKeyWrite t r) s = .next (u.dictWrite 0x2110 0 r State.commitOwner) := by
  simp only [exec, execOwnerKeyWrite, hu]
/-- A release is OwnerKey written with zeros. -/
theorem ownershipRelease_of_zero (hu : s.tick t = u) (h : admits u 0x2110 0 r) (hz : allZero (payloadOf r.data) = true) :
    exec (.ownershipRelease t r) s = exec (.ownerKeyWrite t r) s := by
  rw [exec_ownerKeyWrite hu, dictWrite_of_admits h]
  simp only [exec, execOwnershipRelease, hu]
  rw [dictWrite_of_admits h, if_pos hz]
theorem admitted_ownerKey (hu : s.tick t = u) (hown : s.kept.ownerKey.isEmpty = false) (a : Access) (i sub : Nat) (d : WData) :
    (u.admitWrite a i sub d false).st.kept.ownerKey.isEmpty = false := by
  have hkept : u.kept = s.kept := by subst hu; simp
  rwa [State.admitWrite_ownerKey, hkept]
theorem ownerKey_written (hu : s.tick t = u) (h : admits u 0x2110 0 r) (hz : allZero (payloadOf r.data) = false) :
    ∃ w, exec (.ownerKeyWrite t r) s = .next w ∧ w.cfg = s.cfg ∧ w.shep = s.shep ∧ cardSame s w ∧
      w.kept = { (u.admitWrite r.acc 0x2110 0 r.data false).st.kept with ownerKey := payloadOf r.data } := by
  obtain ⟨hcfg, hshep, hsame⟩ := admitted_same hu r.acc 0x2110 0 r.data
  rw [exec_ownerKeyWrite hu, dictWrite_of_admits h, State.commitOwner_key hz]
  exact ⟨_, rfl, by simpa [okC] using hcfg, by simpa [okC] using hshep, by apply cardSame_answer; exact hsame, by simp [okC]⟩
theorem ownership_released (hu : s.tick t = u) (h : admits u 0x2110 0 r) (hz : allZero (payloadOf r.data) = true)
    (hown : s.kept.ownerKey.isEmpty = false) (he : ∀ f, (s.fold f).st = .empty) :
    ∃ w, exec (.ownershipRelease t r) s = .next w ∧ exec (.ownerKeyWrite t r) s = .next w ∧ w.kept = Kept.dflt ∧ w.chans = [] ∧
      (∀ c, c < 256 → w.chanCfg c = ChanCfg.zero) ∧ (∀ f, w.foldCfg f = { s.foldCfg f with target := CkptTarget.zero }) ∧
      w.shep.stored = s.shep.stored.zeroised ∧ w.heath.members = 0 ∧ w.heath.proposal = none ∧ w.heath.lostStacks = s.heath.lostStacks ∧
      w.folds = s.folds ∧ w.tiles = s.tiles ∧ w.hbms = s.hbms := by
  obtain ⟨hcfg, hshep, hfolds, htiles, hhbms, -, -, -, hheath, -⟩ := admitted_same hu r.acc 0x2110 0 r.data
  have hw : exec (.ownerKeyWrite t r) s = .next ((u.admitWrite r.acc 0x2110 0 r.data false).st.releaseOwner.answer r.acc 0x2110 0 0 0 []) := by
    rw [exec_ownerKeyWrite hu, dictWrite_of_admits h, State.commitOwner_release hz (admitted_ownerKey hu hown ..)
      fun f => by rw [State.fold_of_folds hfolds, he]]
    rfl
  generalize (u.admitWrite r.acc 0x2110 0 r.data false).st = v at hcfg hshep hfolds htiles hhbms hheath hw
  obtain ⟨rfolds, rtiles, rhbms, rcfg, rstored, rlost⟩ := v.releaseOwner_rest
  refine ⟨_, (ownershipRelease_of_zero hu h hz).trans hw, hw, ?_, ?_, fun c hc => ?_, fun f => ?_, ?_, ?_, ?_, ?_, ?_, ?_, ?_⟩
  · simp [State.releaseOwner]
  · simp [State.releaseOwner]
  · simp only [State.answer_frame, rcfg, State.chanCfg]
    exact Settings.zeroised_channel _ hc
  · simp only [State.answer_frame, rcfg, State.foldCfg, Settings.zeroised_fold, hcfg]
  · rw [State.answer_zero_shep, rstored, hshep]
  · simp [State.releaseOwner, Heath.dflt]
  · simp [State.releaseOwner, Heath.dflt]
  · simp [rlost, hheath]
  · simp [rfolds, hfolds]
  · simp [rtiles, htiles]
  · simp [rhbms, hhbms]
theorem ownership_refused {f : FoldId} (hu : s.tick t = u) (h : admits u 0x2110 0 r) (hz : allZero (payloadOf r.data) = true)
    (hown : s.kept.ownerKey.isEmpty = false) (hf : (s.fold f).st ≠ .empty) : exec (.ownershipRelease t r) s = .next
      ((u.admitWrite r.acc 0x2110 0 r.data false).st.answer r.acc 0x2110 0 0x08000022 0 []) := by
  obtain ⟨-, -, hfolds, -⟩ := admitted_same hu r.acc 0x2110 0 r.data
  rw [ownershipRelease_of_zero hu h hz, exec_ownerKeyWrite hu, dictWrite_of_admits h,
    State.commitOwner_refused hz (admitted_ownerKey hu hown ..) (by rwa [State.fold_of_folds hfolds]), noC]
theorem kek_written {f : FoldId} {k : KekSeal} {l : Loaded} (hu : s.tick t = u) (h : admits u (0x5830 + f.val) 0 r)
    (hl : (s.fold f).load = some l) (hhpke : (s.fold f).keys.hpke.isEmpty = false) (hk : k.recipient = (s.fold f).keys.hpke)
    (hinfo : k.info = ascii [0x49, 0x5A, 0x43, 0x4B] ++ l.foldMeas) :
    ∃ w, exec (.ownerKekWrite t f r k) s = .next w ∧
      (w.fold f) = { s.fold f with keys := { (s.fold f).keys with kek := some k.kek } } ∧ othersSame f s w ∧ w.cfg = s.cfg ∧
      storesSame s w := by
  have hc (v : State) (hfolds : v.folds = s.folds) : v.commitKek f (some k) =
      okC (v.modFold f fun x => { x with keys := { x.keys with kek := some k.kek } }) := by
    rw [← State.fold_of_folds hfolds] at hl hhpke hk
    exact State.commitKek_opens hl hhpke hk hinfo
  obtain ⟨v, hcfg, -, ⟨hfolds, htiles, hhbms, -, -, -, -, -, hchans⟩, hw⟩ :=
    dictWrite_okC (commit := fun s _ => s.commitKek f (some k)) hu h fun v _ hfolds => hc v hfolds
  have hfold := State.fold_of_folds hfolds
  have hexec : exec (.ownerKekWrite t f r k) s = .next (u.dictWrite (0x5830 + f.val) 0 r fun s _ => s.commitKek f (some k)) := by
    simp only [exec, execOwnerKekWrite, hu]
  exact ⟨_, hexec.trans (congrArg _ hw), by simp [hfold], fun g hg => by simp [hg, hfold], by simp [hcfg],
    by simp [storesSame, htiles, hhbms, hchans]⟩
end

/-- Settles O19: a key is kept, a key of zeros releases the card where every Fold is EMPTY, and a KEK is kept where its seal opens. -/
theorem ownershipOfTheCard : Obligations.OwnershipOfTheCard := by
  intro t r s u hu
  exact ⟨ownerKey_written hu, ownership_released hu, fun f => ownership_refused hu, fun f k l => kek_written hu⟩

end Sys2Proof.Machine
end

section
/-! PROOFS. Tokens, transfer timeouts, snapshots and log positions (13, R373, R374, R383 to R385; 02, R44). -/

namespace Sys2Proof.Machine

/-! ## The order of R44 -/

theorem Event.before_iff {a b : Event} : a.before b = true ↔
    a.stamp < b.stamp ∨ a.stamp = b.stamp ∧ (a.source < b.source ∨ a.source = b.source ∧ a.seq ≤ b.seq) := by
  simp [Event.before]
theorem Event.before_trans {a b c : Event} (hab : a.before b = true) (hbc : b.before c = true) : a.before c = true := by
  rw [Event.before_iff] at *
  omega
theorem Event.before_total (a b : Event) : a.before b = true ∨ b.before a = true := by
  rw [Event.before_iff, Event.before_iff]
  omega
theorem insEvent_eq (e : Event) (l : List Event) : insEvent e l = l.orderedInsert (fun a b => a.before b = true) e := by
  induction l with
  | nil => rfl
  | cons x l ih => rw [insEvent, List.orderedInsert_cons, ih]
theorem sortEvents_eq (l : List Event) : sortEvents l = l.insertionSort (fun a b => a.before b = true) := by
  induction l with
  | nil => rfl
  | cons e l ih => rw [List.insertionSort_cons, ← ih, ← insEvent_eq]; rfl
theorem sortEvents_perm (l : List Event) : (sortEvents l).Perm l := by
  rw [sortEvents_eq]
  exact List.perm_insertionSort _ l
theorem sortEvents_pairwise (l : List Event) : (sortEvents l).Pairwise fun a b => a.before b = true := by
  have : Std.Total fun a b : Event => a.before b = true := ⟨Event.before_total⟩
  have : IsTrans Event fun a b => a.before b = true := ⟨fun _ _ _ => Event.before_trans⟩
  rw [sortEvents_eq]
  exact List.pairwise_insertionSort _ l

/-! ## Log positions -/

section
variable {t : Nat} {s u : State}

/-- The card after its due events took their positions. -/
def State.eventsPlaced (s : State) : State :=
  { s with events := { s.events.place (s.events.waiting.filter fun e => decide (e.stamp + 1000000 ≤ s.now)) with
      waiting := s.events.waiting.filter fun e => !decide (e.stamp + 1000000 ≤ s.now) } }
theorem exec_eventLogPosition (hu : s.tick t = u) : exec (.eventLogPosition t) s =
    .next (if u.events.sealedNext < u.eventsPlaced.events.sealedNext then u.eventsPlaced.sendVec 0 3 else u.eventsPlaced) := by
  subst hu
  rfl
theorem waiting_after (l : List Event) (n : Nat) :
    (l.filter fun e => !decide (e.stamp + 1000000 ≤ n)) = l.filter fun e => decide (n < e.stamp + 1000000) :=
  List.filter_congr fun e _ => by simp only [← decide_not, Nat.not_le]
theorem events_positioned (hu : s.tick t = u) : ∃ w o, exec (.eventLogPosition t) s = .next w ∧
    o.Perm (s.events.waiting.filter fun e => decide (e.stamp + 1000000 ≤ u.now)) ∧ o.Pairwise (fun a b => a.before b = true) ∧
    w.events.log = (s.events.log ++ o).drop ((s.events.log ++ o).length - 65536) ∧
    w.events.waiting = s.events.waiting.filter (fun e => decide (u.now < e.stamp + 1000000)) ∧
    w.events.next = s.events.next + o.length ∧ w.folds = s.folds ∧ w.cfg = s.cfg ∧ storesSame s w := by
  have hevents : u.events = s.events := by subst hu; simp
  have hrest : u.folds = s.folds ∧ u.cfg = s.cfg ∧ storesSame s u := by subst hu; simp [storesSame]
  obtain ⟨hfolds, hcfg, htiles, hhbms, hchans⟩ := hrest
  have hsend (v : State) (c : Prop) [Decidable c] : (if c then v.sendVec 0 3 else v).events = v.events ∧
      (if c then v.sendVec 0 3 else v).folds = v.folds ∧ (if c then v.sendVec 0 3 else v).cfg = v.cfg ∧
      storesSame v (if c then v.sendVec 0 3 else v) := by
    split <;> simp [storesSame]
  obtain ⟨sevents, sfolds, scfg, sstores⟩ :=
    hsend u.eventsPlaced (u.events.sealedNext < u.eventsPlaced.events.sealedNext)
  refine ⟨_, _, exec_eventLogPosition hu, sortEvents_perm _, sortEvents_pairwise _, ?_, ?_, ?_, sfolds.trans hfolds, scfg.trans hcfg,
    storesSame.trans ⟨htiles, hhbms, hchans⟩ sstores⟩
  · rw [sevents, ← hevents]
    simp only [State.eventsPlaced, Events.place]
  · rw [sevents, ← hevents, ← waiting_after]
    simp only [State.eventsPlaced]
  · rw [sevents, ← hevents]
    simp only [State.eventsPlaced, Events.place]
end

/-! ## Tokens -/

section
variable {t : Nat} {a : Access} {f : FoldId} {s u : State} {n : Bytes}

/-- EAT_READ on a path that may read the entry: the nonce and the bundle decide. -/
theorem exec_eatRead (hu : s.tick t = u) (hs : u.writeService a = 2) (hb : boxAnswers u a)
    (hin : a.path = 3 → inPrefix (u.val 0x2050 4 (List.replicate 17 0)) a.source = true) (hfn : a.path = 0 → a.fn = 0 ∨ a.fn = vfOf f)
    (hn : mget [] u.shep.eatNonces (16 * a.path.val + f.val) = n) : exec (.eatRead t a f) s = .next
      (if n.isEmpty || (u.fold f).load.isNone then u.answer a (0x300D + 0x20 * f.val) 2 0x08000024 0 []
       else ({ u with shep := { u.shep with eats := mset [] u.shep.eats (16 * a.path.val + f.val) (u.eatOf f n) } }).answer
        a (0x300D + 0x20 * f.val) 2 0 0 (u.eatOf f n)) := by
  have hserved : (decide (u.writeService a ≠ 2) || (a.path == 3 && !inPrefix (u.val 0x2050 4 (List.replicate 17 0)) a.source)) = false := by
    by_cases hp : a.path = 3
    · rw [hin hp]
      simp [hs]
    · simp [hs, hp]
  have hreach : (a.path == 0 && a.fn != 0 && a.fn != vfOf f) = false := by
    by_cases hp : a.path = 0
    · obtain h | h := hfn hp <;> simp [h]
    · simp [hp]
  unfold boxAnswers at hb
  simp only [exec, execEatRead, hu, hn, hb, hserved, hreach, Bool.false_eq_true, if_false]
  split <;> rfl
theorem token_read (hu : s.tick t = u) (hs : u.writeService a = 2) (hb : boxAnswers u a)
    (hin : a.path = 3 → inPrefix (u.val 0x2050 4 (List.replicate 17 0)) a.source = true) (hfn : a.path = 0 → a.fn = 0 ∨ a.fn = vfOf f)
    (hn : mget [] u.shep.eatNonces (16 * a.path.val + f.val) = n) (hne : n.isEmpty = false) (hl : (u.fold f).load.isSome = true) :
    ∃ w, exec (.eatRead t a f) s = .next w ∧
      w = (({ u with shep := { u.shep with eats := mset [] u.shep.eats (16 * a.path.val + f.val) (u.eatOf f n) } }).answer
        a (0x300D + 0x20 * f.val) 2 0 0 (u.eatOf f n)) ∧ w.cfg = s.cfg ∧ cardSame s w := by
  have hnone : (n.isEmpty || (u.fold f).load.isNone) = false := by simpa [hne] using hl
  refine ⟨_, exec_eatRead hu hs hb hin hfn hn, by rw [hnone]; rfl, ?_⟩
  rw [hnone, if_neg Bool.false_ne_true]
  subst hu
  exact ⟨by simp, by simp [cardSame]⟩

/-! ## Transfers that time out -/

theorem State.mem_out_answer (s : State) (a : Access) (i sub c e : Nat) (b : Bytes) (h : s.power.gated = false) :
    .sdo a.path.val a.fn.val c e b ∈ (s.answer a i sub c e b).out := by
  unfold State.answer
  dsimp only
  repeat' split
  all_goals simp_all [State.send, State.sendVec]
theorem transfer_timedOut {i sub : Nat} (hu : s.tick t = u) (hup : u.shep.up = true) (hr : u.shep.restarting = false) :
    ∃ w, exec (.segmentedTransferTimeout t a i sub) s = .next w ∧ w.cfg = s.cfg ∧ cardSame s w ∧
      (∀ x, x ∈ w.shep.segs ↔ x ∈ s.shep.segs ∧ ¬ (x.path = a.path.val ∧ x.fn = a.fn.val ∧ x.index = i ∧ x.sub = sub)) ∧
      (u.power.gated = false → .sdo a.path.val a.fn.val 0x05040000 0 [] ∈ w.out) := by
  have hexec : exec (.segmentedTransferTimeout t a i sub) s = .next (({ u with shep := { u.shep with
      segs := u.shep.segs.filter fun x => !(x.path == a.path.val && x.fn == a.fn.val && x.index == i && x.sub == sub) } }).answer
        a i sub 0x05040000 0 []) := by
    simp [exec, execSegmentedTransferTimeout, hu, hup, hr]
  refine ⟨_, hexec, ?_, ?_, fun x => ?_, fun hg => State.mem_out_answer _ _ _ _ _ _ _ hg⟩
  · subst hu; simp
  · subst hu; simp [cardSame]
  · subst hu
    rw [State.answer_shep _ _ _ _ _ _ _ (by decide)]
    simp only [List.mem_filter, Bool.not_eq_true', Bool.eq_false_iff, ne_eq, Bool.and_eq_true, beq_iff_eq, and_assoc, State.tick_frame]

/-! ## Snapshots -/

theorem snapshot_taken {m : Readings} (hu : s.tick t = u) (hup : u.shep.up = true) (hr : u.shep.restarting = false)
    (hc : u.clock.running = true) (hd : u.snapDue = true) :
    exec (.snapshotRefresh t m) s = .next (u.takeReadings m).takeSnapshot := by
  simp [exec, execSnapshotRefresh, hu, hup, hr, hc, hd]
theorem State.takeSnapshot_rest (u : State) (m : Readings) :
    (u.takeReadings m).takeSnapshot.folds = u.folds ∧ (u.takeReadings m).takeSnapshot.cfg = u.cfg ∧
      (u.takeReadings m).takeSnapshot.tiles = u.tiles ∧ (u.takeReadings m).takeSnapshot.events = u.events := ⟨rfl, rfl, rfl, rfl⟩
end

/-- Settles O29: the token by its nonce, the timeout by its answer, the snapshot as it is taken, the log by insertion in R44's order. -/
theorem tokensSnapshotsAndLogPositions : Obligations.TokensSnapshotsAndLogPositions := by
  refine ⟨fun t a f s u n hu hs hb hin hfn hn => ⟨token_read hu hs hb hin hfn hn, fun he => ?_⟩,
    fun t a i sub s u hu hup hr => transfer_timedOut hu hup hr, fun t m s u hu hup hr hc hd => ?_, fun t s u hu => events_positioned hu⟩
  · rw [exec_eatRead hu hs hb hin hfn hn, if_pos (by simp [he])]
  · obtain ⟨hfolds, -, htiles, hevents⟩ := u.takeSnapshot_rest m
    refine ⟨_, snapshot_taken hu hup hr hc hd, rfl, rfl, rfl, rfl, rfl, rfl, ?_, ?_, ?_, ?_⟩
    · subst hu; simp [hfolds]
    · subst hu; simp
    · subst hu; simp [htiles]
    · subst hu; simp [hevents]

end Sys2Proof.Machine
end

section
/-! PROOFS. FORCE_STOP does not leave every other Fold as before: the last page that it seals wakes the journal of the evidence card, which
then takes the next object of any Fold (13, R381; 09, R249; 16, R450). -/

namespace Sys2Proof.Machine

section
variable {s : State} {f : FoldId}

/-! ## The last page of a run wakes the journal -/

theorem State.sealWakes_modFold {g : Fold → Fold} (hload : (g (s.fold f)).load = (s.fold f).load)
    (hpage : (g (s.fold f)).led.page = (s.fold f).led.page) (h : s.sealWakes f) : (s.modFold f g).sealWakes f := by
  obtain ⟨hf, hl, hopen, hpower, hfile, hjournal⟩ := h
  exact ⟨hf, by simpa [hload] using hl, by simpa [hpage] using hopen, by simpa using hpower, by simpa using hfile,
    (State.journalAwaitsChain_modFold hf g).mpr hjournal⟩
theorem State.finalPage_chainTaken (h : s.sealWakes f) (hclosing : (s.fold f).led.closing = []) (n : Nat) :
    (s.finalPage f n).chainTaken := by
  obtain ⟨hf, hload, hopen, hpower, hfile, hjournal⟩ := h
  obtain ⟨p, hpage, -⟩ := Option.map_eq_some_iff.mp hopen
  simp only [State.finalPage, State.closePage, hpage, Ledger.markFinal, State.modFold_same, hclosing, List.nil_append,
    List.length_singleton, Nat.sub_self, List.modify_cons, if_true, List.foldl_cons, List.foldl_nil, State.sealClosing]
  rw [State.chainTaken_modFold hf]
  exact State.sealPage_chainTaken hf (by simpa using hload) (by simpa using hpower) (by simpa using hfile)
    ((State.journalAwaitsChain_modFold hf _).mpr ((State.journalAwaitsChain_modFold hf _).mpr hjournal))

/-! ## FORCE_STOP of a Growing Fold between attempts -/

/-- Nothing of the run is under way but its open page: no frame in the pipeline, no result, read, arrival or replay header, no attempt,
and no page that waits for its seal. -/
def Fold.onlyPage (x : Fold) : Prop :=
  x.pipe = [] ∧ x.openCohort = [] ∧ x.res.all = [] ∧ x.adm.reads = [] ∧ x.adm.arrivals = [] ∧ x.rep.hdrs = [] ∧ x.inAttempt = false ∧
  x.led.closing = []
theorem State.endRun_chainTaken (h : s.sealWakes f) (hx : (s.fold f).adm.reads = [] ∧ (s.fold f).adm.arrivals = [] ∧
    (s.fold f).rep.hdrs = [] ∧ (s.fold f).inAttempt = false ∧ (s.fold f).led.closing = []) : (s.endRun f).chainTaken := by
  obtain ⟨hreads, harrivals, hhdrs, hattempt, hclosing⟩ := hx
  obtain ⟨hf, -⟩ := id h
  have hcut (v : State) (hv : (v.fold f).inAttempt = false) (n : Nat) : v.cutAttempt f n = v := by simp [State.cutAttempt, hv]
  have hreads' : s.dropReads f 0x23 = s.modFold f fun x => { x with adm := { x.adm with reads := [], arrivals := [] } } := by
    simp [State.dropReads, hreads, harrivals]
  rw [State.endRun, State.chainTaken_modFold hf, hreads', hhdrs, List.foldl_nil, hcut _ (by rw [State.modFold_same]; exact hattempt)]
  exact State.finalPage_chainTaken (State.sealWakes_modFold rfl rfl h) (by rw [State.modFold_same]; exact hclosing) _
theorem State.toStopped_chainTaken (hf : f ≠ 0) : (s.toStopped f).chainTaken ↔ s.chainTaken := by
  obtain ⟨-, -, hothers, -⟩ := s.toStopped_leaves f
  exact State.chainTaken_congr (hothers 0 hf.symm)
theorem State.forceStopNow_chainTaken (h : s.sealWakes f) (hx : (s.fold f).onlyPage) : (s.forceStopNow f).chainTaken := by
  obtain ⟨hpipe, hopen, hres, hreads, harrivals, hhdrs, hattempt, hclosing⟩ := hx
  obtain ⟨hf, hload, -⟩ := id h
  obtain ⟨l, hl⟩ := Option.isSome_iff_exists.mp hload
  have hcohorts : (s.fold f).haltCohorts l = [] := by simp [Fold.haltCohorts, hpipe, hopen]
  simp only [State.forceStopNow, hl, hcohorts, hres, State.dropHeld, State.dropResults, State.endCohorts, List.filter_nil, List.map_nil,
    List.flatMap_nil, List.append_nil, List.foldl_nil, List.isEmpty_nil, if_true]
  rw [State.toStopped_chainTaken hf]
  refine State.endRun_chainTaken (State.sealWakes_modFold rfl rfl (State.sealWakes_modFold rfl rfl h)) ?_
  simp only [State.modFold_same]
  exact ⟨hreads, harrivals, hhdrs, hattempt, hclosing⟩
theorem State.forceStopCommit_chainTaken (hst : (s.fold f).st = .running) (h : s.sealWakes f) (hx : (s.fold f).onlyPage) (pf : Bool) :
    (s.forceStopCommit f pf).1.chainTaken := by
  rw [State.forceStopCommit, hst]
  refine State.forceStopNow_chainTaken (State.sealWakes_modFold rfl rfl h) ?_
  rw [State.modFold_same]
  exact hx
end

/-! ## The card of the refutation -/

/-- Fold 1 runs with an open page and nothing else under way; Fold 0 is loaded and exports to the evidence card alone; the card has its
owner's keys and its Shepherd is up. -/
def ownedFolds : State :=
  { twoFolds (secondFold 0 1 [] Grow.dflt) with shep := Tests.card.shep, kept := Tests.card.kept, sec := Tests.card.sec }
/-- The owner's write of FoldCommand FORCE_STOP for Fold 1, by the mailbox of the physical function. -/
def ownerStop : WReq := Tests.own (foldIdx 1 6) 0 (le 1 2)
theorem ownerStop_passes : ctlPasses (ownedFolds.tick 2010000) 6 (.dict 1 ownerStop) := by
  unfold ctlPasses admits boxAnswers
  decide
theorem ownerStop_value : leNat (ctlValue (.dict 1 ownerStop)) = 2 := by decide
/-- The state of the card after the checks of that write. -/
def stopAdmitted : State := ((ownedFolds.tick 2010000).admitWrite ownerStop.acc (foldIdx 1 6) 0 ownerStop.data false).st
theorem stopAdmitted_sealWakes : stopAdmitted.sealWakes 1 := by
  unfold State.sealWakes State.journalAwaitsChain
  decide +kernel
theorem stopAdmitted_onlyPage : (stopAdmitted.fold 1).onlyPage := by
  unfold Fold.onlyPage
  decide +kernel
theorem exec_ownerStop : exec (.forceStop 2010000 (.dict 1 ownerStop)) ownedFolds =
    .next ((stopAdmitted.forceStopCommit 1 (fromPf ownerStop.acc)).1.answer ownerStop.acc (foldIdx 1 6) 0
      (stopAdmitted.forceStopCommit 1 (fromPf ownerStop.acc)).2.1 (stopAdmitted.forceStopCommit 1 (fromPf ownerStop.acc)).2.2 []) :=
  congrArg Host.Outcome.next (dictWrite_of_admits ownerStop_passes fun s v => s.foldCommand 1 (fromPf ownerStop.acc) (leNat v))

/-- Refutes O16: FORCE_STOP of Fold 1 seals its last page, and the journal, which is free, takes the certificate chain of Fold 0 and marks
it as taken, so that Fold 0 is not as before. -/
theorem not_foldCommandsKeepToTheirStates : ¬ Obligations.FoldCommandsKeepToTheirStates := by
  unfold Obligations.FoldCommandsKeepToTheirStates
  intro h
  obtain ⟨-, hforce, -⟩ := h 2010000 (.dict 1 ownerStop) ownedFolds _ 1 rfl rfl ownerStop_passes
  obtain ⟨hact, -⟩ := hforce ownerStop_value
  obtain ⟨w, hw, -, -, -, -, -, -, -, -, hothers⟩ := hact (.inl (by decide))
  obtain rfl := Host.Outcome.next.inj (exec_ownerStop.symm.trans hw)
  have htaken := State.forceStopCommit_chainTaken (by decide +kernel) stopAdmitted_sealWakes stopAdmitted_onlyPage (fromPf ownerStop.acc)
  exact othersSame_not_chainTaken (x := secondFold 0 1 [] Grow.dflt) hothers ((State.chainTaken_congr (by simp)).mpr htaken)

end Sys2Proof.Machine
end

section
/-! PROOFS. The step and the queue (00), the state after reset (13, Table 13.8; 15), the time of a command (02; log entries 2, 4, 5). -/

namespace Sys2Proof.Machine

/-! ## The step and the queue -/

/-- Settles O1, by whether the queue holds a command. -/
theorem stepRunsFrontCommand : Obligations.StepRunsFrontCommand :=
  ⟨fun c rest s h => by simp only [step, h], fun s h => by simp only [step, h]⟩

/-- Settles O2: the queue is part of what every command keeps. -/
theorem execLeavesTheQueueAlone : Obligations.ExecLeavesTheQueueAlone := by
  intro c s t h
  obtain ⟨hqueue, -⟩ := exec_kept c s t h
  exact hqueue

/-! ## After reset -/

theorem State.reset_fold (f : FoldId) : State.reset.fold f = Fold.dflt := by simp [State.fold, State.reset, vget, Vector.get]

/-- Settles O5: every Fold at its default, and of the rest the values that `State.reset` writes out. -/
theorem resetLeavesTheCardEmpty : Obligations.ResetLeavesTheCardEmpty := by
  have hlogs : logsBounded State.reset := ⟨Nat.zero_le _, Nat.zero_le _⟩
  have hbus : offBus State.reset := fun _ => ⟨rfl, rfl, rfl⟩
  exact ⟨rfl, fun f => by rw [State.reset_fold]; exact ⟨rfl, rfl⟩, rfl, rfl, rfl, rfl, rfl, rfl, rfl, hlogs, hbus⟩

/-! ## The time of a command (02, R28) -/

/-- Settles O8, by whether the tick generator runs. -/
theorem timeOfACommand : Obligations.TimeOfACommand := by
  refine ⟨fun s t h => ?_, fun s t h => by simp [State.tick, h]⟩
  have htick : s.tick t = { s with clock := s.clock.advance t } := by simp [State.tick, h]
  have hslew := s.clock.advance_slew t
  rw [htick]
  exact ⟨rfl, rfl, h, Nat.le.intro hslew⟩

end Sys2Proof.Machine
end

section
/-! PROOFS. Every command but the two that address a store completes, and without the field bracket it leaves EtherCAT in INIT and CAN off
the bus: what moves a field controller needs the bracket, or takes the controller down (17, R467; 13, R376; 15, Table 15.3). -/

namespace Sys2Proof.Machine

/-! ## What a command that completes keeps -/

/-- Where the controllers were off their buses without a bracket, they still are. -/
structure offBusKept (s w : State) : Prop where
  keeps : offBus s → offBus w
/-- The command completes and keeps the controllers off their buses. -/
def completesOffBus (s : State) (o : Out) : Prop := ∃ w, o = .next w ∧ offBusKept s w

theorem offBusKept.of_field {s w : State} (h : w.shep.fbPresHigh = s.shep.fbPresHigh ∧ w.shep.alState = s.shep.alState ∧
    w.shep.nmt = s.shep.nmt ∧ w.shep.fieldBefore = s.shep.fieldBefore) : offBusKept s w := by
  obtain ⟨hhigh, hal, hnmt, hbefore⟩ := h
  exact ⟨by simp [offBus, hhigh, hal, hnmt, hbefore]⟩
/-- With the bracket fitted nothing is asked of the controllers. -/
theorem offBusKept.of_fitted {s w : State} (h : w.shep.fbPresHigh = false) : offBusKept s w := ⟨fun _ hhigh => by simp [h] at hhigh⟩
/-- A command that takes both controllers down. -/
theorem offBusKept.of_down {s w : State} (hhigh : w.shep.fbPresHigh = s.shep.fbPresHigh) (hal : w.shep.alState = 1) (hnmt : w.shep.nmt = 0)
    (hbefore : offBus s → s.shep.fbPresHigh = true → w.shep.fieldBefore = (1, 0)) : offBusKept s w :=
  ⟨fun hs hw => ⟨hal, hnmt, hbefore hs (hhigh ▸ hw)⟩⟩
theorem offBusKept.trans {s u w : State} (h : offBusKept s u) (h' : offBusKept u w) : offBusKept s w :=
  ⟨fun hs => h'.keeps (h.keeps hs)⟩
theorem offBusKept.foldl {α : Type} {op : State → α → State} (h : ∀ s a, offBusKept s (op s a)) (l : List α) (s : State) :
    offBusKept s (l.foldl op s) := by
  induction l generalizing s with
  | nil => exact ⟨id⟩
  | cons a l ih => exact (h s a).trans (ih _)
theorem completesOffBus.next {s w : State} (h : offBusKept s w) : completesOffBus s (.next w) := ⟨w, rfl, h⟩
theorem completesOffBus.of_field {s w : State} (h : w.shep.fbPresHigh = s.shep.fbPresHigh ∧ w.shep.alState = s.shep.alState ∧
    w.shep.nmt = s.shep.nmt ∧ w.shep.fieldBefore = s.shep.fieldBefore) : completesOffBus s (.next w) := .next (.of_field h)

/-! ## Where the controllers move (15, Table 15.3, R419, R439; 17, R467) -/

theorem State.canBoot_fbPresHigh (s : State) : s.canBoot.shep.fbPresHigh = s.shep.fbPresHigh := by
  unfold State.canBoot
  split <;> simp
theorem State.shepReset_offBus (s : State) : offBusKept s s.shepReset :=
  .of_down rfl rfl rfl fun hs hhigh => by
    obtain ⟨hal, hnmt, -⟩ := hs hhigh
    simp [State.shepReset, hal, hnmt]
theorem State.shepOff_offBus (s : State) : offBusKept s s.shepOff :=
  .of_down rfl rfl rfl fun hs hhigh => by
    obtain ⟨-, -, hbefore⟩ := hs hhigh
    exact hbefore
theorem State.coldReset_offBus (s : State) : offBusKept s s.coldReset := .of_field (by simp [State.coldReset, Shepherd.coldDefaults])
theorem State.shepStart_offBus (s : State) : offBusKept s s.shepStart := by
  by_cases hhigh : s.shep.fbPresHigh = true
  · rw [State.shepStart, if_pos hhigh]
    exact .of_down rfl rfl rfl fun hs _ => (hs hhigh).2.2
  · rw [State.shepStart, if_neg hhigh]
    exact .of_fitted ((State.canBoot_fbPresHigh _).trans (by simpa using hhigh))

/-! ## Writes of the dictionary (13) -/

theorem State.commitReset_offBus (s : State) (n : Nat) : offBusKept s (s.commitReset n).1 := by
  unfold State.commitReset
  split
  case h_2 => exact State.shepReset_offBus s
  all_goals exact .of_field (by simp)
theorem ite_commit_field (c : Prop) [Decidable c] (a b : Commit) : (if c then a else b).1.shep = if c then a.1.shep else b.1.shep := by
  split <;> rfl
/-- Of all entries only ResetRequest moves the controllers: value 2 resets the Shepherd (15, R439). -/
theorem State.commitEntry_offBus (s : State) (a : Access) (i sub : Nat) (v : Bytes) : offBusKept s (s.commitEntry a i sub v).1 := by
  by_cases hi : i = 0x2002
  · subst hi
    exact State.commitReset_offBus s _
  · refine .of_field ?_
    unfold State.commitEntry
    rw [if_neg hi]
    simp only [ite_commit_field]
    simp
theorem State.dictWrite_offBus (s : State) (i sub : Nat) (r : WReq) {commit : State → Bytes → State × Nat × Nat}
    (hc : ∀ s v, offBusKept s (commit s v).1) : offBusKept s (s.dictWrite i sub r commit) := by
  have hheld (n : Nat) (u : State) (v : Bytes) : offBusKept u (u.commitOrHold n i sub v commit).1 := by
    unfold State.commitOrHold
    dsimp only
    split
    · exact ⟨id⟩
    · exact hc u v
  unfold State.dictWrite
  dsimp only
  split
  · exact .of_field (by simp)
  · split
    · exact .of_field (by simp)
    · split
      · exact .of_field (by simp)
      · exact (offBusKept.of_field (State.admitWrite_field ..)).trans ((hheld ..).trans (.of_field (State.answer_field ..)))
theorem completesOffBus.dictWrite (s : State) (t i sub : Nat) (r : WReq) {commit : State → Bytes → State × Nat × Nat}
    (hc : ∀ s v, offBusKept s (commit s v).1) : completesOffBus s (.next ((s.tick t).dictWrite i sub r commit)) :=
  .next ((offBusKept.of_field (State.tick_field s t)).trans (State.dictWrite_offBus _ i sub r hc))
theorem completesOffBus.resetWrite (s : State) (t n : Nat) (r : WReq) : completesOffBus s (.next ((s.tick t).resetWrite r n)) :=
  .dictWrite s t _ _ r fun s v => by
    split
    · exact State.commitReset_offBus s n
    · exact .of_field (by simp)
theorem State.applyDeferred_offBus (s : State) : offBusKept s s.applyDeferred := by
  unfold State.applyDeferred
  exact .trans (.of_field (by simp)) (.foldl (fun u _ => State.commitEntry_offBus u _ _ _ _) _ _)

/-! ## Commands of the queues (18) -/

theorem State.command_offBus (s : State) (t : Nat) (q : QHdr) (pfOnly early : Bool) {k : State → State}
    (hk : ∀ s, offBusKept s (k s)) : completesOffBus s (s.command t q pfOnly early k) := by
  have hfetched : offBusKept s ((s.tick t).fetch q.fn 0) := .of_field (by simp)
  unfold State.command
  dsimp only
  split
  · exact .of_field (by simp)
  · split
    · exact .of_field (by simp)
    · split
      · exact .of_field (by simp)
      · split
        · exact .of_field (by simp)
        · exact .next (hfetched.trans (hk _))
theorem State.foldControl_offBus (s : State) (t : Nat) (src : CtlSrc) (action : Nat) : completesOffBus s (s.foldControl t src action) := by
  cases src with
  | dict f r => exact .dictWrite s t _ _ r fun u v => .of_field (by simp)
  | queue q o =>
    exact State.command_offBus s t q _ _ fun u => .of_field (State.signedCommand_field u q o _ _ _ _ fun v b => by split <;> simp)
theorem State.entry_offBus (s : State) (t : Nat) (q : QHdr) {k : State → State}
    (hk : ∀ s, (k s).shep.fbPresHigh = s.shep.fbPresHigh ∧ (k s).shep.alState = s.shep.alState ∧ (k s).shep.nmt = s.shep.nmt ∧
      (k s).shep.fieldBefore = s.shep.fieldBefore) : offBusKept s ((s.tick t).entry q k) :=
  (offBusKept.of_field (State.tick_field s t)).trans (.of_field (State.entry_field _ q k hk))

/-! ## Commands that run an operation over a list -/

theorem drainLoop_field (f : FoldId) (k : Nat) (s : State) : (drainLoop f k s).shep.fbPresHigh = s.shep.fbPresHigh ∧
    (drainLoop f k s).shep.alState = s.shep.alState ∧ (drainLoop f k s).shep.nmt = s.shep.nmt ∧
    (drainLoop f k s).shep.fieldBefore = s.shep.fieldBefore := by
  induction k generalizing s with
  | zero => exact ⟨rfl, rfl, rfl, rfl⟩
  | succ k ih =>
    unfold drainLoop
    dsimp only
    (repeat' split) <;> simp [ih]
theorem execResultDrain_offBus (t : Nat) (f : FoldId) (s : State) : completesOffBus s (execResultDrain t f s) := by
  have hsent : offBusKept s (((s.tick t).chansOf f).foldl (fun s c => s.sendClosed c) (s.tick t)) :=
    offBusKept.trans (.of_field (State.tick_field s t)) (.foldl (fun u c => .of_field (State.sendClosed_field u c)) _ _)
  unfold execResultDrain
  dsimp only
  refine .next (hsent.trans (.of_field ?_))
  split <;> simp [drainLoop_field]
theorem execLldpTimer_offBus (t : Nat) (s : State) : completesOffBus s (execLldpTimer t s) := by
  refine .next (offBusKept.trans (.of_field (State.tick_field s t)) (.foldl (fun u p => .of_field ?_) _ _))
  dsimp only
  (repeat' split) <;> simp
theorem execEpochCommit_offBus (t : Nat) (s : State) : completesOffBus s (execEpochCommit t s) := by
  unfold execEpochCommit
  dsimp only
  split
  · exact .of_field (by simp)
  · split
    · exact .of_field (by simp)
    · refine .next (offBusKept.trans (.of_field (by simp)) (.foldl (fun u f => .of_field ?_) _ _))
      (repeat' split) <;> simp
theorem execQuadrantFailure_offBus (t : Nat) (q : QuadId) (cause : Nat) (s : State) : completesOffBus s (execQuadrantFailure t q cause s) := by
  have hlinks (u : State) := foldl_field (fun s i => if h : 4 * q.val + i < 16 then s.dropLink ⟨4 * q.val + i, h⟩ 1 else s) (List.range 4) u
    fun v i => by split <;> simp
  unfold execQuadrantFailure
  dsimp only
  (repeat' split) <;> exact .of_field (by simp [hlinks])
theorem execLockInterfaceRequest_offBus (t : Nat) (fn : FnId) (s : State) : completesOffBus s (execLockInterfaceRequest t fn s) := by
  unfold execLockInterfaceRequest State.draw
  dsimp only
  refine .of_field ?_
  (repeat' split) <;> simp

/-! ## Commands of the supplies and of the field bracket -/

theorem execShepherdSupplyUp_offBus (t : Nat) (src : Supply) (a b : FwSet) (s : State) : completesOffBus s (execShepherdSupplyUp t src a b s) := by
  unfold execShepherdSupplyUp
  dsimp only
  split
  · exact .of_field (by simp)
  · exact .next (offBusKept.trans (.of_field (by simp)) (State.shepStart_offBus _))
theorem execMainPowerGood_offBus (t : Nat) (cbl sense0 sense1 : Bool) (fail : Option (Rail × Nat)) (s : State) :
    completesOffBus s (execMainPowerGood t cbl sense0 sense1 fail s) := by
  have htick : offBusKept s (s.tick t) := .of_field (State.tick_field s t)
  unfold execMainPowerGood
  generalize s.tick t = u at htick ⊢
  have hdeferred (sup : Bool × Bool × Bool) :
      offBusKept s { u with shep := { u.shep with supplies := sup, source := .main } }.applyDeferred :=
    htick.trans (.trans (.of_field (by simp)) (State.applyDeferred_offBus _))
  dsimp only
  split
  · exact .next htick
  · split <;> exact .next ((hdeferred (true, u.shep.supplies.2.1, u.shep.supplies.2.2)).trans (.of_field (by simp)))
theorem execMainPowerLoss_offBus (t : Nat) (s : State) : completesOffBus s (execMainPowerLoss t s) := by
  have hreset : offBusKept s (s.tick t).coldReset := offBusKept.trans (.of_field (State.tick_field s t)) (State.coldReset_offBus _)
  unfold execMainPowerLoss
  dsimp only
  split
  · exact .of_field (by simp)
  · split
    · exact .next (hreset.trans ⟨id⟩)
    · exact .next (hreset.trans (State.shepOff_offBus _))
theorem execShepherdSupplyLoss_offBus (t : Nat) (s : State) : completesOffBus s (execShepherdSupplyLoss t s) := by
  refine .next (offBusKept.trans (.of_field (State.tick_field s t)) ?_)
  split
  · exact (State.coldReset_offBus _).trans (State.shepOff_offBus _)
  · exact State.shepOff_offBus _
/-- The controllers return to their states before the restart: INIT and off the bus where no bracket was fitted. -/
theorem execShepherdRestartDone_offBus (t : Nat) (s : State) : completesOffBus s (execShepherdRestartDone t s) := by
  have htick : offBusKept s (s.tick t) := .of_field (State.tick_field s t)
  unfold execShepherdRestartDone
  generalize s.tick t = u at htick ⊢
  dsimp only
  split
  · exact .next htick
  · refine .next (htick.trans ?_)
    split
    next hcan => exact .of_fitted ((State.canBoot_fbPresHigh _).trans (by simpa using And.right (by simpa using hcan)))
    next =>
      refine ⟨fun hs hhigh => ?_⟩
      obtain ⟨-, -, hbefore⟩ := hs hhigh
      simp [hbefore]
theorem execFbPresChange_offBus (t : Nat) (high : Bool) (s : State) : completesOffBus s (execFbPresChange t high s) := by
  cases high with
  | true => exact .next ⟨fun _ _ => ⟨rfl, rfl, rfl⟩⟩
  | false =>
    refine .next (.of_fitted ?_)
    dsimp only
    split
    · exact State.canBoot_fbPresHigh _
    · rfl
/-- Without the bracket the field controllers do not run, so that no management command reaches them (13, R376). -/
theorem execNmtCommand_offBus (t : Nat) (c : NmtCmd) (s : State) : completesOffBus s (execNmtCommand t c s) := by
  unfold execNmtCommand
  dsimp only
  split
  · exact .of_field (by simp)
  · next hup =>
    obtain ⟨-, hlow⟩ : _ ∧ s.shep.fbPresHigh = false := by simpa [State.fieldUp] using hup
    have hboot (u : State) (h : u.shep.fbPresHigh = false) : u.canBoot.shep.fbPresHigh = false := (State.canBoot_fbPresHigh u).trans h
    cases c <;> dsimp only <;> (repeat' split) <;> exact .next (.of_fitted (by simp [hlow, hboot]))

/-! ## Commands of the queues, one by one -/

theorem execCreateFold_offBus (t : Nat) (q : QHdr) (plots units : Signed) (s : State) :
    completesOffBus s (execCreateFold t q plots units s) :=
  State.command_offBus s t q _ _ fun u => .of_field (by
    dsimp only
    (repeat' split) <;> simp)
theorem execLaunch_offBus (t : Nat) (replay : Bool) (src : CtlSrc) (s : State) : completesOffBus s (execLaunch t replay src s) := by
  cases src with
  | dict f r => exact .dictWrite s t _ _ r fun u v => .of_field (by simp)
  | queue q o =>
    simp only [execLaunch]
    refine State.command_offBus s t q _ _ fun u => ?_
    split
    · exact .of_field (by simp)
    · exact .of_field (State.signedCommand_field u q o _ _ _ _ fun v b => by simp)
theorem execPreemptNotice_offBus (t : Nat) (src : NoticeSrc) (s : State) : completesOffBus s (execPreemptNotice t src s) := by
  cases src with
  | dict r => exact .dictWrite s t _ _ r fun u v => .of_field (by simp)
  | queue q o => exact State.command_offBus s t q _ _ fun u => .of_field (State.signedCommand_field u q o _ _ _ _ fun v b => by simp)
  | izr rx o =>
    simp only [execPreemptNotice]
    (repeat' split) <;> exact .of_field (by simp)
theorem execLedgerRead_offBus (t : Nat) (q : QHdr) (addr len offset : Nat) (s : State) :
    completesOffBus s (execLedgerRead t q addr len offset s) :=
  State.command_offBus s t q _ _ fun u => .of_field (by
    dsimp only
    (repeat' split) <;> simp)
theorem execRecord_offBus (t : Nat) (q : QHdr) (addr len resAddr resLen : Nat) (s : State) :
    completesOffBus s (execRecord t q addr len resAddr resLen s) := by
  unfold execRecord
  dsimp only
  split
  · exact .of_field (by simp)
  · split
    · exact .of_field (by simp)
    · split
      · exact .of_field (by simp)
      · refine .next (State.entry_offBus s t q fun u => ?_)
        (repeat' split) <;> simp
theorem execReplayHeader_offBus (t : Nat) (q : QHdr) (b : Bytes) (s : State) : completesOffBus s (execReplayHeader t q b s) := by
  unfold execReplayHeader
  dsimp only
  split
  · exact .of_field (by simp)
  · split
    · exact .of_field (by simp)
    · refine .next (State.entry_offBus s t q fun u => ?_)
      (repeat' split) <;> simp
theorem execRows_offBus (t : Nat) (q : QHdr) (addr len first count pass : Nat) (buf : Bytes) (s : State) :
    completesOffBus s (execRows t q addr len first count pass buf s) := by
  unfold execRows
  dsimp only
  split
  · exact .of_field (by simp)
  · split
    · refine .of_field ?_
      split <;> simp
    · split
      · exact .of_field (by simp)
      · refine .next (State.entry_offBus s t q fun u => ?_)
        (repeat' split) <;> simp

/-! ## The two commands that address a store, and every other -/

/-- A command that issues either ends in a next state that keeps the controllers off their buses or faults at an address of its store. -/
def faultsOr (s : State) (o : Out) (fault : Nat → Fault) : Prop := completesOffBus s o ∨ ∃ a, o = .fault (fault a)

theorem execScheduledOperation_outcome (t tile cycle : Nat) (feed : Feed) (s : State) :
    faultsOr s (execScheduledOperation t tile cycle feed s) (.tileStoreAddress tile) := by
  unfold execScheduledOperation
  dsimp only
  split
  · exact .inl (.of_field (by simp))
  · split
    next a _ => exact .inr ⟨a, rfl⟩
    · exact .inl (.of_field (by simp))
theorem execHbmSlot_outcome (t : Nat) (k : StackId) (f : FoldId) (j : Nat) (s : State) :
    faultsOr s (execHbmSlot t k f j s) (.hbmAddress k.val) := by
  unfold execHbmSlot
  dsimp only
  split
  case h_2 => exact .inl (.of_field (by simp))
  case h_1 =>
    iterate 4
      split
      · exact .inl (.of_field (by simp))
    split
    · exact .inr ⟨_, rfl⟩
    · (repeat' split) <;> exact .inl (.of_field (by simp))

/-- The commands named first are those whose lemma stands above, then those that are a queue command, a Fold command or a write of the
dictionary; each of the rest is built of operations that leave the field controllers alone. -/
theorem exec_completesOffBus (i : Instr) (s : State) (h : mayFault i = false) : completesOffBus s (exec i s) := by
  cases i
  case scheduledOperation | hbmSlot => simp [mayFault] at h
  case createFold t q plots units => exact execCreateFold_offBus t q plots units s
  case launch t replay src => exact execLaunch_offBus t replay src s
  case preemptNotice t src => exact execPreemptNotice_offBus t src s
  case ledgerRead t q addr len offset => exact execLedgerRead_offBus t q addr len offset s
  case record t q addr len resAddr resLen => exact execRecord_offBus t q addr len resAddr resLen s
  case replayHeader t q b => exact execReplayHeader_offBus t q b s
  case rows t q addr len first count pass buf => exact execRows_offBus t q addr len first count pass buf s
  case shepherdSupplyUp t src a b => exact execShepherdSupplyUp_offBus t src a b s
  case mainPowerGood t cblPresLow sense0Gnd sense1Gnd fail => exact execMainPowerGood_offBus t cblPresLow sense0Gnd sense1Gnd fail s
  case mainPowerLoss t => exact execMainPowerLoss_offBus t s
  case shepherdSupplyLoss t => exact execShepherdSupplyLoss_offBus t s
  case shepherdRestartDone t => exact execShepherdRestartDone_offBus t s
  case fbPresChange t high => exact execFbPresChange_offBus t high s
  case nmtCommand t c => exact execNmtCommand_offBus t c s
  case resultDrain t f => exact execResultDrain_offBus t f s
  case lldpTimer t => exact execLldpTimer_offBus t s
  case epochCommit t => exact execEpochCommit_offBus t s
  case quadrantFailure t q cause => exact execQuadrantFailure_offBus t q cause s
  case lockInterfaceRequest t fn => exact execLockInterfaceRequest_offBus t fn s
  case stop t src => exact State.foldControl_offBus s t src _
  case forceStop t src => exact State.foldControl_offBus s t src _
  case unload t src => exact State.foldControl_offBus s t src _
  case foldReset t src => exact State.foldControl_offBus s t src _
  case warmReset t r => exact .resetWrite s t _ r
  case shepherdReset t r => exact .resetWrite s t _ r
  case quadrantReset t q r => exact .resetWrite s t _ r
  case dictionaryWrite t index sub r => exact .dictWrite s t _ _ r fun u v => State.commitEntry_offBus ..
  case ownershipRelease t r => exact .dictWrite s t _ _ r fun u v => .of_field (by split <;> simp)
  case tickPeriodWrite | operatingPointWrite | portLayoutWrite | storeParameters | restoreDefaults | ownerKeyWrite | channelTableWrite |
      ledgerRingPagesWrite | plotMaskWrite | ownerKekWrite | inputBindingWrite | resultBindingWrite =>
    exact .dictWrite s _ _ _ _ fun u v => .of_field (by simp)
  case identify | loadBundle | restageModel | restore | ledgerAck =>
    simp only [exec, execIdentify, execLoadBundle, execRestageModel, execRestore, execLedgerAck]
    exact State.command_offBus s _ _ _ _ fun u => .of_field (by simp)
  all_goals
    dsimp only [exec, execLoadBundleDone, execRestageModelDone, execRestoreDone, execRecordReadComplete, execCompletionTimeout,
      execSqTailDoorbell, execCqHeadDoorbell, execQueueEnable, execMsixCoalesceExpiry, execFunctionLevelReset, execRecoveryChunk,
      execRecoveryBoot, execEatRead, execSegmentedTransferTimeout, execSnapshotRefresh, execSupplySourceChange, execPllLock,
      execSecureBoot, execStileTrainingDone, execHbmTrainingDone, execSelfTestDone, execReady, execPerstAssert, execPerstDeassert,
      execPcieRateChange, execSupplyWarn, execSupplyTrip, execTemperatureSample, execThermalTrip, execPowerOverrun, execPtpEventMessage,
      execSync0, execTimeWord, execArmWord, execArmCutoff, execFoldStart, execFrameOpen, execCycleBudgetExpiry, execFrameClose,
      execAdmission, execIzrData, execKeyOffer, execPauseFrame, execEthercatProcessData, execCanPdo, execCanBootupMessage,
      execLldpduReceived, execStileFrame, execLinkDown, execLinkUp, execHello, execPeerAttestationDone, execLinkTestDone, execEpochReq,
      execMemberPropose, execMemberAck, execMemberAbort, execEpochAckCutoff, execEpochApply, execLeave, execReplayWord,
      execLevelStepStart, execGradientBarrier, execSplitExchangeBarrier, execLevelStepBoundary, execRoundEnd, execPrephaseEnd,
      execIngestEnd, execReshard, execPreemptCut, execCheckpointSectionFlush, execNoticeDeadline, execFilestoreError, execPageOpen,
      execPageClose, execPageSeal, execEventLogPosition, execSdCardInsert, execEvidenceRemoved, execJournalPageBusyEnd,
      execJournalCommitBusyEnd, execSealedEventBatchDue, execGrazingSlot, execMemberRebuildDone, execEccCeRate, execSpdmGetVersion,
      execSpdmGetCapabilities, execSpdmNegotiateAlgorithms, execSpdmGetCertificate, execSpdmChallenge, execSpdmGetMeasurements,
      execSpdmKeyExchange, execSpdmKeyUpdate, execSpdmEndSession, execIdeKmKeyProg, execGetDeviceInterfaceReport,
      execStartInterfaceRequest, execStileSlot, execRootWheelPosition, execPageFlushComplete, execQsfpDdModuleInsert,
      execProducerHeartbeat, execSecurityEngineOrTickGeneratorFault, execIdeCheckFailed]
    (repeat' split) <;> exact .of_field (by simp)

theorem completesOffBus.of_eq {s w : State} {o : Out} (h : completesOffBus s o) (hw : o = .next w) : offBusKept s w := by
  obtain ⟨v, rfl, hv⟩ := h
  cases hw
  exact hv
theorem faultsOr.of_eq {s w : State} {o : Out} {e : Nat → Fault} (h : faultsOr s o e) (hw : o = .next w) : offBusKept s w := by
  obtain h | ⟨a, rfl⟩ := h
  · exact h.of_eq hw
  · cases hw
theorem exec_offBus {i : Instr} {s w : State} (hw : exec i s = .next w) : offBusKept s w := by
  by_cases hi : mayFault i = false
  · exact (exec_completesOffBus i s hi).of_eq hw
  · cases i
    case scheduledOperation t tile cycle feed => exact (execScheduledOperation_outcome t tile cycle feed s).of_eq hw
    case hbmSlot t k f j => exact (execHbmSlot_outcome t k f j s).of_eq hw
    all_goals exact absurd rfl hi

/-- Settles O4: a step runs the front command, and every command that ends in a next state keeps the controllers off their buses. -/
theorem fieldControllersStayOffTheBus : Obligations.FieldControllersStayOffTheBus := by
  intro s w hs hstep
  unfold step at hstep
  split at hstep
  · cases hstep
    exact hs
  · exact (exec_offBus hstep).keeps hs

/-- Settles O6: of a command that addresses no store the outcome is a next state, and the other two name their store in the fault. -/
theorem onlyTwoCommandsCanFault : Obligations.OnlyTwoCommandsCanFault := by
  have hnext (c : Instr) (s : State) (h : mayFault c = false) : Completes (exec c s) := by
    obtain ⟨w, hw, -⟩ := exec_completesOffBus c s h
    exact ⟨w, hw⟩
  have houtcome (c : Instr) (s : State) : Completes (exec c s) ∨
      (∃ t tile cycle feed a, c = .scheduledOperation t tile cycle feed ∧ exec c s = .fault (.tileStoreAddress tile a)) ∨
      (∃ t k f j a, c = .hbmSlot t k f j ∧ exec c s = .fault (.hbmAddress k.val a)) := by
    by_cases hc : mayFault c = false
    · exact .inl (hnext c s hc)
    · cases c
      case scheduledOperation t tile cycle feed =>
        obtain ⟨w, hw, -⟩ | ⟨a, ha⟩ := execScheduledOperation_outcome t tile cycle feed s
        · exact .inl ⟨w, hw⟩
        · exact .inr (.inl ⟨t, tile, cycle, feed, a, rfl, ha⟩)
      case hbmSlot t k f j =>
        obtain ⟨w, hw, -⟩ | ⟨a, ha⟩ := execHbmSlot_outcome t k f j s
        · exact .inl ⟨w, hw⟩
        · exact .inr (.inr ⟨t, k, f, j, a, rfl, ha⟩)
      all_goals exact absurd rfl hc
  refine ⟨fun c s r h => ?_, hnext, fun c s e h => ?_⟩
  all_goals
    obtain ⟨w, hw⟩ | ⟨t, tile, cycle, feed, a, rfl, ha⟩ | ⟨t, k, f, j, a, rfl, ha⟩ := houtcome c s
  case refine_1.inl | refine_2.inl => rw [hw] at h; cases h
  case refine_1.inr.inl | refine_1.inr.inr => rw [ha] at h; cases h
  case refine_2.inr.inl => rw [ha] at h; cases h; exact .inl ⟨t, tile, cycle, feed, a, rfl, rfl⟩
  case refine_2.inr.inr => rw [ha] at h; cases h; exact .inr ⟨t, k, f, j, a, rfl, rfl⟩

end Sys2Proof.Machine
end

section
/-! PROOFS. The operation words of Table 19.10: the fields of an encoded word do not overlap, so decoding reads each of them back. -/

namespace Sys2Proof.Machine

theorem TileOp.opcode_lt (o : TileOp) : o.fields.1 < 2 ^ 8 := by cases o <;> simp [TileOp.fields]
/-- Table 19.11 names each operation by its own opcode. -/
theorem TileOp.opOf_fields (o : TileOp) :
    opOf o.fields.1 o.fields.2.1 o.fields.2.2.1 o.fields.2.2.2.1 o.fields.2.2.2.2 = some o := by cases o <;> rfl

/-- The number that a word of Table 19.10 is: opcode, LAST in bit 8, nothing in bits 9 to 15, then the operands. -/
def wordNat (o l a b c d : Nat) : Nat := o + l * 2 ^ 8 + a * 2 ^ 16 + b * 2 ^ 32 + c * 2 ^ 64 + d * 2 ^ 96

/-- The fields fill the 128 bits and do not overlap. -/
theorem wordNat_fields {o l a b c d : Nat} (ho : o < 2 ^ 8) (hl : l < 2) (ha : a < 2 ^ 16) (hb : b < 2 ^ 32) (hc : c < 2 ^ 32)
    (hd : d < 2 ^ 32) : wordNat o l a b c d < 2 ^ 128 ∧ wordNat o l a b c d % 2 ^ 8 = o ∧ wordNat o l a b c d / 2 ^ 8 % 2 = l ∧
    wordNat o l a b c d / 2 ^ 9 % 2 ^ 7 = 0 ∧ wordNat o l a b c d / 2 ^ 16 % 2 ^ 16 = a ∧ wordNat o l a b c d / 2 ^ 32 % 2 ^ 32 = b ∧
    wordNat o l a b c d / 2 ^ 64 % 2 ^ 32 = c ∧ wordNat o l a b c d / 2 ^ 96 = d := by
  unfold wordNat
  omega

theorem decodeOp_encodeOp (w : OpWord) (h : w.op.wf) : decodeOp (encodeOp w) = some w := by
  obtain ⟨ha, hb, hc, hd⟩ := h
  have hlast : b2n w.last < 2 := by cases w.last <;> decide
  have hmark : (b2n w.last == 1) = w.last := by cases w.last <;> rfl
  obtain ⟨hlt, ho, hl, hreserved, hfa, hfb, hfc, hfd⟩ := wordNat_fields w.op.opcode_lt hlast ha hb hc hd
  have hnat : (encodeOp w).toNat =
      wordNat w.op.fields.1 (b2n w.last) w.op.fields.2.1 w.op.fields.2.2.1 w.op.fields.2.2.2.1 w.op.fields.2.2.2.2 :=
    (BitVec.toNat_ofNat _ _).trans (Nat.mod_eq_of_lt hlt)
  simp only [decodeOp, hnat, hreserved, ho, hl, hfa, hfb, hfc, hfd, hmark, TileOp.opOf_fields]
  rfl

/-- Settles O7: each field is read back from its place, and a set reserved bit is looked at first. -/
theorem tileWordsRoundTrip : Obligations.TileWordsRoundTrip :=
  ⟨decodeOp_encodeOp, fun w h => by rw [decodeOp, if_pos h]⟩

end Sys2Proof.Machine
end

section
/-! PROOFS. The register frame of an operation (05, Table 5.4): UPDATE adds a code of 256 or more, which a feature of 12 or 16 bits has, to
a bin of the next unit, so that the statement's frame of the bins fails. -/

namespace Sys2Proof.Machine
open Sys2Proof.Tests

/-- The scoring bundle with one feature of 16 bits. -/
def wideFeature : Loaded := { scoring with features := [⟨0, 0, 0, 16, false, false, none⟩] }
/-- A tile with `UPDATE` of unit 0 on the block at address 0: one row, of code 256 and gradient code 1. -/
def wideBlock : Tile :=
  { Tile.dflt with mem := [(1, 1), (16400, 1), (16448, 1)], prog := [0x00000000000000000000000000010032],
                   ctxs := vset Tile.dflt.ctxs 0 { Ctx.dflt with ended := false } }
/-- The running card with that bundle and tile. -/
def wideUpdate : State := (withFold { running with load := some wideFeature }).setTile 0 wideBlock

theorem wideUpdate_issues : opIssues (wideUpdate.tick 2000001) 0 0 quiet 0 wideFeature ⟨false, .update 1 0 0⟩ := by
  unfold opIssues
  decide +kernel
theorem wideUpdate_tile : (wideUpdate.tick 2000001).tile 0 = wideBlock := by decide
theorem wideBlock_bins (g : Grow) : mget 0 (tileEffect wideFeature g quiet (.update 1 0 0) wideBlock).binsG (1 * 256 + 0) = 1 := by
  show mget 0 (wideBlock.update wideFeature (unitsOf 1) 0 0).binsG (1 * 256 + 0) = 1
  decide

/-- Refutes O52: UPDATE of unit 0 on a row of code 256 raises bin 0 of unit 1, which it does not name. -/
theorem not_tileOperationsWriteOnlyTheirRegisters : ¬ Obligations.TileOperationsWriteOnlyTheirRegisters := by
  intro h
  have hplain : ∀ k b c n, TileOp.update 1 0 0 ≠ .send k b c n := nofun
  obtain ⟨v, hv, hregs⟩ := h 2000001 0 0 quiet wideUpdate _ 0 wideFeature _ rfl wideUpdate_issues hplain
  rw [exec_scheduledOperation_issues rfl wideUpdate_issues] at hv
  cases hv
  obtain ⟨-, -, -, -, -, -, -, hbins, -⟩ := hregs
  obtain ⟨hunit, -⟩ := hbins 1 0 (by decide) (by decide) (by decide)
  obtain ⟨-, hl, -⟩ := wideUpdate_issues
  obtain ⟨-, -, hG, -⟩ := State.runOp_data (tile := 0) (cycle := 0) (feed := quiet) (w := ⟨false, .update 1 0 0⟩) hl rfl hplain
  rw [hG, wideUpdate_tile, wideBlock_bins] at hunit
  exact absurd hunit (by decide)

end Sys2Proof.Machine
end

section
/-! PROOFS. The driver queues (18, Tables 18.2 and 18.3): what a doorbell and a write of a queue field do, and the completion ring. -/

namespace Sys2Proof.Machine

/-! ## Doorbells and queue fields (18, R475 to R479) -/

section
variable {s u : State} {t v : Nat} {fn : FnId} {qn : Fin 2} (hu : s.tick t = u) (hbar : u.barDead fn = false) (hq : hasQueue fn qn = true)
include hu hbar hq

theorem exec_sqTailDoorbell (he : ((u.fn fn).queue qn.val).enabled = true) : exec (.sqTailDoorbell t fn qn v) s =
    if 2 ^ ((u.fn fn).queue qn.val).sqLog ≤ v then
      .next (u.modFn fn fun x => x.setQueue qn.val { (u.fn fn).queue qn.val with error := true })
    else .next (u.modFn fn fun x => x.setQueue qn.val { (u.fn fn).queue qn.val with sqTail := v }) := by
  show execSqTailDoorbell t fn qn v s = _
  simp [execSqTailDoorbell, hu, hbar, hq, he]
theorem exec_cqHeadDoorbell (he : ((u.fn fn).queue qn.val).enabled = true) : exec (.cqHeadDoorbell t fn qn v) s =
    if 2 ^ ((u.fn fn).queue qn.val).cqLog ≤ v then
      .next (u.modFn fn fun x => x.setQueue qn.val { (u.fn fn).queue qn.val with error := true })
    else .next ((u.modFn fn fun x => x.setQueue qn.val { (u.fn fn).queue qn.val with cqHead := v }).flush fn) := by
  show execCqHeadDoorbell t fn qn v s = _
  simp [execCqHeadDoorbell, hu, hbar, hq, he]
theorem exec_queueEnable (w : QField) : exec (.queueEnable t fn qn w) s =
    .next ((u.modFn fn fun x => x.setQueue qn.val (((u.fn fn).queue qn.val).write w)).flush fn) := by
  show execQueueEnable t fn qn w s = _
  simp only [execQueueEnable, hu, hbar, hq]
  rfl
end

theorem Queue.write_enabled {q : Queue} {w : QField} (hw : ∀ b, w ≠ .enable b) (he : q.enabled = true) : q.write w = q := by
  cases w with
  | enable b => exact absurd rfl (hw b)
  | _ => simp [Queue.write, he]

/-- Settles O10, command by command; of a write of a queue field by what the field's own clause of `Queue.write` admits. -/
theorem doorbellsAndQueueFields : Obligations.DoorbellsAndQueueFields := by
  refine ⟨fun t v fn qn s u hu hbar hq he => ?_, fun t fn qn w s u hu hbar hq => ?_, fun t fn vec s u hu hdue hlast => ?_⟩
  · have hsq := exec_sqTailDoorbell (v := v) hu hbar hq he
    have hcq := exec_cqHeadDoorbell (v := v) hu hbar hq he
    refine ⟨fun h => ?_, fun h => ?_, fun h => ?_, fun h => ?_⟩
    · rw [hsq, if_neg (Nat.not_le.2 h)]
    · rw [hsq, if_pos h]
    · rw [hcq, if_neg (Nat.not_le.2 h)]
    · rw [hcq, if_pos h]
  · refine ⟨_, exec_queueEnable hu hbar hq w, Queue.write_enabled, fun he => ⟨?_, ?_, ?_, ?_, ?_, ?_⟩, ?_, ?_⟩
    · rintro a rfl ha
      simp [Queue.write, he, ha]
    · rintro a rfl ha
      simp [Queue.write, he, ha]
    · rintro n rfl hlow hhigh
      simp [Queue.write, he, Nat.not_lt.2 hlow, Nat.not_lt.2 hhigh]
    · rintro n rfl hlow hhigh
      simp [Queue.write, he, Nat.not_lt.2 hlow, Nat.not_lt.2 hhigh]
    · rintro n rfl hn
      simp [Queue.write, he, Nat.not_lt.2 hn]
    · rintro rfl
      simp [Queue.write, Queue.start, he]
    · rintro he rfl
      simp [Queue.write, he]
    · rintro rfl
      rfl
  · show execMsixCoalesceExpiry t fn vec s = _
    simp only [execMsixCoalesceExpiry, hu, hdue, Bool.true_and]
    cases hl : vget (u.fn fn).lastMsix vec with
    | none => rfl
    | some t0 => exact if_pos (decide_eq_true (hlast t0 hl))

/-! ## The completion ring (18, R475, R479; Table 18.3) -/

theorem State.send_open {s : State} (hg : s.power.gated = false) (o : Output) : s.send o = { s with out := s.out ++ [o] } := by
  simp [State.send, hg]

/-- At most an MSI-X message, and no change to a queue: what a vector of a function leaves. -/
def vectorOnly (s w : State) (v : FnId) (vec : Fin 4) : Prop :=
  ∃ l, (l = [] ∨ l = [.msix v.val vec.val]) ∧ w.out = s.out ++ l ∧ (∀ q, (w.fn v).queue q = (s.fn v).queue q) ∧
    w = { s with fns := w.fns, out := w.out }

theorem State.sendVec_vectorOnly {s : State} (hg : s.power.gated = false) (v : FnId) (vec : Fin 4) :
    vectorOnly s (s.sendVec v vec) v vec := by
  rw [State.sendVec, State.send_open (by exact hg)]
  exact ⟨_, .inr rfl, rfl, fun q => by simp [State.fn, State.modFn, Func.queue], rfl⟩
theorem State.coalesce_vectorOnly {s : State} (hg : s.power.gated = false) (v : FnId) (vec : Fin 4) :
    vectorOnly s (s.coalesce v vec) v vec := by
  unfold State.coalesce
  split
  · split
    · exact ⟨[], .inl rfl, (List.append_nil _).symm, fun q => by simp [State.fn, State.modFn, Func.queue], rfl⟩
    · exact State.sendVec_vectorOnly hg v vec
  · exact State.sendVec_vectorOnly hg v vec

/-- The queue after an entry at the tail of its completion ring. -/
def Queue.pushed (q : Queue) : Queue :=
  { q with cqTail := if q.cqTail + 1 = 2 ^ q.cqLog then 0 else q.cqTail + 1,
           phase := if q.cqTail + 1 = 2 ^ q.cqLog then !q.phase else q.phase }
/-- The entry of a completion as it leaves. -/
def Queue.entry (q : Queue) (v : FnId) (c : Cqe) : Output := .completion v.val c.q q.cqTail (c.bytes q.phase q.sqHead)
/-- The card after the entry of a completion has left, before the vector. -/
def State.pushed (s : State) (v : FnId) (c : Cqe) : State :=
  { s.modFn v fun x => x.setQueue c.q ((s.fn v).queue c.q).pushed with out := s.out ++ [((s.fn v).queue c.q).entry v c] }
theorem State.writeCqe_open {s : State} (hg : s.power.gated = false) (v : FnId) (c : Cqe) :
    s.writeCqe v c = (s.pushed v c).coalesce v ((s.fn v).queue c.q).vec := by
  rw [State.writeCqe, State.send_open (by exact hg)]
  simp [Queue.pushed, State.pushed, Queue.entry]
theorem State.writeCqe_outcome {s : State} (hg : s.power.gated = false) (v : FnId) (c : Cqe) :
    ∃ l, (s.writeCqe v c).out = s.out ++ ((s.fn v).queue c.q).entry v c :: l ∧
      (l = [] ∨ l = [.msix v.val ((s.fn v).queue c.q).vec.val]) ∧ ((s.writeCqe v c).fn v).queue c.q = ((s.fn v).queue c.q).pushed ∧
      s.writeCqe v c = { s with fns := (s.writeCqe v c).fns, out := (s.writeCqe v c).out } := by
  have hpushed : ((s.pushed v c).fn v).queue c.q = ((s.fn v).queue c.q).pushed := by simp [State.pushed, State.fn, State.modFn]
  obtain ⟨l, hl, hout, hqueue, hrest⟩ := State.coalesce_vectorOnly (s := s.pushed v c) hg v ((s.fn v).queue c.q).vec
  rw [State.writeCqe_open hg]
  exact ⟨l, by rw [hout]; simp [State.pushed], hl, by rw [hqueue, hpushed], hrest⟩

section
variable {s : State} {v : FnId} {c : Cqe}

theorem State.post_writes (he : ((s.fn v).queue c.q).enabled = true) (hroom : ((s.fn v).queue c.q).full = false) (hgen : 3 ≤ s.pcie.gen)
    (hfirst : (s.fn v).firstWaiting c.q = none) : s.post v c = s.writeCqe v c := by
  simp [State.post, State.ringTakes, he, hroom, hgen, hfirst]
theorem State.post_lost (he : ((s.fn v).queue c.q).enabled = false) (hq : c.q = 0) : s.post v c = s := by
  rw [hq] at he
  simp [State.post, he, hq]
theorem State.post_waits (hlost : ((s.fn v).queue c.q).enabled = true ∨ c.q ≠ 0)
    (hring : s.ringTakes v c.q = false ∨ (s.fn v).firstWaiting c.q ≠ none) :
    s.post v c = s.modFn v fun x => { x with waitingCqes := x.waitingCqes ++ [c] } := by
  have hkept : ¬ (!((s.fn v).queue c.q).enabled && decide (c.q = 0)) = true := by
    obtain h | h := hlost <;> simp [h]
  have hwaits : (!s.ringTakes v c.q || ((s.fn v).firstWaiting c.q).isSome) = true := by
    obtain h | h := hring
    · simp [h]
    · simp [Option.isSome_iff_ne_none.2 h]
  rw [State.post]
  simp only [if_neg hkept, if_pos hwaits]
end

theorem Cqe.bytes_fields (c : Cqe) (p : Bool) (h : Nat) : (c.bytes p h).length = 32 ∧ leNat (slice (c.bytes p h) 0 2) = c.cid % 65536 ∧
    leNat (slice (c.bytes p h) 2 2) = c.status % 65536 ∧ leNat (slice (c.bytes p h) 4 2) = c.event % 65536 ∧
    leNat (slice (c.bytes p h) 31 1) = if p then 1 else 0 := by
  have hphase : leNat (slice (c.bytes p h) 31 1) = b2n p % 256 := by
    rw [slice, Cqe.bytes, List.drop_left' (by simp), List.take_of_length_le (by simp), leNat_le, pow_one]
  refine ⟨by simp [Cqe.bytes], ?_, ?_, ?_, hphase.trans (by cases p <;> rfl)⟩
  all_goals simp [Cqe.bytes, slice, List.drop_append, List.drop_eq_nil_of_le, leNat_le]

/-- Settles O9, by whether the queue is enabled and its ring takes the entry. -/
theorem completionEntriesInRingOrder : Obligations.CompletionEntriesInRingOrder := by
  refine ⟨fun v c s he hroom hgen hfirst hg => ?_, Cqe.bytes_fields, fun v c s he hq => State.post_lost he hq, fun v c s he hq => ?_,
    fun v c s he hring => ?_⟩
  · obtain ⟨l, hout, hl, hqueue, hrest⟩ := State.writeCqe_outcome hg v c
    rw [State.post_writes he hroom hgen hfirst]
    exact ⟨l, hout, hl, by rw [hqueue]; rfl, by rw [hqueue]; rfl, hrest⟩
  · exact State.post_waits (.inr hq) (.inl (by simp [State.ringTakes, he]))
  · refine State.post_waits (.inl he) ?_
    obtain hfull | hgen | hfirst := hring
    · exact .inl (by simp [State.ringTakes, hfull])
    · exact .inl (by simp [State.ringTakes, Nat.not_le.2 hgen])
    · exact .inr hfirst

end Sys2Proof.Machine
end

section
/-! PROOFS. Commands and entries of the driver queues (18): CREATE_FOLD, the background commands as they start, ROWS. -/

namespace Sys2Proof.Machine

/-! ## CREATE_FOLD (R485; 13, R382) -/

theorem State.plotsConflict_congr {s v : State} (h : v.cfg = s.cfg) (f : FoldId) (p : BitVec 80) :
    v.plotsConflict f p = s.plotsConflict f p := by simp [State.plotsConflict, State.foldCfg, h]
theorem State.unitsConflict_congr {s v : State} (h : v.cfg = s.cfg) (f : FoldId) (m : BitVec 192) :
    v.unitsConflict f m = s.unitsConflict f m := by simp [State.unitsConflict, State.foldCfg, h]

/-- Folds, settings and stores are as before. -/
def foldsAndStoresSame (s w : State) : Prop := w.folds = s.folds ∧ w.cfg = s.cfg ∧ storesSame s w

theorem foldsAndStoresSame.trans {s v w : State} (h : foldsAndStoresSame s v) (h' : foldsAndStoresSame v w) : foldsAndStoresSame s w := by
  obtain ⟨hfolds, hcfg, htiles, hhbms, hchans⟩ := h
  obtain ⟨hfolds', hcfg', htiles', hhbms', hchans'⟩ := h'
  exact ⟨hfolds'.trans hfolds, hcfg'.trans hcfg, htiles'.trans htiles, hhbms'.trans hhbms, hchans'.trans hchans⟩
theorem foldsAndStoresSame.tick (s : State) (t : Nat) : foldsAndStoresSame s (s.tick t) := by simp [foldsAndStoresSame, storesSame]
theorem foldsAndStoresSame.fetch (s : State) (v : FnId) (n : Nat) : foldsAndStoresSame s (s.fetch v n) := by
  simp [foldsAndStoresSame, storesSame]
theorem foldsAndStoresSame.admitWrite (s : State) (a : Access) (i sub : Nat) (d : WData) (c : Bool) :
    foldsAndStoresSame s (s.admitWrite a i sub d c).st := by simp [foldsAndStoresSame, storesSame]
theorem foldsAndStoresSame.complete (s : State) (q : QHdr) (st ev a b c : Nat) : foldsAndStoresSame s (s.complete q st ev a b c) := by
  simp [foldsAndStoresSame, storesSame]

/-- What CREATE_FOLD does to the card `v` that has fetched the entry, by the outcomes `a` and `b` of its two signed writes. -/
def State.createFold (v : State) (q : QHdr) (a b : Admitted) (p : BitVec 80) (m : BitVec 192) : State :=
  if a.abort ≠ 0 then a.st.complete q (statusOf a.abort a.event (v.tdiLocked (accOf q) (foldIdx q.fold 1) [])) a.event 0 0 0
  else if b.abort ≠ 0 then b.st.complete q (statusOf b.abort b.event (v.tdiLocked (accOf q) (foldIdx q.fold 1) [])) b.event 0 0 0
  else if (b.st.fold q.fold).st ≠ .empty then b.st.complete q 4 0 0 0 0
  else if b.st.plotsConflict q.fold p || b.st.unitsConflict q.fold m then b.st.complete q 8 0 0 0 0
  else (b.st.setMasks q.fold p m).complete q 0 0 0 0 0

theorem exec_createFold {t : Nat} {q : QHdr} {plots units : Signed} {s u v : State} {a b : Admitted} (hu : s.tick t = u)
    (hv : u.fetch q.fn 0 = v) (h : takesCommand u q) (hfn : q.fn = 0)
    (ha : v.admitWrite (accOf q) (foldIdx q.fold 1) 1 (.signed plots) true = a)
    (hb : a.st.admitWrite (accOf q) (foldIdx q.fold 1) 2 (.signed units) true = b) :
    exec (.createFold t q plots units) s =
      .next (v.createFold q a b (BitVec.ofNat 80 (leNat plots.payload)) (BitVec.ofNat 192 (leNat units.payload))) := by
  have hav : a.value = plots.payload := by rw [← ha, State.admitWrite_value]
  have hbv : b.value = units.payload := by rw [← hb, State.admitWrite_value]
  obtain ⟨hfetch, hrsvd, -, hready⟩ := h
  have hup : v.power.ready = true := by rw [← hv]; simpa using hready
  have hk (k : State → State) : s.command t q true false k = .next (k v) := by
    simp only [State.command, hu, hfetch, hv, hrsvd, hup]
    simp [hfn]
  show execCreateFold t q plots units s = _
  simp only [execCreateFold, hk, ha, hb, hav, hbv, State.createFold]

section
variable {s v : State} {q : QHdr} {a b : Admitted} {p : BitVec 80} {m : BitVec 192}

/-- Both masks pass: they are set and what changes hands is zeroed. -/
theorem State.createFold_sets (hb : foldsAndStoresSame s b.st) (h : a.abort = 0 ∧ b.abort = 0 ∧ (s.fold q.fold).st = .empty ∧
      s.plotsConflict q.fold p = false ∧ s.unitsConflict q.fold m = false) :
    (v.createFold q a b p m).folds = s.folds ∧ (v.createFold q a b p m).chans = s.chans ∧
      (v.createFold q a b p m).cfg = { s.cfg with folds := vset s.cfg.folds q.fold { s.foldCfg q.fold with plots := p, units := m } } ∧
      unitsZeroed s (v.createFold q a b p m) ((s.foldCfg q.fold).plots ^^^ p) ((s.foldCfg q.fold).units ^^^ m) := by
  obtain ⟨haborta, habortb, hempty, hplots, hunits⟩ := h
  obtain ⟨hfolds, hcfg, hstores⟩ := hb
  have hst : (b.st.fold q.fold).st = .empty := by rwa [State.fold, hfolds]
  have hfc : b.st.foldCfg q.fold = s.foldCfg q.fold := by rw [State.foldCfg, hcfg]; rfl
  have hsets : v.createFold q a b p m = (b.st.setMasks q.fold p m).complete q 0 0 0 0 0 := by
    simp [State.createFold, haborta, habortb, hst, State.plotsConflict_congr hcfg, State.unitsConflict_congr hcfg, hplots, hunits]
  obtain ⟨mfolds, mchans, mcfg⟩ := b.st.setMasks_rest q.fold p m
  have hzero := b.st.setMasks_zeroed q.fold p m
  rw [hfc] at hzero
  obtain ⟨-, -, hchans⟩ := id hstores
  rw [hsets]
  exact ⟨by simp [mfolds, hfolds], by simp [mchans, hchans], by simp [mcfg, hcfg, hfc], hzero.of_stores hstores (by simp [storesSame])⟩
/-- Either mask fails: nothing but the completion. -/
theorem State.createFold_leaves (ha : foldsAndStoresSame s a.st) (hb : foldsAndStoresSame s b.st)
    (h : ¬ (a.abort = 0 ∧ b.abort = 0 ∧ (s.fold q.fold).st = .empty ∧
      s.plotsConflict q.fold p = false ∧ s.unitsConflict q.fold m = false)) :
    foldsAndStoresSame s (v.createFold q a b p m) := by
  obtain ⟨hfolds, hcfg, -⟩ := id hb
  have hst : b.st.fold q.fold = s.fold q.fold := by rw [State.fold, hfolds]; rfl
  unfold State.createFold
  rw [hst, State.plotsConflict_congr hcfg, State.unitsConflict_congr hcfg]
  split
  · exact ha.trans (.complete ..)
  · split
    · exact hb.trans (.complete ..)
    · split
      · exact hb.trans (.complete ..)
      · split
        · exact hb.trans (.complete ..)
        · exact absurd (by simp_all) h
end

/-- Settles O12, by whether both masks pass. -/
theorem createFoldCommitsBothMasksOrNeither : Obligations.CreateFoldCommitsBothMasksOrNeither := by
  intro t q plots units s u v hu hv htakes hfn
  generalize ha : v.admitWrite (accOf q) (foldIdx q.fold 1) 1 (.signed plots) true = a
  generalize hb : a.st.admitWrite (accOf q) (foldIdx q.fold 1) 2 (.signed units) true = b
  have hsa : foldsAndStoresSame s a.st := by
    rw [← ha, ← hv, ← hu]
    exact .trans (.tick ..) (.trans (.fetch ..) (.admitWrite ..))
  have hsb : foldsAndStoresSame s b.st := by
    rw [← hb]
    exact hsa.trans (.admitWrite ..)
  generalize hp : BitVec.ofNat 80 (leNat plots.payload) = p
  generalize hm : BitVec.ofNat 192 (leNat units.payload) = m
  have hexec := exec_createFold hu hv htakes hfn ha hb
  rw [hp, hm] at hexec
  by_cases h : a.abort = 0 ∧ b.abort = 0 ∧ (s.fold q.fold).st = .empty ∧
      s.plotsConflict q.fold p = false ∧ s.unitsConflict q.fold m = false
  · obtain ⟨hfolds, hchans, hcfg, hzero⟩ := State.createFold_sets (v := v) hsb h
    refine ⟨_, hexec, hfolds, hchans, ?_⟩
    rintro _ b' _ _ rfl hb' rfl rfl
    obtain rfl : b = b' := hb.symm.trans hb'
    exact ⟨fun _ => ⟨hcfg, hzero⟩, fun hn => absurd h hn⟩
  · obtain ⟨hfolds, hcfg, htiles, hhbms, hchans⟩ := State.createFold_leaves (v := v) hsa hsb h
    refine ⟨_, hexec, hfolds, hchans, ?_⟩
    rintro _ b' _ _ rfl hb' rfl rfl
    obtain rfl : b = b' := hb.symm.trans hb'
    exact ⟨fun hn => absurd hn h, fun _ => ⟨hcfg, htiles, hhbms⟩⟩

/-! ## Background commands (R482) -/

/-- The Fold's background command stands and its reads leave. -/
def State.bgStarted (v : State) (q : QHdr) (kind : Nat) (l : LoadSource) (target gen : Nat) : State :=
  (v.modFold q.fold fun x => { x with bg := some ⟨kind, q.fn.val, q.cid, l, target, gen, false⟩ }).readSource q.fn l

section
variable {s : State} {q : QHdr} {kind target gen : Nat} {l : LoadSource} (hlevel : 2 ≤ s.power.level)
  (hlock : s.tdiLocked (accOf q) (foldIdx q.fold 6) [] = false)
include hlevel hlock

theorem State.startBg_starts (hbg : (s.fold q.fold).bg = none) (hsource : kind = 0x0A ∨ l.source ≠ 1 ∨ s.importReady = true) :
    s.startBg q kind l target gen true true = s.bgStarted q kind l target gen := by
  have himport : ¬ (kind ≠ 0x0A ∧ l.source = 1) ∨ s.importReady = true := by tauto
  obtain h | h := himport <;> simp [State.startBg, Nat.not_lt.2 hlevel, hlock, hbg, h, State.bgStarted]
theorem State.startBg_busy (hbg : (s.fold q.fold).bg ≠ none) : s.startBg q kind l target gen true true = s.complete q 0xD 0 0 0 0 := by
  simp [State.startBg, Nat.not_lt.2 hlevel, hlock, Option.isSome_iff_ne_none.2 hbg]
end

/-- Settles O13: each of the three is `startBg` with its fields and the Fold's state in order. -/
theorem backgroundCommandsStartOncePerFold : Obligations.BackgroundCommandsStartOncePerFold := by
  have hlevel {u v : State} {q : QHdr} (hv : u.fetch q.fn 0 = v) (h : 2 ≤ u.power.level) : 2 ≤ v.power.level := by
    rw [← hv]
    simpa using h
  have hfold {u v : State} {q : QHdr} (hv : u.fetch q.fn 0 = v) : u.fold q.fold = v.fold q.fold := by
    rw [← hv]
    simp
  refine ⟨fun t q l s u v hu hv h hok hl hlock himport => ?_, fun t q target gen s u v hu hv h htarget hl hlock hst hgrow => ?_⟩
  · rw [hfold hv]
    have hload (hst : (v.fold q.fold).st = .empty) : exec (.loadBundle t q l) s = .next (v.startBg q 3 l 0 0 true true) := by
      show execLoadBundle t q l s = _
      rw [execLoadBundle, State.command_taken hu h, hv, hok, hst]
      rfl
    have hrestage (hst : (v.fold q.fold).st = .loaded ∨ (v.fold q.fold).st = .stopped) :
        exec (.restageModel t q l) s = .next (v.startBg q 4 l 0 0 true true) := by
      show execRestageModel t q l s = _
      rw [execRestageModel, State.command_taken hu h, hv, hok]
      obtain hst | hst := hst <;> rw [hst] <;> rfl
    have hsource : l.source ≠ 1 ∨ v.importReady = true := himport.imp_left fun h => by omega
    exact ⟨fun hst => ⟨fun hbg => (hload hst).trans (congrArg _ (State.startBg_starts (hlevel hv hl) hlock hbg (.inr hsource))),
        fun hbg => (hload hst).trans (congrArg _ (State.startBg_busy (hlevel hv hl) hlock hbg))⟩,
      fun hst => ⟨fun hbg => (hrestage hst).trans (congrArg _ (State.startBg_starts (hlevel hv hl) hlock hbg (.inr hsource))),
        fun hbg => (hrestage hst).trans (congrArg _ (State.startBg_busy (hlevel hv hl) hlock hbg))⟩⟩
  · rw [hfold hv] at hst hgrow ⊢
    have hrestore : exec (.restore t q target gen) s = .next (v.startBg q 0x0A ⟨2, 0, 0, [], 0⟩ target gen true true) := by
      show execRestore t q target gen s = _
      rw [execRestore, State.command_taken hu h, hv, hst, hgrow, decide_eq_true htarget]
      rfl
    exact ⟨fun hbg => hrestore.trans (congrArg _ (State.startBg_starts (hlevel hv hl) hlock hbg (.inl rfl))),
      fun hbg => hrestore.trans (congrArg _ (State.startBg_busy (hlevel hv hl) hlock hbg))⟩

/-! ## ROWS (R495) -/

theorem rowsIn_length {k : Nat} {b : Bytes} {d : List Bytes} (h : rowsIn k b = some d) : d.length = k := by
  induction k generalizing b d with
  | zero =>
    unfold rowsIn at h
    split at h <;> simp_all
  | succ k ih =>
    unfold rowsIn at h
    dsimp only at h
    split at h
    · cases h
    · obtain ⟨l, hl, rfl⟩ := Option.map_eq_some_iff.1 h
      rw [List.length_cons, ih hl]

/-- A row taken into a Fold changes neither its state nor how many rows of the frame it took. -/
theorem State.takeRow_count (s : State) (f : FoldId) (l : Loaded) (pass row : Nat) (b : Bytes) :
    ((s.takeRow f l pass row b).fold f).st = (s.fold f).st ∧
      ((s.takeRow f l pass row b).fold f).grow.rowsThisFrame = (s.fold f).grow.rowsThisFrame := by
  have hput (u : State) (n k : Nat) (b : Bytes) : (u.putQuad f n k b).folds = u.folds :=
    foldl_view State.folds _ (fun v e => by split <;> rfl) _ u
  have hputs (u : State) : ((List.range l.quads).foldl (fun s q => s.putQuad f row q (l.quadBytes q ((rowCodes l b).map (·.1)))) u).folds =
      u.folds := foldl_view State.folds _ (fun v k => hput v row k _) _ u
  have hsample (g : Grow) : (sampleRow l.jobOr row b g).rowsThisFrame = g.rowsThisFrame := by
    unfold sampleRow
    split <;> rfl
  have hset (cs : List Nat) (g : Grow) :
      (cs.foldl (fun g c => g.setMargin row c g.marginBank (bv48 (l.jobOr.base.getD c 0))) g).rowsThisFrame =
      g.rowsThisFrame := by
    induction cs generalizing g with
    | nil => rfl
    | cons c cs ih => exact ih _
  have hmargins (g : Grow) : (baseMargins l.jobOr row g).rowsThisFrame = g.rowsThisFrame := by
    unfold baseMargins
    split
    · rfl
    · exact hset _ g
  unfold State.takeRow
  dsimp only
  split
  · simp [hsample]
  · rw [State.modFold_same, State.fold, hputs]
    exact ⟨rfl, hmargins _⟩
theorem State.takeRow_counts (f : FoldId) (l : Loaded) (pass n : Nat) (rows : List (Bytes × Nat)) (s : State) :
    ((rows.foldl (fun s e => s.takeRow f l pass (n + e.2) e.1) s).fold f).st = (s.fold f).st ∧
      ((rows.foldl (fun s e => s.takeRow f l pass (n + e.2) e.1) s).fold f).grow.rowsThisFrame = (s.fold f).grow.rowsThisFrame := by
  have h := foldl_view (fun s : State => ((s.fold f).st, (s.fold f).grow.rowsThisFrame)) (fun s e => s.takeRow f l pass (n + e.2) e.1)
    (fun s e => Prod.ext (State.takeRow_count s f l pass _ _).1 (State.takeRow_count s f l pass _ _).2) rows s
  exact Prod.mk.inj h
/-- Of an entry's rows as many are taken as the frame has room for; the rest wait under its command ID. -/
theorem State.takeRows_count (s : State) (f : FoldId) (l : Loaded) (q : QHdr) (pass first : Nat) (d : List Bytes) :
    ((s.takeRows f l q pass first d 0).fold f).st = (s.fold f).st ∧
    ((s.takeRows f l q pass first d 0).fold f).grow.rowsThisFrame = (s.fold f).grow.rowsThisFrame +
      min d.length (l.res.ingestRows - (s.fold f).grow.rowsThisFrame) ∧
    ((s.takeRows f l q pass first d 0).fold f).grow.rowsCid =
      if d.length ≤ l.res.ingestRows - (s.fold f).grow.rowsThisFrame then none else some q.cid := by
  have hall : 0 + min (d.length - 0) (l.res.ingestRows - (s.fold f).grow.rowsThisFrame) = d.length ↔
      d.length ≤ l.res.ingestRows - (s.fold f).grow.rowsThisFrame := by omega
  unfold State.takeRows
  dsimp only
  simp only [hall]
  split <;> simp [Grow.advanceRows, State.takeRow_counts f l pass first]

section
variable {t : Nat} {q : QHdr} {addr len first count pass : Nat} {b : Bytes} {s u v : State} {l : Loaded} {x : Fold}
  (hu : s.tick t = u) (hv : u.fetch q.fn 1 = v) (h : takesEntry u q) (hx : u.fold q.fold = x) (hl : x.load = some l)
  (hcid : x.grow.rowsCid = none)
include hu hv h hx hl hcid

/-- An entry that the Fold has room for, and that is not ahead of its phase, is fetched and looked at field by field. -/
theorem exec_rows (hroom : x.growingNow = false ∨ (u.power.halted = false ∧ x.live = true ∧ x.run.closed = false ∧
      x.grow.rowsThisFrame < l.res.ingestRows ∧ (pass = 1 → x.run.role ≠ 2 ∧ x.run.role ≠ 4))) :
    exec (.rows t q addr len first count pass b) s = .next
      (if x.growingNow = false then v.complete1 q 1 0 0 0 0
      else if 1 < pass ∨ rowsIn count b = none ∨ b.length ≠ len then v.complete1 q 2 0 0 0 0
      else if x.run.role ≠ ingestRole pass ∨ x.grow.inOrder pass first = false then v.complete1 q 0x26 0 0 0 0
      else (v.send (.hostRead q.fn.val addr len)).takeRows q.fold l q pass first ((rowsIn count b).getD []) 0) := by
  obtain ⟨hfetch, -, hfn, hready⟩ := id h
  have hf : foldOf q.fn = q.fold := by rw [hfn, foldOf_vfOf]
  show execRows t q addr len first count pass b s = _
  simp only [execRows, hu, hf, hx, hl, hcid, State.entry_taken h, hv, hfetch, hready]
  obtain hgrow | ⟨hpower, hlive, hopen, hrows, hphase⟩ := hroom
  · simp [hgrow]
  · have hearly : (decide (pass = 1) && (x.run.role == 2 || x.run.role == 4)) = false := by simpa using hphase
    simp [hpower, hlive, hopen, hrows, hearly, or_assoc]
end

/-- Settles O34: the entry is looked at in the order that `exec_rows` states. -/
theorem rowsComeInRowOrder : Obligations.RowsComeInRowOrder := by
  intro t q addr len first count pass b d s u v l x hu hv h hx hl hpower
  refine ⟨fun hgrow hcid => by rw [exec_rows hu hv h hx hl hcid (.inl hgrow), if_pos hgrow],
    fun hlive hgrow hopen hroom hcid hphase => ?_⟩
  have hexec := exec_rows (addr := addr) (len := len) (first := first) (count := count) (b := b) hu hv h hx hl hcid
    (.inr ⟨hpower, hlive, hopen, hroom, hphase⟩)
  rw [if_neg (by simp [hgrow])] at hexec
  refine ⟨fun hfield => by rw [hexec, if_pos hfield], fun hpass hrows hlen => ⟨fun hrole horder => ?_, fun hwrong => ?_⟩⟩
  · have hv' : v.fold q.fold = x ∧ v.cfg = s.cfg := by simp [← hv, ← hx, ← hu]
    rw [if_neg (by simp [hrows, hlen, hpass]), if_neg (by simp [hrole, horder]), hrows] at hexec
    obtain ⟨hst, hcount, hpart⟩ := (v.send (.hostRead q.fn.val addr len)).takeRows_count q.fold l q pass first d
    simp only [State.send_frame, hv', rowsIn_length hrows] at hst hcount hpart
    exact ⟨_, hexec, rfl, rowsIn_length hrows, hcount, hpart, hst, by simp [hv']⟩
  · rw [hexec, if_neg (by simp [hrows, hlen, hpass]), if_pos hwrong]

end Sys2Proof.Machine
end

section
/-! PROOFS. The trips of Table 14.5 (14, R402 to R408; 09, R229): what the sequence leaves, and which command runs it. -/

namespace Sys2Proof.Machine

/-! ## Events that wait -/

/-- No event that waited for its log position is gone. -/
structure keepsWaiting (s w : State) : Prop where
  keeps : ∀ e ∈ s.events.waiting, e ∈ w.events.waiting

theorem keepsWaiting.refl (s : State) : keepsWaiting s s := ⟨fun _ h => h⟩
theorem keepsWaiting.trans {s u w : State} (h : keepsWaiting s u) (h' : keepsWaiting u w) : keepsWaiting s w :=
  ⟨fun e he => h'.keeps e (h.keeps e he)⟩
theorem keepsWaiting.of_events {s w : State} (h : w.events = s.events) : keepsWaiting s w := ⟨fun e he => by rwa [h]⟩
theorem keepsWaiting.emitAt (s : State) (stamp unit code : Nat) (fo : Bool) (d : Bytes) : keepsWaiting s (s.emitAt stamp unit code fo d) :=
  ⟨fun e he => by simp [State.emitAt, he]⟩
theorem keepsWaiting.emit (s : State) (unit code : Nat) (d : Bytes) : keepsWaiting s (s.emit unit code d) := .emitAt ..
theorem keepsWaiting.foldl {α : Type} {op : State → α → State} (h : ∀ s a, keepsWaiting s (op s a)) (l : List α) (s : State) :
    keepsWaiting s (l.foldl op s) := by
  induction l generalizing s with
  | nil => exact .refl s
  | cons a l ih => exact (h s a).trans (ih _)
theorem keepsWaiting.reports {s w : State} (h : keepsWaiting s w) {code : Nat} (hr : s.reports code) : w.reports code := by
  obtain ⟨e, he, hcode⟩ := hr
  exact ⟨e, h.keeps e he, hcode⟩
theorem keepsWaiting.updateLevel (s : State) : keepsWaiting s s.updateLevel := by
  unfold State.updateLevel
  dsimp only
  split
  · exact .refl s
  · exact ⟨fun e he => by simp [State.emit, State.emitAt, he]⟩

theorem State.updateLevel_power (s : State) : s.updateLevel.power = { s.power with level := s.computeLevel } := by
  unfold State.updateLevel
  dsimp only
  split
  next h => rw [h]
  · simp

/-- A vector leaves the keys of every function. -/
theorem State.sendVec_keys (s : State) (n : FnId) (vec : Fin 4) (v : FnId) :
    ((s.sendVec n vec).fn v).spdm = (s.fn v).spdm ∧ ((s.sendVec n vec).fn v).ideKey = (s.fn v).ideKey := by
  have hsend (u : State) (o : Output) : (u.send o).fn v = u.fn v := by
    unfold State.send
    split <;> rfl
  unfold State.sendVec
  rw [hsend]
  by_cases h : v = n
  · subst h
    simp
  · rw [State.modFn_other _ _ _ _ h]
    exact ⟨rfl, rfl⟩
theorem State.updateLevel_keys (s : State) (v : FnId) :
    (s.updateLevel.fn v).spdm = (s.fn v).spdm ∧ (s.updateLevel.fn v).ideKey = (s.fn v).ideKey := by
  unfold State.updateLevel
  dsimp only
  split
  · exact ⟨rfl, rfl⟩
  · exact State.sendVec_keys _ _ _ _

/-- Nothing but the events that wait has changed. -/
structure reportsOnly (s w : State) : Prop where
  rest : w = { s with events := w.events }
  keeps : keepsWaiting s w

theorem reportsOnly.refl (s : State) : reportsOnly s s := ⟨rfl, .refl s⟩
theorem reportsOnly.trans {s u w : State} (h : reportsOnly s u) (h' : reportsOnly u w) : reportsOnly s w :=
  ⟨by rw [h'.rest, h.rest], h.keeps.trans h'.keeps⟩
theorem reportsOnly.emit (s : State) (unit code : Nat) (d : Bytes) : reportsOnly s (s.emit unit code d) := ⟨rfl, .emit ..⟩
theorem reportsOnly.foldl {α : Type} {op : State → α → State} (h : ∀ s a, reportsOnly s (op s a)) (l : List α) (s : State) :
    reportsOnly s (l.foldl op s) := by
  induction l generalizing s with
  | nil => exact .refl s
  | cons a l ih => exact (h s a).trans (ih _)

/-! ## FOLD_HALTED (R404) -/

theorem State.foldHalted_reportsOnly (s : State) (f : FoldId) : reportsOnly s (s.foldHalted f) := by
  unfold State.foldHalted
  dsimp only
  split
  · exact .emit ..
  · exact .refl s
theorem State.foldsHalted_reportsOnly (s : State) : reportsOnly s s.foldsHalted := .foldl State.foldHalted_reportsOnly _ s
/-- FOLD_HALTED of a Fold waits, sealed. -/
def State.haltedSaid (s : State) (card : Nat) (f : FoldId) : Prop :=
  ∃ e ∈ s.events.waiting, e.code = 0x0907 ∧ e.isSealed = true ∧ e.source = card * 0x800 + unitFold f
theorem keepsWaiting.haltedSaid {s w : State} (h : keepsWaiting s w) {card : Nat} {f : FoldId} (hs : s.haltedSaid card f) :
    w.haltedSaid card f := by
  obtain ⟨e, he, hrest⟩ := hs
  exact ⟨e, h.keeps e he, hrest⟩
theorem State.foldHalted_said {s : State} {f : FoldId} (h : isActive (s.fold f).st = true) : (s.foldHalted f).haltedSaid s.card f := by
  unfold State.foldHalted
  dsimp only
  rw [if_pos h]
  exact ⟨_, List.mem_append_right _ (List.mem_singleton_self _), rfl, rfl, rfl⟩
theorem State.foldsHalted_said {s : State} {f : FoldId} (h : isActive (s.fold f).st = true) : s.foldsHalted.haltedSaid s.card f := by
  obtain ⟨before, after, hl⟩ := List.append_of_mem (List.mem_finRange f)
  have hbefore : reportsOnly s (before.foldl (fun s f => s.foldHalted f) s) := .foldl State.foldHalted_reportsOnly _ s
  have hafter (u : State) : reportsOnly u (after.foldl (fun s f => s.foldHalted f) u) := .foldl State.foldHalted_reportsOnly _ u
  unfold State.foldsHalted allFolds
  rw [hl, List.foldl_append, List.foldl_cons]
  refine (hafter _).keeps.haltedSaid ?_
  generalize before.foldl (fun s f => s.foldHalted f) s = u at hbefore
  have hcard : u.card = s.card := State.card_congr (by rw [hbefore.rest])
  rw [← hcard]
  exact State.foldHalted_said (by rw [hbefore.rest]; exact h)

/-! ## The keys of a trip (09, R229, Table 9.2) -/

theorem State.foldl_modFn {g : FnId → Func → Func} {vs : List FnId} (hn : vs.Nodup) (s : State) (v : FnId) :
    (vs.foldl (fun s v => s.modFn v (g v)) s).fn v = if v ∈ vs then g v (s.fn v) else s.fn v := by
  induction vs generalizing s with
  | nil => rfl
  | cons j vs ih =>
    obtain ⟨hj, hvs⟩ := List.nodup_cons.1 hn
    rw [List.foldl_cons, ih hvs]
    by_cases hv : v = j
    · subst hv
      simp [hj]
    · simp [hv, State.modFn_other _ _ _ _ hv]
theorem State.foldl_modFn_rest (g : FnId → Func → Func) (vs : List FnId) (s : State) :
    vs.foldl (fun s v => s.modFn v (g v)) s = { s with fns := (vs.foldl (fun s v => s.modFn v (g v)) s).fns } := by
  induction vs generalizing s with
  | nil => rfl
  | cons v vs ih => exact ih _
/-- A function without session and IDE key. -/
def Func.endSession (x : Func) : Func := { x with spdm := ⟨0, []⟩, ideKey := [], ide := if x.ide = 0 then 0 else 3 }
theorem mget_map_wipe (m : SMap Chan) (c : Nat) :
    mget Chan.dflt (m.map fun e => (e.1, e.2.wipe)) c = (mget Chan.dflt m c).wipe := by
  induction m with
  | nil => rfl
  | cons e m ih =>
    simp only [List.map_cons, mget]
    split
    · rfl
    · exact ih
/-- The card with its session, channel and link keys zeroised, those that records and results hold too; the rest as it was. -/
theorem State.zeroTripKeys_eq (s : State) : ∃ fns : Vector Func 17,
    (∀ v, (vget fns v).spdm = ⟨0, []⟩ ∧ (vget fns v).ideKey = []) ∧
    s.zeroTripKeys = { s with
      fns := fns, chans := s.chans.map (fun e => (e.1, e.2.wipe)), folds := s.folds.map Fold.wipeKeys,
      links := s.links.map fun k => { k with keys := Vector.replicate 2 [], salts := Vector.replicate 2 [] } } := by
  have hfn (v : FnId) := State.foldl_modFn (g := fun _ x => x.endSession) (List.nodup_finRange 17) s v
  have hrest := State.foldl_modFn_rest (fun _ x => x.endSession) (List.finRange 17) s
  generalize hw : (List.finRange 17).foldl (fun s v => s.modFn v Func.endSession) s = w at hfn hrest
  refine ⟨w.fns, fun v => ?_, ?_⟩
  · have h := (hfn v).trans (if_pos (List.mem_finRange v))
    exact ⟨congrArg Func.spdm h, congrArg Func.ideKey h⟩
  · have hsessions : (List.finRange 17).foldl (fun s v => s.zeroSession v) s = w := hw
    unfold State.zeroTripKeys
    rw [hsessions]
    clear hw hsessions hfn
    generalize w.fns = fns at hrest
    subst hrest
    rfl

/-! ## The sequence of Table 14.5 -/

theorem State.tripCard_power (s : State) : s.tripCard.clock = s.clock ∧
    s.tripCard.power = { s.power with gated := true, clocksStopped := true, halted := true, tripAt := none, level := 0 } := by
  obtain ⟨fns, -, hkeys⟩ := s.foldsHalted.zeroTripKeys_eq
  have hrest := s.foldsHalted_reportsOnly.rest
  unfold State.tripCard
  dsimp only
  rw [hkeys, State.updateLevel_power, hrest]
  exact ⟨by simp, by simp [State.computeLevel]⟩
theorem State.tripCard_haltedFrom (s : State) : haltedFrom s s.tripCard := by
  obtain ⟨fns, hfns, hkeys⟩ := s.foldsHalted.zeroTripKeys_eq
  obtain ⟨-, hpower⟩ := s.tripCard_power
  have hrest := s.foldsHalted_reportsOnly.rest
  have hsaid (f : FoldId) (hf : isActive (s.fold f).st = true) := State.foldsHalted_said hf
  refine ⟨by rw [hpower], by rw [hpower], by rw [hpower], by rw [hpower], by rw [hpower], ?_⟩
  unfold State.tripCard
  dsimp only
  rw [hkeys]
  generalize s.foldsHalted = u at hrest hsaid
  generalize hw : ({ u with
      fns := fns, chans := u.chans.map (fun e => (e.1, e.2.wipe)), folds := u.folds.map Fold.wipeKeys,
      links := u.links.map fun k => { k with keys := Vector.replicate 2 [], salts := Vector.replicate 2 [] },
      power := { u.power with gated := true, clocksStopped := true, halted := true, tripAt := none } } : State) = w
  have hchan (c : Nat) : w.chan c = (u.chan c).wipe := by
    rw [← hw]
    exact mget_map_wipe u.chans c
  have hlink (k : LinkId) : w.link k = { u.link k with keys := Vector.replicate 2 [], salts := Vector.replicate 2 [] } := by
    rw [← hw]
    exact vget_map _ _ _
  have hfold (f : FoldId) : w.fold f = (s.fold f).wipeKeys := by
    rw [← hw, hrest]
    exact vget_map _ _ _
  have hkeep : w.events = u.events ∧ w.tiles = s.tiles ∧ w.hbms = s.hbms ∧ w.cfg = s.cfg ∧ w.kept = s.kept := by
    rw [← hw, hrest]
    exact ⟨rfl, rfl, rfl, rfl, rfl⟩
  obtain ⟨hevents, htiles, hhbms, hcfg, hkept⟩ := hkeep
  have hwait : keepsWaiting u w.updateLevel := (keepsWaiting.of_events hevents).trans (.updateLevel w)
  refine ⟨fun v => ?_, fun c => ?_, fun k => ?_, fun f hf => hwait.haltedSaid (hsaid f hf), fun f => by simp [hfold], by simp [htiles],
    by simp [hhbms],
    by simp [hcfg], by simp [hkept]⟩
  · obtain ⟨hspdm, hide⟩ := w.updateLevel_keys v
    rw [hspdm, hide, ← hw]
    exact hfns v
  · simp [hchan, Chan.wipe, Chan.zeroise]
  · simp [hlink]
theorem State.tripCard_waits (s : State) : keepsWaiting s s.tripCard := by
  unfold State.tripCard
  refine .trans s.foldsHalted_reportsOnly.keeps (.trans (.of_events ?_) (.updateLevel _))
  obtain ⟨fns, -, hkeys⟩ := s.foldsHalted.zeroTripKeys_eq
  dsimp only
  rw [hkeys]

/-- What the sequence looks at is as before. -/
def haltView (s u : State) : Prop := u.folds = s.folds ∧ u.tiles = s.tiles ∧ u.hbms = s.hbms ∧ u.cfg = s.cfg ∧ u.kept = s.kept

theorem haltedFrom.of_view {s u w : State} (hs : haltView s u) (h : haltedFrom u w) : haltedFrom s w := by
  obtain ⟨hfolds, htiles, hhbms, hcfg, hkept⟩ := hs
  simpa only [haltedFrom, State.fold, State.card_congr hcfg, hfolds, htiles, hhbms, hcfg, hkept] using h
theorem haltView.tick (s : State) (t : Nat) : haltView s (s.tick t) := by simp [haltView]
theorem haltView.reports {s u w : State} (h : haltView s u) (hw : reportsOnly u w) : haltView s w := by
  rw [hw.rest]
  exact h

/-- A trip of a card on which the trip has been reported. -/
theorem haltedFrom_tripCard {s u : State} (h : haltView s u) : haltedFrom s u.tripCard := (State.tripCard_haltedFrom u).of_view h
theorem tripCard_reported {s u : State} (h : haltView s u) (code : Nat) (d : Bytes) :
    haltedFrom s (u.emit 0 code d).tripCard ∧ (u.emit 0 code d).tripCard.reports code :=
  ⟨haltedFrom_tripCard (h.reports (.emit ..)), (State.tripCard_waits _).reports (State.reports_emit_same ..)⟩

/-! ## Readings of the sensors (R406) -/

theorem hottest_foldl (l : List (Nat × Int)) (y : Nat × Int) :
    ∃ z, l.foldl (fun a x => match a with | none => some x | some y => if y.2 < x.2 then some x else some y) (some y) = some z ∧
      (z = y ∨ z ∈ l) ∧ y.2 ≤ z.2 ∧ ∀ x ∈ l, x.2 ≤ z.2 := by
  induction l generalizing y with
  | nil => exact ⟨y, rfl, .inl rfl, le_refl _, by simp⟩
  | cons x l ih =>
    by_cases h : y.2 < x.2
    · obtain ⟨z, hz, hmem, hle, hall⟩ := ih x
      exact ⟨z, by simpa [h] using hz, by grind, by omega, by grind⟩
    · obtain ⟨z, hz, hmem, hle, hall⟩ := ih y
      exact ⟨z, by simpa [h] using hz, by grind, hle, by grind⟩
/-- The hottest reading is one of them, and none is hotter. -/
theorem hottestOf_cons (x : Nat × Int) (l : List (Nat × Int)) :
    ∃ z ∈ x :: l, hottestOf (x :: l) = some z ∧ ∀ y ∈ x :: l, y.2 ≤ z.2 := by
  obtain ⟨z, hz, hmem, hle, hall⟩ := hottest_foldl l x
  exact ⟨z, by grind, hz, by grind⟩

/-- The good readings of a sample, and the sensors whose reading is not. -/
def goodOf (r : List (Nat × Int)) : List (Nat × Int) := r.filter (sensorOk r)
def badOf (r : List (Nat × Int)) : List Nat := (r.filter fun x => !sensorOk r x).map (·.1)
/-- A bad sensor on whose die no reading is good. -/
def deadOf (r : List (Nat × Int)) : Option Nat := (badOf r).find? fun n => !(goodOf r).any fun x => dieOf x.1 == dieOf n
/-- What a sample may arm: the hottest good reading at 105 °C or more, else a die without a good reading (R406, R407). -/
def tripOf (r : List (Nat × Int)) : Option (Nat × Int) := match hottestOf (goodOf r) with
  | some x => if 1050 ≤ x.2 then some x else (deadOf r).map fun n => (n, 1050)
  | none => (deadOf r).map fun n => (n, 1050)

/-- What a sample leaves as it was before it arms a trip. -/
def sampledFrom (u v : State) : Prop := v.folds = u.folds ∧ v.tiles = u.tiles ∧ v.cfg = u.cfg ∧ v.clock = u.clock ∧
  v.power.tripAt = u.power.tripAt ∧ ∀ k, (v.hbm k).mem = (u.hbm k).mem ∧ (v.hbm k).lost = (u.hbm k).lost

theorem State.tick_running (s : State) (t : Nat) : (s.tick t).clock.running = s.clock.running := by
  unfold State.tick
  split <;> rfl
theorem vget_ofFn {α : Type} {n : Nat} (g : Fin n → α) (i : Fin n) : vget (Vector.ofFn g) i = g i := by
  simp [vget, Vector.get]
  rfl

/-- The card with the temperatures of a sample noted, and THERMAL_WARN where it is due. -/
def State.noteTemps (s : State) (r : List (Nat × Int)) : State :=
  let h := hottestVal (goodOf r) s.power.hottest
  let warn := s.power.warnArmed && decide (950 ≤ h)
  let v : State := { s with
    quads := Vector.ofFn fun q => { s.quad q with
      junction := hottestVal ((goodOf r).filter fun x => dieOf x.1 == q.val) (s.quad q).junction }
    hbms := Vector.ofFn fun k => { s.hbm k with temp := hottestVal ((goodOf r).filter fun x => dieOf x.1 == k.val + 5) (s.hbm k).temp }
    power := { s.power with
      hottest := h, badSensors := badOf r, warnArmed := if warn then false else s.power.warnArmed || decide (h < 900) } }
  if warn then v.emit 0 0x0903 (le 2 (((hottestOf (goodOf r)).map (·.1)).getD 0) ++ le 2 (wrap 16 h)) else v
/-- The card after a sample, before it arms a trip. -/
def State.sampled (s : State) (r : List (Nat × Int)) : State :=
  (((badOf r).filter fun n => !s.power.badSensors.contains n).foldl (fun s n => s.emit 0 0x0905 (le 2 n)) s).noteTemps r

theorem State.sampled_from (u : State) (r : List (Nat × Int)) : sampledFrom u (u.sampled r) := by
  have hsay (l : List Nat) : reportsOnly u (l.foldl (fun s n => s.emit 0 0x0905 (le 2 n)) u) := .foldl (fun s n => .emit ..) l u
  unfold State.sampled
  generalize hw : List.foldl _ u _ = w
  have hrest : w = { u with events := w.events } := (hw ▸ hsay _ : reportsOnly u w).rest
  have hnote : sampledFrom w (w.noteTemps r) := by
    unfold State.noteTemps
    dsimp only
    split <;> exact ⟨rfl, rfl, rfl, rfl, rfl, fun k => by simp [State.hbm, State.emit, State.emitAt, vget_ofFn]⟩
  generalize w.events = es at hrest
  subst hrest
  exact hnote
/-- The card after a sample has armed what it arms. -/
def State.armed (v : State) : Option (Nat × Int) → State
  | some x => v.armTrip x
  | none => v
theorem State.armed_rest (v : State) (o : Option (Nat × Int)) : (v.armed o).folds = v.folds ∧ (v.armed o).tiles = v.tiles ∧
    (v.armed o).cfg = v.cfg ∧ (∀ k, (v.armed o).hbm k = v.hbm k) ∧
    (v.armed o).power.tripAt = v.power.tripAt.or (o.map fun _ => v.cardTick v.now) := by
  cases o with
  | none => exact ⟨rfl, rfl, rfl, fun _ => rfl, (Option.or_none).symm⟩
  | some x =>
    cases h : v.power.tripAt with
    | none => simp [State.armed, State.armTrip, h, State.hbm]
    | some k => simp [State.armed, State.armTrip, h]
theorem exec_temperatureSample {t : Nat} {r : List (Nat × Int)} {s u : State} (hu : s.tick t = u) (hmain : u.power.main = true)
    (hhalted : u.power.halted = false) :
    exec (.temperatureSample t r) s = .next ((u.sampled r).armed (tripOf r)) := by
  show execTemperatureSample t r s = _
  simp only [execTemperatureSample, hu, hmain, hhalted, Bool.not_true, Bool.false_or, Bool.false_eq_true, if_false]
  have harm (v : State) : (match hottestOf (goodOf r), deadOf r with
      | some x, d => if 1050 ≤ x.2 then .next (v.armTrip x) else match d with
        | some n => .next (v.armTrip (n, 1050))
        | none => .next v
      | none, some n => .next (v.armTrip (n, 1050))
      | none, none => .next v : Out) = .next (v.armed (tripOf r)) := by
    unfold tripOf
    cases hottestOf (goodOf r) with
    | none => cases deadOf r <;> rfl
    | some x =>
      dsimp only
      split
      · rfl
      · cases deadOf r <;> rfl
  exact harm (u.sampled r)

theorem tripOf_hot {r : List (Nat × Int)} {x : Nat × Int} (hx : x ∈ r) (hok : sensorOk r x = true) (hhot : 1050 ≤ x.2) :
    ∃ z, tripOf r = some z := by
  have hgood : x ∈ goodOf r := List.mem_filter.2 ⟨hx, hok⟩
  obtain ⟨y, l, hl⟩ := List.exists_cons_of_ne_nil (List.ne_nil_of_mem hgood)
  obtain ⟨z, -, hz, hmax⟩ := hottestOf_cons y l
  have hle : 1050 ≤ z.2 := hhot.trans (hmax x (hl ▸ hgood))
  exact ⟨z, by rw [tripOf, hl, hz]; exact if_pos hle⟩
theorem tripOf_cool {r : List (Nat × Int)} (h : ∀ x ∈ r, sensorOk r x = true ∧ x.2 < 1050) : tripOf r = none := by
  have hdead : deadOf r = none := by
    have hbad : badOf r = [] := by simpa [badOf] using fun a b hab => (h (a, b) hab).1
    rw [deadOf, hbad]
    rfl
  unfold tripOf
  rw [hdead]
  cases hl : goodOf r with
  | nil => rfl
  | cons y l =>
    obtain ⟨z, hmem, hz, -⟩ := hottestOf_cons y l
    obtain ⟨-, hcool⟩ := h z (List.mem_of_mem_filter (hl ▸ hmem : z ∈ goodOf r))
    rw [hz]
    exact if_neg (Int.not_le.2 hcool)

/-- Settles O27: each trip is the sequence of Table 14.5 on a card on which it was reported. -/
theorem tripsHaltTheCard : Obligations.TripsHaltTheCard := by
  have hview {s u : State} {t : Nat} (hu : s.tick t = u) : haltView s u := hu ▸ haltView.tick s t
  refine ⟨fun t mv r s u hu hmain => ⟨fun hhalted hmv => ?_, fun hmv => ?_⟩, fun t mw s u hu hmain hhalted hmw => ?_,
    fun t k s u hu htrip hk hhalted => ?_, fun t g s u hu hmain hhalted => ?_, fun t r s u hu hmain hhalted => ?_⟩
  · have hexec : exec (.supplyTrip t r mv) s = .next (u.supplyTrip r mv) := by
      show execSupplyTrip t r mv s = _
      simp [execSupplyTrip, hu, hmain, hhalted, Nat.not_le.2 hmv]
    rw [State.supplyTrip] at hexec
    obtain ⟨hfrom, hsaid⟩ := tripCard_reported (hview hu) 0x0902
      (le 1 (railCode r) ++ le 2 mv ++ le 2 (tripMv r u.cfg.op) ++ le 1 (opCode u.cfg.op))
    exact ⟨_, hexec, hfrom, hsaid⟩
  · show execSupplyWarn t r mv s = _
    simp [execSupplyWarn, hu, hmain, Nat.not_le.2 hmv]
  · have hexec : exec (.powerOverrun t mw) s =
        .next (({ u with power := { u.power with boardMw := mw } }).emit 0 0x0906 (le 4 mw ++ le 2 (opCapW u.cfg.op))).tripCard := by
      show execPowerOverrun t mw s = _
      simp [execPowerOverrun, hu, hmain, hhalted, Nat.not_le.2 hmw]
    obtain ⟨hfrom, hsaid⟩ := tripCard_reported (u := { u with power := { u.power with boardMw := mw } })
      (show haltView s u from hview hu) 0x0906
      (le 4 mw ++ le 2 (opCapW u.cfg.op))
    exact ⟨_, hexec, hfrom, by rw [(State.tripCard_power _).2]; rfl, hsaid⟩
  · have hexec : exec (.thermalTrip t) s =
        .next (u.emit 0 0x0904 (le 2 u.power.tripSensor.1 ++ le 2 (wrap 16 u.power.tripSensor.2))).tripCard := by
      show execThermalTrip t s = _
      simp [execThermalTrip, hu, htrip, hhalted, Nat.not_lt.2 hk]
    obtain ⟨hfrom, hsaid⟩ := tripCard_reported (hview hu) 0x0904 (le 2 u.power.tripSensor.1 ++ le 2 (wrap 16 u.power.tripSensor.2))
    exact ⟨_, hexec, hfrom, hsaid⟩
  · have hexec : exec (.securityEngineOrTickGeneratorFault t g) s =
        .next (if g then { u.tripCard with clock := { u.clock with running := false } } else u.tripCard) := by
      show execSecurityEngineOrTickGeneratorFault t g s = _
      cases g <;> simp [execSecurityEngineOrTickGeneratorFault, hu, hmain, hhalted]
    have hfrom := haltedFrom_tripCard (hview hu)
    have hclock : u.tripCard.clock.running = s.clock.running := by rw [u.tripCard_power.1, ← hu, State.tick_running]
    generalize u.tripCard = w at hexec hfrom hclock
    refine ⟨_, hexec, ?_⟩
    cases g with
    | true => exact ⟨hfrom, rfl⟩
    | false => exact ⟨hfrom, hclock⟩
  · obtain ⟨hfolds, htiles, hcfg, hclock, htrip, hhbm⟩ := u.sampled_from r
    obtain ⟨afolds, atiles, acfg, ahbm, atrip⟩ := (u.sampled r).armed_rest (tripOf r)
    have htick : (u.sampled r).cardTick (u.sampled r).now = u.cardTick u.now := by simp only [State.cardTick, State.now, hcfg, hclock]
    rw [htrip, htick] at atrip
    have hs : u.folds = s.folds ∧ u.tiles = s.tiles ∧ u.cfg = s.cfg ∧ ∀ k, u.hbm k = s.hbm k := by simp [← hu]
    obtain ⟨sfolds, stiles, scfg, shbm⟩ := hs
    refine ⟨_, exec_temperatureSample hu hmain hhalted, afolds.trans (hfolds.trans sfolds), atiles.trans (htiles.trans stiles),
      acfg.trans (hcfg.trans scfg), fun k => by rw [ahbm, ← shbm]; exact hhbm k, ?_, fun k hk => by rw [atrip, hk]; rfl,
      fun hcool hnone => ?_⟩
    · rintro ⟨x, hx, hok, hhot⟩ hnone
      obtain ⟨z, hz⟩ := tripOf_hot hx hok hhot
      rw [atrip, hnone, hz]
      rfl
    · rw [atrip, hnone, tripOf_cool hcool]
      rfl

end Sys2Proof.Machine
end

section
/-! PROOFS. The resets (15, Table 15.3), the Shepherd's supplies (R418), PERST#, the link rate and a function-level reset (R435, R426). -/

namespace Sys2Proof.Machine

/-! ## What a warm reset leaves (15, R434) -/

theorem vget_replicate {α : Type} {n : Nat} (x : α) (i : Fin n) : vget (Vector.replicate n x) i = x := by simp [vget, Vector.get]
theorem State.applyRestore_eq (s : State) : s.applyRestore = { s with
    cfg := if s.shep.restore then Settings.dflt else s.cfg
    shep := if s.shep.restore then { s.shep with stored := Settings.dflt, restore := false } else s.shep } := by
  unfold State.applyRestore
  split <;> rfl
/-- The card of a warm reset before its service level is set. -/
def State.warmed (s : State) : State := { s.applyRestore with
  folds := s.folds.map Fold.cleared, tiles := [], quads := s.quads.map Quad.cleared, hbms := s.hbms.map Stack.cleared,
  links := s.links.map Link.cleared, ports := s.ports.map Port.cleared, fns := Vector.replicate 17 Func.dflt, chans := [],
  heath := Heath.dflt, sec := s.sec.clear, sd := s.sd.restart, pcie := { Pcie.dflt with rateChanges := s.pcie.rateChanges },
  power := s.power.rerun s.now }
theorem State.warmReset_eq {s : State} (h : s.power.halted = false) : s.warmReset = s.warmed.updateLevel := by
  rw [State.warmReset, if_neg (by simp [h])]
  simp only [State.warmed, State.applyRestore_eq, State.now]
theorem State.warmed_from (s : State) : warmFrom s s.warmed := by
  refine ⟨fun f => ?_, rfl, fun k => ?_, rfl, rfl, rfl, rfl, rfl, ?_, rfl, rfl, ?_⟩
  · have hfold : s.warmed.fold f = (s.fold f).cleared := vget_map _ _ _
    rw [hfold]
    exact ⟨rfl, rfl, rfl, rfl⟩
  · have hhbm : s.warmed.hbm k = (s.hbm k).cleared := vget_map _ _ _
    rw [hhbm]
    rfl
  · simp [State.warmed, State.applyRestore_eq]
  · simp [State.warmed, State.applyRestore_eq]
theorem warmFrom.updateLevel {s w : State} (h : warmFrom s w) : warmFrom s w.updateLevel := by
  simpa [warmFrom, State.updateLevel_power] using h
theorem State.warmReset_from {s : State} (h : s.power.halted = false) : warmFrom s s.warmReset := by
  rw [State.warmReset_eq h]
  exact s.warmed_from.updateLevel
theorem State.warmReset_rest {s : State} (h : s.power.halted = false) : s.warmReset.clock = s.clock ∧
    s.warmReset.shep.stored = (if s.shep.restore then Settings.dflt else s.shep.stored) ∧ keepsWaiting s s.warmReset := by
  rw [State.warmReset_eq h]
  refine ⟨by simp [State.warmed, State.applyRestore_eq], ?_, .trans (.of_events ?_) (.updateLevel _)⟩
  · simp only [State.updateLevel_frame, State.warmed, State.applyRestore_eq]
    split <;> rfl
  · simp [State.warmed, State.applyRestore_eq]

/-! ## A quadrant reset (R437) -/

theorem State.outOfMappings_eq (s : State) (q : QuadId) : s.outOfMappings q = { s with heath := { s.heath with
    lostQuads := if s.heath.lostQuads.contains (s.card, q.val) then s.heath.lostQuads else s.heath.lostQuads ++ [(s.card, q.val)] } } := by
  unfold State.outOfMappings
  split <;> rfl
theorem State.outOfMappings_rest (s : State) (q : QuadId) : (s.outOfMappings q).tiles = s.tiles ∧ (s.outOfMappings q).quads = s.quads ∧
    (s.outOfMappings q).folds = s.folds ∧ (s.outOfMappings q).hbms = s.hbms ∧ (s.outOfMappings q).chans = s.chans ∧
    (s.outOfMappings q).power = s.power ∧ (s.outOfMappings q).events = s.events := by
  rw [State.outOfMappings_eq]
  exact ⟨rfl, rfl, rfl, rfl, rfl, rfl, rfl⟩
theorem State.outOfMappings_serves_same (s : State) (q : QuadId) : (s.outOfMappings q).quadServes q = false := by
  have hcard : (s.outOfMappings q).card = s.card := State.card_congr (by simp)
  rw [State.quadServes, hcard, State.outOfMappings_eq]
  split <;> simp_all
theorem State.outOfMappings_serves_other (s : State) {p q : QuadId} (h : p ≠ q) : (s.outOfMappings q).quadServes p = s.quadServes p := by
  have hcard : (s.outOfMappings q).card = s.card := State.card_congr (by simp)
  have hval : p.val ≠ q.val := fun hv => h (Fin.ext hv)
  rw [State.quadServes, hcard, State.outOfMappings_eq, State.quadServes]
  split <;> simp [hval]
theorem State.quadServes_congr {s w : State} (hcfg : w.cfg = s.cfg) (hheath : w.heath = s.heath) (q : QuadId) :
    w.quadServes q = s.quadServes q := by simp only [State.quadServes, State.card_congr hcfg, hheath]
/-- What a quadrant reset leaves: its tiles zeroised, the quadrant on its way back and out of every mapping, the rest as it was. -/
def quadResetFrom (s w : State) (q : QuadId) : Prop :=
  (∀ n, quadOfTile n = q → w.tile n = Tile.dflt) ∧ (∀ n, quadOfTile n ≠ q → w.tile n = s.tile n) ∧
  (w.quad q).returning = true ∧ (w.quad q).tested = false ∧ (w.quad q).faults = [] ∧ (w.quad q).state ≠ 0 ∧
  (∀ p, p ≠ q → w.quad p = s.quad p) ∧ w.quadServes q = false ∧ w.folds = s.folds ∧ w.hbms = s.hbms ∧
  w.chans = s.chans ∧ w.cfg = s.cfg
/-- The quadrant as its reset leaves it. -/
def Quad.reset (x : Quad) : Quad := { x with state := if x.state = 0 then 1 else x.state, faults := [], returning := true, tested := false }
theorem State.quadReset_from {s : State} (h : s.power.halted = false) (q : QuadId) : quadResetFrom s (s.quadReset q) q := by
  have htile (n : Nat) : mget Tile.dflt (s.tiles.filter fun e => quadOfTile e.1 != q) n =
      if quadOfTile n = q then Tile.dflt else s.tile n := by
    rw [mget_filter Tile.dflt fun j => quadOfTile j != q]
    by_cases hn : quadOfTile n = q <;> simp [hn, State.tile]
  generalize hv : ({ s with tiles := s.tiles.filter fun e => quadOfTile e.1 != q } : State).modQuad q Quad.reset = v
  have hreset : s.quadReset q = (v.outOfMappings q).updateLevel := by
    rw [State.quadReset, if_neg (by simp [h]), ← hv]
    rfl
  have hsame : v.quad q = (s.quad q).reset ∧ (∀ p, p ≠ q → v.quad p = s.quad p) ∧
      (∀ n, v.tile n = if quadOfTile n = q then Tile.dflt else s.tile n) ∧
      v.folds = s.folds ∧ v.hbms = s.hbms ∧ v.chans = s.chans ∧ v.cfg = s.cfg := by
    rw [← hv]
    exact ⟨State.modQuad_same _ _ _, fun p hp => State.modQuad_other _ _ _ _ hp, htile, rfl, rfl, rfl, rfl⟩
  obtain ⟨hquad, hother, htile, hfolds, hhbms, hchans, hcfg⟩ := hsame
  obtain ⟨otiles, oquads, ofolds, ohbms, ochans, -⟩ := v.outOfMappings_rest q
  have htile' (n : Nat) : (s.quadReset q).tile n = if quadOfTile n = q then Tile.dflt else s.tile n := by
    rw [hreset, ← htile]
    simp [State.tile, otiles]
  have hquad' (p : QuadId) : (s.quadReset q).quad p = v.quad p := by
    rw [hreset]
    simp [State.quad, oquads]
  have hserves : (s.quadReset q).quadServes q = false := by
    rw [hreset, State.quadServes_congr (s := v.outOfMappings q) (by simp) (by simp), State.outOfMappings_serves_same]
  refine ⟨fun n hn => by rw [htile', if_pos hn], fun n hn => by rw [htile', if_neg hn], ?_, ?_, ?_, ?_,
    fun p hp => by rw [hquad', hother p hp], hserves, by simp [hreset, ofolds, hfolds], by simp [hreset, ohbms, hhbms],
    by simp [hreset, ochans, hchans], by simp [hreset, hcfg]⟩
  · rw [hquad', hquad]
    rfl
  · rw [hquad', hquad]
    rfl
  · rw [hquad', hquad]
    rfl
  · rw [hquad', hquad, Quad.reset]
    dsimp only
    split <;> omega
theorem quadResetFrom.of_same {s v w : State} {q : QuadId} (h : quadResetFrom v w q) (hsame : cardSame s v) (hcfg : v.cfg = s.cfg) :
    quadResetFrom s w q := by
  obtain ⟨hfolds, htiles, hhbms, hquads, -, -, -, -, hchans⟩ := hsame
  simpa only [quadResetFrom, State.tile, State.quad, hfolds, htiles, hhbms, hquads, hchans, hcfg] using h
theorem quadResetFrom.answer {s w : State} {q : QuadId} (h : quadResetFrom s w q) (a : Access) (i u c e : Nat) (b : Bytes) :
    quadResetFrom s (w.answer a i u c e b) q := by
  have hserves := State.quadServes_congr (s := w) (w := w.answer a i u c e b) (by simp) (by simp) q
  simpa [quadResetFrom, hserves] using h

/-! ## The resets by dictionary (Table 13.8) -/

theorem resetWrite_of_admits {u : State} {r : WReq} {n : Nat} (h : admits u 0x2002 0 r) (hn : leNat (payloadOf r.data) = n) :
    u.resetWrite r n = ((u.admitWrite r.acc 0x2002 0 r.data false).st.commitReset n).1.answer r.acc 0x2002 0
      ((u.admitWrite r.acc 0x2002 0 r.data false).st.commitReset n).2.1
      ((u.admitWrite r.acc 0x2002 0 r.data false).st.commitReset n).2.2 [] := by
  rw [State.resetWrite, dictWrite_of_admits h]
  simp only [hn, if_true]
theorem warmFrom.answer {s w : State} (h : warmFrom s w) (a : Access) (i u c e : Nat) (b : Bytes) : warmFrom s (w.answer a i u c e b) := by
  simpa [warmFrom] using h
theorem State.commitReset_quad (s : State) (q : QuadId) : s.commitReset (0x10 + q.val) = s.commitQuad q := by
  fin_cases q <;> rfl

/-- Settles O22: each reset by what its commit does on a card of which the checks have changed AuthSeq and events alone. -/
theorem resetsByDictionary : Obligations.ResetsByDictionary := by
  intro t r s u hu h
  have hst : (u.admitWrite r.acc 0x2002 0 r.data false).st.power = u.power ∧
      (u.admitWrite r.acc 0x2002 0 r.data false).st.clock = u.clock ∧
      (u.admitWrite r.acc 0x2002 0 r.data false).st.shep = s.shep ∧ (u.admitWrite r.acc 0x2002 0 r.data false).st.cfg = s.cfg ∧
      cardSame s (u.admitWrite r.acc 0x2002 0 r.data false).st ∧
      (u.admitWrite r.acc 0x2002 0 r.data false).st.anyActive = u.anyActive := by
    simp [← hu, cardSame, State.anyActive]
  have hreset {n : Nat} (hn : leNat (payloadOf r.data) = n) := resetWrite_of_admits h hn
  generalize (u.admitWrite r.acc 0x2002 0 r.data false).st = v at hst hreset ⊢
  obtain ⟨hpower, hclock, hshep, hcfg, hsame, hactive⟩ := hst
  have hfold (f : FoldId) : v.fold f = s.fold f := by rw [State.fold, hsame.1]; rfl
  have hin (q : QuadId) : v.foldsIn q = u.foldsIn q := by simp only [State.foldsIn, State.foldCfg, hcfg, ← hu, State.tick_frame]
  have hexec {n : Nat} {c : Commit} (hn : leNat (payloadOf r.data) = n) (hc : v.commitReset n = c) :
      (s.tick t).resetWrite r n = c.1.answer r.acc 0x2002 0 c.2.1 c.2.2 [] := by rw [hu, hreset hn, hc]
  refine ⟨fun hn hquiet hhalted => ?_, fun hn hactives => ?_, fun hn => ?_,
    fun q hn hhalted => ⟨fun hquiet => ?_, fun f hf hactives => ?_⟩⟩
  · have hcommit : v.commitReset 1 = okC v.warmReset := by
      show v.commitWarm = _
      simp [State.commitWarm, hactive, hquiet, hpower, hhalted]
    obtain ⟨wclock, wstored, -⟩ := State.warmReset_rest (s := v) (by rw [hpower, hhalted])
    exact ⟨_, congrArg Host.Outcome.next (hexec hn hcommit), (State.warmReset_from (by rw [hpower, hhalted])).answer ..,
      by simp [okC, wclock, hclock], by simp [okC, wstored, hshep]⟩
  · have hcommit : v.commitReset 1 = noC v 0x08000022 := by
      show v.commitWarm = _
      simp [State.commitWarm, hactive, hactives]
    exact congrArg Host.Outcome.next (hexec hn hcommit)
  · have hcommit : v.commitReset 2 = okC v.shepReset := rfl
    exact ⟨_, congrArg Host.Outcome.next (hexec hn hcommit), by simp [okC, State.shepReset], by simp [okC, State.shepReset],
      by simp [okC, State.shepReset], by simp [okC, State.shepReset, hshep], by simp [okC, State.shepReset],
      by simp [okC, State.shepReset, Events.lose], by simp [okC, State.shepReset, Events.lose], by simp [okC, hcfg],
      cardSame_answer (show cardSame s v.shepReset from hsame) ..⟩
  · have hcommit : v.commitReset (0x10 + q.val) = okC (v.quadReset q) := by
      rw [State.commitReset_quad, State.commitQuad, hin, if_neg]
      simpa [hpower, hhalted, hfold] using hquiet
    have hquad := (State.quadReset_from (s := v) (by rw [hpower, hhalted]) q).of_same hsame hcfg
    exact ⟨_, congrArg Host.Outcome.next (hexec hn hcommit), hquad.answer ..⟩
  · have hcommit : v.commitReset (0x10 + q.val) = noC v 0x08000022 := by
      rw [State.commitReset_quad, State.commitQuad, hin, if_pos]
      have hany : ((u.foldsIn q).any fun f => isActive (v.fold f).st) = true := List.any_eq_true.2 ⟨f, hf, by rw [hfold, hactives]⟩
      rw [hany, Bool.or_true]
    exact congrArg Host.Outcome.next (hexec hn hcommit)

/-! ## The supplies of the Shepherd (R418, R439) -/

/-- The card after a cold reset: every Fold and store at its default, the stored configuration in force, the kept entries as they were. -/
def coldFrom (s w : State) : Prop :=
  (∀ f, w.fold f = Fold.dflt) ∧ w.tiles = [] ∧ (∀ k, (w.hbm k).mem = []) ∧ w.chans = [] ∧ w.clock.running = false ∧
  w.power.main = false ∧ w.power.ready = false ∧ w.kept = s.kept ∧ w.cfg = if s.shep.restore then Settings.dflt else s.shep.stored
theorem State.coldReset_from (s : State) : coldFrom s s.coldReset ∧ s.coldReset.shep.up = s.shep.up := by
  refine ⟨⟨fun f => vget_replicate _ f, rfl, fun k => ?_, rfl, rfl, rfl, rfl, ?_, ?_⟩, ?_⟩
  · exact congrArg Stack.mem (vget_replicate Stack.dflt k)
  all_goals simp only [State.coldReset, State.applyRestore_eq, Shepherd.coldDefaults]
  all_goals split <;> rfl
/-- The Shepherd on the supplies that are left, by preference. -/
def State.onSupplies (s : State) (sup : Bool × Bool × Bool) : State :=
  { s with shep := { s.shep with supplies := sup, source := preferred sup } }
theorem exec_mainPowerLoss {t : Nat} {s u : State} (hu : s.tick t = u) (hmain : u.power.main = true) :
    exec (.mainPowerLoss t) s = if u.shep.supplies.2.1 || u.shep.supplies.2.2 then
      .next (u.coldReset.onSupplies (false, u.shep.supplies.2.1, u.shep.supplies.2.2)) else .next u.coldReset.shepOff := by
  show execMainPowerLoss t s = _
  simp only [execMainPowerLoss, hu, hmain]
  rfl

/-- Settles O25, command by command; a loss of main power by which supply is left. -/
theorem suppliesOfTheShepherd : Obligations.SuppliesOfTheShepherd := by
  refine ⟨fun t m p a s u hu hup hleft => ?_, fun t s u hu hmain => ?_, fun t s u hu => ?_, fun t s u v hu hrestart hv => ?_⟩
  · show execSupplySourceChange t m p a s = _
    simp [execSupplySourceChange, hu, hup, hleft, preferred]
  · obtain ⟨hcold, hup⟩ := u.coldReset_from
    have hexec := exec_mainPowerLoss hu hmain
    have hs : u.shep = s.shep ∧ u.kept = s.kept := by simp [← hu]
    obtain ⟨hshep, hkept⟩ := hs
    simp only [coldFrom, hkept, hshep] at hcold
    rw [hshep] at hexec hup
    obtain ⟨hfold, htiles, hhbm, hchans, hrun, hoff, hready, hkept, hcfg⟩ := hcold
    by_cases hleft : (s.shep.supplies.2.1 || s.shep.supplies.2.2) = true
    · rw [if_pos hleft] at hexec
      refine ⟨_, hexec, hfold, htiles, hhbm, hchans, hrun, hoff, hready, hkept, hcfg, fun h => ⟨?_, hup⟩,
        fun h h' => ⟨?_, hup⟩, fun h h' => ?_⟩
      · simp [State.onSupplies, preferred, h]
      · simp [State.onSupplies, preferred, h]
      · simp [h, h'] at hleft
    · rw [if_neg hleft] at hexec
      refine ⟨_, hexec, hfold, htiles, hhbm, hchans, hrun, hoff, hready, hkept, hcfg, fun h => ?_, fun h h' => ?_, fun h h' => rfl⟩
      · simp [h] at hleft
      · simp [h'] at hleft
  · refine ⟨_, rfl, ?_⟩
    rw [hu]
    have hs : u.kept = s.kept ∧ u.power = s.power ∧ u.shep = s.shep ∧ u.cfg = s.cfg := by simp [← hu]
    obtain ⟨hkept, hpower, hshep, hcfg⟩ := hs
    split
    next hmain =>
      obtain ⟨⟨-, -, -, -, -, hoff, -, ckept, -⟩, -⟩ := u.coldReset_from
      exact ⟨rfl, rfl, rfl, rfl, ckept.trans hkept, rfl, rfl, hoff, fun h => by simp [← hpower, hmain] at h⟩
    next hmain =>
      have hstored : u.shep.stored = s.shep.stored := by rw [hshep]
      exact ⟨rfl, rfl, rfl, rfl, hkept, rfl, rfl, eq_false_of_ne_true hmain, fun _ => ⟨hstored, hcfg⟩⟩
  · have hexec : exec (.shepherdRestartDone t) s = .next (if v.shep.nmt = 0 && !v.shep.fbPresHigh then v.canBoot else v) := by
      have hshep : u.shep = s.shep := by simp [← hu]
      show execShepherdRestartDone t s = _
      simp only [execShepherdRestartDone, hu, hrestart, ← hv, ← hshep]
      rfl
    have hview : v.shep.nmt = s.shep.fieldBefore.2 ∧ v.shep.fbPresHigh = u.shep.fbPresHigh := by rw [← hv]; exact ⟨rfl, rfl⟩
    obtain ⟨hnmt, hpres⟩ := hview
    rw [hnmt, hpres] at hexec
    refine ⟨fun h => ?_, fun h h' => ?_⟩
    · rw [hexec, if_neg (by obtain h | h := h <;> simp [h])]
    · rw [hexec, if_pos (by simp [h, h'])]

/-! ## PERST# and the link rate (R435, R426; 10, R278) -/

/-- Nothing has changed but functions and what left. -/
def queuesOnly (s w : State) : Prop := w = { s with fns := w.fns, out := w.out }

theorem queuesOnly.trans {s u w : State} (h : queuesOnly s u) (h' : queuesOnly u w) : queuesOnly s w := by
  unfold queuesOnly at h h' ⊢
  rw [h', h]
theorem queuesOnly.modFn (s : State) (v : FnId) (g : Func → Func) : queuesOnly s (s.modFn v g) := rfl
theorem queuesOnly.send (s : State) (o : Output) : queuesOnly s (s.send o) := by
  unfold State.send
  split <;> rfl
theorem queuesOnly.sendVec (s : State) (v : FnId) (vec : Fin 4) : queuesOnly s (s.sendVec v vec) := .trans (.modFn ..) (.send ..)
theorem queuesOnly.coalesce (s : State) (v : FnId) (vec : Fin 4) : queuesOnly s (s.coalesce v vec) := by
  unfold State.coalesce
  split
  · split
    · exact .modFn ..
    · exact .sendVec ..
  · exact .sendVec ..
theorem queuesOnly.writeCqe (s : State) (v : FnId) (c : Cqe) : queuesOnly s (s.writeCqe v c) :=
  .trans (.trans (.modFn ..) (.send ..)) (.coalesce ..)
theorem queuesOnly.flushLoop (v : FnId) (q k : Nat) (s : State) : queuesOnly s (flushLoop v q k s) := by
  induction k generalizing s with
  | zero => rfl
  | succ k ih =>
    unfold Sys2Proof.Machine.flushLoop
    split
    · rfl
    · split
      · rfl
      · exact .trans (.trans (.modFn ..) (.writeCqe ..)) (ih _)
theorem queuesOnly.flush (s : State) (v : FnId) : queuesOnly s (s.flush v) := .trans (.flushLoop ..) (.flushLoop ..)
theorem queuesOnly.flushes (l : List FnId) (s : State) : queuesOnly s (l.foldl State.flush s) := by
  induction l generalizing s with
  | nil => rfl
  | cons v l ih => exact .trans (.flush s v) (ih _)

theorem State.computeLevel_congr {s w : State} (hlevel : { w.power with level := 0 } = { s.power with level := 0 })
    (hup : w.shep.up = s.shep.up) (hquads : w.quads = s.quads) (hhbms : w.hbms = s.hbms) (hpcie : w.pcie = s.pcie)
    (hports : w.ports = s.ports) :
    w.computeLevel = s.computeLevel := by
  injection hlevel
  simp_all [State.computeLevel, State.levelThree, State.levelTwo, State.quadHealthy, State.quad, State.hbm, State.port]
theorem State.updateLevel_computeLevel (s : State) : s.updateLevel.power.level = s.updateLevel.computeLevel := by
  rw [State.computeLevel_congr (s := s) (w := s.updateLevel) (by simp [State.updateLevel_power]) (by simp) (by simp) (by simp)
    (by simp) (by simp), State.updateLevel_power]
theorem queuesOnly.computeLevel {s w : State} (h : queuesOnly s w) : w.computeLevel = s.computeLevel := by
  rw [h]
  rfl
/-- The card after its link has trained to a rate, before the service level follows. -/
def State.rated (s : State) (gen width : Nat) : State :=
  let changed := s.pcie.gen != 0 && (s.pcie.gen != gen || s.pcie.width != width)
  let v := { s with pcie := { s.pcie with
    gen := gen, width := width, cfgReady := true, rateChanges := if changed then s.pcie.rateChanges + 1 else s.pcie.rateChanges } }
  if changed then v.emit 0x040 0x0204 (le 1 gen ++ le 1 width) else v
theorem State.rated_rest (s : State) (gen width : Nat) : (s.rated gen width).pcie.gen = gen ∧ (s.rated gen width).pcie.width = width ∧
    (s.rated gen width).folds = s.folds ∧ (s.rated gen width).cfg = s.cfg ∧ storesSame s (s.rated gen width) ∧
    (s.pcie.gen ≠ 0 → (s.pcie.gen ≠ gen ∨ s.pcie.width ≠ width) →
      (s.rated gen width).pcie.rateChanges = s.pcie.rateChanges + 1 ∧ (s.rated gen width).reports 0x0204) := by
  unfold State.rated
  dsimp only
  split
  next h => exact ⟨rfl, rfl, rfl, rfl, ⟨rfl, rfl, rfl⟩, fun _ _ => ⟨rfl, State.reports_emit_same ..⟩⟩
  next h => exact ⟨rfl, rfl, rfl, rfl, ⟨rfl, rfl, rfl⟩, fun hup hchanged => absurd (by simpa using ⟨hup, hchanged⟩) h⟩
theorem exec_pcieRateChange {t g n : Nat} {s u : State} (hu : s.tick t = u) (hperst : u.power.perst = false) (hmain : u.power.main = true)
    (hlow : 1 ≤ g) (hhigh : g ≤ 6) (hn : n ∈ [1, 4, 8, 16]) :
    exec (.pcieRateChange t g n) s = .next ((List.finRange 17).foldl State.flush (u.rated g n).updateLevel) := by
  have hwidth : [1, 4, 8, 16].contains n = true := by simpa using hn
  show execPcieRateChange t g n s = _
  simp only [execPcieRateChange, hu, hperst, hmain, Nat.not_lt.2 hlow, Nat.not_lt.2 hhigh, hwidth]
  rfl
theorem exec_perstAssert {t : Nat} {s u : State} (hu : s.tick t = u) : exec (.perstAssert t) s =
    .next { (if u.power.perst || !u.power.main then u else u.perstReset) with
      power := { (if u.power.perst || !u.power.main then u else u.perstReset).power with perst := true }
      pcie := { (if u.power.perst || !u.power.main then u else u.perstReset).pcie with gen := 0, width := 0, cfgReady := false } } := by
  show execPerstAssert t s = _
  simp only [execPerstAssert, hu]
/-- A warm reset looks only at the telemetry, the kept entries, the UDS and the stored settings. -/
theorem warmFrom.of_view {s v w : State} (hfolds : v.folds = s.folds) (hkept : v.kept = s.kept) (hsec : v.sec = s.sec)
    (hshep : v.shep = s.shep) (hcfg : v.cfg = s.cfg) (h : warmFrom v w) : warmFrom s w := by
  simpa only [warmFrom, State.fold, hfolds, hkept, hsec, hshep, hcfg] using h
theorem State.perstReset_from {s : State} (h : s.power.halted = false) : warmFrom s s.perstReset ∧ s.perstReset.clock = s.clock ∧
    ∀ f, isActive (s.fold f).st = true → s.perstReset.haltedSaid s.card f := by
  have hsaid (f : FoldId) (hf : isActive (s.fold f).st = true) := State.foldsHalted_said hf
  have hrest := s.foldsHalted_reportsOnly.rest
  rw [State.perstReset, if_neg (by simp [h])]
  generalize s.foldsHalted = u at hrest hsaid
  have hu : u.power.halted = false := by rw [hrest]; exact h
  obtain ⟨hclock, -, hkeeps⟩ := State.warmReset_rest hu
  refine ⟨(State.warmReset_from hu).of_view ?_ ?_ ?_ ?_ ?_, ?_, fun f hf => hkeeps.haltedSaid (hsaid f hf)⟩
  case refine_6 => rw [hclock, hrest]
  all_goals rw [hrest]

/-- A function after its reset, and a Fold whose background command was the function's. -/
def Func.levelReset (x : Func) : Func := { x with
  q0 := Queue.dflt, q1 := Queue.dflt, mbStatus := 0, mbResp := [], waitingCqes := x.waitingCqes.filter (fun c => c.q != 0),
  msixDue := Vector.replicate 4 false }
def Fold.orphaned (x : Fold) (fn : FnId) : Fold :=
  { x with bg := x.bg.map fun b => if b.fn = fn.val then { b with orphan := true } else b }
theorem exec_functionLevelReset {t : Nat} {fn : FnId} {s u : State} (hu : s.tick t = u) : exec (.functionLevelReset t fn) s =
    .next { u.modFn fn Func.levelReset with folds := u.folds.map (Fold.orphaned · fn) } := by
  show execFunctionLevelReset t fn s = _
  simp only [execFunctionLevelReset, hu]
  rfl

/-- Settles O26, command by command. -/
theorem pciePinsAndFunctionResets : Obligations.PciePinsAndFunctionResets := by
  refine ⟨fun t s u hu hperst hmain hhalted => ?_, fun t s u hu hdown => ?_, fun t s u hu => ?_,
    fun t g n s u hu hperst hmain hlow hhigh hn => ?_, fun t fn s u hu => ?_, fun t fn s u hu => ?_⟩
  · have hexec := exec_perstAssert hu
    rw [if_neg (by simp [hperst, hmain])] at hexec
    obtain ⟨hwarm, hclock, hsaid⟩ := State.perstReset_from hhalted
    have hs : u.folds = s.folds ∧ u.kept = s.kept ∧ u.sec = s.sec ∧ u.shep = s.shep ∧ u.cfg = s.cfg := by simp [← hu]
    obtain ⟨hfolds, hkept, hsec, hshep, hcfg⟩ := hs
    replace hwarm := hwarm.of_view hfolds hkept hsec hshep hcfg
    have hfold (f : FoldId) : u.fold f = s.fold f := by rw [State.fold, hfolds]; rfl
    simp only [hfold] at hsaid
    generalize u.perstReset = w at hexec hwarm hclock hsaid
    refine ⟨_, hexec, hwarm, rfl, rfl, rfl, hclock, fun f hf => ?_⟩
    obtain ⟨e, he, hcode, hsealed, -⟩ := hsaid f hf
    exact ⟨e, he, hcode, hsealed⟩
  · have hexec := exec_perstAssert hu
    rwa [if_pos (by obtain h | h := hdown <;> simp [h])] at hexec
  · show execPerstDeassert t s = _
    simp only [execPerstDeassert, hu]
  · obtain ⟨hgen, hwidth, hfolds, hcfg, hstores, hchanged⟩ := u.rated_rest g n
    refine ⟨_, exec_pcieRateChange hu hperst hmain hlow hhigh hn, ?_⟩
    have hsays := keepsWaiting.updateLevel (u.rated g n)
    have hlevel := (u.rated g n).updateLevel_computeLevel
    have hq := queuesOnly.flushes (List.finRange 17) (u.rated g n).updateLevel
    rw [← hq.computeLevel] at hlevel
    have hs : u.folds = s.folds ∧ u.cfg = s.cfg ∧ storesSame s u ∧ u.pcie = s.pcie := by simp [← hu, storesSame]
    obtain ⟨sfolds, scfg, ⟨stiles, shbms, schans⟩, spcie⟩ := hs
    obtain ⟨htiles, hhbms, hchans⟩ := hstores
    generalize (List.finRange 17).foldl State.flush (u.rated g n).updateLevel = w at hq hlevel
    have hrest : w.pcie = (u.rated g n).pcie ∧ w.power = (u.rated g n).updateLevel.power ∧ w.folds = s.folds ∧ w.cfg = s.cfg ∧
        storesSame s w ∧ w.events = (u.rated g n).updateLevel.events := by
      rw [hq]
      simp [storesSame, hfolds, hcfg, htiles, hhbms, hchans, sfolds, scfg, stiles, shbms, schans]
    obtain ⟨wpcie, wpower, wfolds, wcfg, wstores, wevents⟩ := hrest
    refine ⟨by rw [wpcie, hgen], by rw [wpcie, hwidth], fun hup hne => ?_, by rw [wpower, hlevel], wfolds, wcfg, wstores⟩
    obtain ⟨hcount, hsaid⟩ := hchanged hup hne
    rw [spcie] at hcount
    exact ⟨by rw [wpcie, hcount], (hsays.trans (.of_events wevents)).reports hsaid⟩
  · have hs : u.cfg = s.cfg ∧ storesSame s u ∧ (∀ v, u.fn v = s.fn v) ∧ ∀ f, u.fold f = s.fold f := by simp [← hu, storesSame]
    obtain ⟨hcfg, hstores, hfn, hfold⟩ := hs
    have hexec := exec_functionLevelReset (fn := fn) hu
    have hself : (u.modFn fn Func.levelReset).fn fn = (s.fn fn).levelReset := by rw [State.modFn_same, hfn]
    generalize hw : ({ u.modFn fn Func.levelReset with folds := u.folds.map (Fold.orphaned · fn) } : State) = w at hexec
    have hview : w.fn = (u.modFn fn Func.levelReset).fn ∧ w.folds = u.folds.map (Fold.orphaned · fn) ∧ w.cfg = u.cfg ∧
        storesSame u w := by
      rw [← hw]
      exact ⟨rfl, rfl, rfl, rfl, rfl, rfl⟩
    obtain ⟨wfn, wfolds, wcfg, wtiles, whbms, wchans⟩ := hview
    have wfold (f : FoldId) : w.fold f = (s.fold f).orphaned fn := by rw [State.fold, wfolds, vget_map, ← hfold]; rfl
    obtain ⟨htiles, hhbms, hchans⟩ := hstores
    rw [← wfn] at hself
    refine ⟨w, hexec, by rw [hself]; rfl, by rw [hself]; rfl, by rw [hself]; rfl, by rw [hself]; rfl, by rw [hself]; rfl,
      fun v hv => by rw [wfn, State.modFn_other _ _ _ _ hv, hfn], fun f => by rw [wfold]; rfl,
      fun f hf => by rw [wfold, Fold.orphaned, hf]; rfl,
      fun f b hf => by rw [wfold, Fold.orphaned, hf]; rfl, wcfg.trans hcfg, wtiles.trans htiles, whbms.trans hhbms, wchans.trans hchans⟩
  · show execIdeCheckFailed t fn s = _
    simp only [execIdeCheckFailed, hu]

end Sys2Proof.Machine
end

section
/-! PROOFS. Modules and the field bracket (17, R464, R467). -/

namespace Sys2Proof.Machine

/-! ## Modules and the field bracket -/

/-- The card with a module in a cage, before its service level follows. -/
def State.withModule (s : State) (c : Fin 2) (watts : Nat) : State := { s with
  power := { s.power with lowPower :=
    if c = 0 then (decide (20 < watts), s.power.lowPower.2) else (s.power.lowPower.1, decide (20 < watts)) }
  ports := Vector.ofFn fun p =>
    if p.val < portCount s.cfg.portLayout ∧ cageOf s.cfg.portLayout p.val = c.val then
      { s.port p with up := s.power.main && !decide (20 < watts) }
    else s.port p }
theorem exec_qsfpDdModuleInsert {t watts : Nat} {c : Fin 2} {s u : State} (hu : s.tick t = u) :
    exec (.qsfpDdModuleInsert t c watts) s = .next (u.withModule c watts).updateLevel := by
  show execQsfpDdModuleInsert t c watts s = _
  simp only [execQsfpDdModuleInsert, hu]
  rfl
theorem State.withModule_port (s : State) (c : Fin 2) (watts : Nat) (p : PortId) : (s.withModule c watts).port p =
    if p.val < portCount s.cfg.portLayout ∧ cageOf s.cfg.portLayout p.val = c.val then
      { s.port p with up := s.power.main && decide (watts ≤ 20) }
    else s.port p := by
  have hlow : (!decide (20 < watts)) = decide (watts ≤ 20) := by simp [← decide_not]
  rw [State.port, State.withModule, vget_ofFn, hlow]
theorem State.withModule_lowPower (s : State) (c : Fin 2) (watts : Nat) :
    (if c = 0 then (s.withModule c watts).power.lowPower.1 else (s.withModule c watts).power.lowPower.2) = decide (20 < watts) := by
  unfold State.withModule
  split <;> rfl

/-- The CAN controller joins with a node ID from 1 to 127 and says so; with any other it stays off the bus. -/
theorem State.canBoot_joins {s : State} (hlow : 1 ≤ s.canNode) (hhigh : s.canNode ≤ 127) :
    s.canBoot = ({ s with shep := { s.shep with nmt := 0x7F } }).send (.canNmt s.canNode) := by rw [State.canBoot, if_pos ⟨hlow, hhigh⟩]
theorem State.canBoot_stays {s : State} (h : s.canNode = 0 ∨ 127 < s.canNode) :
    s.canBoot = { s with shep := { s.shep with nmt := 0 } } := by
  rw [State.canBoot, if_neg (by omega)]
theorem exec_fbPresChange_low {t : Nat} {s u v : State} (hu : s.tick t = u)
    (hv : { u with shep := { u.shep with fbPresHigh := false } } = v) :
    exec (.fbPresChange t false) s =
      .next (if u.shep.fbPresHigh = true ∧ u.shep.up = true ∧ u.shep.restarting = false then v.canBoot else v) := by
  show execFbPresChange t false s = _
  simp only [execFbPresChange, hu, hv, Bool.not_false, Bool.and_true, Bool.false_eq_true, if_false]
  have hfitted : (u.shep.fbPresHigh && v.fieldUp) = true ↔
      u.shep.fbPresHigh = true ∧ u.shep.up = true ∧ u.shep.restarting = false := by
    simp [State.fieldUp, ← hv]
  simp only [hfitted]

/-- Settles O28, command by command. -/
theorem modulesAndTheFieldBracket : Obligations.ModulesAndTheFieldBracket := by
  refine ⟨fun t watts c s u hu => ?_, fun t s u v hu hv => ?_, fun t s u hu hup hrestart hpres hnmt hsilent hbeat => ?_⟩
  · have hs : u.cfg = s.cfg ∧ u.power = s.power ∧ u.folds = s.folds ∧ storesSame s u ∧ ∀ p, u.port p = s.port p := by
      simp [← hu, storesSame]
    obtain ⟨hcfg, hpower, hfolds, ⟨htiles, hhbms, hchans⟩, hports⟩ := hs
    have hport (p : PortId) := u.withModule_port c watts p
    simp only [hcfg, hpower, hports] at hport
    have hlevel (p : PortId) : (u.withModule c watts).updateLevel.port p = (u.withModule c watts).port p := by simp
    refine ⟨_, exec_qsfpDdModuleInsert hu, fun p hl hc => ?_, fun p hp => ?_, ?_, ?_⟩
    · rw [hlevel, hport, if_pos ⟨hl, hc⟩]
    · rw [hlevel, hport, if_neg hp]
    · simpa [State.updateLevel_power] using u.withModule_lowPower c watts
    · simp [storesSame, State.withModule, hfolds, hcfg, htiles, hhbms, hchans]
  · have hexec := exec_fbPresChange_low hu hv
    have hnode : v.canNode = u.canNode := by rw [← hv]; rfl
    refine ⟨?_, fun hhigh hup hrestart => ⟨?_, fun hlow hle => ?_, fun h => ?_⟩, fun h => ?_⟩
    · show execFbPresChange t true s = _
      simp only [execFbPresChange, hu]
      rfl
    · rw [hexec, if_pos ⟨hhigh, hup, hrestart⟩]
    · rw [State.canBoot_joins (by rwa [hnode]) (by rwa [hnode]), hnode]
    · exact State.canBoot_stays (by rwa [hnode])
    · rw [hexec, if_neg (by rintro ⟨h₁, h₂, h₃⟩; simp [h₁, h₂, h₃] at h)]
  · show execProducerHeartbeat t s = _
    simp [execProducerHeartbeat, hu, hup, hrestart, hpres, hnmt, hsilent, hbeat]

end Sys2Proof.Machine
end

section
/-! PROOFS. The milestones of the power-up (15, Table 15.1, R419 to R432; 17, Table 17.1). -/

namespace Sys2Proof.Machine

/-! ## The Shepherd and the rails (R419, R421, R422) -/

theorem cardSame_trans {s u w : State} (h : cardSame s u) (h' : cardSame u w) : cardSame s w := by
  obtain ⟨h₁, h₂, h₃, h₄, h₅, h₆, h₇, h₈, h₉⟩ := h
  obtain ⟨h₁', h₂', h₃', h₄', h₅', h₆', h₇', h₈', h₉'⟩ := h'
  exact ⟨h₁'.trans h₁, h₂'.trans h₂, h₃'.trans h₃, h₄'.trans h₄, h₅'.trans h₅, h₆'.trans h₆, h₇'.trans h₇, h₈'.trans h₈, h₉'.trans h₉⟩
/-- What a power-up of the Shepherd leaves: its own state, the configuration and what goes out. -/
theorem State.shepStart_rest (s : State) : cardSame s s.shepStart ∧ s.shepStart.shep.up = true ∧ s.shepStart.shep.restarting = false ∧
    s.shepStart.shep.alState = 1 ∧ s.shepStart.shep.norBad = s.shep.norBad ∧
    s.shepStart.cfg = (if s.power.main then s.cfg else s.shep.stored) := by
  unfold State.shepStart
  dsimp only
  split
  · exact ⟨⟨rfl, rfl, rfl, rfl, rfl, rfl, rfl, rfl, rfl⟩, rfl, rfl, rfl, rfl, rfl⟩
  · rw [State.canBoot_rest]
    exact ⟨⟨rfl, rfl, rfl, rfl, rfl, rfl, rfl, rfl, rfl⟩, rfl, rfl, rfl, rfl, rfl⟩

/-- The supplies of the Shepherd once one more has come up. -/
def suppliesWith (l : Bool × Bool × Bool) : Supply → Bool × Bool × Bool
  | .main => (true, l.2.1, l.2.2)
  | .poe => (l.1, true, l.2.2)
  | .aux => (l.1, l.2.1, true)
/-- The Shepherd on its supplies, with the firmware copies that do not verify marked. -/
def State.supplied (s : State) (src : Supply) (a b : FwSet) : State := { s with shep := { s.shep with
  supplies := suppliesWith s.shep.supplies src, source := preferred (suppliesWith s.shep.supplies src)
  norBad := (!s.setVerifies a, !s.setVerifies b) } }
theorem exec_shepherdSupplyUp {t : Nat} {src : Supply} {a b : FwSet} {s u : State} (hu : s.tick t = u) (hup : u.shep.up = false) :
    exec (.shepherdSupplyUp t src a b) s = .next (u.supplied src a b).shepStart := by
  show execShepherdSupplyUp t src a b s = _
  simp only [execShepherdSupplyUp, hu, hup, Bool.false_eq_true, if_false]
  cases src <;> rfl

/-- The card with main power on, on which `n` rails are up. -/
def State.mainUp (s : State) (watts n : Nat) : State := { s with
  shep := { s.shep with supplies := (true, s.shep.supplies.2.1, s.shep.supplies.2.2), source := .main, deferred := [] }
  power := { s.power with main := true, usableW := watts, railsUp := n } }
/-- The rails that are up before one of the sequence. -/
def railsBefore : Rail → Nat
  | .core => 0
  | .hbmVdd => 2
  | .hbmVddq => 3
theorem railsBefore_lt (r : Rail) : railsBefore r ≠ 4 := by cases r <;> decide
theorem State.supplyTrip_halts {s v : State} (h : haltView s v) (r : Rail) (mv : Nat) : haltedFrom s (v.supplyTrip r mv) ∧
    (v.supplyTrip r mv).power.main = v.power.main ∧ (v.supplyTrip r mv).power.railsUp = v.power.railsUp := by
  unfold State.supplyTrip
  refine ⟨(tripCard_reported h _ _).1, ?_, ?_⟩
  all_goals
    rw [(State.tripCard_power _).2]
    rfl
theorem State.applyDeferred_none {s : State} (h : s.shep.deferred = []) :
    s.applyDeferred = { s with shep := { s.shep with deferred := [] } } := by
  simp [State.applyDeferred, h]
theorem exec_mainPowerGood {t : Nat} {c g₀ g₁ : Bool} {s u : State} (hu : s.tick t = u) (hup : u.shep.up = true)
    (hmain : u.power.main = false) (hdeferred : u.shep.deferred = []) (fail : Option (Rail × Nat)) :
    exec (.mainPowerGood t c g₀ g₁ fail) s = .next (match fail with
      | none => u.mainUp (usablePower c g₀ g₁) 4
      | some (r, mv) => (u.mainUp (usablePower c g₀ g₁) (railsBefore r)).supplyTrip r mv) := by
  show execMainPowerGood t c g₀ g₁ fail s = _
  unfold execMainPowerGood
  dsimp only
  rw [hu, if_neg (by simp [hup, hmain]), State.applyDeferred_none (by exact hdeferred)]
  cases fail with
  | none => rfl
  | some x => obtain ⟨r, mv⟩ := x; cases r <;> rfl

theorem State.tick_stands {s : State} {t : Nat} (h : s.clock.running = false) : s.tick t = s := by simp [State.tick, h]

/-! ## The Stile links train (R428) -/

/-- The training of one link leaves Folds, entries and stores, and every other link, as they were. -/
theorem State.trainLink_rest (s : State) (x : LinkTraining) :
    cardKept s (s.trainLink x) ∧ ∀ k, k ≠ x.link → (s.trainLink x).link k = s.link k := by
  unfold State.trainLink
  dsimp only
  split
  · split
    · exact ⟨cardKept.trans ⟨rfl, rfl, rfl, rfl, rfl⟩ (State.startHello_wordsOnly _ _).cardKept,
        fun k hk => by rw [State.startHello_other _ hk, State.modLink_other _ _ _ _ hk]⟩
    · exact ⟨⟨rfl, rfl, rfl, rfl, rfl⟩, fun k hk => by simp [State.modLink_other _ _ _ _ hk]⟩
  · exact ⟨⟨rfl, rfl, rfl, rfl, rfl⟩, fun _ _ => rfl⟩
theorem State.trainLinks_rest (r : List LinkTraining) (s : State) :
    cardKept s (r.foldl State.trainLink s) ∧ ∀ k, (∀ x ∈ r, x.link ≠ k) → (r.foldl State.trainLink s).link k = s.link k := by
  induction r generalizing s with
  | nil => exact ⟨⟨rfl, rfl, rfl, rfl, rfl⟩, fun _ _ => rfl⟩
  | cons x r ih =>
    obtain ⟨hkept, hother⟩ := s.trainLink_rest x
    obtain ⟨hrest, hlinks⟩ := ih (s.trainLink x)
    refine ⟨hkept.trans hrest, fun k hk => ?_⟩
    obtain ⟨hx, hr⟩ := List.forall_mem_cons.1 hk
    rw [List.foldl_cons, hlinks k hr, hother k hx.symm]
section
variable {s : State} {x : LinkTraining} {cm : Nat} {p : Nat × Bool}
theorem State.trainLink_up (hcable : cableLength x.cable = some cm) (hpartner : cablePartner s.topology s.card x.link.val = some p)
    (h : x.trained = true) : ((s.trainLink x).link x.link).state = 2 ∧ ((s.trainLink x).link x.link).outOfUse = false ∧
      ((s.trainLink x).link x.link).partner = p.1 := by
  obtain ⟨c, n⟩ := p
  unfold State.trainLink
  simp only [hcable, hpartner, h, if_true]
  obtain ⟨q, hq⟩ := (State.startHello_wordsOnly (s.modLink x.link fun k =>
    { k with state := 2, partner := c, outOfUse := false, cable := some cm, timeInterval := some (s.now / 65536) }) x.link).2 x.link
  rw [hq, State.modLink_same]
  exact ⟨rfl, rfl, rfl⟩
theorem State.trainLink_down (hcable : cableLength x.cable = some cm) (hpartner : cablePartner s.topology s.card x.link.val = some p)
    (h : x.trained = false) : ((s.trainLink x).link x.link).state = 0 ∧ ((s.trainLink x).link x.link).outOfUse = true := by
  obtain ⟨c, n⟩ := p
  have hlink : (s.trainLink x).link x.link = { s.link x.link with state := 0, outOfUse := true, cable := some cm } := by
    unfold State.trainLink
    simp [hcable, hpartner, h]
  rw [hlink]
  exact ⟨rfl, rfl⟩
theorem State.trainLink_unread (hcable : cableLength x.cable = none) : s.trainLink x = s := by
  unfold State.trainLink
  simp only [hcable]
end

/-! ## The stacks that fail their training (R429) -/

theorem State.hbmFail_hbm (s : State) (j k : StackId) :
    (s.hbmFail j).hbm k = (s.modHbm j fun x => { x with lost := true }).hbm k := rfl
theorem State.hbmFails_stacks (l : List StackId) (s : State) : (l.foldl State.hbmFail s).folds = s.folds ∧
    (l.foldl State.hbmFail s).tiles = s.tiles ∧ (l.foldl State.hbmFail s).cfg = s.cfg ∧
    ∀ k, (l.foldl State.hbmFail s).hbm k = if k ∈ l then { s.hbm k with lost := true } else s.hbm k := by
  induction l generalizing s with
  | nil => exact ⟨rfl, rfl, rfl, fun _ => rfl⟩
  | cons j l ih =>
    obtain ⟨hfolds, htiles, hcfg, hstacks⟩ := ih (s.hbmFail j)
    refine ⟨hfolds, htiles, hcfg, fun k => ?_⟩
    have hsame : (s.hbmFail j).hbm j = { s.hbm j with lost := true } := by rw [State.hbmFail_hbm, State.modHbm_same]
    have hother (hk : k ≠ j) : (s.hbmFail j).hbm k = s.hbm k := by rw [State.hbmFail_hbm, State.modHbm_other _ _ _ _ hk]
    rw [List.foldl_cons, hstacks]
    by_cases hk : k = j
    · subst hk
      simp [hsame]
    · simp [hk, hother hk]

/-! ## The quadrants that fail their self-test (R430) -/

/-- A quadrant is out of service, in its own state and in the mappings. -/
def State.quadOut (s w : State) (q : QuadId) : Prop := w.quad q = { s.quad q with state := 2 } ∧ w.quadServes q = false
/-- A quadrant serves as it did. -/
def State.quadAs (s w : State) (q : QuadId) : Prop := w.quad q = s.quad q ∧ w.quadServes q = s.quadServes q

theorem State.quadFail_rest (s : State) (q : QuadId) : cardKept s (s.quadFail q) ∧ s.quadOut (s.quadFail q) q ∧
    ∀ p, p ≠ q → s.quadAs (s.quadFail q) p := by
  unfold State.quadFail
  generalize hv : (s.modQuad q fun x => { x with state := 2 }).emit 0 0x0A01 (le 1 4 ++ le 2 q.val) = v
  have hkept : cardKept s v := hv ▸ ⟨rfl, rfl, rfl, rfl, rfl⟩
  have hsame : v.quad q = { s.quad q with state := 2 } := by simp [← hv]
  have hother (p : QuadId) (hp : p ≠ q) : v.quad p = s.quad p := by simp [← hv, State.modQuad_other _ _ _ _ hp]
  have hserves (p : QuadId) : v.quadServes p = s.quadServes p := State.quadServes_congr hkept.2.1 (hv ▸ rfl) p
  obtain ⟨htiles, hquads, hfolds, hhbms, hchans, -⟩ := v.outOfMappings_rest q
  have hquad (p : QuadId) : (v.outOfMappings q).quad p = v.quad p := by rw [State.quad, hquads, State.quad]
  refine ⟨hkept.trans ⟨hfolds, by simp, htiles, hhbms, hchans⟩, ⟨by rw [hquad, hsame], v.outOfMappings_serves_same q⟩, fun p hp =>
    ⟨by rw [hquad, hother p hp], by rw [v.outOfMappings_serves_other hp, hserves]⟩⟩
theorem State.quadFails_rest (l : List QuadId) (s : State) : cardKept s (l.foldl State.quadFail s) ∧
    ∀ q, (q ∈ l → s.quadOut (l.foldl State.quadFail s) q) ∧ (q ∉ l → s.quadAs (l.foldl State.quadFail s) q) := by
  induction l generalizing s with
  | nil => exact ⟨⟨rfl, rfl, rfl, rfl, rfl⟩, fun q => ⟨fun h => absurd h List.not_mem_nil, fun _ => ⟨rfl, rfl⟩⟩⟩
  | cons p l ih =>
    obtain ⟨hkept, ⟨hquad, hserves⟩, hothers⟩ := s.quadFail_rest p
    obtain ⟨hrest, hquads⟩ := ih (s.quadFail p)
    refine ⟨hkept.trans hrest, fun q => ?_⟩
    obtain ⟨hin, hout⟩ := hquads q
    rw [List.foldl_cons]
    generalize l.foldl State.quadFail (s.quadFail p) = w at hin hout
    by_cases hq : q = p
    · subst hq
      refine ⟨fun _ => ?_, fun h => absurd List.mem_cons_self h⟩
      by_cases hl : q ∈ l
      · obtain ⟨h₁, h₂⟩ := hin hl
        exact ⟨by rw [h₁, hquad], h₂⟩
      · obtain ⟨h₁, h₂⟩ := hout hl
        exact ⟨by rw [h₁, hquad], by rw [h₂, hserves]⟩
    · obtain ⟨hsame, hsame'⟩ := hothers q hq
      refine ⟨fun h => ?_, fun h => ?_⟩
      · obtain ⟨h₁, h₂⟩ := hin (List.mem_of_ne_of_mem hq h)
        exact ⟨by rw [h₁, hsame], h₂⟩
      · obtain ⟨h₁, h₂⟩ := hout (fun hl => h (List.mem_cons_of_mem _ hl))
        exact ⟨h₁.trans hsame, h₂.trans hsame'⟩
theorem State.quadFails_power (l : List QuadId) (s : State) : (l.foldl State.quadFail s).power = s.power :=
  foldl_view State.power _ (fun s q => by simp [State.quadFail, (State.outOfMappings_rest _ q).2.2.2.2.2.1]) l s
/-- The quadrants with a tile whose report of the ROM self-test is wrong. -/
def badQuads (l : List TileReport) : List QuadId := (List.finRange 4).filter fun q => l.any fun r => quadOfTile r.tile == q && reportBad r
theorem mem_badQuads {l : List TileReport} {q : QuadId} : q ∈ badQuads l ↔ ∃ r ∈ l, quadOfTile r.tile = q ∧ reportBad r = true := by
  simp [badQuads]
theorem exec_selfTestDone {t : Nat} {l : List TileReport} {e : List (Nat × Nat)} {s u : State} (hu : s.tick t = u)
    (hboot : u.power.booted = true) (htest : u.power.selfTested = false) (hhalt : u.power.halted = false) :
    ∃ v, reportsOnly ((badQuads l).foldl State.quadFail u) v ∧ exec (.selfTestDone t l e) s =
      .next { v with power := { v.power with selfTested := true, engineFailed := v.power.engineFailed || !e.isEmpty } } := by
  refine ⟨e.foldl (fun s e => s.emit 0 0x0A01 (le 1 e.1 ++ le 2 e.2)) _, .foldl (fun s a => .emit ..) _ _, ?_⟩
  show execSelfTestDone t l e s = _
  simp only [execSelfTestDone, hu, hboot, htest, hhalt, Bool.not_true, Bool.or_self, Bool.false_eq_true, if_false]
  rfl

/-! ## READY (R431, R432) -/

/-- The card that reports READY, before its service level follows. -/
def State.madeReady (s : State) (ms : Nat) : State := ({ s with power := { s.power with ready := true } }).emit 0 0x0A03 (le 4 ms)
/-- The card takes its service level and reports it, also where it stays. -/
def State.levelSaid (s : State) : State :=
  if s.computeLevel = s.power.level then s.emit 0 0x0908 [BitVec.ofNat 8 s.power.level, BitVec.ofNat 8 s.power.level] else s.updateLevel
theorem exec_ready {t ms : Nat} {s u : State} (hu : s.tick t = u) (hboot : u.power.booted = true) (hready : u.power.ready = false)
    (hhalt : u.power.halted = false) (htest : u.power.selfTested = true) (hhbm : u.power.hbmTrained = true)
    (hstile : u.topology = 1 ∨ u.power.stileTrained = true ∧ u.windowClosed ms = true) :
    exec (.ready t ms) s = .next (u.madeReady ms).levelSaid := by
  show execReady t ms s = _
  unfold execReady
  dsimp only
  rw [hu, if_neg (by simpa [hboot, hready, hhalt, htest, hhbm] using or_iff_not_imp_left.1 hstile), State.levelSaid, apply_ite Host.Outcome.next]
  rfl
theorem keepsWaiting.sendVec (s : State) (n : FnId) (vec : Fin 4) : keepsWaiting s (s.sendVec n vec) := .of_events (by simp)
theorem State.reports_updateLevel {s : State} (h : s.computeLevel ≠ s.power.level) : s.updateLevel.reports 0x0908 := by
  unfold State.updateLevel
  dsimp only
  rw [if_neg h]
  exact (keepsWaiting.sendVec _ _ _).reports (State.reports_emit_same ..)
theorem State.levelSaid_rest (s : State) : keepsWaiting s s.levelSaid ∧ s.levelSaid.reports 0x0908 ∧
    s.levelSaid.power.level = s.levelSaid.computeLevel ∧ s.levelSaid.power.ready = s.power.ready ∧ s.levelSaid.clock = s.clock ∧
    cardKept s s.levelSaid := by
  unfold State.levelSaid
  split
  next h => exact ⟨.emit .., State.reports_emit_same .., h.symm, rfl, rfl, rfl, rfl, rfl, rfl, rfl⟩
  next h =>
    exact ⟨.updateLevel s, State.reports_updateLevel h, s.updateLevel_computeLevel, by rw [s.updateLevel_power], by simp, by simp, by simp,
      by simp [storesSame]⟩

/-- Settles O23, milestone by milestone. -/
theorem powerUpToReady : Obligations.PowerUpToReady := by
  refine ⟨fun t src a b s u hu hup => ?_, fun t c g₀ g₁ s u hu hup hmain hdef => ?_, fun t c g₀ g₁ r mv s u hu hup hmain hdef => ?_,
    fun t s u hu hmain hrun hhalt => ⟨?_, ?_⟩, fun t r s u hu hboot htrain hhalt htop => ?_, fun t l s u hu hboot htrain hhalt => ?_,
    fun t l e s u hu hboot htest hhalt => ?_, fun t ms s u hu hboot hready hhalt htest hhbm hstile => ?_⟩
  · obtain ⟨hsame, hon, hrestart, hal, hbad, hcfg⟩ := (u.supplied src a b).shepStart_rest
    have hs : cardSame s (u.supplied src a b) ∧ u.power = s.power ∧ u.cfg = s.cfg ∧ u.shep = s.shep := by
      simp [cardSame, State.supplied, ← hu]
    obtain ⟨hcard, hpower, hcfg', hshep⟩ := hs
    refine ⟨_, exec_shepherdSupplyUp hu hup, hon, hrestart, hal, ?_, hbad, cardSame_trans hcard hsame⟩
    rw [hcfg]
    simp only [State.supplied, hpower, hcfg', hshep]
  · refine ⟨_, exec_mainPowerGood hu hup hmain hdef none, ?_⟩
    have hwatts : usablePower c g₀ g₁ = if c then (if g₀ then (if g₁ then 600 else 375) else (if g₁ then 525 else 225)) else 75 := by
      cases c <;> cases g₀ <;> cases g₁ <;> rfl
    simp [State.mainUp, hwatts, cardSame, ← hu]
  · have hview : haltView s (u.mainUp (usablePower c g₀ g₁) (railsBefore r)) := by simp [haltView, State.mainUp, ← hu]
    have hexec := exec_mainPowerGood (c := c) (g₀ := g₀) (g₁ := g₁) hu hup hmain hdef (some (r, mv))
    have hpower : (u.mainUp (usablePower c g₀ g₁) (railsBefore r)).power.main = true ∧
        (u.mainUp (usablePower c g₀ g₁) (railsBefore r)).power.railsUp = railsBefore r := ⟨rfl, rfl⟩
    dsimp only at hexec
    generalize u.mainUp (usablePower c g₀ g₁) (railsBefore r) = v at hview hexec hpower
    obtain ⟨hmain', hrails⟩ := hpower
    obtain ⟨hhalted, hkeepMain, hkeepRails⟩ := State.supplyTrip_halts hview r mv
    exact ⟨_, hexec, hkeepMain.trans hmain', by rw [hkeepRails, hrails]; exact railsBefore_lt r, hhalted⟩
  · show execPllLock t true s = _
    simp [execPllLock, hu, hmain, hrun, hhalt]
  · refine ⟨u.tripCard, ?_, haltedFrom_tripCard (hu ▸ .tick s t), ?_⟩
    · show execPllLock t false s = _
      simp [execPllLock, hu, hmain, hrun, hhalt]
    · rw [u.tripCard_power.1, ← hu, State.tick_stands (by rw [← State.tick_running s t, hu, hrun])]
  · obtain ⟨hkept, hlinks⟩ := State.trainLinks_rest r u
    obtain ⟨hfolds, hcfg, hstores⟩ := (hu ▸ s.tick_cardKept t : cardKept s u).trans hkept
    have hlink : u.links = s.links := by simp [← hu]
    refine ⟨{ r.foldl State.trainLink u with power := { (r.foldl State.trainLink u).power with stileTrained := true } }, ?_, rfl, fun k hk => ?_,
      hfolds, hcfg, hstores, fun x c p hr hcable hpartner => ?_, fun x hr hcable => ?_⟩
    · show execStileTrainingDone t r s = _
      simp [execStileTrainingDone, hu, hboot, htrain, hhalt, htop]
    · exact (hlinks k hk).trans (by rw [State.link, hlink, State.link])
    · subst hr
      exact ⟨State.trainLink_up hcable hpartner, State.trainLink_down hcable hpartner⟩
    · subst hr
      rw [List.foldl_cons, State.trainLink_unread hcable]
      exact hlink
  · obtain ⟨hfolds, htiles, hcfg, hstacks⟩ := State.hbmFails_stacks l.dedup u
    have hs : u.folds = s.folds ∧ u.tiles = s.tiles ∧ u.cfg = s.cfg ∧ ∀ k, u.hbm k = s.hbm k := by simp [← hu]
    obtain ⟨hfolds', htiles', hcfg', hstacks'⟩ := hs
    refine ⟨{ l.dedup.foldl State.hbmFail u with power := { (l.dedup.foldl State.hbmFail u).power with hbmTrained := true } }, ?_, rfl,
      fun k => ?_, hfolds.trans hfolds', htiles.trans htiles', hcfg.trans hcfg'⟩
    · show execHbmTrainingDone t l s = _
      simp [execHbmTrainingDone, hu, hboot, htrain, hhalt]
    · exact (hstacks k).trans (by simp only [List.mem_dedup, hstacks'])
  · obtain ⟨v, hreports, hexec⟩ := exec_selfTestDone (e := e) (l := l) hu hboot htest hhalt
    obtain ⟨hkept, hquads⟩ := State.quadFails_rest (badQuads l) u
    have hs : cardKept s u ∧ u.quads = s.quads ∧ u.heath = s.heath ∧ u.power = s.power := by
      simp [cardKept, storesSame, ← hu]
    obtain ⟨hticked, hquad, hheath, hpower⟩ := hs
    generalize hw : (badQuads l).foldl State.quadFail u = w at *
    have hwp : w.power = s.power := by rw [← hw, State.quadFails_power, hpower]
    obtain ⟨hfolds, hcfg, hstores⟩ := hticked.trans hkept
    have hv : (∀ q, v.quad q = w.quad q ∧ v.quadServes q = w.quadServes q) ∧ v.power = w.power ∧ v.folds = w.folds ∧ v.cfg = w.cfg ∧
        storesSame w v := by
      rw [hreports.rest]
      exact ⟨fun q => ⟨rfl, rfl⟩, rfl, rfl, rfl, rfl, rfl, rfl⟩
    obtain ⟨hvq, hvp, hvf, hvc, hvs⟩ := hv
    have hsq (q : QuadId) : u.quad q = s.quad q := by rw [State.quad, hquad, State.quad]
    refine ⟨_, hexec, rfl, by simp [hvp, hwp], fun q hq => ?_, fun q hq => ?_, hvf.trans hfolds, hvc.trans hcfg, hstores.trans hvs⟩
    · obtain ⟨r, hr, hrq, hbad⟩ := hq
      obtain ⟨hquad, hserves⟩ := (hquads q).1 (mem_badQuads.2 ⟨r, hr, hrq, by simpa [reportBad] using hbad⟩)
      exact ⟨(hvq q).1.trans (by rw [hquad, hsq]), (hvq q).2.trans hserves⟩
    · obtain ⟨hquad, hserves⟩ := (hquads q).2 fun hmem => by
        obtain ⟨r, hr, hrq, hbad⟩ := mem_badQuads.1 hmem
        simp [reportBad, hq r hr hrq] at hbad
      exact ⟨(hvq q).1.trans (by rw [hquad, hsq]), (hvq q).2.trans (by rw [hserves, State.quadServes_congr hticked.2.1 hheath])⟩
  · obtain ⟨hwaits, hlevel, hcomputed, hready', hclock, hkept⟩ := (u.madeReady ms).levelSaid_rest
    have hmade : cardKept u (u.madeReady ms) := ⟨rfl, rfl, rfl, rfl, rfl⟩
    obtain ⟨hfolds, hcfg, hstores⟩ := ((hu ▸ s.tick_cardKept t : cardKept s u).trans hmade).trans hkept
    exact ⟨_, exec_ready hu hboot hready hhalt htest hhbm hstile, hready', hcomputed, hwaits.reports (State.reports_emit_same ..), hlevel, hclock,
      hfolds, hcfg, hstores⟩

end Sys2Proof.Machine
end

section
/-! PROOFS. The evidence card (16, R440 to R454) and the boot from a verified set (15, R423, R424; 16, R446; 18, R498). -/

namespace Sys2Proof.Machine

/-! ## What the journal changes -/

/-- Only the evidence card's own state and what leaves the card have changed. -/
structure journalOnly (s w : State) : Prop where
  rest : w = { s with sd := w.sd, out := w.out }
/-- The journal may also have taken an object from a Fold. -/
structure journalStep (s w : State) : Prop where
  rest : w = { s with sd := w.sd, out := w.out, folds := w.folds }

theorem journalOnly.refl (s : State) : journalOnly s s := ⟨rfl⟩
theorem journalOnly.trans {s u w : State} (h : journalOnly s u) (h' : journalOnly u w) : journalOnly s w := ⟨by rw [h'.rest, h.rest]⟩
theorem journalOnly.of_sd (s : State) (e : Evidence) : journalOnly s { s with sd := e } := ⟨rfl⟩
theorem journalOnly.send (s : State) (o : Output) : journalOnly s (s.send o) := ⟨by unfold State.send; split <;> rfl⟩
theorem journalOnly.step {s w : State} (h : journalOnly s w) : journalStep s w := ⟨by rw [h.rest]⟩
theorem journalStep.trans {s u w : State} (h : journalStep s u) (h' : journalStep u w) : journalStep s w := ⟨by rw [h'.rest, h.rest]⟩
theorem journalOnly.same {s w : State} (h : journalOnly s w) :
    cardKept s w ∧ w.events = s.events ∧ w.power = s.power ∧ w.sec = s.sec ∧ w.shep = s.shep := by
  rw [h.rest]
  exact ⟨⟨rfl, rfl, rfl, rfl, rfl⟩, rfl, rfl, rfl, rfl⟩
theorem journalStep.same {s w : State} (h : journalStep s w) : storesSame s w ∧ w.cfg = s.cfg ∧ w.events = s.events := by
  rw [h.rest]
  exact ⟨⟨rfl, rfl, rfl⟩, rfl, rfl⟩

theorem State.bindLabel_journalOnly (s : State) : journalOnly s s.bindLabel := by
  unfold State.bindLabel
  split
  · exact .refl s
  · split
    · exact .refl s
    · exact (journalOnly.of_sd s _).trans ((journalOnly.send _ _).trans (.send _ _))
theorem State.sendPage_journalOnly (s : State) : journalOnly s s.sendPage := by
  unfold State.sendPage
  split
  · exact .refl s
  · exact s.bindLabel_journalOnly.trans ((journalOnly.of_sd _ _).trans (.send _ _))
theorem State.choosePage_journalStep (s : State) : journalStep s s.choosePage := by
  unfold State.choosePage
  dsimp only
  (repeat' split) <;> exact ⟨rfl⟩
theorem State.advanceJournal_journalStep (s : State) : journalStep s s.advanceJournal := by
  unfold State.advanceJournal
  dsimp only
  split
  · exact (journalOnly.refl s).step
  · split
    · exact s.choosePage_journalStep
    · exact s.choosePage_journalStep.trans ((journalOnly.of_sd _ _).trans (State.sendPage_journalOnly _)).step

/-- Position, rewrite mark, permission and presence of the card are the same. -/
structure Evidence.sameCard (a b : Evidence) : Prop where
  next : b.nextJ = a.nextJ
  rewriting : b.rewriting = a.rewriting
  journal : b.journal = a.journal
  present : b.card.isSome = a.card.isSome

theorem Evidence.sameCard.trans {a b c : Evidence} (h : a.sameCard b) (h' : b.sameCard c) : a.sameCard c :=
  ⟨h'.next.trans h.next, h'.rewriting.trans h.rewriting, h'.journal.trans h.journal, h'.present.trans h.present⟩
theorem State.send_sd (s : State) (o : Output) : (s.send o).sd = s.sd := by simp
theorem State.bindLabel_sd (s : State) : s.sd.sameCard s.bindLabel.sd ∧ s.bindLabel.sd.flight = s.sd.flight := by
  unfold State.bindLabel
  split
  · exact ⟨⟨rfl, rfl, rfl, rfl⟩, rfl⟩
  next c hcard =>
    split
    · exact ⟨⟨rfl, rfl, rfl, rfl⟩, rfl⟩
    · simp only [State.send_sd]
      exact ⟨⟨rfl, rfl, rfl, by simp [hcard]⟩, trivial⟩
theorem State.sendPage_sd {s : State} (h : s.sd.flight.isSome = true) :
    s.sd.sameCard s.sendPage.sd ∧ s.sendPage.sd.flight = s.sd.flight ∧ s.sendPage.sd.phase = 1 := by
  obtain ⟨p, hp⟩ := Option.isSome_iff_exists.1 h
  obtain ⟨⟨hnext, hrewriting, hjournal, hpresent⟩, hflight⟩ := s.bindLabel_sd
  unfold State.sendPage
  simp only [hp, State.send_sd]
  exact ⟨⟨hnext, hrewriting, hjournal, hpresent⟩, hflight.trans hp, trivial⟩
theorem State.choosePage_sd (s : State) : s.sd.sameCard s.choosePage.sd ∧ s.choosePage.sd.phase = s.sd.phase := by
  unfold State.choosePage
  dsimp only
  (repeat' split) <;> exact ⟨⟨rfl, rfl, rfl, rfl⟩, rfl⟩
theorem State.choosePage_staged {s : State} (h : s.sd.staged.isSome = true) : s.choosePage = s := by rw [State.choosePage, if_pos h]
/-- A page is sent, with its number, only where nothing was outstanding. -/
theorem State.advanceJournal_sd (s : State) : s.sd.sameCard s.advanceJournal.sd ∧
    (s.advanceJournal.sd.phase = s.sd.phase ∨ s.advanceJournal.sd.phase = 1) := by
  unfold State.advanceJournal
  dsimp only
  split
  · exact ⟨⟨rfl, rfl, rfl, rfl⟩, .inl rfl⟩
  · obtain ⟨hcard, hphase⟩ := s.choosePage_sd
    split
    · exact ⟨hcard, .inl hphase⟩
    next h =>
      simp only [Bool.or_eq_true, not_or, Bool.not_eq_true, Option.isNone_eq_false_iff] at h
      obtain ⟨hsent, -, hone⟩ := State.sendPage_sd (s := { s.choosePage with sd := { s.choosePage.sd with
        flight := s.choosePage.sd.staged, staged := none } }) h.1.1.1
      exact ⟨hcard.trans ⟨hsent.next, hsent.rewriting, hsent.journal, hsent.present⟩, .inr hone⟩
theorem State.advanceJournal_busy {s : State} (h : s.sd.phase ≠ 0 ∨ s.sd.flight.isSome = true) : s.advanceJournal = s := by
  rw [State.advanceJournal, if_pos (by simpa using h)]

/-! ## A page commits (R448, R449, R452) -/

theorem State.wearCheck_reports (s : State) : reportsOnly s ((List.range (((if 80 ≤ s.sd.life then 1 else 0) +
    (if 90 ≤ s.sd.life then 1 else 0) + (if 100 ≤ s.sd.life then 1 else 0)) - s.sd.wear)).foldl
      (fun v _ => v.emit unitSd 0x0A07 (le 1 s.sd.life)) s) := .foldl (fun _ _ => .emit ..) _ s
/-- A wear check changes the threshold reported and the events that wait. -/
theorem State.wearCheck_rest (s : State) : keepsWaiting s s.wearCheck ∧ storesSame s s.wearCheck ∧
    s.sd.sameCard s.wearCheck.sd ∧ s.wearCheck.sd.phase = s.sd.phase := by
  have hreports := s.wearCheck_reports
  unfold State.wearCheck
  dsimp only
  generalize (List.range _).foldl _ s = u at hreports
  obtain ⟨hrest, hkeeps⟩ := hreports
  have hsd : u.sd = s.sd := by rw [hrest]
  refine ⟨hkeeps.trans (.of_events rfl), ?_, ?_, ?_⟩
  · rw [hrest]
    exact ⟨rfl, rfl, rfl⟩
  · rw [hsd]
    exact ⟨rfl, rfl, rfl, rfl⟩
  · rw [hsd]
theorem State.ackCommitted_rest (s : State) (p : JPage) : (s.ackCommitted p).sd = s.sd ∧ (s.ackCommitted p).events = s.events ∧
    storesSame s (s.ackCommitted p) := by
  unfold State.ackCommitted State.ackPage
  (repeat' split) <;> exact ⟨rfl, rfl, rfl, rfl, rfl⟩
/-- The journal after the commit record of its page, before the page is acknowledged. -/
def Evidence.committed (e : Evidence) : Evidence := { e with nextJ := e.nextJ + 1, flight := none, phase := 0, rewriting := false }
/-- A rewritten page is reported. -/
def State.saidRewritten (s : State) (again : Bool) (j : Nat) : State := if again then s.emit unitSd 0x0A06 (le 8 j) else s
/-- What a step of the commit keeps of the journal and of the events that wait. -/
structure commitStep (s w : State) : Prop where
  sd : s.sd.sameCard w.sd
  waits : keepsWaiting s w
  stores : storesSame s w
  settings : w.cfg = s.cfg
theorem commitStep.trans {s u w : State} (h : commitStep s u) (h' : commitStep u w) : commitStep s w :=
  ⟨h.sd.trans h'.sd, h.waits.trans h'.waits, h.stores.trans h'.stores, h'.settings.trans h.settings⟩
theorem Evidence.sameCard.of_eq {a b : Evidence} (h : b = a) : a.sameCard b := h ▸ ⟨rfl, rfl, rfl, rfl⟩
theorem State.saidRewritten_step (s : State) (again : Bool) (j : Nat) : commitStep s (s.saidRewritten again j) ∧
    (s.saidRewritten again j).sd.phase = s.sd.phase := by
  unfold State.saidRewritten
  split
  · exact ⟨⟨.of_eq rfl, .emit .., ⟨rfl, rfl, rfl⟩, rfl⟩, rfl⟩
  · exact ⟨⟨.of_eq rfl, .refl s, ⟨rfl, rfl, rfl⟩, rfl⟩, rfl⟩
theorem State.saidRewritten_says (s : State) (j : Nat) :
    ∃ e ∈ (s.saidRewritten true j).events.waiting, e.code = 0x0A06 ∧ e.detail = padTo 16 (le 8 j) :=
  ⟨_, List.mem_append_right _ (List.mem_singleton_self _), rfl, rfl⟩
theorem State.closeCommit_step (s : State) : commitStep s s.wearCheck.advanceJournal ∧
    (s.wearCheck.advanceJournal.sd.phase = s.sd.phase ∨ s.wearCheck.advanceJournal.sd.phase = 1) := by
  obtain ⟨hkeeps, hstores, hcard, hphase⟩ := s.wearCheck_rest
  obtain ⟨hcard', hphase'⟩ := s.wearCheck.advanceJournal_sd
  obtain ⟨hstores', -, hevents⟩ := s.wearCheck.advanceJournal_journalStep.same
  exact ⟨⟨hcard.trans hcard', hkeeps.trans (.of_events hevents), hstores.trans hstores', by simp⟩, by rw [← hphase]; exact hphase'⟩

section
variable {t : Nat} {s u : State}
theorem exec_journalCommitBusyEnd {p : JPage} (hu : s.tick t = u) (hflight : u.sd.flight = some p) (hphase : u.sd.phase = 2)
    (hhalt : u.power.halted = false) : exec (.journalCommitBusyEnd t) s =
      .next ((({ u with sd := u.sd.committed }).ackCommitted p).saidRewritten u.sd.rewriting u.sd.nextJ).wearCheck.advanceJournal := by
  show execJournalCommitBusyEnd t s = _
  simp only [execJournalCommitBusyEnd, hu, hflight, hphase, hhalt]
  rfl
theorem exec_journalCommitBusyEnd_idle (hu : s.tick t = u) (h : u.sd.flight = none ∨ u.sd.phase ≠ 2 ∨ u.power.halted = true) :
    exec (.journalCommitBusyEnd t) s = .next u := by
  show execJournalCommitBusyEnd t s = _
  simp only [execJournalCommitBusyEnd, hu]
  split
  · rfl
  next hflight => rw [if_pos (by simpa [hflight] using h)]
theorem exec_journalPageBusyEnd {p : JPage} (hu : s.tick t = u) (hflight : u.sd.flight = some p) (hphase : u.sd.phase = 1)
    (hhalt : u.power.halted = false) : exec (.journalPageBusyEnd t) s =
      .next (({ u with sd := { u.sd with phase := 2, written := u.sd.written + 512 } }).send
        (.sdWrite (u.sd.block u.sd.nextJ + 32) (commitBytes p u.sd.nextJ (u.sd.block u.sd.nextJ) u.now))) := by
  show execJournalPageBusyEnd t s = _
  simp only [execJournalPageBusyEnd, hu, hflight, hphase, hhalt]
  rfl
theorem exec_journalPageBusyEnd_idle (hu : s.tick t = u) (h : u.sd.flight = none ∨ u.sd.phase ≠ 1 ∨ u.power.halted = true) :
    exec (.journalPageBusyEnd t) s = .next u := by
  show execJournalPageBusyEnd t s = _
  simp only [execJournalPageBusyEnd, hu]
  split
  · rfl
  next hflight => rw [if_pos (by simpa [hflight] using h)]
end

/-! ## The card comes and goes (R440 to R443, R453, R454) -/

/-- The journal without a card. -/
def Evidence.removed (e : Evidence) : Evidence := { e with card := none, journal := false, phase := 0, rewriting := false }
/-- The journal on a card that the IZ9 uses. -/
def Evidence.inserted (e : Evidence) (c : SdCard) (journal : Bool) : Evidence := { e with
  card := some c, journal := journal, nextJ := c.firstUncommitted, phase := 0, wear := 0
  written := 33 * 512 * c.firstUncommitted, rewriting := false }
theorem sdCardOf_some {m : SdMedium} {c : SdCard} (h : sdCardOf m = some c) : c.firstUncommitted = m.firstUncommitted ∧
    c.writeProtect = m.writeProtect ∧ c.label.version = 1 ∧ c.label.rsvd = 0 := by
  unfold sdCardOf at h
  split at h
  · cases h
  · obtain ⟨l, hl, rfl⟩ := Option.map_eq_some_iff.1 h
    obtain ⟨-, hok⟩ := Option.filter_eq_some_iff.1 hl
    simp only [Bool.and_eq_true, beq_iff_eq] at hok
    exact ⟨rfl, rfl, hok.1, hok.2⟩
theorem Evidence.room_iff {e : Evidence} {c : SdCard} (h : e.card = some c) : e.room = true ↔
    e.journal = true ∧ 33 * (e.nextJ + 1) ≤ c.label.journalBlocks ∧ e.life < 100 := by
  simp [Evidence.room, h, and_assoc]
theorem Evidence.room_inserted (e : Evidence) (c : SdCard) (journal : Bool) : (e.inserted c journal).room = true ↔
    journal = true ∧ 33 * (c.firstUncommitted + 1) ≤ c.label.journalBlocks ∧
    ({ e with card := some c, nextJ := c.firstUncommitted, written := 33 * 512 * c.firstUncommitted } : Evidence).life < 100 :=
  Evidence.room_iff rfl
/-- A page that was in flight is rewritten exactly where the card has room and the firmware runs. -/
theorem State.resumeJournal_flight {s : State} (h : s.sd.flight.isSome = true) (hphase : s.sd.phase = 0) (hrewriting : s.sd.rewriting = false) :
    journalOnly s s.resumeJournal ∧ s.resumeJournal.sd.flight = s.sd.flight ∧
    (s.resumeJournal.sd.rewriting = true ↔ s.sd.room = true ∧ s.power.booted = true) ∧
    s.resumeJournal.sd.phase = (if s.resumeJournal.sd.rewriting = true then 1 else 0) ∧
    s.resumeJournal.sd.nextJ = s.sd.nextJ ∧ s.resumeJournal.sd.journal = s.sd.journal ∧
    s.resumeJournal.sd.card.isSome = s.sd.card.isSome := by
  rw [State.resumeJournal, if_pos h]
  by_cases hroom : s.sd.room = true ∧ s.power.booted = true
  · rw [if_pos (by simp [hphase, hroom])]
    obtain ⟨⟨hnext, hagain, hjournal, hpresent⟩, hflight, hone⟩ :=
      State.sendPage_sd (s := { s with sd := { s.sd with rewriting := true } }) h
    exact ⟨(journalOnly.of_sd s _).trans (State.sendPage_journalOnly _), hflight, iff_of_true hagain hroom, by rw [hone, hagain]; rfl, hnext,
      hjournal, hpresent⟩
  · rw [if_neg (by simpa [hphase] using hroom)]
    exact ⟨.refl s, rfl, iff_of_false (by simp [hrewriting]) hroom, by simp [hphase, hrewriting], rfl, rfl, rfl⟩
theorem State.resumeJournal_step (s : State) : journalStep s s.resumeJournal ∧ s.resumeJournal.sd.nextJ = s.sd.nextJ ∧
    s.resumeJournal.sd.journal = s.sd.journal ∧ s.resumeJournal.sd.card.isSome = s.sd.card.isSome := by
  unfold State.resumeJournal
  split
  next h =>
    split
    · obtain ⟨⟨hnext, -, hjournal, hpresent⟩, -⟩ := State.sendPage_sd (s := { s with sd := { s.sd with rewriting := true } }) h
      exact ⟨((journalOnly.of_sd s _).trans (State.sendPage_journalOnly _)).step, hnext, hjournal, hpresent⟩
    · exact ⟨(journalOnly.refl s).step, rfl, rfl, rfl⟩
  · obtain ⟨⟨hnext, -, hjournal, hpresent⟩, -⟩ := s.advanceJournal_sd
    exact ⟨s.advanceJournal_journalStep, hnext, hjournal, hpresent⟩
theorem exec_sdCardInsert {t : Nat} {m : SdMedium} {s u : State} (hu : s.tick t = u) : exec (.sdCardInsert t m) s =
    .next (if u.power.main = false ∨ u.power.halted = true then u else match sdCardOf m with
      | none => { u with sd := u.sd.removed }
      | some c => ({ u with sd := u.sd.inserted c (u.journalOk c) } : State).resumeJournal) := by
  show execSdCardInsert t m s = _
  simp only [execSdCardInsert, hu]
  by_cases h : u.power.main = false ∨ u.power.halted = true
  · rw [if_pos h, if_pos (by simpa using h)]
  · rw [if_neg h, if_neg (by simpa using h)]
    cases sdCardOf m <;> rfl
theorem exec_evidenceRemoved {t : Nat} {s u : State} (hu : s.tick t = u) (h : u.sd.card ≠ none) : exec (.evidenceRemoved t) s =
    .next (let v := if u.sd.phase = 0 then u else u.emit unitSd 0x0A05 (le 8 u.sd.nextJ); { v with sd := v.sd.removed }) := by
  show execEvidenceRemoved t s = _
  simp only [execEvidenceRemoved, hu]
  rw [if_neg (by simpa using h)]
  rfl

/-- Settles O57, command by command. -/
theorem theEvidenceCardTakesOnePageAtATime : Obligations.TheEvidenceCardTakesOnePageAtATime := by
  intro t s u hu
  have hs : u.folds = s.folds ∧ u.out = s.out ∧ u.cfg = s.cfg ∧ storesSame s u ∧ u.sec = s.sec := by simp [storesSame, ← hu]
  obtain ⟨hfolds, hout, hcfg, hstores, hsec⟩ := hs
  refine ⟨fun p hflight hphase hhalt => ?_, exec_journalPageBusyEnd_idle hu, fun p hflight hphase hhalt => ?_,
    exec_journalCommitBusyEnd_idle hu, fun hcard => ?_, fun hcard => ?_, fun m => ⟨fun h => ?_, fun hmain hhalt hcard => ?_, fun h => ?_,
    fun c hmain hhalt hcard => ?_⟩, fun h => ?_, fun h hbusy => ?_⟩
  · refine ⟨_, exec_journalPageBusyEnd hu hflight hphase hhalt, by simp, by simp [hfolds], by simp, fun hgate => ?_⟩
    simp [State.send, hgate, hout]
  · have hexec := exec_journalCommitBusyEnd hu hflight hphase hhalt
    obtain ⟨hsd, -, hstored⟩ := State.ackCommitted_rest { u with sd := u.sd.committed } p
    have hset : (({ u with sd := u.sd.committed } : State).ackCommitted p).cfg = s.cfg := by simp [hcfg]
    generalize ({ u with sd := u.sd.committed } : State).ackCommitted p = v at *
    obtain ⟨hsaid, hphase₁⟩ := v.saidRewritten_step u.sd.rewriting u.sd.nextJ
    obtain ⟨hclosed, hphase₂⟩ := (v.saidRewritten u.sd.rewriting u.sd.nextJ).closeCommit_step
    obtain ⟨⟨hnext, hagain, hjournal, -⟩, -, hkept, hsettings⟩ := hsaid.trans hclosed
    rw [hsd] at hnext hagain hjournal hphase₁
    refine ⟨_, hexec, hnext, hagain, hjournal, ?_, hstores.trans (hstored.trans hkept), hsettings.trans hset, fun hre => ?_⟩
    · rw [hphase₁] at hphase₂
      rcases hphase₂ with h | h
      · rw [h]
        exact Nat.zero_le 1
      · rw [h]
    · obtain ⟨e, he, hcode⟩ := v.saidRewritten_says u.sd.nextJ
      exact ⟨e, hclosed.waits.keeps e (by rw [hre]; exact he), hcode⟩
  · show execEvidenceRemoved t s = _
    simp [execEvidenceRemoved, hu, hcard]
  · refine ⟨_, exec_evidenceRemoved hu hcard, ?_⟩
    dsimp only
    split
    next hphase => exact ⟨rfl, hfolds, hout, fun _ => rfl, fun h => absurd hphase h⟩
    next hphase =>
      exact ⟨rfl, hfolds, hout, fun h => absurd h hphase, fun _ => ⟨_, List.mem_append_right _ (List.mem_singleton_self _), rfl, rfl⟩⟩
  · rw [exec_sdCardInsert hu, if_pos h]
  · rw [exec_sdCardInsert hu, if_neg (by simp [hmain, hhalt]), hcard]
    exact ⟨_, rfl, rfl, hfolds, hout⟩
  · rw [sdCardOf, if_pos h]
  · rw [exec_sdCardInsert hu, if_neg (by simp [hmain, hhalt]), hcard]
    dsimp only
    obtain ⟨hfirst, hprotect, hversion, hrsvd⟩ := sdCardOf_some hcard
    obtain ⟨hstep, hnext, hjournal, hpresent⟩ := State.resumeJournal_step { u with sd := u.sd.inserted c (u.journalOk c) }
    obtain ⟨hstored, hset, -⟩ := hstep.same
    refine ⟨_, rfl, hnext, ?_, hfirst, hprotect, hversion, hrsvd, hpresent, hstores.trans hstored, hset.trans hcfg, fun hflight => ?_⟩
    · rw [hjournal, ← hsec]
      rfl
    · obtain ⟨honly, hpage, hagain, hphase, -⟩ :=
        State.resumeJournal_flight (s := { u with sd := u.sd.inserted c (u.journalOk c) }) hflight rfl rfl
      refine ⟨hpage, honly.same.1.1.trans hfolds, ?_, hphase⟩
      rw [hagain, Evidence.room_inserted, hjournal]
      simp only [and_assoc]
      rfl
  · show execSealedEventBatchDue t s = _
    simp [execSealedEventBatchDue, hu, h]
  · show execSealedEventBatchDue t s = _
    simp only [execSealedEventBatchDue, hu, h, if_true]
    rw [State.advanceJournal_busy (by exact hbusy)]

end Sys2Proof.Machine
end

section
/-! PROOFS. The boot from a verified set and the recovery state (15, R423, R424; 16, R446; 18, R498). -/

namespace Sys2Proof.Machine

/-- The pages that were staged resume without a new one being chosen (16, R455). -/
theorem State.resumeStaged_journalOnly (s : State) : journalOnly s s.resumeStaged := by
  unfold State.resumeStaged State.resumeJournal State.advanceJournal
  split
  next h =>
    split
    · split
      · exact (journalOnly.of_sd s _).trans (State.sendPage_journalOnly _)
      · exact .refl s
    next hflight =>
      have hstaged : s.sd.staged.isSome = true := by simpa [hflight] using h
      rw [State.choosePage_staged hstaged]
      dsimp only
      (repeat' split)
      · exact .refl s
      · exact .refl s
      · exact (journalOnly.of_sd s _).trans (State.sendPage_journalOnly _)
  · exact .refl s

/-- What a boot of a set from one of the three sources leaves (R423, R424). -/
structure bootedFrom (s w : State) (x : FwSet) (n : Nat) : Prop where
  kept : cardKept s w
  shep : w.shep = s.shep
  booted : w.power.booted = true
  recovery : w.power.recovery = false
  source : w.sec.bootFrom = n
  locked : w.sec.udsLocked = true
  measured : w.sec.fwMeas = digest (ascii [0x49, 0x5A, 0x46, 0x57] ++ x.manifest ++ x.shepherd ++ x.root ++ x.quadrant)
  derived : w.sec.cdi1 = cdi1Of s.sec.uds w.sec.fwMeas

theorem State.bootSet_from (s : State) (x : FwSet) (n : Nat) : bootedFrom s (s.bootSet x n) x n := by
  unfold State.bootSet
  dsimp only
  generalize hv : ({ s with
    sec := { s.sec with
      udsLocked := true, fwMeas := fwMeasureOf x, devId := devIdOf s.sec.uds, cdi1 := cdi1Of s.sec.uds (fwMeasureOf x)
      aliasKey := aliasOf (cdi1Of s.sec.uds (fwMeasureOf x))
      aliasCert := Config.certificate (devIdOf s.sec.uds) (Config.publicKey (aliasOf (cdi1Of s.sec.uds (fwMeasureOf x)))) (fwMeasureOf x)
      bootFrom := n }
    power := { s.power with booted := true, recovery := false } } : State) = v
  obtain ⟨hkept, -, hpower, hsec, hshep⟩ := v.resumeStaged_journalOnly.same
  subst hv
  exact ⟨cardKept.trans ⟨rfl, rfl, rfl, rfl, rfl⟩ hkept, hshep, by rw [hpower], by rw [hpower], by rw [hsec], by rw [hsec],
    by rw [hsec]; rfl, by rw [hsec]⟩
theorem bootedFrom.emit {s w : State} {x : FwSet} {n : Nat} (h : bootedFrom s w x n) (unit code : Nat) (d : Bytes) :
    bootedFrom s (w.emit unit code d) x n :=
  ⟨h.kept, h.shep, h.booted, h.recovery, h.source, h.locked, h.measured, h.derived⟩
theorem bootedFrom.mbAnswer {s w : State} {x : FwSet} {n : Nat} (h : bootedFrom s w x n) (fn : FnId) (abort event : Nat) :
    bootedFrom s (w.mbAnswer fn abort event) x n := by
  obtain ⟨⟨hfolds, hcfg, hstores⟩, hshep, hbooted, hrecovery, hsource, hlocked, hmeasured, hderived⟩ := h
  exact ⟨⟨by simp [State.mbAnswer, hfolds], by simp [State.mbAnswer, hcfg], by simpa [State.mbAnswer, storesSame] using hstores⟩,
    by simp [State.mbAnswer, hshep], by simp [State.mbAnswer, hbooted], by simp [State.mbAnswer, hrecovery], by simp [hsource],
    by simp [hlocked], by simp [hmeasured], by simp [hderived]⟩

theorem bootedFrom.facts {s v w : State} {x : FwSet} {n : Nat} (h : bootedFrom v w x n) (hsec : v.sec = s.sec)
    (hsaid : n ≠ 1 → w.reports 0x0A02) : w.power.booted = true ∧ w.power.recovery = false ∧ w.sec.bootFrom = n ∧ w.sec.udsLocked = true ∧
      w.sec.fwMeas = digest (ascii [0x49, 0x5A, 0x46, 0x57] ++ x.manifest ++ x.shepherd ++ x.root ++ x.quadrant) ∧
      w.sec.cdi1 = cdi1Of s.sec.uds w.sec.fwMeas ∧ (n ≠ 1 → ∃ e ∈ w.events.waiting, e.code = 0x0A02) :=
  ⟨h.booted, h.recovery, h.source, h.locked, h.measured, hsec ▸ h.derived, hsaid⟩

/-! ## SECURE_BOOT (R423) -/

/-- The card with the firmware copies that do not verify marked. -/
def State.setsMarked (s : State) (a b : FwSet) : State := { s with shep := { s.shep with norBad := (!s.setVerifies a, !s.setVerifies b) } }
/-- The card in its recovery state. -/
def State.inRecovery (s : State) : State := { s with power := { s.power with recovery := true } }
section
variable {t : Nat} {a b x : FwSet} {sd : Option FwSet} {s u : State}
theorem exec_secureBoot (hu : s.tick t = u) (hmain : u.power.main = true) (hrun : u.clock.running = true)
    (hboot : u.power.booted = false) (hhalt : u.power.halted = false) : exec (.secureBoot t a b sd) s =
      .next (if u.setVerifies a = true then (u.setsMarked a b).bootSet a 1
        else if u.setVerifies b = true then ((u.setsMarked a b).bootSet b 2).emit 0 0x0A02 [1]
        else match sd with
          | some x => if u.sdRecovery = true ∧ u.setVerifies x = true then ((u.setsMarked a b).bootSet x 3).emit 0 0x0A02 [3]
            else (u.setsMarked a b).inRecovery
          | none => (u.setsMarked a b).inRecovery) := by
  show execSecureBoot t a b sd s = _
  unfold execSecureBoot
  dsimp only
  rw [hu, if_neg (by simp [hmain, hrun, hboot, hhalt])]
  change (if (!(!u.setVerifies a)) = true then Host.Outcome.next ((u.setsMarked a b).bootSet a 1)
    else if (!(!u.setVerifies b)) = true then .next (((u.setsMarked a b).bootSet b 2).emit 0 0x0A02 [1])
    else match sd with
      | some x => if (u.sdRecovery && u.setVerifies x) = true then .next (((u.setsMarked a b).bootSet x 3).emit 0 0x0A02 [3])
        else .next (u.setsMarked a b).inRecovery
      | none => .next (u.setsMarked a b).inRecovery) = _
  simp only [Bool.not_not, Bool.and_eq_true, apply_ite Host.Outcome.next]
  cases sd with
  | none => rfl
  | some x => simp only [apply_ite Host.Outcome.next]
end

/-- Settles O24, command by command. -/
theorem bootFromAVerifiedSet : Obligations.BootFromAVerifiedSet := by
  refine ⟨fun t a b sd s u hu hmain hrun hboot hhalt => ?_, fun t o d s u hu hrec => ⟨fun hlen hend => ?_, fun hlong => ?_⟩,
    fun t x s u hu hrec => ?_, fun t o fn d x s u hu hdead hno => ⟨?_, ?_⟩, fun t o n fn d x s u hu hdead hn => ⟨?_, ?_⟩⟩
  · have hs : cardKept s (u.setsMarked a b) ∧ (u.setsMarked a b).sec = s.sec := by simp [cardKept, storesSame, State.setsMarked, ← hu]
    obtain ⟨hkept, hsec⟩ := hs
    obtain ⟨hpower, hbad⟩ : (u.setsMarked a b).power = u.power ∧ (u.setsMarked a b).shep.norBad = (!u.setVerifies a, !u.setVerifies b) :=
      ⟨rfl, rfl⟩
    have hexec := exec_secureBoot (a := a) (b := b) (sd := sd) hu hmain hrun hboot hhalt
    generalize u.setsMarked a b = v at *
    by_cases ha : u.setVerifies a = true
    · rw [if_pos ha] at hexec
      have hboots := v.bootSet_from a 1
      obtain ⟨hfolds, hcfg, hstores⟩ := hkept.trans hboots.kept
      refine ⟨_, hexec, hfolds, hcfg, hstores, by rw [hboots.shep, hbad], fun x n h => ?_, fun h => absurd ha (by simp [h])⟩
      obtain ⟨rfl, rfl⟩ : x = a ∧ n = 1 := by simpa [ha] using h
      exact hboots.facts hsec fun h => absurd rfl h
    rw [if_neg ha] at hexec
    by_cases hb : u.setVerifies b = true
    · rw [if_pos hb] at hexec
      have hboots := (v.bootSet_from b 2).emit 0 0x0A02 [1]
      obtain ⟨hfolds, hcfg, hstores⟩ := hkept.trans hboots.kept
      refine ⟨_, hexec, hfolds, hcfg, hstores, by rw [hboots.shep, hbad], fun x n h => ?_, fun _ h => absurd hb (by simp [h])⟩
      obtain ⟨rfl, rfl⟩ : x = b ∧ n = 2 := by simpa [ha, hb] using h
      exact hboots.facts hsec fun _ => State.reports_emit_same ..
    rw [if_neg hb] at hexec
    by_cases hsd : ∃ x, sd = some x ∧ u.sdRecovery = true ∧ u.setVerifies x = true
    · obtain ⟨y, rfl, hcarries, hy⟩ := hsd
      dsimp only at hexec
      rw [if_pos ⟨hcarries, hy⟩] at hexec
      have hboots := (v.bootSet_from y 3).emit 0 0x0A02 [3]
      obtain ⟨hfolds, hcfg, hstores⟩ := hkept.trans hboots.kept
      refine ⟨_, hexec, hfolds, hcfg, hstores, by rw [hboots.shep, hbad], fun x n h => ?_, fun _ _ h => ?_⟩
      · obtain ⟨rfl, -, -, rfl⟩ : y = x ∧ _ ∧ _ ∧ n = 3 := by simpa [ha, hb] using h
        exact hboots.facts hsec fun _ => State.reports_emit_same ..
      · simp [hcarries, hy] at h
    · have hwait : exec (.secureBoot t a b sd) s = .next v.inRecovery := by
        cases sd with
        | none => exact hexec
        | some x =>
          dsimp only at hexec
          rw [hexec, if_neg fun h => hsd ⟨x, rfl, h⟩]
      obtain ⟨hfolds, hcfg, hstores⟩ := hkept
      refine ⟨_, hwait, hfolds, hcfg, hstores, hbad, fun x n h => ?_, fun _ _ _ => ⟨by rw [State.inRecovery, hpower]; exact hboot, rfl, hsec⟩⟩
      rcases h with h | h | ⟨-, -, hx, hcarries, hy, -⟩
      · exact absurd h.1 ha
      · exact absurd h.2.1 hb
      · exact absurd ⟨x, hx, hcarries, hy⟩ hsd
  · have hu' : cardKept s u ∧ u.power = s.power ∧ u.sec = s.sec := by simp [cardKept, storesSame, ← hu]
    obtain ⟨⟨hfolds, hcfg, hstores⟩, hpower, hsec⟩ := hu'
    refine ⟨({ u with power := { u.power with chunks := mwrite u.power.chunks o d } } : State).mbAnswer 0 0 0, ?_, ?_⟩
    · show execRecoveryChunk t ⟨0, 0⟩ o d s = _
      simp [execRecoveryChunk, hu, State.barDead, hrec, Nat.not_lt.2 hlen, Nat.not_lt.2 hend]
    · simp [State.mbAnswer, hpower, hsec, hfolds, hcfg]
      simpa [storesSame] using hstores
  · show execRecoveryChunk t ⟨0, 0⟩ o d s = _
    simp [execRecoveryChunk, hu, State.barDead, hrec, hlong]
  · have hu' : cardKept s u ∧ u.power = s.power ∧ u.sec = s.sec := by simp [cardKept, storesSame, ← hu]
    obtain ⟨hkept, hpower, hsec⟩ := hu'
    by_cases hx : u.setVerifies x = true
    · have hbooted := ((u.bootSet_from x 3).emit 0 0x0A02 [3]).mbAnswer 0 0 0x0A02
      refine ⟨_, ?_, (hkept.trans hbooted.kept).1, (hkept.trans hbooted.kept).2.1, (hkept.trans hbooted.kept).2.2,
        fun _ => ⟨hbooted.booted, hbooted.recovery, hbooted.source, hbooted.measured⟩, fun h => absurd hx (by simp [h])⟩
      show execRecoveryBoot t ⟨0, 0⟩ x s = _
      simp [execRecoveryBoot, hu, State.barDead, hrec, hx]
    · obtain ⟨hfolds, hcfg, hstores⟩ := hkept
      refine ⟨u.mbAnswer 0 0x08000020 0, ?_, by simp [State.mbAnswer, hfolds], by simp [hcfg],
        by simpa [State.mbAnswer, storesSame] using hstores, fun h => absurd h hx, fun _ => ⟨rfl, by simp [State.mbAnswer, hpower], by simp [hsec]⟩⟩
      show execRecoveryBoot t ⟨0, 0⟩ x s = _
      simp [execRecoveryBoot, hu, State.barDead, hrec, hx]
  · show execRecoveryChunk t ⟨fn, 0⟩ o d s = _
    simp only [execRecoveryChunk, hu, hdead]
    rcases hno with h | h
    · simp [h]
    · simp [h]
  · show execRecoveryBoot t ⟨fn, 0⟩ x s = _
    simp only [execRecoveryBoot, hu, hdead]
    rcases hno with h | h
    · simp [h]
    · simp [h]
  · show execRecoveryChunk t ⟨fn, n⟩ o d s = _
    simp [execRecoveryChunk, hu, hdead, hn]
  · show execRecoveryBoot t ⟨fn, n⟩ x s = _
    simp [execRecoveryBoot, hu, hdead, hn]

end Sys2Proof.Machine
end

section
/-! PROOFS. A grazing slot on a tile that a map lists twice (14, R390). -/

namespace Sys2Proof.Machine

/-- A tile of reset that waits to store a word read back from the model store. -/
def waitingTile (w : Nat) : Tile := { Tile.dflt with restore := [(w, [])] }
/-- A booted card whose tile map lists tile 0 twice. -/
def twiceListed : State := { State.reset with
  power := { State.reset.power with booted := true }, tiles := [(0, waitingTile 0), (0, waitingTile 1)] }

theorem twiceListed_tick : twiceListed.tick 0 = twiceListed := rfl
/-- The tile that is stored is the tile of reset, so its first entry goes, and the second one is read from then on. -/
theorem exec_grazingSlot_twiceListed :
    exec (.grazingSlot 0 (.tile 0)) twiceListed = .next { twiceListed with tiles := [(0, waitingTile 1)] } := by
  have htile : twiceListed.tile 0 = waitingTile 0 := rfl
  have hfree : twiceListed.reservedNow 0 = true := by decide
  have hhealthy : twiceListed.quadHealthy (quadOfTile 0) = true := by decide
  have hstored : ({ waitingTile 0 with mem := mwrite (waitingTile 0).mem 0 [], restore := [] } : Tile).settleWords [(0, 8)] [] = Tile.dflt := rfl
  have hset : twiceListed.setTile 0 Tile.dflt = { twiceListed with tiles := [(0, waitingTile 1)] } := by
    simp [State.setTile, mset, mdel, twiceListed]
  show execGrazingSlot 0 (.tile 0) twiceListed = _
  unfold execGrazingSlot
  dsimp only
  rw [twiceListed_tick, if_neg (by decide), State.grazeTile, if_neg (by simp [hfree, hhealthy])]
  dsimp only
  rw [htile]
  exact congrArg Host.Outcome.next ((congrArg (twiceListed.setTile 0) hstored).trans hset)

/-- Refutes O58: on a state whose map lists a tile twice, a restore that leaves the tile as after reset removes the first entry only, and the
tile then reads as its second entry, which still waits for a restore. -/
theorem not_grazingRepairsAndFailuresAreReported : ¬ Obligations.GrazingRepairsAndFailuresAreReported := by
  intro h
  obtain ⟨hgrazes, -⟩ := h 0 twiceListed twiceListed twiceListed_tick rfl
  obtain ⟨-, -, -, -, -, -, -, hrestores, -⟩ := hgrazes rfl
  obtain ⟨v, hexec, -, hrestore, -⟩ := hrestores 0 0 [] [] (by decide) (by decide) (by decide) rfl rfl
  rw [exec_grazingSlot_twiceListed] at hexec
  cases hexec
  exact absurd hrestore (by decide)

end Sys2Proof.Machine
end
